-- ==== Sys2Proof/Word.lean ====
section
/-! DEFINITION. The word types of the model and nothing else: bytes of device structures, register words, and the widths of
the thyme core (11 R461, R464). -/
namespace Sys2Proof

/-- One byte of a descriptor, image, frame or record. -/
abbrev Byte := BitVec 8

/-- A register or a thyme data word: 32 bits (00 R18, 11 R461). -/
abbrev Word := BitVec 32

/-- A sequence of bytes, lowest address (or first on the wire) first. -/
abbrev Bytes := List Byte

/-- A thyme pointer, program address or data address: 14 bits (11 R461, R464). -/
abbrev Ptr := BitVec 14

/-- A thyme accumulator: 40 bits (11 R464). -/
abbrev Acc := BitVec 40

/-- One 64-bit-index-free table: key and value, keys strictly rising. -/
abbrev Tab (α : Type) := List (Nat × α)

end Sys2Proof
end

