-- ==== Sys2Proof/Syntax.lean ====
section
/-! DEFINITION. The commands of the RK6448: one constructor of `Instr` for each row of spec/opcode_table.json, with the
operands the step takes from outside the block.  `t` is the instant of the command in picoseconds (notes/assumptions/4.md),
`p` a host port, `r` a submission ring, `n` a time base or port number. -/
namespace Sys2Proof

/-- A submission descriptor as the bridge copies it from a ring slot, less its OPCODE byte, which the row of the table gives
(02 R88).  `body` holds bytes 16 to 63; a byte the list does not hold is 0. -/
structure Desc where
  rsv : Nat := 0
  tag : Nat := 0
  genview : Nat := 0
  length : Nat := 0
  handle : Nat := 0
  body : Bytes := []
  deriving DecidableEq, Repr

/-- What a sweep reads from host memory: bytes 0-527 of the doorbell page (02 R78, R81) and, for each submission ring, the 64-byte
slots that stand in it from the first the bridge has not fetched (02 R88).  A byte that a list does not hold is 0. -/
structure SweepData where
  page : Bytes := []
  slots : List (Nat × List Bytes) := []
  deriving DecidableEq, Repr

/-- Where a host register write goes: BAR0, the MSI-X table in BAR2, or a register of the PCIe function that 02 R70, R86, R109 and
R122 name: the Command register (Bus Master Enable), Device Control (Max_Read_Request_Size), MSI-X Message Control, the power
management control (D0, D3hot) and the AER uncorrectable error status. -/
inductive RegSpace where
  | bar0 | bar2 | command | deviceControl | msixControl | powerControl | aerStatus
  deriving DecidableEq, Repr

/-- The result of one host memory access of the bridge (02 R122). -/
inductive DmaResult where
  | ok (data : Bytes)
  | fail (status : Nat)
  deriving DecidableEq, Repr

/-- Which host memory access ends (02 R122): one of a buffer, by its number; the read of descriptors of ring `r`; the read of
the doorbell page; the write of an entry of a completion ring (kind 1) or event queue (kind 2). -/
inductive DmaRef where
  | buffer (id : Nat)
  | desc (p r : Nat)
  | doorbell (p : Nat)
  | entry (p kind r : Nat)
  deriving DecidableEq, Repr

/-- A received frame from the first byte of the destination address to the last before the FCS, with what the PCS and the
FCS check found (05 R203, R207), and the layers, spatial and temporal, of which the picture of a video packet has frames: which of them
is the highest forwarded is known to the rule (06 R265) before those frames have come. -/
structure RxFrame where
  data : Bytes
  fcsOk : Bool := true
  layers : List (Nat × Nat) := []
  deriving DecidableEq, Repr

/-- Why a logical port goes down (15 R606, source k = 2), and whether a frame was being received that the pipeline had not started on
(05 R205). -/
structure DownCause where
  localFault : Bool := false
  remoteFault : Bool := false
  lockLost : Bool := false
  cutRx : Bool := false
  deriving DecidableEq, Repr

/-- One overlay entry as a poll reads it (09 R385): table (0 leg, 1 room), entry index, the 64 bytes, and whether the read
succeeded, else its status (02 R122). -/
structure OverlayRead where
  host : Nat
  table : Nat
  index : Nat
  data : Bytes
  ok : Bool := true
  status : Nat := 1
  deriving DecidableEq, Repr

/-- One mix control entry as a poll reads it (10 R446): leg index, the 128 bytes, and whether the read succeeded, else its status. -/
structure MixCtlRead where
  leg : Nat
  data : Bytes
  ok : Bool := true
  status : Nat := 1
  deriving DecidableEq, Repr

/-- Measurements a tick closes with: mean power in 0.1 W, energy in mJ (14 R597, R600), the traffic of the nine DRAM clients in
MB/s (01 R69), and the FEC counts of the tick by logical port (05 R235): corrected and uncorrectable codewords, corrected
symbols; the ports in the reception of a frame without cut-through at the boundary, which a switch or KEEP may cut (05 R205); and by
memory channel what was not commanded one by one: lines read and written, row hits, misses and conflicts, and requests of urgency 0 to 3
(13 R575). -/
structure TickMeas where
  powerDw : Nat := 0
  energyMj : Nat := 0
  clientMbps : List Nat := []
  dram : List (Nat × List Nat) := []
  fec : List (Nat × Nat × Nat × Nat) := []
  cut : List Nat := []
  deriving DecidableEq, Repr

/-- A rectangle, in luma samples. -/
structure Rect where
  x : Nat := 0
  y : Nat := 0
  w : Nat := 0
  h : Nat := 0
  deriving DecidableEq, Repr

/-- The profiles of 08 R337, and any other. -/
inductive VideoProfile where
  | constrainedBaseline | main | high | main10 | other
  deriving DecidableEq, Repr

/-- What the parameter sets or sequence header and the slice or frame header of a picture say (08 R337-R339): profile, level in tenths,
High tier, chroma format (0 4:0:0 or monochrome, 1 4:2:0, 2 4:2:2, 3 4:4:4), bit depth, H.264 frame_mbs_only_flag 0, AV1 large-scale
tile coding, size, the decoded picture buffer it needs, B pictures, the cropping window (09 R381: conformance window or render size;
an empty one stands for the whole picture), and film grain parameters, which are parsed and never applied. -/
structure PicHeader where
  profile : VideoProfile := .main
  level : Nat := 0
  highTier : Bool := false
  chroma : Nat := 1
  depth : Nat := 8
  fields : Bool := false
  largeScaleTile : Bool := false
  width : Nat := 0
  height : Nat := 0
  dpb : Nat := 1
  bPictures : Bool := false
  crop : Rect := {}
  filmGrain : Bool := false
  deriving DecidableEq, Repr

/-- A picture as it becomes due for decode (08 R337-R349). -/
structure PicInfo where
  hdr : PicHeader := {}
  /-- of a simulcast group, the member that it belongs to (R340) -/
  sim : Option Nat := none
  /-- its spatial and temporal layer in an in-band layered stream (R340) -/
  layer : Nat × Nat := (0, 0)
  /-- when the first confirmed packet of a later picture arrived (R345) -/
  later : Option Nat := none
  key : Bool := false
  nonRef : Bool := false
  headersOk : Bool := true
  /-- its place in output order, as the codec's output process gives it (R347) -/
  order : Nat := 0
  /-- extended numbers of the packets missing when it is due -/
  missing : List Nat := []
  /-- numbers of earlier pictures of the target it references -/
  refs : List Nat := []
  /-- a reference that was never received -/
  refLost : Bool := false
  /-- luma samples of each partition, in order -/
  parts : List Nat := []
  /-- wavefront: rows, samples a row and samples a CTU; rows 0 when not wavefront -/
  wfRows : Nat := 0
  wfRow : Nat := 0
  wfCtu : Nat := 0
  seam : Bool := true
  deriving DecidableEq, Repr

/-- A block that a stall has reconstructed, in-loop filters included: its place, and its samples row by row, those of Cb and Cr at half
each dimension. -/
structure DecBlock where
  rect : Rect := {}
  luma : List Nat := []
  cb : List Nat := []
  cr : List Nat := []
  deriving DecidableEq, Repr

/-- A missing or undecodable block (08 R358): its place, and the vectors of its decoded neighbours in eighths of a luma sample. -/
structure LostBlock where
  rect : Rect := {}
  vectors : List (Int × Int) := []
  deriving DecidableEq, Repr

/-- What a decode operation has made of its share: the blocks reconstructed, and those to conceal (08 R354, R357, R358). -/
structure Recon where
  blocks : List DecBlock := []
  lost : List LostBlock := []
  deriving DecidableEq, Repr

/-- How a decode share ended (08 R350-R357). -/
structure DecodeResult where
  made : Recon := {}
  cycles : Nat := 0
  syntaxError : Bool := false
  writeClipped : Nat := 0
  poisoned : Bool := false
  deriving DecidableEq, Repr

/-- A NAL unit or OBU of an encoded picture (09 R397): its spatial layer, whether it is a parameter set or sequence header, and its
bytes; of an AV1 OBU also the dependency descriptor of the packets that carry it. -/
structure EncUnit where
  s : Nat := 0
  params : Bool := false
  dd : Bytes := []
  data : Bytes := []
  deriving DecidableEq, Repr

/-- Coding tools that an encoded picture may use (09 R394): those that the table lists, and those that it says are never used. -/
inductive EncTool where
  | intraPicture | interPicture | temporalSwitch
  | sub8x8 | amp | manySlices | manyTiles
  | cavlc | cabac | intra4x4 | intra8x8 | intra16x16 | intraAngular | intraAv1
  | oneReference | manyReferences | merge5 | tmvp | refMarking | regularInterpolation
  | transform4x4 | transform8x8 | transformLarge | transformSkip | signHiding
  | deblocking | sao | cdef | prefixNal
  | bSlices | interlace | fmo | aso | weightedPrediction | scalingMatrices | wavefronts | pcm | longTermReferences
  | compoundPrediction | obmc | warpedMotion | globalMotion | loopRestoration | superres | filmGrain | intraBlockCopy
  deriving DecidableEq, Repr

/-- What a key picture's parameter sets or sequence header signal (09 R394): profile as in the ladder section, level in tenths, and
whether the colour is BT.709 in limited range. -/
structure EncSignal where
  profile : Nat
  level : Nat
  bt709Limited : Bool := true
  deriving DecidableEq, Repr

/-- The vector of a 16 × 16 block (09 R404), in quarter samples. -/
structure BlockVec where
  x : Int := 0
  y : Int := 0
  intra : Bool := false
  skip : Bool := false
  deriving DecidableEq, Repr

/-- How an encode ended (09 R392, R394, R400-R404): bits, and for each band its BITS, INTRA_COST, INTER_COST and pixels; the quantiser of
the first band; the units in order; the tools used; what a key picture signals; a leader's vectors. -/
structure EncodeResult where
  cycles : Nat := 0
  bits : Nat := 0
  qp : Nat := 0
  bands : List (Nat × Nat × Nat × Nat) := []
  poisoned : Bool := false
  units : List EncUnit := []
  tools : List EncTool := []
  signal : Option EncSignal := none
  mvs : List BlockVec := []
  deriving DecidableEq, Repr

/-- How a thyme operation of the codec firmware ended (10 R427-R430, R449): cycles, whether a decode used the FEC of the following
packet, the 120 samples of a source or output, and the payload of an encoded frame. -/
structure ThymeResult where
  cycles : Nat := 0
  fecUsed : Bool := false
  samples : List Word := []
  payload : Bytes := []
  deriving DecidableEq, Repr

/-- How a mix operation ended: cycles, and of each leg whose deleted source still fades the samples of its concealment, as stage 6 leaves
them (10 R436). -/
structure MixResult where
  cycles : Nat := 0
  fades : List (Nat × List Word) := []
  deriving DecidableEq, Repr

/-- Kinds of PTP message a time base sends when an interval ends (12 R517); `negotiate` asks a unicast master for its messages. -/
inductive PtpKind where
  | sync | announce | delayReq | pdelayReq | negotiate
  deriving DecidableEq, Repr

/-- What a request finds of its row: open, its bank closed, or another row open (13 R546, R549). -/
inductive RowState where
  | hit | miss | conflict
  deriving DecidableEq, Repr

/-- A request of a memory client (13 R546-R548): its age in ps as it is issued, its row, and the bytes that its client has moved before it in
this tick. -/
structure DramAccess where
  age : Nat := 0
  row : RowState := .miss
  used : Nat := 0
  deriving DecidableEq, Repr

/-- A read and what it was for (13 R547, R556): client, line, and the object and item that `dramRead` names too. -/
structure DramUse where
  client : Nat
  line : Nat
  obj : Nat := 0
  item : Nat := 0
  deriving DecidableEq, Repr

/-- What a DRAM read finds (13 R553-R555). -/
inductive ReadResult where
  | clean | corrected | uncorrectable | poisoned
  deriving DecidableEq, Repr

/-- A DRAM read as it ends: the request that it was, what it found, and the ports whose frame in progress it cuts (13 R549, R553). -/
structure ReadEnd where
  acc : DramAccess := {}
  found : ReadResult := .clean
  cut : List Nat := []
  deriving DecidableEq, Repr

/-- A register that a host addresses: the space and the offset in it (02 R70). -/
structure RegAt where
  space : RegSpace := .bar0
  off : Nat
  deriving DecidableEq, Repr

/-- A read of a register that latches, of time base or port `n`: from byte `at_` of it, `width` bits (00 R19). -/
structure LatchRead where
  n : Nat
  at_ : Nat := 0
  width : Nat := 32
  deriving DecidableEq, Repr

/-- A port's link as it trained: its width and its rate, 1 to 5 for 2.5 to 32 GT/s (02 R70). -/
structure LinkInfo where
  port : Nat
  width : Nat := 16
  rate : Nat := 5
  deriving DecidableEq, Repr

/-- A stall that yields, and the time in ps, since its operation was dispatched, that its context took to be restored and saved
(01 R44, R46). -/
structure StallAt where
  stall : Nat
  moved : Nat := 0
  deriving DecidableEq, Repr

/-- An operation that overran; of a decode, what it had made and what is left to conceal (01 R47, 08 R354). -/
structure Overrun where
  op : Nat
  made : Recon := {}
  deriving DecidableEq, Repr

/-- A PTP message as a port received it: the instant of its timestamp point in ps, and its bytes (12 R517, R520). -/
structure PtpFrame where
  rx : Nat
  frame : List Byte
  deriving DecidableEq, Repr

/-- A cause of SAFE by its code, and the ports whose frame in progress it cuts (14 R585). -/
structure SafeCause where
  code : Nat
  cut : List Nat := []
  deriving DecidableEq, Repr

/-- One DIMM as its SPD hub answers in BOOT (13 R534, R535), and what training finds for each rank (R542): 0 the table's
delays pass the pattern test, 1 the sweep finds a working setting, 2 the sweep fails. -/
structure DimmInfo where
  ch : Nat
  slot : Nat
  spdOk : Bool := true
  mrdimm : Bool := true
  x4 : Bool := true
  ranks : Nat := 1
  gb : Nat := 64
  mfr : Nat := 0
  serial : Nat := 0
  maxRate : Nat := 8800
  training : List Nat := [0, 0]
  deriving DecidableEq, Repr

/-- What BOOT meets outside the package (03 R154-R161, 13 R535, R542): the flash as it answers (its size from SFDP, 0 when no
flash answers; its contents when the board has programmed it in RESET, 16 R624), the fuses, and the DIMMs. -/
structure BootFacts where
  flashMib : Nat := 0
  clkMhz : Nat := 25
  modeSfdp : Nat := 0
  flash : Option (List (Nat × Byte)) := none
  /-- the fused KEYHASH, 384 bits -/
  keyHash : Nat := 0
  fuseRb : Nat := 0
  dimms : List DimmInfo := []
  tableWriteOk : Bool := true
  deriving DecidableEq, Repr

/-- Result of a flash operation (03 R165): 0 done, else a reason 3-6 and the sector, counted from the first of the operation, that
failed. -/
structure FlashResult where
  reason : Nat := 0
  sector : Nat := 0
  deriving DecidableEq, Repr

/-- A parallel move field XM or YM (11 R488). -/
structure PMove where
  en : Bool := false
  st : Bool := false
  ptr : BitVec 2 := 0
  upd : BitVec 2 := 0
  reg : BitVec 3 := 0
  deriving DecidableEq, Repr

/-- The second operand of an ALU instruction: GS2, or IMM14 sign-extended (11 R489). -/
inductive AluSrc where
  | reg (gs2 : BitVec 4)
  | imm (v : BitVec 14)
  deriving DecidableEq, Repr

/-- The count of a REP: n, or GS[15:0] (11 R476, R491). -/
inductive RepSrc where
  | imm (n : BitVec 16)
  | reg (gs : BitVec 4)
  deriving DecidableEq, Repr

/-- A register named by a MOVE: class and index (11 R490). -/
inductive MoveReg where
  | g (i : BitVec 4)
  | p (i : BitVec 3)
  | m (i : BitVec 3)
  | al (i : BitVec 2)
  | ag (i : BitVec 2)
  | sr | ira | isr | imask | ipend | cyc | budget | sp
  deriving DecidableEq, Repr

/-- Branch conditions (11 R491). -/
inductive Cond where
  | al | eq | ne | lt | ge | le | gt | cs | cc | vs | vc | mi | pl
  deriving DecidableEq, Repr

/-- The commands. Descriptors (rows 0-30) arrive from a submission ring; register rows from a host port or the SMBus; the
others are the instants at which a unit of the bridge, a pin, a link or a timer acts. -/
inductive Instr where
  /-- NOP: R90 -/
  | nop (t p r : Nat) (d : Desc)
  /-- ROOM_CREATE: R240 -/
  | roomCreate (t p r : Nat) (d : Desc)
  /-- ROOM_MODIFY: R241 -/
  | roomModify (t p r : Nat) (d : Desc)
  /-- ROOM_DELETE: R247 -/
  | roomDelete (t p r : Nat) (d : Desc)
  /-- LEG_CREATE: R242 -/
  | legCreate (t p r : Nat) (d : Desc)
  /-- LEG_MODIFY: R243 -/
  | legModify (t p r : Nat) (d : Desc)
  /-- LEG_DELETE: R247 -/
  | legDelete (t p r : Nat) (d : Desc)
  /-- STREAM_CREATE: R244 -/
  | streamCreate (t p r : Nat) (d : Desc)
  /-- STREAM_MODIFY: R245 -/
  | streamModify (t p r : Nat) (d : Desc)
  /-- STREAM_DELETE: R247 -/
  | streamDelete (t p r : Nat) (d : Desc)
  /-- BATCH_BEGIN: R98 -/
  | batchBegin (t p r : Nat) (d : Desc)
  /-- BATCH_END: R98 -/
  | batchEnd (t p r : Nat) (d : Desc)
  /-- FENCE: R96 -/
  | fence (t p r : Nat) (d : Desc)
  /-- KEY_INSTALL: R254 -/
  | keyInstall (t p r : Nat) (d : Desc)
  /-- TACK_SUBMIT: R134 -/
  | tackSubmit (t p r : Nat) (d : Desc)
  /-- TACK_COMMIT: R138 -/
  | tackCommit (t p r : Nat) (d : Desc)
  /-- TACK_ACCEPT: R137 -/
  | tackAccept (t p r : Nat) (d : Desc)
  /-- TACK_ROLLBACK: R149 -/
  | tackRollback (t p r : Nat) (d : Desc)
  /-- KERNEL_LOAD: R501 -/
  | kernelLoad (t p r : Nat) (d : Desc)
  /-- KERNEL_UNLOAD: R503 -/
  | kernelUnload (t p r : Nat) (d : Desc)
  /-- STATS_SNAPSHOT: R172 -/
  | statsSnapshot (t p r : Nat) (d : Desc)
  /-- STATS_SNAPSHOT_CANCEL: R177 -/
  | statsSnapshotCancel (t p r : Nat) (d : Desc)
  /-- PUNT_POST: R112 -/
  | puntPost (t p r : Nat) (d : Desc)
  /-- HOST_TX: R117 -/
  | hostTx (t p r : Nat) (d : Desc)
  /-- LOG_READ: R285 -/
  | logRead (t p r : Nat) (d : Desc)
  /-- FLASH_READ: R164 -/
  | flashRead (t p r : Nat) (d : Desc)
  /-- FLASH_WRITE: R165 -/
  | flashWrite (t p r : Nat) (d : Desc)
  /-- DRAM_SERVICE_READ: R566 -/
  | dramServiceRead (t p r : Nat) (d : Desc)
  /-- DRAM_SERVICE_RETRAIN: R567 -/
  | dramServiceRetrain (t p r : Nat) (d : Desc)
  /-- DRAM_SERVICE_RETIRE: R566 -/
  | dramServiceRetire (t p r : Nat) (d : Desc)
  /-- DRAM_SERVICE_RESTORE: R566 -/
  | dramServiceRestore (t p r : Nat) (d : Desc)
  /-- REGISTER_WRITE: R20 -/
  | registerWrite (t p : Nat) (off : RegAt) (value width : Nat)
  /-- LOCK: R85, the write of `value`, `width` bits, at `off` of the port's BAR0 -/
  | lock (t p off value width : Nat)
  /-- SF_CFG_WRITE: R163 -/
  | sfCfgWrite (t p value : Nat)
  /-- FW_KEK_WRITE: R256 -/
  | fwKekWrite (t p n w value : Nat)
  /-- LOOP_WRITE: R228 -/
  | loopWrite (t p n value : Nat)
  /-- MODE_REQUEST: R578 -/
  | modeRequest (t p value : Nat)
  /-- PWR_RESET_WRITE: R588 -/
  | pwrResetWrite (t p value : Nat)
  /-- TRIP_SEEN_CLEAR: R597 -/
  | tripSeenClear (t p : Nat)
  /-- TB_NOW_READ: R528 -/
  | tbNowRead (t p : Nat) (n : LatchRead)
  /-- TB_TICK_READ: R528 -/
  | tbTickRead (t : Nat) (p : LatchRead)
  /-- FA_MIG_READ: R569 -/
  | faMigRead (t : Nat) (p : LatchRead)
  /-- SMBUS_WRITE: R631, the address, command and count, the data, and the PEC if one is sent -/
  | smbusWrite (t : Nat) (head data pec : List Byte)
  /-- SMBUS_READ: R631 -/
  | smbusRead (t : Nat) (frame : List Byte)
  /-- ALERT_RESPONSE: R633 -/
  | alertResponse (t : Nat)
  /-- SMBUS_TIMEOUT: R635 -/
  | smbusTimeout (t : Nat)
  /-- HOST_LINK_UP: R73 -/
  | hostLinkUp (t : Nat) (p : LinkInfo)
  /-- HOST_LINK_DOWN: R74 -/
  | hostLinkDown (t p : Nat)
  /-- FLR: R74 -/
  | flr (t p : Nat)
  /-- HOT_RESET: R74 -/
  | hotReset (t p : Nat)
  /-- PERST_ASSERT: R586 -/
  | perstAssert (t p : Nat)
  /-- SWEEP: R81 -/
  | sweep (t p : Nat) (d : SweepData)
  /-- HOST_DMA_COMPLETION: R122 -/
  | hostDmaCompletion (t : Nat) (a : DmaRef) (res : DmaResult)
  /-- ATTENTION_AGE: R108 -/
  | attentionAge (t p q : Nat)
  /-- COALESCE_AGE: R109 -/
  | coalesceAge (t p j : Nat)
  /-- ORPHAN_GRACE_EXPIRY: R104 -/
  | orphanGraceExpiry (t p : Nat)
  /-- BATCH_TIMEOUT: R98 -/
  | batchTimeout (t p r : Nat)
  /-- ABORTED_TAIL_END: R98 -/
  | abortedTailEnd (t p r : Nat)
  /-- PUNT_HOLD_EXPIRY: R114 -/
  | puntHoldExpiry (t p : Nat)
  /-- TICK_BOUNDARY: R511 -/
  | tickBoundary (t : Nat) (m : TickMeas)
  /-- PROBATION_END: R145 -/
  | probationEnd (t : Nat)
  /-- AUTOMATIC_RETURN: R147 -/
  | automaticReturn (t : Nat)
  /-- SWITCH_COMPLETE: R141 -/
  | switchComplete (t : Nat)
  /-- VALIDATION_END: R136 -/
  | validationEnd (t : Nat)
  /-- FLASH_OPERATION_DONE: R165 -/
  | flashOperationDone (t : Nat) (res : FlashResult)
  /-- TOMBSTONE_EXPIRY: R251 -/
  | tombstoneExpiry (t : Nat)
  /-- PERIODIC_CAPTURE: R177 -/
  | periodicCapture (t p addr : Nat)
  /-- EVENT_WINDOW_START: R611 -/
  | eventWindowStart (t : Nat)
  /-- CUT_THROUGH_START: R54 -/
  | cutThroughStart (t lport : Nat) (f : RxFrame)
  /-- COMPLETE_PACKET_NOTICE: R53 -/
  | completePacketNotice (t lport : Nat) (f : RxFrame)
  /-- TRANSMIT_FRAME_START: R213 -/
  | transmitFrameStart (t lport : Nat)
  /-- TRANSMIT_FRAME_END: R118 -/
  | transmitFrameEnd (t lport : Nat)
  /-- HEAD_AGE_DROP: R311 -/
  | headAgeDrop (t queue : Nat)
  /-- LOGICAL_PORT_UP: R205 -/
  | logicalPortUp (t lport : Nat)
  /-- LOGICAL_PORT_DOWN: R205 -/
  | logicalPortDown (t lport : Nat) (cause : DownCause)
  /-- PAUSE_TIMER_EXPIRY: R217 -/
  | pauseTimerExpiry (t lport c : Nat)
  /-- PAUSE_STORM: R220 -/
  | pauseStorm (t lport c : Nat)
  /-- POOL_LEVEL_CHECK: R322 -/
  | poolLevelCheck (t k : Nat)
  /-- XOFF_REPEAT: R221 -/
  | xoffRepeat (t k lport : Nat)
  /-- GATE_CHANGE: R222 -/
  | gateChange (t lport : Nat)
  /-- GATE_LIST_START: R224 -/
  | gateListStart (t lport : Nat)
  /-- FEC_DEGRADED_SET: R229 -/
  | fecDegradedSet (t lport cw : Nat)
  /-- FEC_DEGRADED_CLEAR: R229 -/
  | fecDegradedClear (t lport : Nat)
  /-- RETRAIN_END: R234 -/
  | retrainEnd (t n : Nat)
  /-- KEY_OVERLAP_END: R258 -/
  | keyOverlapEnd (t stream : Nat)
  /-- ESTIMATE_TIMEOUT: R267 -/
  | estimateTimeout (t leg : Nat)
  /-- KEY_WAIT_EXPIRY: R264 -/
  | keyWaitExpiry (t stream : Nat)
  /-- NACK_SEND: R278 -/
  | nackSend (t stream : Nat)
  /-- RTCP_REPORT_TIMER: R276 -/
  | rtcpReportTimer (t leg : Nat)
  /-- FEEDBACK_TIMER: R276 -/
  | feedbackTimer (t leg : Nat)
  /-- HISTORY_SHED_RESTORE: R280 -/
  | historyShedRestore (t : Nat)
  /-- WATERMARK_REARM: R323 -/
  | watermarkRearm (t k : Nat)
  /-- OPERATION_DISPATCH: R41 -/
  | operationDispatch (t yard cls : Nat)
  /-- INTERRUPT_ENTRY: R480 -/
  | interruptEntry (core src : Nat)
  /-- STALL_YIELD: R44 -/
  | stallYield (t : Nat) (stall : StallAt)
  /-- WATCHDOG_OVERRUN: R47 -/
  | watchdogOverrun (t : Nat) (op : Overrun)
  /-- PICTURE_DUE: R345 -/
  | pictureDue (t target : Nat) (info : PicInfo)
  /-- DECODE_COMPLETE: R350 -/
  | decodeComplete (t op : Nat) (res : DecodeResult)
  /-- REPAIR_WINDOW_END: R197 -/
  | repairWindowEnd (t target : Nat)
  /-- KEY_REPEAT: R359 -/
  | keyRepeat (t target : Nat)
  /-- COMPOSED_PICTURE_READY: R375 -/
  | composedPictureReady (t room : Nat)
  /-- COMPOSE_COMPLETE: R391 -/
  | composeComplete (t op cycles : Nat)
  /-- ENCODE_COMPLETE: R391 -/
  | encodeComplete (t op : Nat) (res : EncodeResult)
  /-- KEY_INTERVAL_EXPIRY: R396 -/
  | keyIntervalExpiry (t room rung : Nat)
  /-- RUNG_RATE_UPDATE: R399 -/
  | rungRateUpdate (t room : Nat)
  /-- OVERLAY_POLL: R386 -/
  | overlayPoll (t : Nat) (entries : List OverlayRead)
  /-- OVERLAY_COPY_DONE: R386 -/
  | overlayCopyDone (t host table index : Nat) (res : DmaResult)
  /-- THYME_OPERATION_COMPLETE: R432 -/
  | thymeOperationComplete (t op : Nat) (res : ThymeResult)
  /-- MIX_COMPLETE: R431 -/
  | mixComplete (t op : Nat) (res : MixResult)
  /-- MIX_CONTROL_POLL: R447 -/
  | mixControlPoll (t : Nat) (entries : List MixCtlRead)
  /-- PTP_MESSAGE_RECEIVE: R517 -/
  | ptpMessageReceive (t lport : Nat) (msg : PtpFrame)
  /-- PTP_MESSAGE_TRANSMIT: R517 -/
  | ptpMessageTransmit (t n : Nat) (kind : PtpKind)
  /-- HOLDOVER_ENTRY: R519 -/
  | holdoverEntry (t n : Nat)
  /-- HOLDOVER_END: R519 -/
  | holdoverEnd (t n : Nat)
  /-- SLEW_LIMIT_TIMEOUT: R518 -/
  | slewLimitTimeout (t n : Nat)
  /-- SECONDS_SET: R513 -/
  | secondsSet (t n : Nat)
  /-- PPS_INPUT_EDGE: R525 -/
  | ppsInputEdge (t n : Nat)
  /-- PPS_INPUT_LOSS: R518 -/
  | ppsInputLoss (t n : Nat)
  /-- PPS_OUTPUT_RISE: R526 -/
  | ppsOutputRise (t n : Nat)
  /-- PPS_OUTPUT_FALL: R526 -/
  | ppsOutputFall (t n : Nat)
  /-- REFERENCE_LOSS: R510 -/
  | referenceLoss (t : Nat)
  /-- REFERENCE_RETURN: R510 -/
  | referenceReturn (t : Nat)
  /-- REFRESH_DUE: R550 -/
  | refreshDue (t ch rank : Nat)
  /-- REFRESH_BATCH: R550 -/
  | refreshBatch (t ch rank : Nat)
  /-- MR4_READ: R551 -/
  | mr4Read (t ch rank : Nat) (doubled : Bool)
  /-- REFRESH_MODE_RETURN: R551 -/
  | refreshModeReturn (t ch rank : Nat)
  /-- DIMM_SENSOR_READ: R551 -/
  | dimmSensorRead (t ch slot : Nat) (temp : Int)
  /-- DRAM_READ: R553 -/
  | dramRead (t client line obj item : Nat) (res : ReadEnd)
  /-- CONTEXT_POISON_DELETE: R556 -/
  | contextPoisonDelete (t : Nat)
  /-- CA_PARITY_ERROR: R554 -/
  | caParityError (t ch rank : Nat) (retryOk : Bool) (reads : List DramUse) (writes : List Nat)
  /-- MIGRATION_START: R559 -/
  | migrationStart (t : Nat)
  /-- MIGRATION_COMPLETE: R559 -/
  | migrationComplete (t : Nat)
  /-- PATROL_SCRUB: R562 -/
  | patrolScrub (t : Nat) (res : ReadResult)
  /-- PWRGOOD_LOW: R586 -/
  | pwrgoodLow (t : Nat)
  /-- RESET_N_LOW: R586 -/
  | resetNLow (t : Nat)
  /-- VCORE_LOW: R591 -/
  | vcoreLow (t mv : Nat)
  /-- VSRAM_LOW: R591 -/
  | vsramLow (t mv : Nat)
  /-- WALKO_WATCHDOG: R586 -/
  | walkoWatchdog (t : Nat)
  /-- THERMAL_TRIP: R594 -/
  | thermalTrip (t : Nat)
  /-- RESET_RELEASE: R587 -/
  | resetRelease (t : Nat)
  /-- STRAP_SAMPLE: R623 -/
  | strapSample (t : Nat) (refsel svcBoot : Bool) (smbAddr : Nat)
  /-- BOOT_START: R587 -/
  | bootStart (t : Nat) (facts : BootFacts)
  /-- BOOT_END: R580 -/
  | bootEnd (t : Nat) (failed : List (Nat × Nat)) (refOk : Bool)
  /-- MODE_CHANGE: R579 -/
  | modeChange (t : Nat)
  /-- KEEP_N_FALL: R578 -/
  | keepNFall (t : Nat)
  /-- KEEP_N_RISE: R578 -/
  | keepNRise (t : Nat)
  /-- KEEP_WAIT_EXPIRY: R583 -/
  | keepWaitExpiry (t : Nat)
  /-- KEEP_EXIT: R584 -/
  | keepExit (t : Nat)
  /-- DRAIN_TIMEOUT: R582 -/
  | drainTimeout (t : Nat)
  /-- DRAIN_END: R582 -/
  | drainEnd (t : Nat)
  /-- SAFE_ENTRY: R585 -/
  | safeEntry (t : Nat) (reason : SafeCause)
  /-- DIP_HOLD_START: R592 -/
  | dipHoldStart (t rail mv : Nat)
  /-- DIP_HOLD_END: R592 -/
  | dipHoldEnd (t : Nat)
  /-- TEMPERATURE_READ: R593 -/
  | temperatureRead (t : Nat) (temps : List Int)
  /-- THROTTLE_DECREASE: R593 -/
  | throttleDecrease (t : Nat)
  /-- THROTTLE_LEVEL_CHANGE: R593 -/
  | throttleLevelChange (t : Nat)
  /-- NOPP: R487 -/
  | thNopp (core : Nat) (xm ym : PMove)
  /-- MPY: R487 -/
  | thMpy (core : Nat) (ad : BitVec 2) (sa sb : BitVec 3) (xm ym : PMove)
  /-- MAC: R487 -/
  | thMac (core : Nat) (ad : BitVec 2) (sa sb : BitVec 3) (xm ym : PMove)
  /-- MSU: R487 -/
  | thMsu (core : Nat) (ad : BitVec 2) (sa sb : BitVec 3) (xm ym : PMove)
  /-- DMPY: R487 -/
  | thDmpy (core : Nat) (ad : BitVec 2) (sa sb : BitVec 3) (xm ym : PMove)
  /-- DMAC: R487 -/
  | thDmac (core : Nat) (ad : BitVec 2) (sa sb : BitVec 3) (xm ym : PMove)
  /-- DMSU: R487 -/
  | thDmsu (core : Nat) (ad : BitVec 2) (sa sb : BitVec 3) (xm ym : PMove)
  /-- SQMAC: R487 -/
  | thSqmac (core : Nat) (ad : BitVec 2) (sa : BitVec 3) (xm ym : PMove)
  /-- ADDG: R487 -/
  | thAddg (core : Nat) (ad : BitVec 2) (sa : BitVec 3) (xm ym : PMove)
  /-- SUBG: R487 -/
  | thSubg (core : Nat) (ad : BitVec 2) (sa : BitVec 3) (xm ym : PMove)
  /-- LDA: R487 -/
  | thLda (core : Nat) (ad : BitVec 2) (sa : BitVec 3) (xm ym : PMove)
  /-- CLRA: R487 -/
  | thClra (core : Nat) (ad : BitVec 2) (xm ym : PMove)
  /-- ABSA: R487 -/
  | thAbsa (core : Nat) (ad : BitVec 2) (xm ym : PMove)
  /-- NEGA: R487 -/
  | thNega (core : Nat) (ad : BitVec 2) (xm ym : PMove)
  /-- ADDAA: R487 -/
  | thAddaa (core : Nat) (ad sb : BitVec 2) (xm ym : PMove)
  /-- ASH: R487 -/
  | thAsh (core : Nat) (ad : BitVec 2) (n : BitVec 6) (xm ym : PMove)
  /-- ABSMAX: R487 -/
  | thAbsmax (core : Nat) (ad : BitVec 2) (sa : BitVec 3) (xm ym : PMove)
  /-- ADD: R489 -/
  | thAdd (core : Nat) (gd gs1 : BitVec 4) (b : AluSrc)
  /-- SUB: R489 -/
  | thSub (core : Nat) (gd gs1 : BitVec 4) (b : AluSrc)
  /-- AND: R489 -/
  | thAnd (core : Nat) (gd gs1 : BitVec 4) (b : AluSrc)
  /-- OR: R489 -/
  | thOr (core : Nat) (gd gs1 : BitVec 4) (b : AluSrc)
  /-- XOR: R489 -/
  | thXor (core : Nat) (gd gs1 : BitVec 4) (b : AluSrc)
  /-- SHL: R489 -/
  | thShl (core : Nat) (gd gs1 : BitVec 4) (b : AluSrc)
  /-- SHR: R489 -/
  | thShr (core : Nat) (gd gs1 : BitVec 4) (b : AluSrc)
  /-- SAR: R489 -/
  | thSar (core : Nat) (gd gs1 : BitVec 4) (b : AluSrc)
  /-- MUL: R489 -/
  | thMul (core : Nat) (gd gs1 : BitVec 4) (b : AluSrc)
  /-- MULH: R489 -/
  | thMulh (core : Nat) (gd gs1 : BitVec 4) (b : AluSrc)
  /-- MIN: R489 -/
  | thMin (core : Nat) (gd gs1 : BitVec 4) (b : AluSrc)
  /-- MAX: R489 -/
  | thMax (core : Nat) (gd gs1 : BitVec 4) (b : AluSrc)
  /-- ADDS: R489 -/
  | thAdds (core : Nat) (gd gs1 : BitVec 4) (b : AluSrc)
  /-- SUBS: R489 -/
  | thSubs (core : Nat) (gd gs1 : BitVec 4) (b : AluSrc)
  /-- CMP: R489 -/
  | thCmp (core : Nat) (gs1 : BitVec 4) (b : AluSrc)
  /-- LDI: R490 -/
  | thLdi (core : Nat) (gd : BitVec 4) (imm : BitVec 16)
  /-- LDI_UPPER: R490 -/
  | thLdiUpper (core : Nat) (gd : BitVec 4) (imm : BitVec 16)
  /-- LDI_RELATIVE: R490 -/
  | thLdiRelative (core : Nat) (gd : BitVec 4) (imm : BitVec 16)
  /-- STA_SAT: R490 -/
  | thStaSat (core : Nat) (a : BitVec 2) (gd : BitVec 4)
  /-- STA_SAT16: R490 -/
  | thStaSat16 (core : Nat) (a : BitVec 2) (gd : BitVec 4)
  /-- STA_RAW: R490 -/
  | thStaRaw (core : Nat) (a : BitVec 2) (gd : BitVec 4)
  /-- STA_GUARD: R490 -/
  | thStaGuard (core : Nat) (a : BitVec 2) (gd : BitVec 4)
  /-- STA_NORM: R490 -/
  | thStaNorm (core : Nat) (a : BitVec 2) (gd : BitVec 4)
  /-- DIRECT_LOAD: R472 -/
  | thDirectLoad (core : Nat) (y : Bool) (g : BitVec 4) (pn : BitVec 3) (off : BitVec 14)
  /-- DIRECT_STORE: R472 -/
  | thDirectStore (core : Nat) (y : Bool) (g : BitVec 4) (pn : BitVec 3) (off : BitVec 14)
  /-- MOVE: R490 -/
  | thMove (core : Nat) (dst src : MoveReg)
  /-- BRA: R491 -/
  | thBra (core : Nat) (cond : Cond) (disp : BitVec 16)
  /-- CALL: R491 -/
  | thCall (core : Nat) (cond : Cond) (disp : BitVec 16)
  /-- JMP: R491 -/
  | thJmp (core : Nat) (gs : BitVec 4)
  /-- CALLG: R491 -/
  | thCallg (core : Nat) (gs : BitVec 4)
  /-- RET: R475 -/
  | thRet (core : Nat)
  /-- RETI: R480 -/
  | thReti (core : Nat)
  /-- REP: R476 -/
  | thRep (core : Nat) (n : RepSrc)
  /-- THYME_NOP: R491 -/
  | thNop (core : Nat)
  /-- END: R494 -/
  | thEnd (core : Nat)
  /-- EI: R491 -/
  | thEi (core : Nat)
  /-- DI: R491 -/
  | thDi (core : Nat)
  /-- BRK: R496 -/
  | thBrk (core : Nat)
  /-- RETURN_LEVEL_CROSSING: R592 -/
  | returnLevelCrossing (t rail : Nat)
  /-- VAUX_LOSS: R586 -/
  | vauxLoss (t : Nat)
  /-- ANNOUNCE_RECEIPT_TIMEOUT: R519, of time base `n` on the port where it listens -/
  | announceReceiptTimeout (t n lport : Nat)
  /-- RANK_SWEEP_DONE: R567, whether the sweep found settings for reads and for writes -/
  | rankSweepDone (t ch rank : Nat) (reads writes : Bool)
  /-- SNAPSHOT_WRITE_END: R175 -/
  | snapshotWriteEnd (t p addr : Nat)
  /-- TCK_EDGE: R638 -/
  | tckEdge (tms tdi trstN : Bool) (pins : List Bool)
  deriving DecidableEq, Repr

end Sys2Proof
end

