-- ==== Sys2Proof/Decode.lean ====
section
/-! DEFINITION. Decoding.  No row of spec/opcode_table.json gives bits, so `decodeTableWord` reads no command from a word.  The words
of a thyme program are decoded and encoded here from the encoding tables of 11 R485-R491: the loader checks kernel images with them
(R501), and a running kernel executes what its program memory holds. -/
namespace Sys2Proof

/-- The command that a word spells by the table's bits: the table gives none for any row. -/
def decodeTableWord (_nbits _w : Nat) : Option Instr := none

/-! ### Fields of a thyme word -/

/-- A move field (R488): without EN its other bits are 0. -/
def decodeMoveField (f : BitVec 9) : Option PMove :=
  if f.extractLsb' 8 1 = 1#1 then
    some { en := true, st := f.extractLsb' 7 1 == 1#1, ptr := f.extractLsb' 5 2, upd := f.extractLsb' 3 2, reg := f.extractLsb' 0 3 }
  else if f = 0#9 then some {} else none

/-- The bits of a move field. -/
def encodeMoveField (m : PMove) : BitVec 9 :=
  if m.en then (1#1 ++ (if m.st then 1#1 else 0#1) ++ m.ptr ++ m.upd ++ m.reg).setWidth 9 else 0#9

/-- A branch condition (R491); 13-15 are reserved. -/
def decodeCond (c : BitVec 4) : Option Cond :=
  match c.toNat with
  | 0 => some .al
  | 1 => some .eq
  | 2 => some .ne
  | 3 => some .lt
  | 4 => some .ge
  | 5 => some .le
  | 6 => some .gt
  | 7 => some .cs
  | 8 => some .cc
  | 9 => some .vs
  | 10 => some .vc
  | 11 => some .mi
  | 12 => some .pl
  | _ => none

/-- The bits of a branch condition. -/
def encodeCond : Cond → BitVec 4
  | .al => 0#4
  | .eq => 1#4
  | .ne => 2#4
  | .lt => 3#4
  | .ge => 4#4
  | .le => 5#4
  | .gt => 6#4
  | .cs => 7#4
  | .cc => 8#4
  | .vs => 9#4
  | .vc => 10#4
  | .mi => 11#4
  | .pl => 12#4

/-- A register of a MOVE: class and index (R490). -/
def decodeMoveReg (cls : BitVec 3) (i : BitVec 4) : Option MoveReg :=
  match cls.toNat with
  | 0 => some (.g i)
  | 1 => if i.toNat < 8 then some (.p (i.setWidth 3)) else none
  | 2 => if i.toNat < 8 then some (.m (i.setWidth 3)) else none
  | 3 => if i.toNat < 4 then some (.al (i.setWidth 2)) else none
  | 4 => if i.toNat < 4 then some (.ag (i.setWidth 2)) else none
  | 5 =>
    (match i.toNat with
     | 0 => some .sr
     | 1 => some .ira
     | 2 => some .isr
     | 3 => some .imask
     | 4 => some .ipend
     | 5 => some .cyc
     | 6 => some .budget
     | 7 => some .sp
     | _ => none)
  | _ => none

/-- Class and index of a register of a MOVE. -/
def encodeMoveReg : MoveReg → BitVec 3 × BitVec 4
  | .g i => (0#3, i)
  | .p i => (1#3, i.setWidth 4)
  | .m i => (2#3, i.setWidth 4)
  | .al i => (3#3, i.setWidth 4)
  | .ag i => (4#3, i.setWidth 4)
  | .sr => (5#3, 0#4)
  | .ira => (5#3, 1#4)
  | .isr => (5#3, 2#4)
  | .imask => (5#3, 3#4)
  | .ipend => (5#3, 4#4)
  | .cyc => (5#3, 5#4)
  | .budget => (5#3, 6#4)
  | .sp => (5#3, 7#4)

/-- May a MOVE write the register? IPEND, CYC, BUDGET and SP are reserved as destinations (R490). -/
def MoveReg.writable : MoveReg → Bool
  | .ipend => false
  | .cyc => false
  | .budget => false
  | .sp => false
  | _ => true

/-! ### Decoding by class -/

/-- Format P (R486, R487). -/
def decodeP (core : Nat) (w : Word) : Option Instr :=
  let op := (w.extractLsb' 26 5).toNat
  let ad := w.extractLsb' 24 2
  let sa := w.extractLsb' 21 3
  let sb := w.extractLsb' 18 3
  match decodeMoveField (w.extractLsb' 9 9), decodeMoveField (w.extractLsb' 0 9) with
  | some xm, some ym =>
    (match op with
     | 0x00 => if ad = 0#2 ∧ sa = 0#3 ∧ sb = 0#3 then some (.thNopp core xm ym) else none
     | 0x01 => some (.thMpy core ad sa sb xm ym)
     | 0x02 => some (.thMac core ad sa sb xm ym)
     | 0x03 => some (.thMsu core ad sa sb xm ym)
     | 0x04 => some (.thDmpy core ad sa sb xm ym)
     | 0x05 => some (.thDmac core ad sa sb xm ym)
     | 0x06 => some (.thDmsu core ad sa sb xm ym)
     | 0x07 => if sb = 0#3 then some (.thSqmac core ad sa xm ym) else none
     | 0x08 => if sb = 0#3 then some (.thAddg core ad sa xm ym) else none
     | 0x09 => if sb = 0#3 then some (.thSubg core ad sa xm ym) else none
     | 0x0A => if sb = 0#3 then some (.thLda core ad sa xm ym) else none
     | 0x0B => if sa = 0#3 ∧ sb = 0#3 then some (.thClra core ad xm ym) else none
     | 0x0C => if sa = 0#3 ∧ sb = 0#3 then some (.thAbsa core ad xm ym) else none
     | 0x0D => if sa = 0#3 ∧ sb = 0#3 then some (.thNega core ad xm ym) else none
     | 0x0E => if sa = 0#3 ∧ sb.extractLsb' 2 1 = 0#1 then some (.thAddaa core ad (sb.extractLsb' 0 2) xm ym) else none
     | 0x0F => some (.thAsh core ad (w.extractLsb' 18 6) xm ym)
     | 0x10 => if sb = 0#3 then some (.thAbsmax core ad sa xm ym) else none
     | _ => none)
  | _, _ => none

/-- An ALU function with its operands (R489). -/
def decodeAlu (core : Nat) (fn : Nat) (gd gs1 : BitVec 4) (b : AluSrc) : Option Instr :=
  match fn with
  | 0x00 => some (.thAdd core gd gs1 b)
  | 0x01 => some (.thSub core gd gs1 b)
  | 0x02 => some (.thAnd core gd gs1 b)
  | 0x03 => some (.thOr core gd gs1 b)
  | 0x04 => some (.thXor core gd gs1 b)
  | 0x05 => some (.thShl core gd gs1 b)
  | 0x06 => some (.thShr core gd gs1 b)
  | 0x07 => some (.thSar core gd gs1 b)
  | 0x08 => some (.thMul core gd gs1 b)
  | 0x09 => some (.thMulh core gd gs1 b)
  | 0x0A => some (.thMin core gd gs1 b)
  | 0x0B => some (.thMax core gd gs1 b)
  | 0x0C => some (.thAdds core gd gs1 b)
  | 0x0D => some (.thSubs core gd gs1 b)
  | 0x0E => if gd = 0#4 then some (.thCmp core gs1 b) else none
  | _ => none

/-- LDI (R490). -/
def decodeLdi (core : Nat) (w : Word) : Option Instr :=
  let gd := w.extractLsb' 21 4
  let imm := w.extractLsb' 0 16
  if w.extractLsb' 16 5 ≠ 0#5 then none
  else match (w.extractLsb' 25 2).toNat with
    | 0 => some (.thLdi core gd imm)
    | 1 => some (.thLdiUpper core gd imm)
    | 2 => some (.thLdiRelative core gd imm)
    | _ => none

/-- STA (R490). -/
def decodeSta (core : Nat) (w : Word) : Option Instr :=
  let a := w.extractLsb' 22 2
  let gd := w.extractLsb' 18 4
  if w.extractLsb' 0 18 ≠ 0#18 then none
  else match (w.extractLsb' 24 3).toNat with
    | 0 => some (.thStaSat core a gd)
    | 1 => some (.thStaSat16 core a gd)
    | 2 => some (.thStaRaw core a gd)
    | 3 => some (.thStaGuard core a gd)
    | 4 => some (.thStaNorm core a gd)
    | _ => none

/-- Direct load and store (R490). -/
def decodeDirect (core : Nat) (w : Word) : Option Instr :=
  if w.extractLsb' 14 4 ≠ 0#4 then none
  else
    let y := w.extractLsb' 26 1 == 1#1
    if w.extractLsb' 25 1 = 1#1 then
      some (.thDirectStore core y (w.extractLsb' 21 4) (w.extractLsb' 18 3) (w.extractLsb' 0 14))
    else some (.thDirectLoad core y (w.extractLsb' 21 4) (w.extractLsb' 18 3) (w.extractLsb' 0 14))

/-- MOVE (R490). -/
def decodeMove (core : Nat) (w : Word) : Option Instr :=
  if w.extractLsb' 0 13 ≠ 0#13 then none
  else match decodeMoveReg (w.extractLsb' 24 3) (w.extractLsb' 20 4), decodeMoveReg (w.extractLsb' 17 3) (w.extractLsb' 13 4) with
    | some d, some s => if d.writable then some (.thMove core d s) else none
    | _, _ => none

/-- BRA and CALL (R491). -/
def decodeBra (core : Nat) (w : Word) : Option Instr :=
  if w.extractLsb' 16 6 ≠ 0#6 then none
  else (decodeCond (w.extractLsb' 23 4)).map (fun c =>
    if w.extractLsb' 22 1 = 1#1 then .thCall core c (w.extractLsb' 0 16) else .thBra core c (w.extractLsb' 0 16))

/-- JMP, CALLG, RET and RETI (R491). -/
def decodeJmp (core : Nat) (w : Word) : Option Instr :=
  let gs := w.extractLsb' 14 4
  if w.extractLsb' 18 6 ≠ 0#6 ∨ w.extractLsb' 0 14 ≠ 0#14 then none
  else match (w.extractLsb' 24 3).toNat with
    | 0 => some (.thJmp core gs)
    | 1 => some (.thCallg core gs)
    | 2 => if gs = 0#4 then some (.thRet core) else none
    | 3 => if gs = 0#4 then some (.thReti core) else none
    | _ => none

/-- REP (R491). -/
def decodeRep (core : Nat) (w : Word) : Option Instr :=
  let gs := w.extractLsb' 18 4
  let n := w.extractLsb' 0 16
  if w.extractLsb' 22 4 ≠ 0#4 ∨ w.extractLsb' 16 2 ≠ 0#2 then none
  else if w.extractLsb' 26 1 = 1#1 then (if n = 0#16 then some (.thRep core (.reg gs)) else none)
  else if gs = 0#4 then some (.thRep core (.imm n)) else none

/-- Control (R491). -/
def decodeControl (core : Nat) (w : Word) : Option Instr :=
  if w.extractLsb' 0 24 ≠ 0#24 then none
  else match (w.extractLsb' 24 3).toNat with
    | 0 => some (.thNop core)
    | 1 => some (.thEnd core)
    | 2 => some (.thEi core)
    | 3 => some (.thDi core)
    | 4 => some (.thBrk core)
    | _ => none

/-- The instruction of a thyme word on a core; none for a reserved encoding (R485). -/
def decodeThyme (core : Nat) (w : Word) : Option Instr :=
  match (w.extractLsb' 27 5).toNat with
  | 0b10000 =>
    if w.extractLsb' 0 10 = 0#10 then
      decodeAlu core (w.extractLsb' 22 5).toNat (w.extractLsb' 18 4) (w.extractLsb' 14 4) (.reg (w.extractLsb' 10 4))
    else none
  | 0b10001 => decodeAlu core (w.extractLsb' 22 5).toNat (w.extractLsb' 18 4) (w.extractLsb' 14 4) (.imm (w.extractLsb' 0 14))
  | 0b10010 => decodeLdi core w
  | 0b10011 => decodeSta core w
  | 0b10100 => decodeDirect core w
  | 0b10101 => decodeMove core w
  | 0b11000 => decodeBra core w
  | 0b11001 => decodeJmp core w
  | 0b11010 => decodeRep core w
  | 0b11100 => decodeControl core w
  | n => if n < 16 then decodeP core w else none

/-! ### Encoding -/

/-- A format P word. -/
def encodeP (op : BitVec 5) (ad : BitVec 2) (sa sb : BitVec 3) (xm ym : PMove) : Word :=
  (0#1 ++ op ++ ad ++ sa ++ sb ++ encodeMoveField xm ++ encodeMoveField ym).setWidth 32

/-- An ALU word, register or immediate form. -/
def encodeAlu (fn : BitVec 5) (gd gs1 : BitVec 4) : AluSrc → Word
  | .reg gs2 => (0b10000#5 ++ fn ++ gd ++ gs1 ++ gs2 ++ 0#10).setWidth 32
  | .imm v => (0b10001#5 ++ fn ++ gd ++ gs1 ++ v).setWidth 32

/-- An LDI word. -/
def encodeLdi (form : BitVec 2) (gd : BitVec 4) (imm : BitVec 16) : Word := (0b10010#5 ++ form ++ gd ++ 0#5 ++ imm).setWidth 32

/-- An STA word. -/
def encodeSta (fn : BitVec 3) (a : BitVec 2) (gd : BitVec 4) : Word := (0b10011#5 ++ fn ++ a ++ gd ++ 0#18).setWidth 32

/-- A direct load or store word. -/
def encodeDirect (y st : Bool) (g : BitVec 4) (pn : BitVec 3) (off : BitVec 14) : Word :=
  (0b10100#5 ++ BitVec.ofBool y ++ BitVec.ofBool st ++ g ++ pn ++ 0#4 ++ off).setWidth 32

/-- A MOVE word. -/
def encodeMove (dst src : MoveReg) : Word :=
  (0b10101#5 ++ (encodeMoveReg dst).1 ++ (encodeMoveReg dst).2 ++ (encodeMoveReg src).1 ++ (encodeMoveReg src).2 ++ 0#13).setWidth 32

/-- A BRA or CALL word. -/
def encodeBra (c : Cond) (link : Bool) (disp : BitVec 16) : Word :=
  (0b11000#5 ++ encodeCond c ++ BitVec.ofBool link ++ 0#6 ++ disp).setWidth 32

/-- A JMP, CALLG, RET or RETI word. -/
def encodeJmp (fn : BitVec 3) (gs : BitVec 4) : Word := (0b11001#5 ++ fn ++ 0#6 ++ gs ++ 0#14).setWidth 32

/-- A REP word. -/
def encodeRep : RepSrc → Word
  | .imm n => (0b11010#5 ++ 0#11 ++ n).setWidth 32
  | .reg gs => (0b11010#5 ++ 1#1 ++ 0#4 ++ gs ++ 0#18).setWidth 32

/-- A control word. -/
def encodeControl (fn : BitVec 3) : Word := (0b11100#5 ++ fn ++ 0#24).setWidth 32

/-- The word of a thyme instruction; none for another command. -/
def encodeThyme : Instr → Option Word
  | .thNopp _ xm ym => some (encodeP 0x00#5 0#2 0#3 0#3 xm ym)
  | .thMpy _ ad sa sb xm ym => some (encodeP 0x01#5 ad sa sb xm ym)
  | .thMac _ ad sa sb xm ym => some (encodeP 0x02#5 ad sa sb xm ym)
  | .thMsu _ ad sa sb xm ym => some (encodeP 0x03#5 ad sa sb xm ym)
  | .thDmpy _ ad sa sb xm ym => some (encodeP 0x04#5 ad sa sb xm ym)
  | .thDmac _ ad sa sb xm ym => some (encodeP 0x05#5 ad sa sb xm ym)
  | .thDmsu _ ad sa sb xm ym => some (encodeP 0x06#5 ad sa sb xm ym)
  | .thSqmac _ ad sa xm ym => some (encodeP 0x07#5 ad sa 0#3 xm ym)
  | .thAddg _ ad sa xm ym => some (encodeP 0x08#5 ad sa 0#3 xm ym)
  | .thSubg _ ad sa xm ym => some (encodeP 0x09#5 ad sa 0#3 xm ym)
  | .thLda _ ad sa xm ym => some (encodeP 0x0A#5 ad sa 0#3 xm ym)
  | .thClra _ ad xm ym => some (encodeP 0x0B#5 ad 0#3 0#3 xm ym)
  | .thAbsa _ ad xm ym => some (encodeP 0x0C#5 ad 0#3 0#3 xm ym)
  | .thNega _ ad xm ym => some (encodeP 0x0D#5 ad 0#3 0#3 xm ym)
  | .thAddaa _ ad sb xm ym => some (encodeP 0x0E#5 ad 0#3 (0#1 ++ sb) xm ym)
  | .thAsh _ ad n xm ym => some (encodeP 0x0F#5 ad (n.extractLsb' 3 3) (n.extractLsb' 0 3) xm ym)
  | .thAbsmax _ ad sa xm ym => some (encodeP 0x10#5 ad sa 0#3 xm ym)
  | .thAdd _ gd gs1 b => some (encodeAlu 0x00#5 gd gs1 b)
  | .thSub _ gd gs1 b => some (encodeAlu 0x01#5 gd gs1 b)
  | .thAnd _ gd gs1 b => some (encodeAlu 0x02#5 gd gs1 b)
  | .thOr _ gd gs1 b => some (encodeAlu 0x03#5 gd gs1 b)
  | .thXor _ gd gs1 b => some (encodeAlu 0x04#5 gd gs1 b)
  | .thShl _ gd gs1 b => some (encodeAlu 0x05#5 gd gs1 b)
  | .thShr _ gd gs1 b => some (encodeAlu 0x06#5 gd gs1 b)
  | .thSar _ gd gs1 b => some (encodeAlu 0x07#5 gd gs1 b)
  | .thMul _ gd gs1 b => some (encodeAlu 0x08#5 gd gs1 b)
  | .thMulh _ gd gs1 b => some (encodeAlu 0x09#5 gd gs1 b)
  | .thMin _ gd gs1 b => some (encodeAlu 0x0A#5 gd gs1 b)
  | .thMax _ gd gs1 b => some (encodeAlu 0x0B#5 gd gs1 b)
  | .thAdds _ gd gs1 b => some (encodeAlu 0x0C#5 gd gs1 b)
  | .thSubs _ gd gs1 b => some (encodeAlu 0x0D#5 gd gs1 b)
  | .thCmp _ gs1 b => some (encodeAlu 0x0E#5 0#4 gs1 b)
  | .thLdi _ gd imm => some (encodeLdi 0#2 gd imm)
  | .thLdiUpper _ gd imm => some (encodeLdi 1#2 gd imm)
  | .thLdiRelative _ gd imm => some (encodeLdi 2#2 gd imm)
  | .thStaSat _ a gd => some (encodeSta 0#3 a gd)
  | .thStaSat16 _ a gd => some (encodeSta 1#3 a gd)
  | .thStaRaw _ a gd => some (encodeSta 2#3 a gd)
  | .thStaGuard _ a gd => some (encodeSta 3#3 a gd)
  | .thStaNorm _ a gd => some (encodeSta 4#3 a gd)
  | .thDirectLoad _ y g pn off => some (encodeDirect y false g pn off)
  | .thDirectStore _ y g pn off => some (encodeDirect y true g pn off)
  | .thMove _ dst src => some (encodeMove dst src)
  | .thBra _ c d => some (encodeBra c false d)
  | .thCall _ c d => some (encodeBra c true d)
  | .thJmp _ gs => some (encodeJmp 0#3 gs)
  | .thCallg _ gs => some (encodeJmp 1#3 gs)
  | .thRet _ => some (encodeJmp 2#3 0#4)
  | .thReti _ => some (encodeJmp 3#3 0#4)
  | .thRep _ n => some (encodeRep n)
  | .thNop _ => some (encodeControl 0#3)
  | .thEnd _ => some (encodeControl 1#3)
  | .thEi _ => some (encodeControl 2#3)
  | .thDi _ => some (encodeControl 3#3)
  | .thBrk _ => some (encodeControl 4#3)
  | _ => none

end Sys2Proof
end

