-- ==== Sys2Proof/Config.lean ====
section
/-! DEFINITION. The constants the manual leaves to an implementation or to a standard outside it, as opaque constants: no proof
can see what they are (notes/assumptions/5.md). -/
namespace Sys2Proof

/-- The n-th free value: the random starts of 06 R271 and R273, undefined scratch words (11 R463) and the other values the
manual leaves open. -/
opaque Config.freeNat : Nat → Nat

/-- The median of an even number of vector components, which 08 R358 does not give. -/
opaque Config.evenMedian : List Int → Int

/-- The filters of the scaler (09 R381), whose coefficients the manual does not give: number of taps, source and placed dimension, phase and
tap; the coefficient is a multiple of 2 to the minus `scalerBits`. -/
opaque Config.scalerTap : Nat → Nat → Nat → Nat → Nat → Int
opaque Config.scalerBits : Nat

/-- The fused MAC base address of the part (05 R228). -/
opaque Config.macBase : Nat

/-- The microcode version of the stalls and the firmware version of the thyme cores that the flash holds (08 R365, 11 R504). -/
opaque Config.ucodeVersion : Nat

/-- The firmware version of the thyme codec firmware (11 R504). -/
opaque Config.firmwareVersion : Nat

end Sys2Proof
end

