-- ==== Sys2Proof/Machine/State.lean ====
section
/-! DEFINITION. The state of the RK6448 as plain data, and its value right after reset.  Every structure is data with a default
for each field; the defaults are the reset values (INVENTORY.md, State; notes/assumptions/1.md for those the manual does not
give).  A `Tab` that lists nothing stands for a table of default entries. -/
namespace Sys2Proof.Machine

/-- Why the machine stops.  Nothing in the manual stops the block, so no step of the model answers it. -/
inductive Fault where
  /-- Raised by no meaning; kept so that the type is inhabited. Safe. -/
  | none
  deriving DecidableEq, Repr

/-- Why a command has no meaning. -/
inductive Refusal where
  /-- Raised by an arm of `exec` for a row that has no meaning yet. Safe. -/
  | notModelled (mnemonic : String)
  /-- Raised by `execThMove` of firmware into IPEND, CYC, BUDGET or SP, an encoding that 11 R490 reserves without saying what a
  core does with it. Safe. -/
  | reservedEncoding
  deriving DecidableEq, Repr

/-! ### Host ports (02) -/

/-- States of a host port (02 R73). -/
inductive PortState where
  | off | setup | run
  deriving DecidableEq, Repr

/-- A completion entry in a completion ring that the host has not consumed (02 R93), with the handle it bears (02 R102). -/
structure Compl where
  ring : Nat
  tag : Nat
  status : Nat
  result : Nat
  tick : Nat
  sqhead : Nat
  phase : Bool
  /-- kind of the object its handle names (1 room, 2 leg, 3 stream, 0 none) and the handle -/
  objKind : Nat := 0
  obj : Nat := 0
  at_ : Nat := 0
  deriving DecidableEq, Repr

/-- An event entry in a queue that the host has not consumed (02 R106). -/
structure EvEntry where
  source : Nat
  sev : Nat
  tick : Nat
  payload : Nat
  phase : Bool := true
  at_ : Nat := 0
  deriving DecidableEq, Repr

/-- A fetched descriptor whose completion is not posted yet, in submission order (02 R95); `seq` is its machine-wide fetch
number. -/
structure Outstanding where
  seq : Nat
  tag : Nat
  opcode : Nat
  /-- status, result and effect tick once decided; no tick: the tick in force when the completion is written -/
  done : Option (Nat × Nat × Option Nat) := none
  objKind : Nat := 0
  obj : Nat := 0
  deriving DecidableEq, Repr

/-- An open batch of a ring (02 R98): number of its begin, tick of its begin, numbers of its members, and whether one has
failed already. -/
structure Batch where
  beginSeq : Nat
  startTick : Nat
  members : List Nat := []
  failed : Bool := false
  deriving DecidableEq, Repr

/-- A submission ring (02 R81-R98). -/
structure SqState where
  fetched : Nat := 0
  prod : Nat := 0
  halted : Bool := false
  /-- number of the fence that holds the ring and the rings it waits for (02 R96) -/
  fence : Option (Nat × List Nat) := none
  batch : Option Batch := none
  /-- tick at which an aborted tail ends by itself -/
  tail : Option Nat := none
  out : List Outstanding := []
  deriving DecidableEq, Repr

/-- A completion ring (02 R81, R95, R109). -/
structure CqState where
  posted : Nat := 0
  consumed : Nat := 0
  halted : Bool := false
  unsignalled : Nat := 0
  oldest : Nat := 0
  entries : List Compl := []
  deriving DecidableEq, Repr

/-- An event queue (02 R81, R107, R108). -/
structure EqState where
  posted : Nat := 0
  consumed : Nat := 0
  halted : Bool := false
  lost : Nat := 0
  lostFirst : Nat := 0
  lostLast : Nat := 0
  entries : List EvEntry := []
  criterion : Bool := false
  deriving DecidableEq, Repr

/-- A posted punt buffer (02 R112). -/
structure PuntBuf where
  ring : Nat
  seq : Nat
  len : Nat
  addr : Nat
  deriving DecidableEq, Repr

/-- A punted frame held for buffers (02 R114). -/
structure PuntFrame where
  header : Bytes
  data : Bytes
  at_ : Nat
  deriving DecidableEq, Repr

/-- A periodic or one-shot snapshot request and its present capture (04 R172-R177). -/
structure SnapReq where
  addr : Nat
  length : Nat
  period : Nat
  room : Nat
  mask : Nat
  capture : Nat := 0
  nextTick : Nat := 0
  writing : Bool := false
  cancelled : Bool := false
  snapLen : Nat := 0
  captureTick : Nat := 0
  ring : Nat := 0
  seq : Nat := 0
  deriving DecidableEq, Repr

/-- The latches of one reader of the latching registers (12 R528, 13 R569, 16 R632). -/
structure Latches where
  /-- seconds and fraction of each time base -/
  tb : Tab (Nat × Nat) := []
  tickHi : Nat := 0
  migHi : Nat := 0
  deriving DecidableEq, Repr

/-- An entry of the MSI-X table (02 R70): message address, data, and the mask bit of its vector control. -/
structure MsixEntry where
  addr : Nat := 0
  data : Word := 0
  mask : Bool := true
  deriving DecidableEq, Repr

/-- One host port. -/
structure HostPort where
  state : PortState := .off
  link : Bool := false
  /-- width and rate (1 to 5: 2.5 to 32 GT/s) to which the link trained (02 R70) -/
  width : Nat := 0
  rate : Nat := 0
  /-- Bus Master Enable, Max_Read_Request_Size in bytes, and whether the function is in D3hot (02 R70, R86) -/
  bme : Bool := false
  mrrs : Nat := 512
  d3hot : Bool := false
  /-- the AER uncorrectable error status (02 R70, R122) -/
  aer : Nat := 0
  /-- MSI-X Enable and Function Mask, the table and the pending-bit array (02 R70, R109) -/
  msix : Bool := false
  msixMask : Bool := false
  msixTab : Tab MsixEntry := []
  pba : Nat := 0
  /-- completion rings (kind 1) and event queues (2) with an entry that the bridge could not issue (02 R122) -/
  unissued : List (Nat × Nat) := []
  /-- what the port's last latching register read returned (00 R19; 12 R528; 13 R569) -/
  rdData : Word := 0
  lockErr : Nat := 0
  errRing : Nat := 0
  errKind : Nat := 0
  sweepNow : Nat := 0
  /-- RL registers written by the host, by BAR0 offset -/
  regs : Tab Word := []
  sq : Tab SqState := []
  cq : Tab CqState := []
  eq : Tab EqState := []
  /-- discarded completions by ring: count and last TAG (02 R104) -/
  discarded : Tab (Nat × Nat) := []
  /-- end of orphan grace, in ps -/
  grace : Option Nat := none
  /-- rooms, by handle, whose grace ended at an instant before the port entered RUN again: the next boundary deletes them (02 R104) -/
  doomed : List (Nat × Nat) := []
  atn : Bool := false
  /-- vectors of the MSI-X messages sent, newest first (02 R109) -/
  msixSent : List Nat := []
  puntBufs : List PuntBuf := []
  puntHeld : List PuntFrame := []
  snaps : List SnapReq := []
  latches : Latches := {}
  /-- key-encryption key words and which are valid (06 R256) -/
  kek : Tab Word := []
  kekSeen : List Nat := []
  deriving DecidableEq, Repr

/-- What a read of host memory is for (02 R122). -/
inductive DmaUse where
  /-- data of a command that takes effect at a tick (KEY_INSTALL, KERNEL_LOAD) -/
  | command
  | tackImage | hostTx | flashData
  /-- writing of the buffer of a descriptor whose completion waits for it: RESULT -/
  | write (result : Nat)
  /-- copying of log records into the buffer at an address: room and its incarnation, reader, a record that stands first, the records with
  their positions, the length of the buffer (06 R285) -/
  | log (addr room inc reader : Nat) (first : Bytes) (recs : List (Nat × Bytes)) (length : Nat)
  /-- writing of the snapshot capture into the buffer at an address -/
  | snapshot (addr : Nat)
  deriving DecidableEq, Repr

/-- A host memory access in progress. -/
structure Dma where
  id : Nat
  port : Nat
  ring : Nat
  seq : Nat
  use : DmaUse
  /-- could the bridge issue it (02 R122)? -/
  issued : Bool := true
  /-- generation stamp of a HOST_TX (03 R139) -/
  gen : Nat := 0
  /-- pool in which a HOST_TX holds its cells (07 R318, R329) -/
  pool : Nat := 0
  desc : Desc := {}
  /-- data of a HOST_TX that waits for an earlier frame of its ring, port and class (02 R118) -/
  data : Option Bytes := none
  deriving DecidableEq, Repr

/-- A command that waits for its effect tick, or for its batch (02 R91, R98). -/
structure Waiting where
  port : Nat
  ring : Nat
  seq : Nat
  opcode : Nat
  desc : Desc
  /-- instant from which a boundary applies it, 100 µs after the fetch that counts; none while its batch is open -/
  effect : Option Nat
  /-- number of the BATCH_BEGIN when it is a member, or the BATCH_END -/
  batch : Option Nat := none
  /-- data of its host buffer, once read; none while it is awaited -/
  data : Option Bytes := some []
  deriving DecidableEq, Repr

/-! ### Generations and flash (03) -/

/-- A tack: header fields, section bodies by kind, and the whole image (03 R124-R129). -/
structure Tack where
  gen : Nat
  parent : Nat := 0
  buildId : Nat := 0
  secs : Tab Bytes := []
  image : Bytes := []
  deriving DecidableEq, Repr

/-- States of the generation in force (03 R144). -/
inductive GenState where
  | none | probation | kept | failed
  deriving DecidableEq, Repr

/-- A tack under validation (03 R136). -/
structure Validation where
  port : Nat
  ring : Nat
  seq : Nat
  length : Nat
  /-- none while it is read from the host -/
  image : Option Bytes
  at_ : Nat
  deriving DecidableEq, Repr

/-- The configuration generations. -/
structure Gens where
  cur : Option Tack := none
  parent : Option Tack := none
  /-- the tacks that BOOT has chosen to put in force and as its parent, until BOOT ends (03 R133, R161) -/
  chosen : Option Tack := none
  chosenParent : Option Tack := none
  staged : Option Tack := none
  validating : Option Validation := none
  high : Option Nat := none
  state : GenState := .none
  switchTick : Nat := 0
  probLeft : Nat := 0
  noFlash : Bool := false
  atBoot : Bool := false
  /-- the replaced settings while a switch is in progress -/
  old : Option Tack := none
  switching : Bool := false
  /-- automatic return pending: boundary, criterion and value (03 R147) -/
  autoReturn : Option (Nat × Nat × Nat) := none
  lastReason : Nat := 0
  /-- what the window criteria count, as it stood at each boundary since the switch tick, newest first (03 R146), and the uncorrectable
  errors at the switch tick -/
  history : List (List Nat) := []
  ueBase : Nat := 0
  /-- has a generation been put in force since BOOT, and is the present one the first (03 R160)? -/
  everForced : Bool := false
  isFirst : Bool := false
  /-- while a frame or an operation of an earlier boundary is worked on, the tack under which queues, pools, the history and the log take
  what it derives (03 R139; 07 R329, R333); none outside such work -/
  place : Option (Option Tack) := none
  deriving DecidableEq, Repr

/-- A state record of the flash (03 R158). -/
structure Record where
  seq : Nat := 0
  current : Nat := 0xFF
  lastGood : Nat := 0xFF
  attempts : Nat := 0
  lastReason : Nat := 0
  genA : Nat := 0
  genB : Nat := 0
  highGen : Nat := 0
  probFail : Bool := false
  deriving DecidableEq, Repr

/-- A change of the state record (03 R132, R145, R150, R153); a field that is none keeps its value. -/
structure RecordChange where
  current : Option Nat := none
  lastGood : Option Nat := none
  attempts : Option Nat := none
  genA : Option Nat := none
  genB : Option Nat := none
  highGen : Option Nat := none
  probFail : Option Bool := none
  deriving DecidableEq, Repr

/-- Flash operations in the order of their fetch or decision (03 R166): a FLASH_READ; a FLASH_WRITE, its data none while it is read
from the host; the write of a kept tack (R153); the write of a state record, with the slot and generation that TACK_FLASHED names; the
write of the training table. -/
inductive FlashOp where
  | read (port ring seq addr off len : Nat)
  | write (port ring seq off len : Nat) (data : Option Bytes)
  | slot (gen : Nat) (image : Bytes)
  | record (c : RecordChange) (said : Option (Nat × Nat))
  /-- the training table with the records of some DIMM slots, at the end of a DRAM_SERVICE of a port and ring, and its RESULT (13 R567) -/
  | table (slots : List Nat) (port ring seq result : Nat)
  deriving DecidableEq, Repr

/-- The serial flash and its controller. -/
structure Flash where
  sizeMib : Nat := 0
  /-- contents; an unlisted byte reads 0xFF (notes/assumptions/7.md) -/
  mem : List Host.Cell := []
  cfg : Word := 0x0003C802#32
  /-- a write to SF_CFG held while an operation runs (03 R163) -/
  cfgHeld : Option Word := none
  clk : Nat := 0
  mode : Nat := 0
  /-- the fastest clock and mode that its SFDP advertises (03 R154) -/
  sfdpClk : Nat := 0
  sfdpMode : Nat := 0
  ops : List FlashOp := []
  stageErr : Nat := 0
  fallback : Nat := 0
  bootAttempts : Nat := 0
  anyKey : Bool := false
  slot : Nat := 3
  rec? : Option Record := none
  recCopy : Nat := 1
  /-- the fuses (03 R160): KEYHASH, once BOOT has read them, and FUSE_RB -/
  keyHash : Option Nat := none
  fuseRb : Nat := 0
  /-- ROLLBACK to which the fuses go once the generation put in force at BOOT is kept (03 R160) -/
  advance : Option Nat := none
  /-- components that the boot header names: TYPE, INDEX, OFFSET, LENGTH, and the tack key, as BOOT read them (03 R156, R157) -/
  dir : List (Nat × Nat × Nat × Nat) := []
  tackKey : Option (Nat × Nat) := none
  /-- KEEP has stopped the operations that wait (14 R583) -/
  held : Bool := false
  highZ : Bool := true
  deriving DecidableEq, Repr

/-! ### Objects (06) -/

/-- A room (06 R240). -/
structure Room where
  inc : Nat
  owner : Nat
  template : Nat
  /-- the tack under which the graph was instantiated (03 R140) -/
  gen : Nat := 0
  /-- its template record as it stood then; empty for the default template (06 R290) -/
  tpl : Bytes := []
  home : Nat := 0
  homePin : Bool := false
  prio : Nat := 0
  prioPin : Bool := false
  logMib : Nat := 0
  audioPin : List Nat := [0, 0, 0, 0]
  createdTick : Nat := 0
  /-- forwarded-audio set in order of entry: stream index -/
  audioSet : List Nat := []
  logWrite : Nat := 0
  /-- records retained: position, length, bytes -/
  logRecs : List (Nat × Bytes) := []
  marks : List Nat := [0, 0, 0, 0]
  /-- records lost to poison (13 R556): position, and the time that is lost with it, a free value -/
  logBad : List (Nat × Nat) := []
  /-- lost span of each reader: from, to, times (06 R286) -/
  lostSpan : Tab (Nat × Nat × Nat × Nat) := []
  deriving DecidableEq, Repr

/-- The mix control settings of a leg (10 R446). -/
structure LegMix where
  inGain : Int := 0
  outGain : Int := 0
  pin : Bool := false
  hearSelf : Bool := false
  /-- overrides: source leg handle, gain -/
  nodes : List (Nat × Int) := []
  deriving DecidableEq, Repr

/-- A packet sent to a leg, until its feedback no longer counts (06 R266): SSRC, extended numbers of its stream and transport-wide, when it left, its bytes of
UDP payload, and what a report said of it: lost, or its arrival in µs of the peer's clock. -/
structure Depart where
  ssrc : Nat
  seq : Nat
  tw : Option Nat := none
  at_ : Nat
  bytes : Nat
  told : Option (Option Int) := none
  deriving DecidableEq, Repr

/-- A leg (06 R242, 07 R301). -/
structure Leg where
  inc : Nat
  room : Nat
  owner : Nat
  lport : Nat
  ipv6 : Bool := false
  localIdx : Nat := 0
  fbMode : Nat := 0
  puntRtcp : Bool := false
  videoClass : Nat := 0
  audioClass : Nat := 0
  rtcpClass : Nat := 0
  localUdp : Nat := 0
  remoteUdp : Nat := 0
  remoteIp : Nat := 0
  nextHop : Nat := 0
  shapeKbps : Nat := 8
  shapeBurst : Nat := 0
  pinRate : Nat := 0
  /-- credit in 2^-16 bytes, and the instant of its last accrual in ps (07 R304) -/
  credit : Int := 0
  creditAt : Nat := 0
  deficit : Nat := 0
  /-- E in kbit/s and, below it, in 2^-32 kbit/s (06 R267) -/
  est : Nat := 0
  estFrac : Nat := 0
  rRecv : Nat := 0
  lossPpm : Nat := 0
  gradUs : Int := 0
  rttUs : Nat := 0
  estState : Nat := 0
  /-- instant of the last report; none before one, and after a fall for lack of reports -/
  lastReport : Option Nat := none
  videoBudget : Nat := 0
  fbReports : Nat := 0
  twccCounter : Nat := 0
  /-- bytes sent to the leg by tick, newest first: (tick, audio and RTCP bytes, rung bytes, all bytes) -/
  sent : List (Nat × Nat × Nat × Nat) := []
  /-- SEQ and settings of the mix control entry accepted last (10 R446) -/
  mixSeq : Nat := 0
  mix : LegMix := {}
  ctlRefusedSeq : Option Nat := none
  lastSpeakerTick : Option Nat := none
  /-- sender of the last FIR that the leg received (06 R277) -/
  lastFir : Option Nat := none
  /-- packets sent to the leg, newest first, and the newest extended times of its feedback: RFC 8888 timestamp, reference time (06 R266) -/
  departs : List Depart := []
  rtsTop : Option Nat := none
  refTop : Option Nat := none
  /-- last reports and the random offset of the next; last feedback and its count (06 R276) -/
  rtcpAt : Nat := 0
  rtcpFrac : Nat := 0
  fbAt : Nat := 0
  fbCount : Nat := 0
  /-- transport-wide numbers received and not yet reported, extended, with their arrival; the next to report, and the newest seen -/
  twSeen : List (Nat × Nat) := []
  twNext : Option Nat := none
  twTop : Option Nat := none
  deriving DecidableEq, Repr

/-- A template of a dependency descriptor's structure: spatial and temporal layer, the indication for each decode target, and whether it
refers to no frame (06 R263). -/
structure DdTemplate where
  s : Nat
  t : Nat
  dtis : List Nat := []
  noRefs : Bool := false
  deriving DecidableEq, Repr

/-- A template structure, and the extended number of the packet that carried it. -/
structure DdStruct where
  ext : Nat
  offset : Nat
  dts : Nat
  templates : List DdTemplate := []
  /-- spatial and temporal layer of each decode target -/
  layers : List (Nat × Nat) := []
  chains : Nat := 0
  deriving DecidableEq, Repr

/-- A reserved egress number (06 R272): source and number, egress number, actual layer when it was reserved, and the offsets of timestamp
and frame number that its packet is sent under. -/
structure Reserved where
  src : Nat
  ext : Nat
  out : Nat
  s : Nat
  t : Nat
  tsOff : Nat
  frameOff : Option Nat
  deriving DecidableEq, Repr

/-- What receiver reports of an ingress stream are made from (06 R276; RFC 3550): first number, jitter in 1/16 clock ticks with the
last transit time, counts at the last report, and the last sender report with its arrival. -/
structure Recep where
  base : Option Nat := none
  jit16 : Nat := 0
  transit : Option Int := none
  expPrior : Nat := 0
  rcvPrior : Nat := 0
  rcv : Nat := 0
  sr : Option (Nat × Nat) := none
  deriving DecidableEq, Repr

/-- What an egress stream reports of itself, from confirmed packets only (04 R191; 06 R296): its newest number and timestamp and its
actual layer. -/
structure Reported where
  out : Nat := 0
  ts : Option Nat := none
  actualS : Nat := 0
  actualT : Nat := 0
  paused : Bool := false
  deriving DecidableEq, Repr

/-- A key in service on a stream (06 R253-R258). -/
structure SrtpKey where
  suite : Nat
  key : Bytes
  deriving DecidableEq, Repr

/-- A gap in an ingress stream: extended number, when seen, NACKs sent, last NACK (06 R278, 08 R360). -/
structure Gap where
  ext : Nat
  seen : Nat
  tries : Nat := 0
  last : Nat := 0
  deriving DecidableEq, Repr

/-- A packet kept in the history (06 R279) until an instant. -/
structure HistEntry where
  ext : Nat
  until_ : Nat
  len : Nat
  layerS : Nat := 0
  layerT : Nat := 0
  payload : Bytes := []
  deriving DecidableEq, Repr

/-- An egress number and what it maps to (06 R279, R281). -/
structure EgMap where
  out : Nat
  /-- source stream index + 1, 0 for a rung, and source number, none for a padding packet -/
  stream : Nat := 0
  src : Option Nat
  until_ : Nat
  /-- the packet as it was built, and as it left first, before protection (12 R524) -/
  pkt : Bytes := []
  data : Bytes := []
  /-- the transport-wide number it left with (12 R524) -/
  tw : Option Nat := none
  lastSent : Nat := 0
  deriving DecidableEq, Repr

/-- A stream (06 R244), its extended numbers (R261), its rewrite state (R264-R273) and its counters (R296). -/
structure Stream where
  inc : Nat
  leg : Nat
  room : Nat
  owner : Nat
  /-- bytes 16-63 of the create, as modifies have changed them -/
  body : Bytes
  /-- bound SSRC when learned by RID, else the configured one -/
  ssrc : Nat := 0
  createdTick : Nat := 0
  extSeq : Option Nat := none
  extTs : Option Nat := none
  roc : Nat := 0
  key : Option SrtpKey := none
  oldKey : Option (SrtpKey × Nat) := none
  exhausted : Bool := false
  srtcpIndex : Nat := 0
  /-- replay window: numbers marked, newest first -/
  replay : List Nat := []
  srtcpReplay : List Nat := []
  /-- sizes of the two windows, as the last confirmed packets took them (06 R292) -/
  win : Nat := 0
  srtcpWin : Nat := 0
  /-- template structures, newest first, and the NAL unit of type 14 read last: timestamp, temporal_id, dependency_id (06 R263) -/
  ddStructs : List DdStruct := []
  prefixNal : Option (Nat × Nat × Nat) := none
  /-- reception, and what feedback has not reported yet: number, arrival, ECN; the next number to report (06 R276) -/
  recep : Recep := {}
  arrivals : List (Nat × Nat × Nat) := []
  fbNext : Option Nat := none
  gaps : List Gap := []
  hist : List HistEntry := []
  /-- audio: tick levels newest first (06 R274), last packet with V = 1 (ps), smallest level of this tick -/
  levels : List Nat := []
  lastV : Option Nat := none
  tickLevel : Nat := 127
  /-- bytes received per layer by tick, newest first: (tick, S, T, bytes) -/
  rates : List (Nat × Nat × Nat × Nat) := []
  off : Option Int := none
  dropped : Nat := 0
  lastOut : Nat := 0
  lastOutAt : Nat := 0
  lastOutTs : Nat := 0
  tsOff : Nat := 0
  curSource : Nat := 0
  actualS : Nat := 0
  actualT : Nat := 0
  actualPaused : Bool := false
  hasActual : Bool := false
  targetS : Nat := 0
  targetT : Nat := 0
  targetPaused : Bool := false
  /-- layer decided on, S, T and paused, that waits for its switch point (06 R264), and the instant of the decision until a key
  picture has been requested for it -/
  want : Option (Nat × Nat × Bool) := none
  wantSince : Option Nat := none
  /-- the newest picture offered by each source, now and at the decision (06 R264) -/
  seenPic : Tab Nat := []
  wantPic : Tab Nat := []
  /-- layers with the instant since which every tick target has been at or above each, lowest first (06 R269) -/
  upSince : List (Nat × Nat × Nat × Bool) := []
  share : Nat := 0
  reserved : List Reserved := []
  /-- left-out source numbers since the last numbered packet -/
  leftOut : List Nat := []
  /-- source numbers sent ahead of the next numbered packet (06 R272) -/
  sentAhead : List Nat := []
  lastNumbered : Nat := 0
  egMap : List EgMap := []
  pliAt : Option Nat := none
  firSeq : Nat := 0
  frameOff : Option Nat := none
  lastFrame : Nat := 0
  packets : Nat := 0
  bytes : Nat := 0
  nackServed : Nat := 0
  nackExpired : Nat := 0
  lost : Nat := 0
  switches : Nat := 0
  /-- what an egress stream reports (04 R191) -/
  shown : Reported := {}
  deriving DecidableEq, Repr

/-- A tombstone (06 R251): kind 0 leg 5-tuple, 1 ingress stream, 2 egress stream. -/
structure Tombstone where
  kind : Nat
  handle : Nat
  owner : Nat
  /-- (lport, local address, local UDP, remote address, remote UDP) -/
  tuple : Nat × Nat × Nat × Nat × Nat
  ssrc : Nat
  expiry : Nat
  drops : Nat := 0
  yard : Nat := 0
  deriving DecidableEq, Repr

/-- Admitted work (01 R58, 08 R341, 09 R388, 10 R423-R426): class 0 decode, 1 encode, 2 compose, 3 thyme, 4 mix charge,
5 decode footprint is held in `bytes`.  `key` names the decode target, rung, room or stream it serves. -/
structure Adm where
  room : Nat
  cls : Nat
  key : Nat
  yard : Nat
  /-- pixel/s, encode charge, thyme cycles or mix cycles -/
  rate : Nat
  /-- DRAM charge in bytes/s -/
  dram : Nat := 0
  /-- buffer bytes and the region kind they lie in -/
  bytes : Nat := 0
  region : Nat := 0
  deriving DecidableEq, Repr

/-- Runtime objects by index, and the incarnations last issued (00 R3-R6). -/
structure Objects where
  rooms : Tab Room := []
  legs : Tab Leg := []
  streams : Tab Stream := []
  roomInc : Tab Nat := []
  legInc : Tab Nat := []
  streamInc : Tab Nat := []
  tombs : List Tombstone := []
  adms : List Adm := []
  shedLevel : Nat := 0
  shedUnder : Nat := 0
  /-- bytes charged to the history and to the logs in this tick -/
  histBytes : Nat := 0
  logBytes : Nat := 0
  /-- ticks in a row in which the log kept within its budget -/
  logUnder : Nat := 0
  /-- streams whose logging is shed: stream index, first and last TIME_NS of the span -/
  logShed : Tab (Nat × Nat) := []
  /-- owner of an object that was deleted because its context was poisoned: (kind, index) due -/
  poisonDue : List (Nat × Nat) := []
  /-- last owner of deleted handles named in events (15 R610) -/
  lastOwner : Tab Nat := []
  deriving DecidableEq, Repr

/-- What a tick boundary puts in force: its instant, the tack and the objects (03 R140; 04 R170). -/
structure View where
  since : Nat
  tack : Option Tack
  objs : Objects
  deriving DecidableEq, Repr

/-! ### Network ports and egress (05, 07) -/

/-- A frame in an egress queue (07 R300). -/
structure QFrame where
  /-- length in bytes with the FCS, as it enters or as it leaves (05 R215) -/
  len : Nat := 0
  enter : Nat
  /-- length without a tag and before the padding to 64 bytes; 0 for a HOST_TX, which the host has built (05 R206, R215) -/
  bare : Nat := 0
  /-- next hop of its leg, and IPv6 -/
  hop : Nat := 0
  v6 : Bool := false
  /-- leg index + 1, 0 for none -/
  leg : Nat := 0
  /-- egress stream index + 1, 0 for none -/
  stream : Nat := 0
  /-- 0 forwarded RTP, 1 padding, 2 RTCP, 3 HOST_TX, 4 time base, 5 rung, 6 mix, 7 retransmission -/
  kind : Nat := 0
  pool : Nat := 0
  spilled : Bool := false
  /-- number of the pending source frame, none when confirmed (04 R193) -/
  pending : Option Nat := none
  /-- egress number of an RTP frame, and its source number -/
  out : Nat := 0
  src : Option Nat := none
  data : Bytes := []
  /-- key of its stream when it entered, used when the stream no longer exists -/
  key : Option SrtpKey := none
  /-- HOST_TX: port, ring, seq, TS -/
  host : Option (Nat × Nat × Nat × Bool) := none
  /-- Pdelay_Resp: receive time of its request in 2^-16 ns (12 R523) -/
  rxAt : Int := 0
  deriving DecidableEq, Repr

/-- A frame in cut-through reception (05 R212). -/
structure RxPending where
  id : Nat
  gen : Nat
  /-- arrival of its first byte in ps, its length from its headers (04 R193), ps a byte -/
  firstIn : Nat
  lenIn : Nat
  bytePs : Nat
  auth : Bool
  /-- its SSRC matched no stream while it was pending (06 R250) -/
  unknown : Bool := false
  /-- egress streams whose actual layer changed with it: counted when it is confirmed (04 R191) -/
  switched : List Nat := []
  /-- what egress streams report once it is confirmed (04 R191) -/
  reports : List (Nat × Reported) := []
  /-- copies that enter the log once it is confirmed: egress stream, egress number, packet (06 R282) -/
  logs : List (Nat × Nat × Bytes) := []
  deriving DecidableEq, Repr

/-- The frame being sent (05 R213). -/
structure TxFrame where
  frame : QFrame
  /-- addresses, tag and EtherType as it is sent; empty for a HOST_TX, whose data holds them (05 R215) -/
  head : Bytes := []
  cls : Nat
  start : Nat
  ends : Nat
  /-- was its class shaped, so that its class shaper was charged (07 R305, R307)? -/
  shaped : Bool := false
  stomped : Bool := false
  overrun : Bool := false
  listEpoch : Nat := 0
  /-- TB0 at the transmit timestamp point: seconds and nanoseconds (12 R520) -/
  stamp : Nat × Nat := (0, 0)
  deriving DecidableEq, Repr

/-- A gate control list in force (05 R222-R226): entries (interval, gates), start and time base. -/
structure GateList where
  entries : List (Nat × Nat)
  tb : Nat
  base : Nat
  cycle : Nat
  /-- time-base reading in ns at which it starts -/
  start : Nat
  deriving DecidableEq, Repr

/-- A logical port. -/
structure LPort where
  up : Bool := false
  localFault : Bool := false
  remoteFault : Bool := false
  amLock : Bool := false
  anDone : Bool := false
  ltDone : Bool := false
  fecDegraded : Bool := false
  rx : Option RxPending := none
  /-- the frame being received has been refused by pool 0 (07 R318) -/
  rxRefused : Bool := false
  /-- when a local or remote fault was last seen (R205) -/
  faultAt : Option Nat := none
  tx : Option TxFrame := none
  /-- pause and PFC frames that wait for a frame boundary (05 R213, R221) -/
  ctl : List Bytes := []
  /-- earliest start of the next frame: gap and preamble after the last (05 R200) -/
  nextStart : Nat := 0
  /-- end of the pause of each class or priority (key c, or 8 + priority for PFC), in ps -/
  pause : Tab Nat := []
  pausedSince : Tab Nat := []
  stormSaid : List Nat := []
  resumedAt : Tab Nat := []
  gcl : Option GateList := none
  gclNext : Option GateList := none
  gateIdx : Nat := 0
  gates : Nat := 0xFF
  gclEpoch : Nat := 0
  /-- the last tick with an uncorrectable codeword -/
  fecLastBad : Nat := 0
  deriving DecidableEq, Repr

/-- A physical port: mode in force and a retraining in progress. -/
structure Phys where
  mode : Nat := 0
  loop : Nat := 0
  retrainAt : Option Nat := none
  deriving DecidableEq, Repr

/-- A class shaper (07 R304-R310). -/
structure ClassShaper where
  credit : Int := 0
  at_ : Nat := 0
  /-- leg index at which the round robin stands, and whether that leg has had the quantum of this turn -/
  turn : Nat := 0
  inTurn : Bool := false
  deriving DecidableEq, Repr

/-- A loft pool (07 R316-R324). -/
structure Pool where
  level : Nat := 0
  latched : Bool := false
  peak : Nat := 0
  crossTick : Nat := 0
  crossNs : Nat := 0
  /-- queues whose notice is unconsumed: (port, queue, posted index) -/
  notice : List (Nat × Nat × Nat) := []
  pausing : Bool := false
  /-- last XOFF sent to each guarded port, in ps -/
  xoffAt : Tab Nat := []
  deriving DecidableEq, Repr

/-- Network ports, queues, shapers and the loft. -/
structure Net where
  lports : Tab LPort := []
  phys : Tab Phys := []
  /-- direct queues by 8 * LPORT + class -/
  direct : Tab (List QFrame) := []
  /-- leg queues by leg index -/
  legq : Tab (List QFrame) := []
  shapers : Tab ClassShaper := []
  pools : Tab Pool := []
  nextRx : Nat := 1
  /-- frames of pending sources that were dropped: source, counter to advance when it is confirmed, by how much, yard (07 R312) -/
  pendDrops : List (Nat × Nat × Nat × Nat) := []
  /-- HOST_TX descriptors that wait for their pool: port, ring, number, generation stamp, fields (07 R318; 03 R139) -/
  hostWait : List (Nat × Nat × Nat × Nat × Desc) := []
  /-- an instant and the logical ports that are then in the reception of a frame without cut-through (05 R205) -/
  inRx : Nat × List Nat := (0, [])
  spillBytes : Nat := 0
  spillCharge : Nat := 0
  spillHold : Bool := false
  spillFull : Bool := false
  loftUsed : Nat := 0
  /-- queue samples: yard, tick, depth, delay µs (07 R334) -/
  samples : List (Nat × Nat × Nat × Nat) := []
  deriving DecidableEq, Repr

/-! ### Ostler, stalls, compositors (01, 08, 09) -/

/-- What an operation does (01 R35). -/
inductive OpKind where
  /-- decode target, picture, share, re-decode -/
  | decode (target pic share : Nat) (again : Bool)
  | encode (room rung pic : Nat)
  | compose (room pic : Nat)
  /-- stream, block, kind of work: 0 decode, 1 jitter buffer and resampling, 2 up-bridge, 3 down-bridge, 4 encode -/
  | codec (stream block kind : Nat)
  /-- kernel, base of its code, instance (2 * stream for an input, 2 * (2048 * room + output) + 1 for an output), block -/
  | kernel (id base instKey block : Nat)
  | mix (room block : Nat)
  deriving DecidableEq, Repr

/-- An operation in flight (01 R39-R48): class 0 stall, 1 thyme core, 2 compositor, 3 mix engine. -/
structure Op where
  id : Nat
  kind : OpKind
  yard : Nat
  cls : Nat
  prio : Nat
  readyAt : Nat
  budget : Nat := 0
  charged : Nat := 0
  /-- unit it runs on -/
  unit : Option Nat := none
  startAt : Nat := 0
  /-- reading of the throttled clock (14 R595) at its dispatch -/
  startClk : Nat := 0
  marked : Bool := false
  dispatched : Bool := false
  /-- it has read a poisoned line (13 R556) -/
  poisoned : Bool := false
  /-- cells its input holds in pool 2 while it waits for a slot, and the cells of it that are spilled (01 R40; 07 R316, R319) -/
  cells : Nat := 0
  spilled : Nat := 0
  deriving DecidableEq, Repr

/-- An overlay bitmap (09 R385): FORMAT, COLOUR as Y, Cb and Cr, size and stride, canvas position, and its bytes row by row. -/
structure Bitmap where
  format : Nat := 0
  colour : Nat × Nat × Nat := (0, 0, 0)
  w : Nat := 0
  h : Nat := 0
  stride : Nat := 0
  x : Nat := 0
  y : Nat := 0
  data : Bytes := []
  deriving DecidableEq, Repr

/-- The contents of a picture buffer, as what has been written over what. -/
inductive Frame where
  /-- undefined contents (08 R352): number from which their free values run, and bit depth -/
  | raw (seed depth : Nat)
  /-- one colour: Y, Cb, Cr -/
  | flat (y cb cr : Nat)
  /-- chroma of a monochrome picture (08 R338) -/
  | mono (base : Frame) (mid : Nat)
  /-- a decoded block -/
  | block (base : Frame) (b : DecBlock)
  /-- a concealed block (08 R358): copied from a picture of some size, displaced by a vector in eighths of a luma sample -/
  | copy (base : Frame) (r : Rect) (src : Frame) (w h : Nat) (dx dy : Int)
  /-- a rectangle, less another within it, in a colour of 8 bits (09 R380); 10-bit canvas or not -/
  | paint (base : Frame) (r hole : Rect) (colour : Nat × Nat × Nat) (d10 : Bool)
  /-- a source picture (09 R380, R381): window of it, place of the window on the canvas, what of that is drawn; 10-bit source and canvas -/
  | scaled (base : Frame) (clip : Rect) (x y : Int) (w h : Nat) (src : Frame) (win : Rect) (from10 to10 : Bool)
  /-- an overlay (09 R387) at a place, and what of it is drawn -/
  | bitmap (base : Frame) (clip : Rect) (x y : Int) (bm : Bitmap) (d10 : Bool)
  deriving DecidableEq, Repr

/-- State of a picture (04 R188, 08 R357). -/
inductive PicState where
  | waiting | decoding | confirmed | pending | concealed | void | skipped
  deriving DecidableEq, Repr

/-- A picture of a decode target. -/
structure Picture where
  num : Nat
  info : PicInfo
  state : PicState := .waiting
  shares : Nat := 0
  left : Nat := 0
  samples : Nat := 0
  /-- void as a reference although composed (08 R357) -/
  voidRef : Bool := false
  substituted : Bool := false
  stall : Nat := 0
  clipped : Bool := false
  poisoned : Bool := false
  /-- a syntax error in its data -/
  damaged : Bool := false
  overrun : Bool := false
  /-- decoded with packets missing -/
  lossy : Bool := false
  endAt : Nat := 0
  /-- REPAIR_WINDOW_MS as it became due (08 R371) -/
  window : Nat := 0
  /-- stalls with the writes of their decodes outside the buffers (08 R355), counted once it resolves (04 R184, R186) -/
  clips : List (Nat × Nat) := []
  /-- the substitute its decode used for a reference never received (08 R357) -/
  against : Option Frame := none
  /-- contents of its buffer, and what its decode in progress has written (08 R362) -/
  frame : Frame := .raw 0 8
  work : Frame := .raw 0 8
  deriving DecidableEq, Repr

/-- A chain of pending pictures (04 R196, R197; 08 R361-R363): its first picture, the end of its window, its pictures, the extended
numbers still missing, the pictures to decode again, and those decoded again from complete data. -/
structure Chain where
  first : Nat
  ends : Nat
  members : List Nat
  missing : List Nat
  todo : List Nat := []
  good : List Nat := []
  deriving DecidableEq, Repr

/-- A decode target (08 R340). -/
structure Target where
  room : Nat
  owner : Nat
  leg : Nat
  streams : List Nat
  /-- decode profile and template record as admitted (08 R371): size, rate, DEPTH10, BFRAMES, MAX_DPB, DEC_S, DEC_T, DEC_SIM -/
  maxW : Nat
  maxH : Nat
  fps : Nat
  d10 : Bool
  bframes : Bool
  dpb : Nat
  decS : Nat
  decT : Nat
  decSim : Nat
  yard : Nat
  /-- of a simulcast group, the member decoded (08 R340) -/
  member : Option Nat := none
  unsupported : Bool := false
  needKey : Bool := false
  pics : List Picture := []
  next : Nat := 0
  chains : List Chain := []
  /-- key request: tries left, last instant -/
  keyReq : Option (Nat × Nat) := none
  hasConfirmed : Bool := false
  everProduced : Bool := false
  /-- pictures due in the last 400 ticks, newest first: tick, and whether decoded (08 R344) -/
  dueTicks : List (Nat × Bool) := []
  deriving DecidableEq, Repr

/-- An encode of a rung under way (09 R396, R400): composed picture, key, temporal layer, requests it serves, and the rate, RATE_FIXED
and key weight in force when it became ready. -/
structure RungPic where
  num : Nat
  key : Bool
  tid : Nat
  requests : Nat := 0
  rate : Nat
  weight : Nat
  minQp : Nat := 0
  maxQp : Nat := 0
  /-- hints of a leader's motion search (09 R390, R392), for each of its 16 × 16 blocks -/
  hints : List BlockVec := []
  deriving DecidableEq, Repr

/-- A rung of a live room (09 R388-R402). -/
structure Rung where
  /-- as admitted (09 R414) -/
  codec : Nat
  profile : Nat
  strct : Nat
  w : Nat
  h : Nat
  yard : Nat
  /-- leader it follows, none when it is a leader -/
  leader : Option Nat
  wantKey : Bool := true
  /-- requests that no key picture has served yet -/
  requests : Nat := 0
  lastKey : Option Nat := none
  /-- when it last coded a key picture on request -/
  lastReqKey : Option Nat := none
  rate : Nat := 0
  q : Nat := 0
  receivers : Nat := 0
  debt : Nat := 0
  enc : List RungPic := []
  prevCosts : List (Nat × Nat) := []
  pos : Nat := 0
  rateTick : Nat := 0
  /-- number of the next packet, and the packets kept for NACKs (09 R397) -/
  seq : Nat := 0
  hist : List HistEntry := []
  /-- bytes sent per layer by tick, newest first: (tick, S, T, bytes) -/
  rates : List (Nat × Nat × Nat × Nat) := []
  deriving DecidableEq, Repr

/-- What a tile shows (09 R376, R377): a picture of its source, its held picture, each by number and whether it makes the canvas
concealed, or FILL. -/
inductive Shown where
  | picture (num : Nat) (concealed : Bool)
  | held (num : Nat) (concealed : Bool)
  | fill
  deriving DecidableEq, Repr

/-- A picture as the compositor reads it: contents, cropping window, and whether it has 10 bits. -/
structure Image where
  frame : Frame
  win : Rect
  d10 : Bool
  deriving DecidableEq, Repr

/-- A tile that has a source (09 R376, R380, R385): its index, the decode target, what it shows, the picture drawn, and the label. -/
structure TileShow where
  tile : Nat
  target : Nat
  shown : Shown
  pic : Option Image := none
  label : Option Bitmap := none
  deriving DecidableEq, Repr

/-- A composed picture: number, layout, its tiles with a source, its room overlays, the boundary at which it became ready, TB0 there in ns
(09 R376-R378, R404); once composed, its samples and, once the primary leader has coded it, that leader's vectors (R390). -/
structure CanvasPic where
  num : Nat
  layout : Nat := 0
  tiles : List TileShow
  overlays : List Bitmap := []
  boundary : Nat
  timeNs : Nat
  frame : Frame := .raw 0 8
  vectors : List BlockVec := []
  deriving DecidableEq, Repr

/-- The canvas and ladder of a COMPOSE room. -/
structure Canvas where
  /-- CANVAS_W, CANVAS_H, FPS, DEPTH10 as admitted (09 R410) -/
  cw : Nat
  ch : Nat
  fps : Nat
  d10 : Bool
  c0 : Nat
  next : Nat := 0
  layout : Nat := 0
  /-- tile sources: stream handle or 0 -/
  tiles : List Nat := []
  /-- leg index + 1 of the featured source and of the current speaker, 0 none; tick since which it is current -/
  featured : Nat := 0
  current : Nat := 0
  currentSince : Nat := 0
  lastConcealed : Bool := false
  /-- number of the last composed picture -/
  lastPic : Nat := 0
  rungs : List Rung := []
  /-- composed pictures that an operation still works on -/
  pics : List CanvasPic := []
  ringPos : Nat := 0
  deriving DecidableEq, Repr

/-- An overlay cache entry: SEQ accepted last, SEQ being copied with its bytes and whether it is a bitmap, bytes held, the SEQ whose
error was posted, and the ACK written (09 R386). -/
structure Overlay where
  seq : Option Nat := none
  copying : Option Nat := none
  newDrawn : Bool := false
  bytes : Nat := 0
  newBytes : Nat := 0
  errSeq : Option Nat := none
  drawn : Bool := false
  ack : Nat := 0
  /-- the bitmap in use, and the one being copied, its bytes not read yet -/
  bitmap : Option Bitmap := none
  newBitmap : Option Bitmap := none
  deriving DecidableEq, Repr

/-- A meter of a mix (10 R441): RMS and PEAK in 0.01 dBFS, the held peak in 0.0025 dB, and the block of its last rise. -/
structure InMeter where
  rms : Int := -9600
  peak : Int := -9600
  hold : Int := -38400
  holdBlock : Nat := 0
  deriving DecidableEq, Repr

/-- An output meter, with the compressor and limiter gains in 0.01 dB and the saturated samples. -/
structure OutMeter where
  meter : InMeter := {}
  comp : Int := 0
  lim : Int := 0
  clipped : Nat := 0
  deriving DecidableEq, Repr

/-- A gain (10 R437-R439) in Q4.20: of the node from the source of leg `heard` to the output of leg `hears`, of IN_GAIN (`hears` is
2^32) or of OUT_GAIN (`heard` is 2^32); the gain it leaves and goes to, samples left of its ramp and samples in all. -/
structure Ramp where
  hears : Nat
  heard : Nat
  from_ : Nat
  dest : Nat
  left : Nat := 0
  len : Nat := 0
  deriving DecidableEq, Repr

/-- A compressor (10 R443): the power at its detector in 2^-86 of full scale, and the gain it applies in 2^-24 dB. -/
structure Comp where
  det : Nat := 0
  gain : Int := 0
  deriving DecidableEq, Repr

/-- Compressor and limiter of a physical output (10 R443, R444): the limiter's gain in 2^-32. -/
structure OutDyn where
  comp : Comp := {}
  lim : Nat := 4294967296
  deriving DecidableEq, Repr

/-- A block of a mix source that is complete for the mix: stream, block, samples. -/
structure MixIn where
  stream : Nat
  block : Nat
  samples : List Word := []
  deriving DecidableEq, Repr

/-- The mix of a MIX room (10). -/
structure MixRoom where
  /-- MIX_N, OPUS_BW, kernels, their budgets and parameters as admitted (10 R457) -/
  mixN : Nat
  opusBw : Nat
  inKernel : Nat
  outKernel : Nat
  inBudget : Nat
  outBudget : Nat
  inParam : Bytes
  outParam : Bytes
  /-- physical outputs reserved, and taken beyond the reservation (10 R425) -/
  reserved : Nat := 0
  unique : Nat := 0
  /-- physical output of each leg with a mix output -/
  rows : Tab Nat := []
  /-- places: stream index + 1 by place -/
  places : Tab Nat := []
  /-- places whose stream is deleted: blocks of their fade left (10 R436) -/
  fading : Tab Nat := []
  /-- active set in order of entry: stream index -/
  active : List Nat := []
  pinnedIn : List Nat := []
  pinExcess : Nat := 0
  /-- settings of the legs as the mix operation of the block takes them (10 R447) -/
  ctl : Tab LegMix := []
  /-- S in 0.01 dBFS and last_speak block, by stream index -/
  level : Tab Int := []
  lastSpeak : Tab Nat := []
  /-- sums of the squares of the last 8 blocks, newest first, by stream (10 R435) -/
  power : Tab (List Nat) := []
  /-- meters by stream (input) and by leg (output); compressors by stream, and dynamics by physical output -/
  inMeter : Tab InMeter := []
  outMeter : Tab OutMeter := []
  inComp : Tab Comp := []
  outDyn : Tab OutDyn := []
  ramps : List Ramp := []
  /-- inputs that are complete -/
  inDone : List MixIn := []
  /-- inputs that the mix operation of a block takes -/
  taken : List MixIn := []
  deriving DecidableEq, Repr

/-- The jitter buffer of a mix source (10 R427-R429).  Positions are in ticks of the RTP clock. -/
structure Jitter where
  /-- resampling ratio in ppb -/
  rho : Int := 0
  /-- packets in the buffer: extended timestamp and length -/
  pkts : List (Nat × Nat) := []
  /-- RFC 3550 interarrival jitter times 16, last transit, length of the newest packet, end of the newest -/
  jit16 : Nat := 0
  transit : Option Int := none
  newest : Nat := 0
  endTs : Option Nat := none
  /-- read position in 10^-9 ticks, once play-out has started -/
  readPos : Option Nat := none
  lastAdjust : Option Nat := none
  /-- concealed blocks in a row, and in all -/
  concealRun : Nat := 0
  concealed : Nat := 0
  /-- the frame of the block in work is missing -/
  missing : Bool := false
  /-- D and depth of the last block in µs -/
  targetUs : Int := 0
  depthUs : Int := 0
  deriving DecidableEq, Repr

/-- The encoder of a mix output (10 R449, R450): frame length in blocks, first block of the frame, settings of the frame, sum of
squares of its blocks, next number and timestamp, and whether a packet has left. -/
structure MixOut where
  blocks : Nat
  start : Nat
  ptime : Nat
  kbps : Nat
  fec : Bool
  power : Nat := 0
  /-- sum of squares and blocks of the frame that is being encoded -/
  framePower : Nat := 0
  frameBlocks : Nat := 0
  seq : Nat := 0
  ts : Nat := 0
  begun : Bool := false
  deriving DecidableEq, Repr

/-- Units of a graph that a boundary took away or replaced, as operations that became ready before it still see them (04 R170; 06 R241): the
instant of that boundary, and the entries that were there. -/
structure Past where
  until_ : Nat := 0
  targets : Tab Target := []
  canvases : Tab Canvas := []
  mixes : Tab MixRoom := []
  jitter : Tab Jitter := []
  mixOuts : Tab MixOut := []
  deriving DecidableEq, Repr

/-- The Ostler and the media units. -/
structure Media where
  ops : List Op := []
  nextOp : Nat := 1
  /-- operations without a slot, and the yards and unit classes whose operations have waited for one in this tick (01 R40) -/
  noSlot : List Op := []
  slotWaits : List (Nat × Nat) := []
  targets : Tab Target := []
  canvases : Tab Canvas := []
  overlays : Tab Overlay := []
  mixes : Tab MixRoom := []
  jitter : Tab Jitter := []
  mixOuts : Tab MixOut := []
  utilTicks : Tab (List Nat) := []
  lastDecision : Tab Nat := []
  stallBusy : Tab Nat := []
  /-- physical outputs reserved or in use at the last tick boundary, by yard (10 R451) -/
  outUsed : Tab Nat := []
  /-- newest first -/
  past : List Past := []
  deriving DecidableEq, Repr

/-! ### Thyme cores (11) -/

/-- One register bank (11 R464). -/
structure Bank where
  g : Tab Word := []
  a : Tab Acc := []
  p : Tab Ptr := []
  deriving DecidableEq, Repr

/-- What a kernel block runs: operation, kernel, base and words of its code, instance, sizes of state and constants (11 R463, R492). -/
structure KernelRun where
  op : Nat
  id : Nat
  base : Nat
  words : Nat
  inst : Nat
  xstate : Nat
  xconst : Nat
  ystate : Nat
  yconst : Nat
  deriving DecidableEq, Repr

/-- One thyme core. -/
structure Core where
  main : Bank := {}
  shadow : Bank := {}
  m : Tab Word := []
  sr : Word := 0
  ira : Ptr := 0
  isr : Word := 0
  imask : BitVec 3 := 0
  ipend : BitVec 3 := 0
  cyc : Word := 0
  budget : Word := 0
  /-- return stack, newest first; SP is its length -/
  stack : List Ptr := []
  pc : Ptr := 0
  /-- delay slots left and where execution goes after them -/
  delay : Option (Nat × Ptr) := none
  /-- repetitions left of the next instruction -/
  rep : Option Nat := none
  /-- old value of Pn or Mn that address generation of the next instruction still uses (11 R474): true for M -/
  stale : Option (Bool × Nat × Word) := none
  x : List (Nat × Word) := []
  y : List (Nat × Word) := []
  pm : List (Nat × Word) := []
  /-- the kernel block in work -/
  run : Option KernelRun := none
  /-- its block as it stood at entry (11 R495) -/
  entry : List Word := []
  /-- number from which the free values of its scratch run, and the scratch words it has written (11 R463) -/
  seed : Nat := 0
  wroteX : List Nat := []
  wroteY : List Nat := []
  /-- cycles since the oldest interrupt that waits was raised (11 R483) -/
  waits : Option Nat := none
  /-- hold-offs: tick and cycles, newest first -/
  holdoffs : List (Nat × Nat) := []
  deriving DecidableEq, Repr

/-- A loaded kernel (11 R499-R506). -/
structure Kernel where
  owner : Nat
  base : Nat
  code : List Word
  entry : Nat
  xstate : Nat
  xconst : List Word
  ystate : Nat
  yconst : List Word
  buildId : Nat
  loadTick : Nat
  blocks : Nat := 0
  cycles : Nat := 0
  overruns : Nat := 0
  faults : Nat := 0
  /-- charged cycles of blocks ended by END: tick and cycles, newest first -/
  maxima : List (Nat × Nat) := []
  faultTick : Option Nat := none
  deriving DecidableEq, Repr

/-- An instance of a kernel at an insert point (11 R497, R498). -/
structure Instance where
  xstate : List Word := []
  ystate : List Word := []
  fresh : Bool := true
  overrunPrev : Bool := false
  faultPrev : Bool := false
  deriving DecidableEq, Repr

/-- Thyme cores, kernels and instances. -/
structure Thyme where
  cores : Tab Core := []
  kernels : Tab Kernel := []
  /-- replaced or unloaded kernels whose code waits for its blocks, with their identifier (11 R503) -/
  old : List (Nat × Kernel) := []
  instances : Tab Instance := []
  /-- the 120 samples at each insert point, as they wait for its kernel or as it left them -/
  blocks : Tab (List Word) := []
  /-- state of pre-empted kernel blocks by operation (11 R484) -/
  saved : Tab Core := []
  deriving DecidableEq, Repr

/-! ### Time bases (12) -/

/-- States of a time base (12 R519). -/
inductive TbState where
  | free | acquiring | locked | holdover | master
  deriving DecidableEq, Repr

/-- A foreign master of a time base, as its newest Announce gives it, and when Announce messages came (12 R515). -/
structure Foreign where
  src : Nat
  port : Nat := 1
  gm : Nat
  prio1 : Nat
  cls : Nat
  accuracy : Nat
  variance : Nat
  prio2 : Nat
  steps : Nat
  utc : Int := 0
  mac : Nat := 0
  ip : Nat := 0
  times : List Nat := []
  deriving DecidableEq, Repr

/-- One time base. -/
structure TimeBase where
  /-- value at `at_` in 2^-32 ns, as the step is held (12 R509) -/
  val : Nat := 0
  at_ : Nat := 0
  /-- what it ran on before: until when, `val`, `at_` and the step, newest first, for the last 10 µs (02 R115; 12 R520) -/
  past : List (Nat × Nat × Nat × Nat) := []
  /-- deviation of the internal fallback while it is in use, in ppb (12 R510), a free value -/
  dev : Int := 0
  /-- f and f_int in 2^-16 ppb -/
  f : Int := 0
  fInt : Int := 0
  /-- newest offset in 2^-16 ns and when it was measured -/
  offset : Option Int := none
  offsetAt : Nat := 0
  setAt : Option Nat := none
  delays : List Int := []
  clampedSince : Option Nat := none
  slewLimited : Bool := false
  slewSaid : Bool := false
  lockRun : Nat := 0
  state : TbState := .free
  /-- when the present run in or out of the locked states began, and when HOLDOVER was entered -/
  since : Nat := 0
  holdAt : Nat := 0
  portState : Nat := 0
  gm : Nat := 0
  steps : Nat := 0
  utc : Int := 0
  lastAnnounce : Nat := 0
  /-- foreign masters; the one followed, with the MAC and IP address it sends from (12 R515) -/
  foreign : List Foreign := []
  parent : Option (Nat × Nat) := none
  parentAddr : Nat × Nat := (0, 0)
  /-- MAC and IP addresses of the slaves that unicast messages have been granted to -/
  grants : List (Nat × Nat) := []
  /-- a two-step Sync that waits for its Follow_Up: sequenceId, receive time and correction in 2^-16 ns (12 R518) -/
  syncWait : Option (Nat × Int × Int) := none
  /-- newest receive time of a Sync less its origin time and corrections -/
  msDiff : Option Int := none
  /-- newest Delay_Req or Pdelay_Req: sequenceId, and when it left -/
  reqSent : Option (Nat × Option Int) := none
  /-- a two-step Pdelay_Resp that waits for its follow-up: sequenceId, its receive time less corrections, requestReceiptTimestamp -/
  respWait : Option (Nat × Int × Int) := none
  refFallback : Bool := true
  /-- SET form 1: seconds to write at the next rollover, and the second in which it was set -/
  setSec : Option (Nat × Nat) := none
  ppsLast : Option Nat := none
  ppsLastAt : Option Nat := none
  ppsOut : Bool := false
  ppsRise : Nat := 0
  ppsLost : Bool := false
  /-- newest active edge of the input, an ignored one too (16 R636) -/
  ppsEdge : Option Nat := none
  /-- sequenceId of the next message of each type -/
  seqs : List (Nat × Nat) := []
  deriving DecidableEq, Repr

/-! ### DRAM (13) -/

/-- States of a rank (13 R568). -/
inductive RankState where
  | absent | member | spare | spareInUse | migrating | degraded | retired | failed | excluded
  deriving DecidableEq, Repr

/-- One rank. -/
structure Rank where
  state : RankState := .absent
  reason : Nat := 0
  set : Nat := 0xFF
  gib : Nat := 0
  mode2x : Bool := false
  owed : Nat := 0
  cleanMr4 : Nat := 0
  /-- ticks of corrected errors and of parity errors, newest first -/
  ceTicks : List Nat := []
  parityTicks : List Nat := []
  poisonTick : Option Nat := none
  /-- largest owed by tick, newest first -/
  maxOwed : List (Nat × Nat) := []
  /-- instant at which the next refresh falls due, once the first has (13 R550, R551) -/
  due : Option Nat := none
  train : Tab Word := []
  deriving DecidableEq, Repr

/-- One DIMM slot. -/
structure Dimm where
  state : Nat := 0
  gb : Nat := 0
  ranks : Nat := 0
  mfr : Nat := 0
  serial : Nat := 0
  sensor : Int := 0
  hotSaid : Bool := false
  deriving DecidableEq, Repr

/-- A migration under way (13 R559). -/
structure Migration where
  src : Nat
  dst : Nat
  startAt : Nat
  mbps : Nat
  /-- bytes copied before the rate in force took effect -/
  done : Nat := 0
  deriving DecidableEq, Repr

/-- A DRAM_SERVICE sweep in progress (13 R566, R567). -/
structure Service where
  port : Nat
  ring : Nat
  seq : Nat
  restore : Bool
  force : Bool
  noTable : Bool
  /-- ranks still to be swept, as 4 * channel + rank -/
  left : List Nat
  good : List Nat := []
  bad : List Nat := []
  deriving DecidableEq, Repr

/-- Memory channels and the Farrier; a rank is keyed by 4 * channel + rank, a DIMM by 2 * channel + slot. -/
structure Dram where
  ranks : Tab Rank := []
  dimms : Tab Dimm := []
  /-- channels out of service after having served, and those trained -/
  trained : List Nat := []
  mrdimm : Bool := false
  rate : Nat := 0
  spareMask : Nat := 0
  /-- members of each set as ranks (4 * channel + rank), in channel order -/
  sets : Tab (List Nat) := []
  setGib : Tab Nat := []
  peakBoot : Nat := 0
  /-- poisoned lines by device address / 64 -/
  poison : List Nat := []
  /-- ranks given up as a whole by a RETRAIN with FORCE, and the lines written in full since (13 R555, R567) -/
  poisonRanks : List Nat := []
  cleared : List Nat := []
  queue : List Nat := []
  migration : Option Migration := none
  scrubPos : Nat := 0
  /-- DRAM_SERVICE sweeps, the one in progress first -/
  services : List Service := []
  /-- contents of the analysis region (09 R403) by device address -/
  analysis : List Host.Cell := []
  /-- a switch has moved that region: number from which the free values of its undefined data run (13 R574) -/
  moved : Option Nat := none
  deriving DecidableEq, Repr

/-! ### Modes, power, pins (14, 16) -/

/-- Operating modes (14 R577). -/
inductive Mode where
  | reset | boot | standby | run | drain | keep | service | safe
  deriving DecidableEq, Repr

/-- Power, reset and thermal state. -/
structure Power where
  mode : Mode := .reset
  prev : Mode := .reset
  /-- tick at whose boundary the mode last changed (14 R581) -/
  movedTick : Option Nat := none
  reqResult : Nat := 0
  /-- pending change: target and its boundary -/
  pend : Option (Mode × Nat) := none
  safeReason : Nat := 0
  keepFrom : Mode := .standby
  drainTick : Nat := 0
  drainEmpty : Option Nat := none
  /-- instant of the entry into KEEP -/
  keepAt : Nat := 0
  /-- instant at which the exit from KEEP had restored the units and cleared the ranks that were lost (14 R584) -/
  keepExit : Option Nat := none
  rstCause : BitVec 9 := 1
  /-- reset sources still asserted: 0 PWRGOOD, 1 RESET_N, 2 trip -/
  asserted : List Nat := [0]
  releaseAt : Option Nat := none
  strapped : Bool := false
  refsel : Bool := false
  svcBoot : Bool := false
  smbAddr : Nat := 0
  refOk : Bool := false
  vcoreMv : Nat := 0
  vsramMv : Nat := 0
  vcoreBelow : Bool := false
  vsramBelow : Bool := false
  vcoreCrossed : Bool := false
  vsramCrossed : Bool := false
  lowMv : Nat := 0xFFFF
  hold : Option Nat := none
  returnAt : Option Nat := none
  /-- lowest readings of the present tick and of the last -/
  vcoreMin : Nat := 0
  vsramMin : Nat := 0
  vcoreLast : Nat := 0
  vsramLast : Nat := 0
  temps : List Int := []
  level : Nat := 0
  /-- the throttled clock of the stalls and compositors (14 R595): hundredths of ps run up to the last change of level, and its instant -/
  clkAcc : Nat := 0
  clkAt : Nat := 0
  levelNext : Option Nat := none
  /-- tick since which TMAX has stayed 3 °C below the threshold of the level -/
  coolSince : Option Nat := none
  crit : Nat := 0
  trip : Nat := 0
  powerDw : Nat := 0
  keepN : Bool := true
  thermtrip : Bool := false
  /-- VAUX is within tolerance -/
  vaux : Bool := true
  /-- YD_STATUS by yard -/
  ydStatus : Tab Nat := []
  booted : Bool := false
  deriving DecidableEq, Repr

/-- The board SMBus and the JTAG port (16 R631-R638). -/
structure Pins where
  alert : Bool := false
  /-- value the last SMBus read returned, the PEC sent after it, and whether the last transaction was acknowledged whole -/
  smbData : Word := 0
  smbPec : Nat := 0
  smbAck : Bool := false
  smbLatches : Latches := {}
  /-- TAP controller state, IEEE 1149.1 encoding; 0xF is Test-Logic-Reset -/
  tap : Nat := 0xF
  ir : BitVec 4 := 1
  irShift : BitVec 4 := 1
  dr : List Bool := []
  boundary : List Bool := []
  tdo : Bool := false
  /-- pins driven from the boundary register under EXTEST -/
  driven : Option (List Bool) := none
  deriving DecidableEq, Repr

/-! ### Events (15) -/

/-- The event router. -/
structure Router where
  /-- window of 400 ticks; arisen and suppressed in it, by source (15 R611) -/
  windowNo : Nat := 0
  window : Tab (Nat × Nat) := []
  /-- sources suppressed in windows that have ended, with their counts, of which EV_SUPPRESSED is still to tell -/
  told : Tab Nat := []
  /-- events held for the first port that enters RUN: source, payload -/
  heldBoot : List (Nat × Nat) := []
  /-- events that arose in KEEP: source, payload, tick, owner port + 1 -/
  heldKeep : List (Nat × Nat × Nat × Nat) := []
  firstRun : Bool := false
  deriving DecidableEq, Repr

/-- Counts that units keep themselves, as a tick left them (04 R174, R185): of kernels their blocks, cycles, overruns and faults, of
streams the concealed blocks of their jitter buffer, of rooms the saturated samples of their outputs by leg. -/
structure UnitCounts where
  kernels : Tab (Nat × Nat × Nat × Nat) := []
  concealed : Tab Nat := []
  clipped : Tab (Tab Nat) := []
  deriving DecidableEq, Repr

/-- The whole machine. -/
structure State where
  /-- commands that wait, first in first out -/
  pending : List Instr := []
  /-- ps since power-on (notes/assumptions/4.md) -/
  now : Nat := 0
  /-- counter of free values, the model's own (notes/assumptions/5.md) -/
  free : Nat := 0
  tick : Nat := 0
  /-- instant of the last tick boundary, and TB0 there in 2^-32 ns, moved along with every explicit set (12 R511) -/
  tickAt : Nat := 0
  tickVal : Int := 0
  hosts : Tab HostPort := []
  waiting : List Waiting := []
  /-- the commands of the present boundary wait for a return or for the end of probation there (notes/assumptions/34.md) -/
  boundaryHeld : Bool := false
  dmas : List Dma := []
  nextDma : Nat := 0
  /-- number the next fetched descriptor takes, the model's own -/
  nextSeq : Nat := 0
  /-- what the bridge has written to each port's host memory; an unlisted byte reads 0 (notes/assumptions/10.md) -/
  hostMem : Tab (List Host.Cell) := []
  gens : Gens := {}
  flash : Flash := {}
  objs : Objects := {}
  /-- the objects as the commands of the last boundary found them, for the frames stamped before it (04 R170) -/
  objsBefore : Objects := {}
  /-- what earlier boundaries put in force, newest first, as far back as a live operation needs (03 R140; 04 R170) -/
  views : List View := []
  net : Net := {}
  media : Media := {}
  thyme : Thyme := {}
  tbs : Tab TimeBase := []
  dram : Dram := {}
  power : Power := {}
  pins : Pins := {}
  router : Router := {}
  /-- 64-bit counters by block, instance and byte offset (04 R182) -/
  cnt : Tab Nat := []
  /-- the counters as the last tick left them, which the snapshots of a boundary report (04 R174, R185) -/
  cntTick : Tab Nat := []
  unitsTick : UnitCounts := {}
  /-- traffic of the DRAM clients in the last tick (01 R69) -/
  clientMbps : List Nat := []
  deriving DecidableEq, Repr

/-- The machine right after power-on, held in RESET (14 R577, R586, R587): nothing configured, every table empty, every field
at the default its structure gives. -/
def State.reset : State := {}

end Sys2Proof.Machine
end

