-- ==== Sys2Proof/Machine/Ops.lean ====
section
/-! DEFINITION. The operations every command is built from: tables, canonical memories, byte strings, counters, free values,
and one-line updates of each part of the state. -/
namespace Sys2Proof.Machine

/-! ### Tables -/

/-- The entry of a table under a key. -/
def look {α : Type} : Tab α → Nat → Option α
  | [], _ => none
  | (k, v) :: t, n => if k = n then some v else look t n

/-- The entry of a table under a key, or a default. -/
def lookD {α : Type} (t : Tab α) (k : Nat) (d : α) : α := (look t k).getD d

/-- Stores an entry, keeping the keys in rising order. -/
def put {α : Type} : Tab α → Nat → α → Tab α
  | [], n, a => [(n, a)]
  | (k, v) :: t, n, a =>
    if n < k then (n, a) :: (k, v) :: t else if n = k then (n, a) :: t else (k, v) :: put t n a

/-- Removes the entry of a key. -/
def del {α : Type} : Tab α → Nat → Tab α
  | [], _ => []
  | (k, v) :: t, n => if k = n then del t n else (k, v) :: del t n

/-- Updates an entry when it is there. -/
def adj {α : Type} (t : Tab α) (k : Nat) (f : α → α) : Tab α :=
  match look t k with
  | some v => put t k (f v)
  | none => t

/-- Updates an entry, taking a default when it is not there. -/
def adjD {α : Type} (t : Tab α) (k : Nat) (d : α) (f : α → α) : Tab α := put t k (f (lookD t k d))

/-- Is the key in the table? -/
def has {α : Type} (t : Tab α) (k : Nat) : Bool := (look t k).isSome

/-- The lowest number not below `n` that is no key of a table whose keys rise. -/
def firstFree {α : Type} : Tab α → Nat → Nat
  | [], n => n
  | (k, _) :: t, n => if k < n then firstFree t n else if k = n then firstFree t (n + 1) else n

/-- Updates the member of a list at a position. -/
def setAt {α : Type} : List α → Nat → α → List α
  | [], _, _ => []
  | _ :: t, 0, a => a :: t
  | h :: t, n + 1, a => h :: setAt t n a

/-! ### Canonical memories: keys strictly rising, no entry equal to what an unlisted address reads as -/

/-- The value of one address; `d` where nothing is listed. -/
def memRead {α : Type} (d : α) : List (Nat × α) → Nat → α
  | [], _ => d
  | (k, v) :: m, a => if k = a then v else memRead d m a

/-- Inserts a value that is not the default. -/
def memInsert {α : Type} : List (Nat × α) → Nat → α → List (Nat × α)
  | [], a, b => [(a, b)]
  | (k, v) :: m, a, b =>
    if a < k then (a, b) :: (k, v) :: m else if a = k then (a, b) :: m else (k, v) :: memInsert m a b

/-- Removes an address. -/
def memErase {α : Type} : List (Nat × α) → Nat → List (Nat × α)
  | [], _ => []
  | (k, v) :: m, a => if k = a then memErase m a else (k, v) :: memErase m a

/-- Stores a value at an address. -/
def memWrite {α : Type} [DecidableEq α] (d : α) (m : List (Nat × α)) (a : Nat) (b : α) : List (Nat × α) :=
  if b = d then memErase m a else memInsert m a b

/-- The canonical form, with every key at least `lo`. -/
def memWfFrom {α : Type} [DecidableEq α] (d : α) : Nat → List (Nat × α) → Bool
  | _, [] => true
  | lo, (k, v) :: m => decide (lo ≤ k) && (decide (v ≠ d) && memWfFrom d (k + 1) m)

/-- The canonical form of a memory. -/
def Memory.wf {α : Type} [DecidableEq α] (d : α) (m : List (Nat × α)) : Bool := memWfFrom d 0 m

/-- Stores consecutive values from an address. -/
def memWriteAll {α : Type} [DecidableEq α] (d : α) : List (Nat × α) → Nat → List α → List (Nat × α)
  | m, _, [] => m
  | m, a, b :: bs => memWriteAll d (memWrite d m a b) (a + 1) bs

/-- `n` consecutive values from an address. -/
def memReadAll {α : Type} (d : α) (m : List (Nat × α)) : Nat → Nat → List α
  | _, 0 => []
  | a, n + 1 => memRead d m a :: memReadAll d m (a + 1) n

/-! ### Numbers and bytes (00 R14, R15) -/

/-- Bits [hi:lo] of a number. -/
def bits (v hi lo : Nat) : Nat := (v / 2 ^ lo) % 2 ^ (hi + 1 - lo)

/-- Bit i of a number. -/
def bit (v i : Nat) : Bool := (v / 2 ^ i) % 2 == 1

/-- 1 or 0. -/
def b2n (b : Bool) : Nat := if b then 1 else 0

/-- A number of w bits as two's complement. -/
def sgn (w v : Nat) : Int := if v % 2 ^ w < 2 ^ (w - 1) then (v % 2 ^ w : Nat) else (v % 2 ^ w : Nat) - (2 ^ w : Nat)

/-- The w-bit two's complement pattern of an integer. -/
def unsgn (w : Nat) (v : Int) : Nat := (v % (2 ^ w : Nat)).toNat

/-- Least of a number and the largest w-bit value. -/
def satU (w v : Nat) : Nat := min v (2 ^ w - 1)

/-- An integer brought within signed w bits. -/
def satS (w : Nat) (v : Int) : Int := max (-(2 ^ (w - 1) : Nat)) (min v ((2 ^ (w - 1) : Nat) - 1))

/-- An integer brought within two bounds. -/
def clampI (lo hi v : Int) : Int := max lo (min hi v)

/-- Quotient rounded up. -/
def cdiv (a b : Nat) : Nat := (a + b - 1) / b

/-- Byte i of a string; a byte it does not hold is 0. -/
def byteAt (b : Bytes) (i : Nat) : Nat := ((b.drop i).headD 0).toNat

/-- A little-endian number of the bytes of a string, all of them. -/
def leNat : Bytes → Nat
  | [] => 0
  | b :: bs => b.toNat + 256 * leNat bs

/-- The n-byte little-endian field at an offset. -/
def le (b : Bytes) (off n : Nat) : Nat := leNat ((b.drop off).take n)

/-- A big-endian number, given what stands before it. -/
def beNat : Nat → Bytes → Nat
  | acc, [] => acc
  | acc, b :: bs => beNat (acc * 256 + b.toNat) bs

/-- The n-byte field in network byte order at an offset. -/
def be (b : Bytes) (off n : Nat) : Nat := beNat 0 ((b.drop off).take n ++ List.replicate (n - ((b.drop off).take n).length) 0)

/-- n bytes of a number, little-endian. -/
def leBytes : Nat → Nat → Bytes
  | 0, _ => []
  | n + 1, v => BitVec.ofNat 8 v :: leBytes n (v / 256)

/-- n bytes of a number in network byte order. -/
def beBytes (n v : Nat) : Bytes := (leBytes n v).reverse

/-- n zero bytes. -/
def zeros (n : Nat) : Bytes := List.replicate n 0

/-- Are the bytes from `lo` up to but not including `hi` all zero? -/
def zeroIn (b : Bytes) (lo hi : Nat) : Bool := ((b.drop lo).take (hi - lo)).all (· == 0)

/-- The offset of the first nonzero byte from `lo` up to but not including `hi`. -/
def firstNonzero (b : Bytes) (lo hi : Nat) : Option Nat :=
  ((List.range (hi - lo)).map (lo + ·)).find? (fun i => byteAt b i != 0)

/-- A string brought to a length: cut, or continued with zeros. -/
def padTo (n : Nat) (b : Bytes) : Bytes := b.take n ++ zeros (n - b.length)

/-- Replaces bytes of a string at an offset. -/
def splice (b : Bytes) (off : Nat) (new : Bytes) : Bytes := b.take off ++ new ++ b.drop (off + new.length)

/-- Sum of the 16-bit words of a string. -/
def wordSum : Bytes → Nat
  | a :: b :: t => a.toNat * 256 + b.toNat + wordSum t
  | [a] => a.toNat * 256
  | [] => 0

/-- One's complement sum folded to 16 bits. -/
def foldSum (n : Nat) : Nat := let a := n % 65536 + n / 65536; a % 65536 + a / 65536

/-- A record from its fields (offset, width in bytes, value), in rising order of offset, padded with zeros to `len`
(04 R182). -/
def layout (len : Nat) (fields : List (Nat × Nat × Nat)) : Bytes :=
  padTo len (fields.foldl (fun acc (off, w, v) => padTo off acc ++ leBytes w v) [])

/-- One step of the CRC-32C shift register (03 R125). -/
def crcShift (c : Nat) : Nat := if c % 2 == 1 then (c / 2) ^^^ 0x82F63B78 else c / 2

/-- CRC-32C of a string, from a register value. -/
def crcStep (c : Nat) (b : Byte) : Nat :=
  crcShift (crcShift (crcShift (crcShift (crcShift (crcShift (crcShift (crcShift (c ^^^ b.toNat))))))))

/-- CRC-32C (Castagnoli), reflected, initial value and final XOR 0xFFFF_FFFF (03 R125). -/
def crc32c (b : Bytes) : Nat := (b.foldl crcStep 0xFFFFFFFF) ^^^ 0xFFFFFFFF

/-- Generation a is newer than generation b (03 R131). -/
def newer (a b : Nat) : Bool :=
  let d := (a + 2 ^ 32 - b % 2 ^ 32) % 2 ^ 32
  decide (0 < d ∧ d < 2 ^ 31)

/-! ### Parts of the state -/

/-- A host port; H0-H3 all exist. -/
def State.host (s : State) (p : Nat) : HostPort := lookD s.hosts p {}

/-- Updates a host port. -/
def State.modHost (s : State) (p : Nat) (f : HostPort → HostPort) : State := { s with hosts := adjD s.hosts p {} f }

/-- Updates the generations. -/
def State.modGens (s : State) (f : Gens → Gens) : State := { s with gens := f s.gens }

/-- Updates the flash. -/
def State.modFlash (s : State) (f : Flash → Flash) : State := { s with flash := f s.flash }

/-- Updates the runtime objects. -/
def State.modObjs (s : State) (f : Objects → Objects) : State := { s with objs := f s.objs }

/-- Updates a room. -/
def State.modRoom (s : State) (i : Nat) (f : Room → Room) : State :=
  { s with objs := { s.objs with rooms := adj s.objs.rooms i f } }

/-- Updates a leg. -/
def State.modLeg (s : State) (i : Nat) (f : Leg → Leg) : State :=
  { s with objs := { s.objs with legs := adj s.objs.legs i f } }

/-- Updates a stream. -/
def State.modStream (s : State) (i : Nat) (f : Stream → Stream) : State :=
  { s with objs := { s.objs with streams := adj s.objs.streams i f } }

/-- Updates the network ports, queues and pools. -/
def State.modNet (s : State) (f : Net → Net) : State := { s with net := f s.net }

/-- A logical port. -/
def State.lport (s : State) (l : Nat) : LPort := lookD s.net.lports l {}

/-- Updates a logical port. -/
def State.modLport (s : State) (l : Nat) (f : LPort → LPort) : State :=
  { s with net := { s.net with lports := adjD s.net.lports l {} f } }

/-- Updates the media units. -/
def State.modMedia (s : State) (f : Media → Media) : State := { s with media := f s.media }

/-- Updates the thyme cores and kernels. -/
def State.modThyme (s : State) (f : Thyme → Thyme) : State := { s with thyme := f s.thyme }

/-- A thyme core. -/
def State.core (s : State) (c : Nat) : Core := lookD s.thyme.cores c {}

/-- Updates a thyme core. -/
def State.setCore (s : State) (c : Nat) (k : Core) : State :=
  { s with thyme := { s.thyme with cores := put s.thyme.cores c k } }

/-- A time base. -/
def State.tb (s : State) (n : Nat) : TimeBase := lookD s.tbs n {}

/-- Updates a time base. -/
def State.modTb (s : State) (n : Nat) (f : TimeBase → TimeBase) : State := { s with tbs := adjD s.tbs n {} f }

/-- Updates the DRAM. -/
def State.modDram (s : State) (f : Dram → Dram) : State := { s with dram := f s.dram }

/-- Updates the power state. -/
def State.modPower (s : State) (f : Power → Power) : State := { s with power := f s.power }

/-- Updates the pins. -/
def State.modPins (s : State) (f : Pins → Pins) : State := { s with pins := f s.pins }

/-- Updates the event router. -/
def State.modRouter (s : State) (f : Router → Router) : State := { s with router := f s.router }

/-! ### Time, counters, free values -/

/-- The machine at an instant; a command that bears an instant already past acts now (notes/assumptions/4.md). -/
def State.at (s : State) (t : Nat) : State := { s with now := max s.now t }

/-- One microsecond in ps. -/
def us : Nat := 1000000

/-- One media tick, 2.5 ms, in ps (12 R511). -/
def tickPs : Nat := 2500000000

/-- The key of a counter: snapshot block, instance, byte offset in its record (04 R182). -/
def ctr (blk inst off : Nat) : Nat := (blk * 2 ^ 24 + inst) * 2 ^ 16 + off

/-- The value of a counter. -/
def State.cntOf (s : State) (k : Nat) : Nat := lookD s.cnt k 0

/-- Adds to a counter. Counters are 64 bits wide (04 R184). -/
def State.addCnt (s : State) (k n : Nat) : State :=
  if n = 0 then s else { s with cnt := put s.cnt k ((lookD s.cnt k 0 + n) % 2 ^ 64) }

/-- Adds one to a counter. -/
def State.bump (s : State) (k : Nat) : State := s.addCnt k 1

/-- Clears the counters of a record. -/
def State.clearCnt (s : State) (blk inst : Nat) : State :=
  { s with cnt := s.cnt.filter (fun kv => kv.1 / 2 ^ 16 != blk * 2 ^ 24 + inst) }

/-- Takes the next free value, below `m`. -/
def State.draw (s : State) (m : Nat) : Nat × State := (Config.freeNat s.free % m, { s with free := s.free + 1 })

/-- Runs an update for each number of a list, in order. -/
def forEach {α : Type} (l : List α) (f : α → State → State) (s : State) : State := l.foldl (fun s a => f a s) s

/-- Runs an update when a condition holds. -/
def State.when (s : State) (c : Bool) (f : State → State) : State := if c then f s else s

/-! ### Host memory written by the bridge (02 R71) -/

/-- Can the bridge issue a request on the port: link up, Bus Master Enable set, function in D0 (02 R122)? -/
def HostPort.canIssue (h : HostPort) : Bool := h.link && h.bme && !h.d3hot

/-- Writes bytes into a port's host memory; a write that the bridge cannot issue writes nothing (02 R122). -/
def State.hostWrite (s : State) (p addr : Nat) (b : Bytes) : State :=
  { s with hostMem :=
      if (s.host p).canIssue then put s.hostMem p (memWriteAll (0 : Byte) (lookD s.hostMem p []) addr b) else s.hostMem }

/-- Writes bytes into host memory by an access that has been issued. -/
def State.hostPut (s : State) (p addr : Nat) (b : Bytes) : State :=
  { s with hostMem := put s.hostMem p (memWriteAll (0 : Byte) (lookD s.hostMem p []) addr b) }

/-- Reads bytes the bridge has written. -/
def State.hostRead (s : State) (p addr n : Nat) : Bytes := memReadAll (0 : Byte) (lookD s.hostMem p []) addr n

/-- Writes bytes of the analysis region at a device address; a line that is written in full loses its poison (13 R555). -/
def State.dramWrite (s : State) (a : Nat) (b : Bytes) : State :=
  let whole (line : Nat) : Bool := decide (a ≤ 64 * line ∧ 64 * line + 64 ≤ a + b.length)
  s.modDram (fun d => { d with
    analysis := memWriteAll (0 : Byte) d.analysis a b, poison := d.poison.filter (fun l => !whole l)
    cleared := if d.poisonRanks = [] then d.cleared
      else (List.range (b.length / 64 + 1)).filterMap (fun i => let l := (a + 63) / 64 + i; if whole l then some l else none) ++ d.cleared })

end Sys2Proof.Machine
end

