-- ==== Sys2Proof/Machine/Crypto.lean ====
section
/-! DEFINITION. The cryptography the manual names by its standards: AES (FIPS 197) with counter mode and GCM (SP 800-38D), SHA-1 and
SHA-384 (FIPS 180-4), HMAC (RFC 2104), SRTP and SRTCP (RFC 3711, RFC 7714; 06 R253), key unwrap (RFC 3394; 06 R257) and ECDSA over P-384
(FIPS 186; 03 R125, R156).  notes/assumptions/6.md says what is taken from those standards. -/
namespace Sys2Proof.Machine

/-! ### Bytes as numbers -/

/-- A byte string as numbers below 256, and back. -/
def nums (b : Bytes) : List Nat := b.map (·.toNat)
def ofNums (l : List Nat) : Bytes := l.map (BitVec.ofNat 8)

/-- Byte-wise exclusive or, as long as the shorter. -/
def xorN (a b : List Nat) : List Nat := List.zipWith Nat.xor a b

/-- A big-endian number of a list, and a list of n bytes of a number. -/
def natOf (l : List Nat) : Nat := l.foldl (fun v b => v * 256 + b) 0
def bytesOf (n v : Nat) : List Nat := (List.range n).map (fun i => v / 256 ^ (n - 1 - i) % 256)

/-- A list in pieces of n, at most `fuel` of them. -/
def chunks (n : Nat) : Nat → List Nat → List (List Nat)
  | 0, _ => []
  | _, [] => []
  | f + 1, l => l.take n :: chunks n f (l.drop n)

/-- All of a list in pieces of n. -/
def pieces (n : Nat) (l : List Nat) : List (List Nat) := chunks n (cdiv l.length n) l

/-! ### AES (FIPS 197) -/

/-- Multiplication by x in GF(2^8). -/
def xtime (a : Nat) : Nat := if a < 128 then 2 * a else Nat.xor (2 * a % 256) 0x1B

/-- Product in GF(2^8) over the n low bits of the second factor. -/
def gmul (a b : Nat) : Nat → Nat
  | 0 => 0
  | n + 1 => Nat.xor (if b % 2 = 1 then a else 0) (gmul (xtime a) (b / 2) n)

/-- The inverse in GF(2^8), a^254. -/
def ginv (a : Nat) : Nat :=
  let sq (x : Nat) : Nat := gmul x x 8
  let a2 := sq a
  let a4 := sq a2
  let a8 := sq a4
  let a16 := sq a8
  let a32 := sq a16
  let a64 := sq a32
  let a128 := sq a64
  [a4, a8, a16, a32, a64, a128].foldl (fun v x => gmul v x 8) a2

/-- The S-box of one byte. -/
def sboxOf (a : Nat) : Nat :=
  let b := ginv a
  let rot (k : Nat) : Nat := b * 2 ^ k % 256 + b / 2 ^ (8 - k)
  [rot 1, rot 2, rot 3, rot 4, 0x63].foldl Nat.xor b

/-- The S-box and its inverse as tables. -/
def sboxTable : Array Nat := ((List.range 256).map sboxOf).toArray
def sboxInverse : Array Nat := (List.range 256).foldl (fun t a => t.setIfInBounds (sboxOf a) a) (Array.replicate 256 0)
def sbox (a : Nat) : Nat := sboxTable.getD a 0

/-- The words of the key schedule, newest first, n of them still to come. -/
def aesWords (nk : Nat) : Nat → Nat → List (List Nat) → List (List Nat)
  | 0, _, ws => ws
  | n + 1, rcon, ws =>
    let i := ws.length
    let last := ws.headD []
    let t := if i % nk = 0 then xorN ((last.drop 1 ++ last.take 1).map sbox) [rcon, 0, 0, 0]
      else if 6 < nk ∧ i % nk = 4 then last.map sbox else last
    aesWords nk n (if i % nk = 0 then xtime rcon else rcon) (xorN (ws.getD (nk - 1) []) t :: ws)

/-- The round keys of a key of 16 or 32 bytes. -/
def aesKeys (key : List Nat) : List (List Nat) :=
  let nk := key.length / 4
  pieces 16 (aesWords nk (4 * (nk + 7) - nk) 1 (pieces 4 key).reverse).reverse.flatten

/-- Bytes moved by ShiftRows: place i takes the byte of place `(5 i) mod 16`, and the inverse. -/
def shiftRows (b : List Nat) : List Nat := (List.range 16).map (fun i => b.getD (5 * i % 16) 0)
def unshiftRows (b : List Nat) : List Nat := (List.range 16).map (fun i => b.getD (13 * i % 16) 0)

/-- MixColumns with the coefficients of the matrix's first row. -/
def mixColumns (m : List Nat) (b : List Nat) : List Nat :=
  (List.range 16).map (fun i =>
    let (c, r) := (i / 4, i % 4)
    (List.range 4).foldl (fun v k => Nat.xor v (gmul (b.getD (4 * c + k) 0) (m.getD ((k + 4 - r) % 4) 0) 8)) 0)

/-- Encryption of one block under round keys. -/
def aesRounds : List (List Nat) → List Nat → List Nat
  | [], b => b
  | [k], b => xorN (shiftRows (b.map sbox)) k
  | k :: ks, b => aesRounds ks (xorN (mixColumns [2, 3, 1, 1] (shiftRows (b.map sbox))) k)

/-- AES encryption of a block of 16 bytes. -/
def aesBlock (keys : List (List Nat)) (b : List Nat) : List Nat := aesRounds (keys.drop 1) (xorN b (keys.headD []))

/-- Decryption of one block under round keys, the last first. -/
def aesUnrounds : List (List Nat) → List Nat → List Nat
  | [], b => b
  | [k], b => xorN ((unshiftRows b).map (fun x => sboxInverse.getD x 0)) k
  | k :: ks, b => aesUnrounds ks (mixColumns [14, 11, 13, 9] (xorN ((unshiftRows b).map (fun x => sboxInverse.getD x 0)) k))

/-- AES decryption of a block of 16 bytes. -/
def aesUnblock (keys : List (List Nat)) (b : List Nat) : List Nat := aesUnrounds (keys.reverse.drop 1) (xorN b (keys.getLastD []))

/-- n bytes of key stream from a counter block, of which the low `w` bits count. -/
def ctrStream (keys : List (List Nat)) (w iv n : Nat) : List Nat :=
  ((List.range (cdiv n 16)).flatMap (fun i =>
    aesBlock keys (bytesOf 16 (iv / 2 ^ w * 2 ^ w + (iv % 2 ^ w + i) % 2 ^ w)))).take n

/-! ### GCM (SP 800-38D) -/

/-- Product in GF(2^128), bit 127 first, over n bits of the first factor. -/
def ghashMul (x v : Nat) : Nat → Nat → Nat
  | 0, z => z
  | n + 1, z =>
    let z := if x / 2 ^ n % 2 = 1 then Nat.xor z v else z
    ghashMul x (if v % 2 = 1 then Nat.xor (v / 2) (0xE1 * 2 ^ 120) else v / 2) n z

/-- GHASH over data already padded to blocks. -/
def ghash (h : Nat) (blocks : List (List Nat)) : Nat :=
  blocks.foldl (fun y b => ghashMul (Nat.xor y (natOf b)) h 128 0) 0

/-- Zeros that fill a list to whole blocks. -/
def padBlock (l : List Nat) : List Nat := l ++ List.replicate (cdiv l.length 16 * 16 - l.length) 0

/-- The tag of 16 bytes for a 96-bit IV. -/
def gcmTag (keys : List (List Nat)) (iv aad text : List Nat) : List Nat :=
  let h := natOf (aesBlock keys (List.replicate 16 0))
  let lens := bytesOf 8 (8 * aad.length) ++ bytesOf 8 (8 * text.length)
  xorN (bytesOf 16 (ghash h (pieces 16 (padBlock aad ++ padBlock text ++ lens)))) (aesBlock keys (iv ++ [0, 0, 0, 1]))

/-- GCM encryption, and decryption without its tag. -/
def gcmText (keys : List (List Nat)) (iv text : List Nat) : List Nat :=
  xorN text (ctrStream keys 32 (natOf (iv ++ [0, 0, 0, 2])) text.length)

/-! ### SHA-1, SHA-384, HMAC (FIPS 180-4, RFC 2104) -/

/-- Padding of a message for words of w bits: 0x80, zeros, and the length in two words. -/
def shaPad (w : Nat) (m : List Nat) : List Nat :=
  let b := 2 * w
  let tail := w / 4
  m ++ 0x80 :: List.replicate ((b - (m.length + 1 + tail) % b) % b) 0 ++ bytesOf tail (8 * m.length)

/-- Rotation to the left and to the right of a word of w bits. -/
def rotl (w k x : Nat) : Nat := x * 2 ^ k % 2 ^ w + x / 2 ^ (w - k)
def rotr (w k x : Nat) : Nat := rotl w (w - k) x

/-- The 80 words of a block's schedule, newest first, n still to come. -/
def sha1Words : Nat → List Nat → List Nat
  | 0, ws => ws
  | n + 1, ws =>
    sha1Words n (rotl 32 1 ([ws.getD 7 0, ws.getD 13 0, ws.getD 15 0].foldl Nat.xor (ws.getD 2 0)) :: ws)

/-- The rounds of a block from round t on. -/
def sha1Rounds : Nat → List Nat → List Nat → List Nat
  | _, [], h => h
  | t, w :: ws, h =>
    match h with
    | [a, b, c, d, e] =>
      let (f, k) := if t < 20 then (Nat.xor (Nat.land b c) (Nat.land (0xFFFFFFFF - b) d), 0x5A827999)
        else if t < 40 then (Nat.xor (Nat.xor b c) d, 0x6ED9EBA1)
        else if t < 60 then (Nat.xor (Nat.xor (Nat.land b c) (Nat.land b d)) (Nat.land c d), 0x8F1BBCDC)
        else (Nat.xor (Nat.xor b c) d, 0xCA62C1D6)
      sha1Rounds (t + 1) ws [(rotl 32 5 a + f + e + k + w) % 2 ^ 32, a, rotl 32 30 b, c, d]
    | _ => h

/-- SHA-1. -/
def sha1 (m : List Nat) : List Nat :=
  ((pieces 64 (shaPad 32 m)).foldl (fun h b =>
      let ws := (sha1Words 64 ((pieces 4 b).map natOf).reverse).reverse
      List.zipWith (fun x y => (x + y) % 2 ^ 32) h (sha1Rounds 0 ws h))
    [0x67452301, 0xEFCDAB89, 0x98BADCFE, 0x10325476, 0xC3D2E1F0]).flatMap (bytesOf 4)

/-- HMAC-SHA-1 under a key of at most 64 bytes. -/
def hmacSha1 (key m : List Nat) : List Nat :=
  let k := key ++ List.replicate (64 - key.length) 0
  sha1 (k.map (Nat.xor 0x5C) ++ sha1 (k.map (Nat.xor 0x36) ++ m))

/-- The first n primes, tried upwards from k, newest last; `fuel` numbers are tried. -/
def primesFrom : Nat → Nat → List Nat → List Nat
  | 0, _, ps => ps
  | f + 1, k, ps => primesFrom f (k + 1) (if ps.all (fun p => k % p != 0) then ps ++ [k] else ps)

/-- The primes below 410: the first eighty. -/
def primes80 : List Nat := primesFrom 408 2 []

/-- The greatest number whose cube is at most x, n bits still to be found. -/
def cubeRoot (x : Nat) : Nat → Nat → Nat
  | 0, r => r
  | n + 1, r => cubeRoot x n (if (r + 2 ^ n) ^ 3 ≤ x then r + 2 ^ n else r)

/-- Round constants and first hash value: 64 bits of the fractions of the cube roots of the first eighty primes, and of the square roots of
the ninth to the sixteenth. -/
def sha384K : List Nat := primes80.map (fun p => cubeRoot (p * 2 ^ 192) 68 0 % 2 ^ 64)
def sha384H : List Nat := ((primes80.drop 8).take 8).map (fun p => Nat.sqrt (p * 2 ^ 128) % 2 ^ 64)

/-- The 80 words of a block's schedule, newest first, n still to come. -/
def sha512Words : Nat → List Nat → List Nat
  | 0, ws => ws
  | n + 1, ws =>
    let x := ws.getD 14 0
    let y := ws.getD 1 0
    let s0 := Nat.xor (Nat.xor (rotr 64 1 x) (rotr 64 8 x)) (x / 2 ^ 7)
    let s1 := Nat.xor (Nat.xor (rotr 64 19 y) (rotr 64 61 y)) (y / 2 ^ 6)
    sha512Words n ((s1 + ws.getD 6 0 + s0 + ws.getD 15 0) % 2 ^ 64 :: ws)

/-- One round with its constant and word. -/
def sha512Round (h : List Nat) (kw : Nat × Nat) : List Nat :=
  match h with
  | [a, b, c, d, e, f, g, hh] =>
    let s1 := Nat.xor (Nat.xor (rotr 64 14 e) (rotr 64 18 e)) (rotr 64 41 e)
    let ch := Nat.xor (Nat.land e f) (Nat.land (2 ^ 64 - 1 - e) g)
    let t1 := hh + s1 + ch + kw.1 + kw.2
    let s0 := Nat.xor (Nat.xor (rotr 64 28 a) (rotr 64 34 a)) (rotr 64 39 a)
    let maj := Nat.xor (Nat.xor (Nat.land a b) (Nat.land a c)) (Nat.land b c)
    [(t1 + s0 + maj) % 2 ^ 64, a, b, c, (d + t1) % 2 ^ 64, e, f, g]
  | _ => h

/-- SHA-384 as a number of 384 bits, the first byte most significant. -/
def sha384 (m : Bytes) : Nat :=
  natOf (((pieces 128 (shaPad 64 (nums m))).foldl (fun h b =>
      let ws := (sha512Words 64 ((pieces 8 b).map natOf).reverse).reverse
      List.zipWith (fun x y => (x + y) % 2 ^ 64) h ((sha384K.zip ws).foldl sha512Round h)) sha384H).take 6 |>.flatMap (bytesOf 8))

/-! ### SRTP (06 R253): RFC 3711 and RFC 7714 -/

/-- Lengths of the master key and master salt of a suite. -/
def suiteKey (suite : Nat) : Nat := if suite = 3 then 32 else 16
def suiteSalt (suite : Nat) : Nat := if suite = 1 then 14 else 12

/-- A session key of n bytes under a label: counter mode over the master salt, of 112 bits, with the label above its low 48 bits. -/
def sessionKey (suite : Nat) (master : List Nat) (label n : Nat) : List Nat :=
  let salt := natOf ((master.drop (suiteKey suite)).take (suiteSalt suite)) * 2 ^ (if suite = 1 then 0 else 16)
  ctrStream (aesKeys (master.take (suiteKey suite))) 16 (Nat.xor salt (label * 2 ^ 48) * 2 ^ 16) n

/-- Session encryption key as round keys and session salt; `rtcp` chooses the labels. -/
def sessionEnc (suite : Nat) (master : List Nat) (rtcp : Bool) : List (List Nat) × List Nat :=
  let base := if rtcp then 3 else 0
  (aesKeys (sessionKey suite master base (suiteKey suite)), sessionKey suite master (base + 2) (suiteSalt suite))

/-- Session authentication key of suite 1. -/
def sessionAuth (suite : Nat) (master : List Nat) (rtcp : Bool) : List Nat := sessionKey suite master (if rtcp then 4 else 1) 20

/-- Length of the header of an RTP packet, CSRCs and extension included. -/
def rtpHeadLen (p : List Nat) : Nat :=
  let cs := 12 + 4 * (p.headD 0 % 16)
  if p.headD 0 / 16 % 2 = 1 then cs + 4 + 4 * (p.getD (cs + 2) 0 * 256 + p.getD (cs + 3) 0) else cs

/-- Encrypts or decrypts what follows the header, without its tag: SSRC and index choose the IV. -/
def srtpText (suite : Nat) (master : List Nat) (rtcp : Bool) (ssrc index : Nat) (text : List Nat) : List Nat :=
  let (keys, salt) := sessionEnc suite master rtcp
  if suite = 1 then
    let iv := Nat.xor (Nat.xor (natOf salt * 2 ^ 16) (ssrc * 2 ^ 64)) (index * 2 ^ 16)
    xorN text (ctrStream keys 16 iv text.length)
  else gcmText keys (xorN (bytesOf 12 (ssrc * 2 ^ 48 + index)) salt) text

/-- The authentication tag: of suite 1 over `signed`, else of the AEAD over the header and the encrypted text. -/
def srtpTag (suite : Nat) (master : List Nat) (rtcp : Bool) (ssrc index : Nat) (signed aad text : List Nat) : List Nat :=
  if suite = 1 then (hmacSha1 (sessionAuth suite master rtcp) signed).take 10
  else
    let (keys, salt) := sessionEnc suite master rtcp
    gcmTag keys (xorN (bytesOf 12 (ssrc * 2 ^ 48 + index)) salt) aad text

/-- SSRC and packet index of an RTP packet under a roll-over counter. -/
def rtpSsrc (p : List Nat) : Nat := natOf ((p.drop 8).take 4)
def rtpIndex (p : List Nat) (roc : Nat) : Nat := roc % 2 ^ 32 * 65536 + natOf ((p.drop 2).take 2)

/-- Protects an RTP packet. -/
def srtpSeal (suite : Nat) (key : Bytes) (roc : Nat) (pkt : Bytes) : Bytes :=
  let p := nums pkt
  let m := nums key
  let n := rtpHeadLen p
  let idx := rtpIndex p roc
  let text := srtpText suite m false (rtpSsrc p) idx (p.drop n)
  let out := p.take n ++ text
  ofNums (out ++ srtpTag suite m false (rtpSsrc p) idx (out ++ bytesOf 4 roc) (p.take n) text)

/-- Length of a suite's tag. -/
def suiteTag (suite : Nat) : Nat := if suite = 1 then 10 else 16

/-- Decrypts an SRTP packet without asking whether it is authentic. -/
def srtpPeek (suite : Nat) (key : Bytes) (roc : Nat) (pkt : Bytes) : Bytes :=
  let p := (nums pkt).take (pkt.length - suiteTag suite)
  let n := rtpHeadLen p
  ofNums (p.take n ++ srtpText suite (nums key) false (rtpSsrc p) (rtpIndex p roc) (p.drop n))

/-- Authenticates and decrypts an SRTP packet. -/
def srtpOpen (suite : Nat) (key : Bytes) (roc : Nat) (pkt : Bytes) : Option Bytes :=
  let p := (nums pkt).take (pkt.length - suiteTag suite)
  let n := rtpHeadLen p
  let tag := srtpTag suite (nums key) false (rtpSsrc p) (rtpIndex p roc) (p ++ bytesOf 4 roc) (p.take n) (p.drop n)
  if pkt.length < suiteTag suite + n ∨ tag ≠ (nums pkt).drop p.length then none else some (srtpPeek suite key roc pkt)

/-- Protects a compound RTCP packet under its index, always encrypted. -/
def srtcpSeal (suite : Nat) (key : Bytes) (index : Nat) (pkt : Bytes) : Bytes :=
  let p := nums pkt
  let m := nums key
  let ssrc := natOf ((p.drop 4).take 4)
  let text := srtpText suite m true ssrc index (p.drop 8)
  let word := bytesOf 4 (2 ^ 31 + index)
  let out := p.take 8 ++ text
  let tag := srtpTag suite m true ssrc index (out ++ word) (p.take 8 ++ word) text
  ofNums (if suite = 1 then out ++ word ++ tag else out ++ tag ++ word)

/-- Authenticates and decrypts an SRTCP packet; one that is not encrypted is refused (06 R253). -/
def srtcpOpen (suite : Nat) (key : Bytes) (index : Nat) (pkt : Bytes) : Option Bytes :=
  let p := nums pkt
  let m := nums key
  let n := p.length - suiteTag suite - 4
  let body := p.take n
  let ssrc := natOf ((p.drop 4).take 4)
  let word := bytesOf 4 (2 ^ 31 + index)
  let rest := p.drop n
  let (w, t) := if suite = 1 then (rest.take 4, rest.drop 4) else (rest.drop 16, rest.take 16)
  if p.length < 12 + suiteTag suite ∨ w ≠ word ∨ t ≠ srtpTag suite m true ssrc index (body ++ word) (p.take 8 ++ word) (body.drop 8) then none
  else some (ofNums (p.take 8 ++ srtpText suite m true ssrc index (body.drop 8)))

/-! ### Key unwrap (RFC 3394; 06 R257) -/

/-- The steps of the unwrap, t counting down: A and the blocks. -/
def unwrapSteps (keys : List (List Nat)) : Nat → List Nat → List (List Nat) → List Nat × List (List Nat)
  | 0, a, r => (a, r)
  | t + 1, a, r =>
    let i := t % r.length
    let b := aesUnblock keys (bytesOf 8 (Nat.xor (natOf a) (t + 1)) ++ r.getD i [])
    unwrapSteps keys t (b.take 8) (r.set i (b.drop 8))

/-- Unwraps a blob under a 256-bit key given as a number, byte 0 least significant as FW_KEK holds it (06 R256): the clear bytes, none
when the integrity check fails. -/
def keyUnwrap (kek : Nat) (blob : Bytes) : Option Bytes :=
  let keys := aesKeys ((List.range 32).map (fun i => kek / 256 ^ i % 256))
  let parts := pieces 8 (nums blob)
  let (a, r) := unwrapSteps keys (6 * (parts.length - 1)) (parts.headD []) (parts.drop 1)
  if a = List.replicate 8 0xA6 then some (ofNums r.flatten) else none

/-! ### ECDSA over P-384 (FIPS 186; 03 R125, R156) -/

/-- The prime, the order and the coefficient b of the curve y² = x³ − 3x + b, and its base point. -/
def p384P : Nat := 2 ^ 384 - 2 ^ 128 - 2 ^ 96 + 2 ^ 32 - 1
def p384N : Nat := 0xffffffffffffffffffffffffffffffffffffffffffffffffc7634d81f4372ddf581a0db248b0a77aecec196accc52973
def p384B : Nat := 0xb3312fa7e23ee7e4988e056be3f82d19181d9c6efe8141120314088f5013875ac656398d8a2ed19d2a85c8edd3ec2aef
def p384G : Option (Nat × Nat) := some (
  0xaa87ca22be8b05378eb1c71ef320ad746e1d3b628ba79b9859f741e082542a385502f25dbf55296c3a545e3872760ab7,
  0x3617de4a96262c6f5d9e98bf9292dc29f8f41dbd289a147ce9da3113b5f0b8c00a60b1ce1d7e819d7a431d7c90ea0e5f)

/-- b^e modulo m over the n low bits of e. -/
def powMod (m b e : Nat) : Nat → Nat
  | 0 => 1 % m
  | n + 1 => (if e % 2 = 1 then b else 1) * powMod m (b * b % m) (e / 2) n % m

/-- The inverse modulo a prime of 384 bits. -/
def invMod (m a : Nat) : Nat := powMod m (a % m) (m - 2) 384

/-- Sum of two points of the curve; none is the point at infinity. -/
def p384Add (a b : Option (Nat × Nat)) : Option (Nat × Nat) :=
  match a, b with
  | none, q => q
  | q, none => q
  | some (x, y), some (u, v) =>
    let m := p384P
    if x = u ∧ (y + v) % m = 0 then none
    else
      let l := if x = u then (3 * x * x + m - 3) % m * invMod m (2 * y) % m else (v + m - y) % m * invMod m ((u + m - x) % m) % m
      let z := (l * l + 2 * m - x - u) % m
      some (z, (l * ((x + m - z) % m) + m - y) % m)

/-- A multiple of a point over the n low bits of the factor. -/
def p384Mul (k : Nat) (a : Option (Nat × Nat)) : Nat → Option (Nat × Nat)
  | 0 => none
  | n + 1 => p384Add (if k % 2 = 1 then a else none) (p384Mul (k / 2) (p384Add a a) n)

/-- Does a signature r, s of a digest verify under the public key x, y? -/
def ecdsaVerify (x y digest r s : Nat) : Bool :=
  let m := p384P
  let n := p384N
  if m ≤ x ∨ m ≤ y ∨ y * y % m ≠ (x * x * x + (m - 3) * x + p384B) % m ∨ r = 0 ∨ n ≤ r ∨ s = 0 ∨ n ≤ s then false
  else
    let w := invMod n s
    match p384Add (p384Mul (digest * w % n) p384G 384) (p384Mul (r * w % n) (some (x, y)) 384) with
    | none => false
    | some (u, _) => u % n == r

end Sys2Proof.Machine
end

