-- ==== Sys2Proof/Machine/Operands.lean ====
section
/-! DEFINITION. Where every operand comes from: the fields of a descriptor body (02 R88) and the settings of the sections of a
tack (03 R129), with the default of each setting whose section is absent. -/
namespace Sys2Proof.Machine

/-! ### Descriptor fields -/

/-- OPCODE of a descriptor, byte 0 of its 64-byte slot (02 R88). -/
def slotOpcode (b : Bytes) : Nat := byteAt b 0

/-- The rest of a descriptor as its 64-byte slot holds it (02 R88). -/
def slotDesc (b : Bytes) : Desc :=
  { rsv := byteAt b 1, tag := le b 2 2, genview := le b 4 4, length := le b 8 4, handle := le b 12 4, body := (b.drop 16).take 48 }

/-- The n-byte field of a descriptor at its byte offset in the 64-byte slot; the body begins at byte 16. -/
def dfld (d : Desc) (off n : Nat) : Nat := le d.body (off - 16) n

/-- Bits [hi:lo] of the byte at a slot offset. -/
def dbits (d : Desc) (off hi lo : Nat) : Nat := bits (dfld d off 1) hi lo

/-- Are the bytes from slot offset `lo` up to but not including `hi` zero? -/
def dzero (d : Desc) (lo hi : Nat) : Bool := zeroIn d.body (lo - 16) (hi - 16)

/-- Are the bits named by a mask zero in the byte at a slot offset? -/
def dmask (d : Desc) (off mask : Nat) : Bool := dfld d off 1 &&& mask == 0

/-! ### Settings -/

/-- Kind 0x01 when absent (03 R152). -/
def defLifecycle (off : Nat) : Nat :=
  if off = 0 then 30 else if off = 5 then 0x5D else if off = 8 then 400 else if off = 12 then 40
  else if off = 20 then 1000 else if off = 24 then 1000 else if off = 28 then 1 else if off = 32 then 2000 else 0

/-- Kind 0x02 when absent (02 R120). -/
def defHostPort (off : Nat) : Nat :=
  if off = 4 ∨ off = 8 ∨ off = 12 ∨ off = 16 then 60000 else if off = 20 then 1000 else 0

/-- Kind 0x04 when absent (05 R233). -/
def defNetwork (off : Nat) : Nat :=
  if off < 256 then (if off % 16 = 0 then 1 else 0)
  else if off < 12544 then
    let l := (off - 256) / 192
    let f := (off - 256) % 192
    if l % 4 ≠ 0 then 0 else if f = 24 then 9216 else if f = 30 then 65535 else if f = 32 then 0xFAC688 else 0
  else 0

/-- Kind 0x05 when absent (06 R290). -/
def defRooms (off : Nat) : Nat :=
  if off < 16 then 125
  else if off = 16 then 7 else if off = 17 then 0x88 else if off = 18 then 0x88 else if off = 19 then 8
  else if off = 23 then 3 else if off = 24 then 500 else if off = 26 then 300 else 0

/-- Kind 0x06 when absent (06 R291). -/
def defForwarding (off : Nat) : Nat :=
  if off = 0 then 2000 else if off = 4 then 128 else if off = 6 then 2000 else if off = 8 then 300
  else if off = 12 then 50000 else if off = 16 then 85 else if off = 17 then 8 else if off = 18 then 1000
  else if off = 20 then 200 else if off = 22 then 5 else if off = 24 then 3 else if off = 26 then 10
  else if off = 28 then 1000 else if off = 30 then 50 else if off = 32 then 200 else if off = 34 then 500
  else if off = 36 then 1000 else if off = 38 then 2000 else 0

/-- Kind 0x07 when absent (07 R328). -/
def defShaper (off : Nat) : Nat :=
  let f := off % 32
  if f = 0 then 2 else if f = 1 then 3 else if f = 2 then 20 else if f = 12 then 200 else if f = 14 then 50
  else if f = 16 then 1048576 else 0

/-- Kind 0x08 when absent (07 R332). -/
def defPools (off : Nat) : Nat :=
  match off with
  | 0 => 131072 | 4 => 262144
  | 48 => 8192 | 52 => 32768
  | 96 => 65536 | 100 => 196608 | 104 => 131072
  | 144 => 262144 | 148 => 557056 | 152 => 393216 | 156 => 458752 | 160 => 327680
  | _ => 0

/-- Kind 0x09 when absent (08 R370). -/
def defDecode (off : Nat) : Nat :=
  if off = 0 then 120 else if off = 2 then 10 else if off = 4 then 9 else if off = 5 then 80 else if off = 6 then 16
  else if off = 7 then 16 else if off = 8 then 500 else if off = 10 then 10 else if off = 12 then 4000
  else if off = 64 then 1920 else if off = 66 then 1080 else if off = 68 then 60 else if off = 69 then 2
  else if off = 70 then 6
  else if 320 ≤ off then (if off % 4 = 1 then 10 else if off % 4 = 2 then 2 else 0) else 0

/-- Tiles of the three default layouts: X, Y, W, H by layout and tile (09 R409). -/
def defTiles : List (List (Nat × Nat × Nat × Nat)) :=
  [[(0, 0, 1920, 1080)],
   [(0, 0, 960, 540), (960, 0, 960, 540), (0, 540, 960, 540), (960, 540, 960, 540)],
   [(0, 0, 1440, 1080), (1440, 0, 480, 360), (1440, 360, 480, 360), (1440, 720, 480, 360)]]

/-- Layout set 1 when kind 0x0A is absent, by its own offsets (09 R409). -/
def defLayoutSet (off : Nat) : Nat :=
  if off < 64 then
    (match off with
     | 0 => 1920 | 2 => 1080 | 4 => 30 | 5 => 8 | 6 => 3 | 7 => 2 | 8 => 16 | 9 => 128 | 10 => 128 | 12 => 2000 | _ => 0)
  else
    let k := (off - 64) / 1040
    let f := (off - 64) % 1040
    match defTiles[k]? with
    | none => 0
    | some tiles =>
      if f < 16 then
        (match f with
         | 0 => tiles.length | 1 => (if k = 1 then 2 else 0) | 2 => 2 | 3 => 128 | 4 => 128 | 5 => 128 | _ => 0)
      else
        match tiles[(f - 16) / 16]? with
        | none => 0
        | some (x, y, w, h) =>
          (match (f - 16) % 16 with
           | 0 => x | 2 => y | 4 => w | 6 => h | 8 => (f - 16) / 16 | 9 => 2 | 10 => 8 | _ => 0)

/-- Kind 0x0A when absent (09 R407, R409). -/
def defLayouts (off : Nat) : Nat :=
  if off = 64 then 40 else if off = 66 then 256
  else if off < 128 then 0
  else if off < 128 + 8384 then defLayoutSet (off - 128) else 0

/-- Rungs of the default ladder: CODEC, PROFILE, WIDTH, HEIGHT, STRUCT, RATE_MIN, RATE_MAX (09 R413). -/
def defRungs : List (Nat × Nat × Nat × Nat × Nat × Nat × Nat) :=
  [(8, 2, 1920, 1080, 2, 300, 4000), (8, 2, 1280, 720, 2, 200, 1800), (8, 0, 640, 360, 0, 100, 600)]

/-- Kind 0x0B when absent (09 R411, R413). -/
def defLadders (off : Nat) : Nat :=
  if off = 4 then 500 else if off = 6 then 1200 else if off = 8 then 40 else if off = 10 then 16 else if off = 11 then 1
  else if off = 12 then 10 else if off = 64 then 3
  else if 80 ≤ off ∧ off < 80 + 96 then
    match defRungs[(off - 80) / 32]? with
    | none => 0
    | some (c, p, w, h, st, lo, hi) =>
      (match (off - 80) % 32 with
       | 0 => c | 1 => p | 2 => st | 3 => 24 | 4 => w | 6 => h | 8 => 18 | 9 => 48 | 10 => 10 | 12 => lo | 16 => hi
       | 20 => 20 | _ => 0)
  else 0

/-- Kind 0x0C when absent (10 R452, R456). -/
def defAudio (off : Nat) : Nat :=
  if off = 32 then 40 else if off = 34 then 95
  else if off < 64 then 0
  else if off < 224 then
    (match off - 64 with
     | 0 => 16 | 1 => 0x2D | 2 => 600 | 4 => 65536 - 4500 | 6 => 6 | 7 => 5 | 8 => 20 | 10 => 200 | 12 => 1000
     | 14 => 1000 | 16 => 20 | 17 => 20 | 18 => 48
     | 20 => 65536 - 1800 | 22 => 30 | 24 => 600 | 26 => 0 | 28 => 5000 | 32 => 200
     | 36 => 65536 - 1800 | 38 => 30 | 40 => 600 | 42 => 0 | 44 => 5000 | 48 => 200
     | 52 => 65536 - 100 | 54 => 50 | _ => 0)
  else 0

/-- Kind 0x0D when absent (12 R529). -/
def defTimeBase (off : Nat) : Nat :=
  match off % 128 with
  | 3 => 7 | 4 => 0xFD | 5 => 1 | 6 => 0xFD | 7 => 3 | 8 => 128 | 9 => 128 | 10 => 248 | 12 => 500000 | 16 => 4000
  | 18 => 16 | 19 => 8 | 20 => 100 | 24 => 1000 | 28 => 60000 | _ => 0

/-- Default latency target of DRAM client i (13 R571). -/
def defLat (i : Nat) : Nat :=
  if i < 16 then 2000 else if i < 24 then 1500
  else match i with
    | 24 => 4000 | 25 => 1000 | 26 => 600 | 27 => 20000 | 28 => 3000 | 29 => 50000 | 30 => 1500 | _ => 5000

/-- Kind 0x0E when absent, its regions apart (13 R570). -/
def defDram (off : Nat) : Nat :=
  if off = 0 then 32 else if off = 4 then 1000 else if off = 8 then 16 else if off = 10 then 24 else if off = 12 then 8000
  else if off = 14 then 1 else if 16 ≤ off ∧ off < 80 then defLat ((off - 16) / 2) else 0

/-- Kind 0x0F when absent (14 R598). -/
def defPower (off : Nat) : Nat :=
  match off with
  | 0 => 1 | 1 => 100 | 2 => 5 | 4 => 715 | 6 => 810 | 8 => 300 | 12 => 100 | _ => 0

/-- The default of a setting whose section is absent, by kind and byte offset of the field. Kinds 0x03 and 0x10, and the regions
of kind 0x0E, depend on the device and are read elsewhere. -/
def defaultField (kind off : Nat) : Nat :=
  match kind with
  | 1 => defLifecycle off
  | 2 => defHostPort off
  | 4 => defNetwork off
  | 5 => defRooms off
  | 6 => defForwarding off
  | 7 => defShaper off
  | 8 => defPools off
  | 9 => defDecode off
  | 0x0A => defLayouts off
  | 0x0B => defLadders off
  | 0x0C => defAudio off
  | 0x0D => defTimeBase off
  | 0x0E => defDram off
  | 0x0F => defPower off
  | _ => 0

/-- The n-byte field of a section of a tack, or its default when the section or the tack is absent (03 R130). -/
def tfld (c : Option Tack) (kind off n : Nat) : Nat :=
  match c.bind (fun t => look t.secs kind) with
  | some b => le b off n
  | none => defaultField kind off

/-- Does the tack carry the section? -/
def tackHas (c : Option Tack) (kind : Nat) : Bool := (c.bind (fun t => look t.secs kind)).isSome

/-- A setting in force. -/
def State.fld (s : State) (kind off n : Nat) : Nat := tfld s.gens.cur kind off n

/-- A setting of the places that a frame or what is derived from it enters: the one in force, also while a frame or an operation of an
earlier boundary is worked on (03 R139). -/
def State.pfld (s : State) (kind off n : Nat) : Nat := tfld (s.gens.place.getD s.gens.cur) kind off n

/-- A signed setting in force, of n bytes. -/
def State.sfld (s : State) (kind off n : Nat) : Int := sgn (8 * n) (s.fld kind off n)

/-- The generation owner (02 R119). -/
def State.owner (s : State) : Nat := bits (s.fld 2 0 1) 1 0

/-- Is a port the generation owner? -/
def State.isOwner (s : State) (p : Nat) : Bool := s.owner == p

/-- Does BAR0 of a host port take writes: is the port in SETUP or RUN (02 R73, 14 R587)? -/
def State.barOpen (s : State) (p : Nat) : Bool := p < 4 && (s.host p).state != .off

/-- The generation in force; 0 when none is (02 R76 `HP_GEN`). -/
def State.gen (s : State) : Nat := (s.gens.cur.map (·.gen)).getD 0

/-- The settings under which a frame or operation with a generation stamp runs: those the switch replaced while it is in
progress, else those in force (03 R139-R141). -/
def State.cfgOf (s : State) (g : Nat) : Option Tack :=
  if s.gens.switching ∧ g ≠ s.gen ∧ g = (s.gens.old.map (·.gen)).getD 0 then s.gens.old else s.gens.cur

/-! ### Network-port settings (05 R229, R230) -/

/-- MODE of a physical port under a tack. -/
def modeOf (c : Option Tack) (n : Nat) : Nat := bits (tfld c 4 (16 * n) 1) 1 0

/-- Does MODE provide lane k of its port (05 R201)? -/
def modeProvides (mode k : Nat) : Bool :=
  match mode with
  | 1 => k == 0
  | 2 => k < 2
  | 3 => k < 4
  | _ => false

/-- Does the tack provide a logical port? -/
def provides (c : Option Tack) (l : Nat) : Bool := l < 64 && modeProvides (modeOf c (l / 4)) (l % 4)

/-- The n-byte field of a logical-port record. -/
def lpfld (c : Option Tack) (l off n : Nat) : Nat := tfld c 4 (256 + 192 * l + off) n

/-- Rate of a logical port in Gbit/s under a mode. -/
def modeGbit (mode : Nat) : Nat :=
  match mode with
  | 1 => 400
  | 2 => 200
  | 3 => 100
  | _ => 0

/-- Picoseconds a byte takes on a logical port (01 R55, 05 R216). -/
def bytePs (mode : Nat) : Nat :=
  match mode with
  | 1 => 20
  | 2 => 40
  | 3 => 80
  | _ => 80

/-! ### Room templates (06 R289) -/

/-- The n-byte field of the record of a room template. -/
def tpfld (c : Option Tack) (i off n : Nat) : Nat := tfld c 5 (16 + 64 * i + off) n

/-- VALID of a room template. -/
def tpValid (c : Option Tack) (i : Nat) : Bool := i < 64 && bit (tpfld c i 0 1) 0

end Sys2Proof.Machine
end

