-- ==== Sys2Proof/Machine/Events.lean ====
section
/-! DEFINITION. The event router (15) and the posting of an event into a host's event queue (02 R106-R109). -/
namespace Sys2Proof.Machine

/-! ### Setup registers of a host port (02 R76) -/

/-- An RL register of a host port, by its BAR0 offset; HP_SWEEP alone has a reset value other than 0. -/
def HostPort.reg (h : HostPort) (off : Nat) : Nat := (lookD h.regs off (if off = 0x10010 then 0x2002#32 else 0#32)).toNat

/-- HP_SQ_CFG, HP_CQ_CFG and HP_EQ_CFG of a ring or queue. -/
def HostPort.sqCfg (h : HostPort) (i : Nat) : Nat := h.reg (0x10108 + 16 * i)
def HostPort.cqCfg (h : HostPort) (j : Nat) : Nat := h.reg (0x10508 + 16 * j)
def HostPort.eqCfg (h : HostPort) (q : Nat) : Nat := h.reg (0x10908 + 16 * q)

/-- Is the ring in use (EN)? -/
def HostPort.sqEn (h : HostPort) (i : Nat) : Bool := i < 64 && bit (h.sqCfg i) 31
def HostPort.cqEn (h : HostPort) (j : Nat) : Bool := j < 64 && bit (h.cqCfg j) 31
def HostPort.eqEn (h : HostPort) (q : Nat) : Bool := q < 4 && bit (h.eqCfg q) 31

/-- Entries of a ring: 2^k of LOG2SIZE. -/
def ringSize (cfg : Nat) : Nat := 2 ^ bits cfg 4 0

/-- The completion ring a submission ring names. -/
def HostPort.cqOf (h : HostPort) (i : Nat) : Nat := bits (h.sqCfg i) 21 16

/-- A base address register pair. -/
def HostPort.addrAt (h : HostPort) (off : Nat) : Nat := (h.reg off / 4096) * 4096 + h.reg (off + 4) * 2 ^ 32

/-- A submission ring, completion ring or event queue of a port. -/
def HostPort.sqAt (h : HostPort) (i : Nat) : SqState := lookD h.sq i {}
def HostPort.cqAt (h : HostPort) (j : Nat) : CqState := lookD h.cq j {}
def HostPort.eqAt (h : HostPort) (q : Nat) : EqState := lookD h.eq q {}

/-- Updates of one of them. -/
def HostPort.modSq (h : HostPort) (i : Nat) (f : SqState → SqState) : HostPort := { h with sq := adjD h.sq i {} f }
def HostPort.modCq (h : HostPort) (j : Nat) (f : CqState → CqState) : HostPort := { h with cq := adjD h.cq j {} f }
def HostPort.modEq (h : HostPort) (q : Nat) (f : EqState → EqState) : HostPort := { h with eq := adjD h.eq q {} f }

/-- Is the port in RUN? -/
def State.running (s : State) (p : Nat) : Bool := (s.host p).state == .run

/-- Counters of block 0x02 (02 R121). -/
def hpCtr (p off : Nat) : Nat := ctr 2 p off

/-! ### Attention and messages (02 R108, R109) -/

/-- Does a queue meet a criterion of R108? -/
def HostPort.eqMeets (h : HostPort) (now q : Nat) : Bool :=
  let attn := h.reg (0x1090C + 16 * q)
  let e := (h.eqAt q).entries
  h.eqEn q &&
    ((bits attn 15 0 != 0 && decide (bits attn 15 0 ≤ e.length)) ||
     (bits attn 31 16 != 0 && e.any (fun x => decide (x.at_ + bits attn 31 16 * us < now))))

/-- Is a vector masked, by the function or by its entry (02 R70, R109)? -/
def HostPort.masked (h : HostPort) (vector : Nat) : Bool := h.msixMask || (lookD h.msixTab vector {}).mask

/-- Sends an MSI-X message when the capability is enabled; a masked vector sets its pending bit instead (02 R109).  A message that
cannot be issued is not sent. -/
def HostPort.msi (h : HostPort) (vector : Nat) : HostPort :=
  if h.msix = false then h
  else if h.masked vector then { h with pba := h.pba ||| 2 ^ vector }
  else if h.canIssue then { h with msixSent := vector :: h.msixSent }
  else h

/-- Sends the messages that wait for vectors which are masked no more, and clears their pending bits (02 R109). -/
def HostPort.msiPending (h : HostPort) : HostPort :=
  let go := (List.range 64).filter (fun v => bit h.pba v && !h.masked v)
  if h.msix && h.canIssue then
    { h with msixSent := go.reverse ++ h.msixSent, pba := h.pba - (go.map (2 ^ ·)).sum }
  else h

/-- The registers of the PCIe function after a function level reset, hot reset or loss of the link (02 R70, R74).  The AER status
keeps its bits (notes/assumptions/98.md). -/
def HostPort.functionReset (h : HostPort) : HostPort :=
  { h with bme := false, mrrs := 512, d3hot := false, msix := false, msixMask := false, msixTab := [], pba := 0 }

/-- The AER bits of a failure status of 02 R122, as the uncorrectable error status of PCI Express places them: UR, CA, poisoned TLP,
completion timeout (notes/assumptions/98.md). -/
def aerBits (status : Nat) : Nat :=
  match status with
  | 1 => 2 ^ 20
  | 4 => 2 ^ 15
  | 5 => 2 ^ 12
  | 6 => 2 ^ 14
  | _ => 0

/-- Notes a failure in the AER status (02 R122). -/
def HostPort.noteAer (h : HostPort) (status : Nat) : HostPort := { h with aer := h.aer ||| aerBits status }

/-- Counts a host memory access that failed and reports it through AER (02 R121, R122). -/
def State.hostFailed (s : State) (p status : Nat) : State := (s.bump (hpCtr p 112)).modHost p (fun h => h.noteAer status)

/-- A queue whose criterion has become true sends its vector and asserts HnATN_N. -/
def HostPort.raise (h : HostPort) (now q : Nat) : HostPort :=
  if h.state == .run && h.eqMeets now q then
    let h := if (h.eqAt q).criterion then h else h.msi (bits (h.eqCfg q) 21 16)
    { h.modEq q (fun e => { e with criterion := true }) with atn := true }
  else h

/-- At a sweep the criteria are judged anew; the pin is released when none holds. -/
def HostPort.settle (h : HostPort) (now : Nat) : HostPort :=
  let h := [0, 1, 2, 3].foldl (fun h q => if h.eqMeets now q then h else h.modEq q (fun e => { e with criterion := false })) h
  { h with atn := h.state == .run && [0, 1, 2, 3].any (fun q => h.eqMeets now q) }

/-! ### Sources (15 R602-R606) -/

/-- Device-level sources: number, severity, class (0 S, 1 O, 2 B, 3 R, 4 Q). -/
def deviceSources : List (Nat × Nat × Nat) :=
  [(0, 2, 4), (1, 3, 0), (2, 3, 0), (3, 2, 0), (4, 1, 0), (5, 2, 0), (8, 1, 2), (9, 1, 3), (10, 3, 3), (11, 3, 3), (12, 1, 3),
   (13, 2, 3), (16, 1, 3), (17, 1, 3), (18, 1, 3), (19, 2, 3), (20, 3, 3), (21, 2, 3), (24, 3, 3), (25, 4, 3), (26, 2, 3),
   (27, 3, 3), (28, 3, 1), (29, 3, 3), (30, 3, 3), (31, 1, 3), (32, 1, 2), (33, 4, 3), (34, 1, 3), (35, 2, 3), (36, 2, 3),
   (40, 2, 3), (41, 3, 3), (42, 2, 3), (43, 2, 1), (44, 2, 3)]

/-- Per-yard sources: k, severity, class. -/
def yardSources : List (Nat × Nat × Nat) :=
  [(0, 3, 3), (1, 1, 3), (2, 2, 3), (3, 2, 3), (4, 2, 3), (5, 1, 3), (6, 1, 3), (8, 0, 1), (9, 0, 1), (10, 3, 1), (12, 2, 1),
   (13, 3, 1), (14, 2, 1), (16, 2, 1), (17, 2, 1), (18, 2, 1), (20, 3, 1)]

/-- Source number of per-yard source k of yard y. -/
def yardSrc (y k : Nat) : Nat := 64 + 24 * y + k

/-- Severity and class of a source; none when it is reserved. -/
def srcInfo (src : Nat) : Option (Nat × Nat) :=
  if src < 64 then look deviceSources src
  else if src < 256 then look yardSources ((src - 64) % 24) else none

/-- A route (15 R607). -/
structure Route where
  en : Bool
  queue : Nat
  ports : Nat
  max : Nat
  deriving DecidableEq, Repr

/-- The default route of a source under a generation owner (15 R614). -/
def defaultRoute (owner src : Nat) : Route :=
  match srcInfo src with
  | none => ⟨false, 0, 0, 0⟩
  | some (sev, cls) =>
    if src = 0 then ⟨false, 0, 0, 0⟩
    else ⟨true, if 3 ≤ sev then 0 else if sev = 2 then 1 else 2, if cls = 3 then 2 ^ owner else 0, if sev = 0 then 1000 else 0⟩

/-- The route of a source under a tack (15 R612). -/
def routeOf (c : Option Tack) (src : Nat) : Route :=
  if tackHas c 0x10 then
    let v := tfld c 0x10 (4 * src) 1
    ⟨bit v 0, bits v 2 1, bits (tfld c 0x10 (4 * src + 1) 1) 3 0, tfld c 0x10 (4 * src + 2) 2⟩
  else defaultRoute (bits (tfld c 2 0 1) 1 0) src

/-! ### Posting -/

/-- The 16 bytes of an event entry (02 R106). -/
def eventBytes (src sev tick payload : Nat) (phase : Bool) : Bytes :=
  leBytes 1 src ++ leBytes 1 (b2n phase * 128 + sev * 16) ++ leBytes 6 tick ++ leBytes 8 payload

/-- The core cycle of an instant, at 1.5 GHz (notes/assumptions/126.md). -/
def coreCycle (t : Nat) : Nat := t * 3 / 2000

/-- How many of the newest entries of a queue have arisen in the core cycle of `now` under a higher source: one of `src` goes before them
(15 R610). -/
def EqState.behind (e : EqState) (now src : Nat) : Nat :=
  (e.entries.reverse.takeWhile (fun x => coreCycle x.at_ == coreCycle now && decide (src < x.source))).length

/-- Writes one entry into a queue, whatever room it has.  An entry that the bridge cannot issue is lost, and its failure awaits its
report (02 R122). -/
def State.putEvent (s : State) (p q src sev tick payload : Nat) : State :=
  let h := s.host p
  let e := h.eqAt q
  if h.canIssue = false then s.modHost p (fun h => { h with unissued := (2, q) :: h.unissued }) else
  let size := ringSize (h.eqCfg q)
  let n := e.behind s.now src
  let (before, after) := e.entries.splitAt (e.entries.length - n)
  let written := ({ source := src, sev, tick, payload, phase := true, at_ := s.now } :: after).mapIdx (fun i (x : EvEntry) =>
    (e.posted - n + i, { x with phase := (e.posted - n + i) / size % 2 == 0 }))
  let s := forEach written (fun (i, x) s =>
    s.hostWrite p (h.addrAt (0x10900 + 16 * q) + 16 * (i % size)) (eventBytes x.source x.sev x.tick x.payload x.phase)) s
  s.modHost p (fun h => (h.modEq q (fun e => { e with posted := e.posted + 1, entries := before ++ written.map (·.2) })).raise s.now q)

/-- Posts an event to queue QUEUE of a port in RUN (15 R608, 02 R82, R107). -/
def State.deliver (s : State) (p queue src sev tick payload : Nat) : State :=
  let h := s.host p
  match (queue :: [0, 1, 2, 3]).find? (fun q => h.eqEn q) with
  | none => s.bump (ctr 0x0E 0 4104)
  | some q =>
    let e := h.eqAt q
    if e.halted then s.bump (hpCtr p 40)
    else if e.lost ≠ 0 ∨ ringSize (h.eqCfg q) ≤ e.entries.length + 1 then
      s.modHost p (fun h => h.modEq q (fun e =>
        { e with lost := e.lost + 1, lostFirst := if e.lost = 0 then tick else e.lostFirst, lostLast := tick }))
    else s.putEvent p q src sev tick payload

/-- When the host has freed space, EQ_OVERFLOW goes into the held entry (02 R107). -/
def State.overflowDue (s : State) (p q : Nat) : State :=
  let h := s.host p
  let e := h.eqAt q
  if e.lost = 0 ∨ e.halted ∨ ringSize (h.eqCfg q) ≤ e.entries.length + 1 then s
  else
    let s := (s.addCnt (hpCtr p 48) e.lost).bump (ctr 0x0E 0 0)
    let s := s.putEvent p q 0 2 e.lostFirst (satU 32 e.lost + 2 ^ 32 * satU 32 (e.lostLast - e.lostFirst))
    s.modHost p (fun h => h.modEq q (fun e => { e with lost := 0, lostFirst := 0, lostLast := 0 }))

/-- The route of a source in force, also while a frame or an operation of an earlier boundary is worked on (15 R607). -/
def State.route (s : State) (src : Nat) : Route := routeOf (s.gens.place.getD s.gens.cur) src

/-- The router in the window of a tick: what the one before suppressed is still to be told (15 R611). -/
def Router.roll (x : Router) (tick : Nat) : Router :=
  if x.windowNo = tick / 400 then x
  else { x with
    windowNo := tick / 400, window := []
    told := x.told ++ x.window.filterMap (fun (src, _, sup) => if sup = 0 then none else some (src, sup)) }

/-- Sends an event to its recipients under its route (15 R607-R609). `who` is the port of a class S or O event. -/
def State.routed (s : State) (src sev cls payload tick who : Nat) : State :=
  let r := s.route src
  let dest : List Nat := if cls = 3 then [0, 1, 2, 3].filter (fun p => bit r.ports p)
    else if cls = 2 then [0, 1, 2, 3].filter (fun p => s.running p) else [who]
  forEach dest (fun p s => if s.running p then s.deliver p r.queue src sev tick payload else s.bump (ctr 0x0E 0 4096)) s

/-- Sources held until the first port enters RUN (15 R609). -/
def heldUntilRun (src : Nat) : Bool := src == 13 || src == 34 || (64 ≤ src && (src - 64) % 24 == 0)

/-- An event arises (15 R607-R611). -/
def State.event (s : State) (src payload : Nat) (who : Nat := 0) : State :=
  match srcInfo src with
  | none => s
  | some (sev, cls) =>
    let r := s.route src
    let s := (s.bump (ctr 0x0E 0 (16 * src))).modRouter (fun x => x.roll s.tick)
    let w := lookD s.router.window src (0, 0)
    if src ≠ 44 ∧ r.max ≠ 0 ∧ r.max ≤ w.1 then
      (s.bump (ctr 0x0E 0 (16 * src + 8))).modRouter (fun x => { x with window := put x.window src (w.1 + 1, w.2 + 1) })
    else
      let s := s.modRouter (fun x => { x with window := put x.window src (w.1 + 1, w.2) })
      if cls ≠ 2 ∧ r.en = false then s.bump (ctr 0x0E 0 4112)
      else if s.power.mode = .keep then
        s.modRouter (fun x => { x with heldKeep := x.heldKeep ++ [(src, payload, s.tick, who)] })
      else if heldUntilRun src ∧ s.router.firstRun = false then
        s.modRouter (fun x => { x with heldBoot := x.heldBoot ++ [(src, payload)] })
      else s.routed src sev cls payload s.tick who

/-- The events of KEEP are written on exit, with the tick at which they arose (14 R601). -/
def State.releaseKeep (s : State) : State :=
  let held := s.router.heldKeep
  forEach held (fun (src, payload, tick, who) s =>
    match srcInfo src with
    | some (sev, cls) => s.routed src sev cls payload tick who
    | none => s) (s.modRouter (fun x => { x with heldKeep := [] }))

/-- The first port enters RUN: the held BOOT events are posted with this tick, to the entering port when no port of the route
is in RUN (15 R609). -/
def State.releaseBoot (s : State) (p : Nat) : State :=
  if s.router.firstRun then s
  else
    let held := s.router.heldBoot
    let s := s.modRouter (fun x => { x with heldBoot := [], firstRun := true })
    forEach held (fun (src, payload) s =>
      match srcInfo src with
      | some (sev, cls) =>
        let r := s.route src
        if cls = 3 ∧ ([0, 1, 2, 3].any (fun q => bit r.ports q && s.running q)) = false then
          s.deliver p r.queue src sev s.tick payload
        else s.routed src sev cls payload s.tick p
      | none => s) s

/-- EVENT_WINDOW_START: at the first tick of a window EV_SUPPRESSED is posted for each source suppressed in the last one
(15 R611). -/
def windowStart (s : State) : State :=
  let s := s.modRouter (fun x => x.roll s.tick)
  let told := s.router.told
  forEach told (fun (src, sup) s => s.event 44 (src + 2 ^ 32 * satU 32 sup)) (s.modRouter (fun x => { x with told := [] }))

/-- EVENT_WINDOW_START (15 R611). -/
def execEventWindowStart (t : Nat) (s : State) : Host.Outcome State Fault Refusal :=
  let s := s.at t
  .next (if s.tick % 400 = 0 then windowStart s else s)

/-- ATTENTION_AGE: an entry has passed AGE_US (02 R108). -/
def execAttentionAge (t p q : Nat) (s : State) : Host.Outcome State Fault Refusal :=
  let s := s.at t
  .next (if p < 4 ∧ q < 4 then s.modHost p (fun h => h.raise s.now q) else s)

end Sys2Proof.Machine
end

