-- ==== Sys2Proof/Machine/Clock.lean ====
section
/-! DEFINITION. Reading the time bases (12 R508-R511): the counters advance once per cycle of the reference clock by a step held
to 2^-32 ns. -/
namespace Sys2Proof.Machine

/-- Period of the reference clock in ps (12 R509): 8.0 ns at 125 MHz, 6.4 ns at 156.25 MHz. -/
def State.refPs (s : State) : Nat := if s.power.refsel then 8000 else 6400

/-- The step of a counter in 2^-32 ns: the period scaled by (1 + f), f in 2^-16 ppb, and by the deviation of the fallback
while it is in use (12 R509, R510). -/
def TimeBase.step (tb : TimeBase) (periodPs : Nat) : Nat :=
  let dev : Int := if tb.refFallback then tb.dev else 0
  (((periodPs : Int) * 2 ^ 32 * (65536 * 1000000000 + tb.f) * (1000000000 + dev)) / (1000 * (65536 * 1000000000) * 1000000000)).toNat

/-- Value of a time base in 2^-32 ns now. -/
def State.tbVal (s : State) (n : Nat) : Nat :=
  let tb := s.tb n
  tb.val + (s.now / s.refPs - tb.at_ / s.refPs) * tb.step s.refPs

/-- Nanoseconds since 0 on a time base, seconds included. -/
def State.tbNs (s : State) (n : Nat) : Nat := s.tbVal n / 2 ^ 32

/-- The seconds field: 48 bits. -/
def State.tbSec (s : State) (n : Nat) : Nat := s.tbNs n / 1000000000 % 2 ^ 48

/-- The nanoseconds field. -/
def State.tbNanos (s : State) (n : Nat) : Nat := s.tbNs n % 1000000000

/-- The fraction field, 2^-16 ns. -/
def State.tbFrac (s : State) (n : Nat) : Nat := s.tbVal n / 2 ^ 16 % 2 ^ 16

/-- Carries a time base to now, before its rate or value changes. -/
def State.tbSettle (s : State) (n : Nat) : State :=
  let v := s.tbVal n
  s.modTb n (fun tb => { tb with
    val := v, at_ := s.now
    past := ((s.now, tb.val, tb.at_, tb.step s.refPs) :: tb.past).filter (fun p => decide (s.now ≤ p.1 + 10 * us)) })

/-- Value of a time base in 2^-32 ns at an instant up to 10 µs ago, as it then read (12 R520). -/
def State.tbAt (s : State) (n ps : Nat) : Nat :=
  let tb := s.tb n
  let (val, at_, step) := match (tb.past.filter (fun p => decide (ps < p.1))).getLast? with
    | some (_, x) => x
    | none => (tb.val, tb.at_, tb.step s.refPs)
  ((val : Int) + (((ps / s.refPs : Nat) : Int) - ((at_ / s.refPs : Nat) : Int)) * step).toNat

/-- TB0 nanoseconds and seconds of a punt header or completion (02 R115, R118). -/
def State.stampNs (s : State) : Nat := s.tbNanos 0

/-- abs-send-time: 24 bits of TB0 (12 R524). -/
def State.absSendTime (s : State) : Nat := (s.tbSec 0 % 64) * 2 ^ 18 + (s.tbNanos 0 * 2 ^ 16 + s.tbFrac 0) * 2 ^ 18 / (1000000000 * 2 ^ 16)

end Sys2Proof.Machine
end

