-- ==== Sys2Proof/Machine/Egress.lean ====
section
/-! DEFINITION. Egress queues, shapers, the loft pools and spill (07). -/
namespace Sys2Proof.Machine

/-! ### Settings (07 R326, R330) -/

/-- The n-byte field of the class record of class c of a logical port. -/
def State.cls (s : State) (l c off n : Nat) : Nat := s.pfld 7 (32 * (8 * l + c) + off) n

/-- SHAPED, MEDIA and POOL of a class. -/
def State.shaped (s : State) (l c : Nat) : Bool := bit (s.cls l c 0 1) 0
def State.media_ (s : State) (l c : Nat) : Bool := bit (s.cls l c 0 1) 1
def State.poolOf (s : State) (l c : Nat) : Nat := bits (s.cls l c 1 1) 3 0

/-- A 4-byte field of the record of pool k. -/
def State.poolFld (s : State) (k off : Nat) : Nat := s.pfld 8 (48 * k + off) 4

/-- Yard of a logical port (00, 01 R29). -/
def yardOf (l : Nat) : Nat := l / 8

/-- A counter of block 0x06 of a yard, or of pool k of the device record (07 R334, R335). -/
def shCtr (yard off : Nat) : Nat := ctr 6 yard off
def poolCtr (k off : Nat) : Nat := ctr 6 8 (48 * k + off)

/-! ### Pools (07 R316-R324) -/

/-- A pool. -/
def State.pool (s : State) (k : Nat) : Pool := lookD s.net.pools k {}

/-- Updates a pool. -/
def State.modPool (s : State) (k : Nat) (f : Pool → Pool) : State :=
  s.modNet (fun n => { n with pools := adjD n.pools k {} f })

/-- Cells of a frame: L / 256 rounded up (07 R317). -/
def cellsOf (len : Nat) : Nat := cdiv len 256

/-- Shared cells in use: what each pool holds beyond its reserve (07 R317). -/
def State.sharedUsed (s : State) : Nat :=
  ((List.range 16).map (fun k => (s.pool k).level - s.poolFld k 0)).sum

/-- Shared cells in all. -/
def State.sharedAll (s : State) : Nat := 786432 - ((List.range 16).map (fun k => s.poolFld k 0)).sum

/-- Does the pool take n more cells (07 R317)? -/
def State.poolTakes (s : State) (k n : Nat) : Bool :=
  let lv := (s.pool k).level
  let rsv := s.poolFld k 0
  decide (lv + n ≤ s.poolFld k 4 ∧ (lv + n - max lv rsv) + s.sharedUsed ≤ s.sharedAll)

/-- Event queues, with the index of its entry, to which the last event of source 40 was written. -/
def State.noticeAt (before s : State) : List (Nat × Nat × Nat) :=
  ([0, 1, 2, 3].flatMap (fun p => [0, 1, 2, 3].filterMap (fun q =>
    let b := ((before.host p).eqAt q).posted
    let a := ((s.host p).eqAt q).posted
    if b < a then some (p, q, a) else none)))

/-- A pool takes cells; a rise to HIGH_CELLS latches its notice (07 R317, R323). -/
def State.poolAdd (s : State) (k n : Nat) : State :=
  let old := (s.pool k).level
  let lv := old + n
  let high := s.poolFld k 12
  let s := s.modPool k (fun p => { p with level := lv, peak := if p.latched then max p.peak lv else p.peak })
  if high ≠ 0 ∧ (s.pool k).latched = false ∧ old < high ∧ high ≤ lv then
    let s1 := ((s.modPool k (fun p => { p with
      latched := true, peak := lv, crossTick := s.tick, crossNs := (s.now - s.tickAt) / 1000 })).bump (poolCtr k 24)).event 40 (k + lv * 256)
    s1.modPool k (fun p => { p with notice := s.noticeAt s1 })
  else s

/-- A pool frees cells. -/
def State.poolSub (s : State) (k n : Nat) : State := s.modPool k (fun p => { p with level := p.level - n })

/-- Is the notice of a pool consumed: passed by EQ_CONS of every queue it was written to, or its port out of RUN (07 R324)? -/
def State.noticeDone (s : State) (k : Nat) : Bool :=
  (s.pool k).notice.all (fun (p, q, i) => !s.running p || decide (i ≤ ((s.host p).eqAt q).consumed))

/-! ### Shapers (07 R304-R310) -/

/-- Credit after accrual at `kbps` for `ns`, capped at `burst` bytes; credits are in 2^-16 bytes (07 R304). -/
def accrue (credit : Int) (kbps burst ns : Nat) : Int := min (burst * 65536 : Nat) (credit + (kbps * ns * 65536 / 8000000 : Nat))

/-- Nanoseconds between two instants in ps. -/
def nsBetween (a b : Nat) : Nat := b / 1000 - a / 1000

/-- Credit of a leg shaper now. -/
def State.legCredit (s : State) (l : Leg) : Int := accrue l.credit l.shapeKbps l.shapeBurst (nsBetween l.creditAt s.now)

/-- Carries a leg shaper to now. -/
def State.legSettle (s : State) (i : Nat) : State := s.modLeg i (fun l => { l with credit := s.legCredit l, creditAt := s.now })

/-- A class shaper, keyed 8 * LPORT + c. -/
def State.shaper (s : State) (l c : Nat) : ClassShaper := lookD s.net.shapers (8 * l + c) {}

/-- Updates a class shaper. -/
def State.modShaper (s : State) (l c : Nat) (f : ClassShaper → ClassShaper) : State :=
  s.modNet (fun n => { n with shapers := adjD n.shapers (8 * l + c) {} f })

/-- Credit of a class shaper at an instant, never above its burst; a stopped one does not accrue (07 R304, R308, R309). -/
def State.clsCreditAt (s : State) (l c t : Nat) : Int :=
  let x := s.shaper l c
  accrue x.credit (s.cls l c 4 4) (s.cls l c 8 4) (nsBetween x.at_ t)

/-- Credit of a class shaper now. -/
def State.clsCredit (s : State) (l c : Nat) : Int := s.clsCreditAt l c s.now

/-- Carries a class shaper to now. -/
def State.clsSettle (s : State) (l c : Nat) : State :=
  let v := s.clsCredit l c
  s.modShaper l c (fun x => { x with credit := v, at_ := s.now })

/-- Does the class shaper permit a frame (07 R305, R309)? A class that is not SHAPED always permits. -/
def State.clsPermits (s : State) (l c : Nat) : Bool :=
  !s.shaped l c || (s.cls l c 4 4 != 0 && decide (0 ≤ s.clsCredit l c))

/-- Bytes a frame is charged in a class: L + OVERHEAD (07 R305). -/
def State.charge (s : State) (l c len : Nat) : Int := (len : Int) + sgn 16 (s.cls l c 2 2)

/-- Charges, or credits, the shapers R300 names with bytes; `shaped`: the class shaper is one of them. -/
def State.chargeShapers (s : State) (l c leg : Nat) (bytes : Int) (shaped : Bool) : State :=
  let s := if shaped then
      (s.clsSettle l c).modShaper l c (fun x => { x with credit := x.credit - bytes * 65536 }) else s
  if leg = 0 then s else (s.legSettle (leg - 1)).modLeg (leg - 1) (fun x => { x with credit := x.credit - bytes * 65536 })

/-! ### Queues -/

/-- The direct queue of a class. -/
def State.direct (s : State) (l c : Nat) : List QFrame := lookD s.net.direct (8 * l + c) []

/-- The leg queue of a leg index. -/
def State.legq (s : State) (i : Nat) : List QFrame := lookD s.net.legq i []

/-- A table of queues that lists no empty queue. -/
def putQ (t : Tab (List QFrame)) (k : Nat) (q : List QFrame) : Tab (List QFrame) := if q = [] then del t k else put t k q

/-- Stores the direct queue of a class. -/
def State.setDirect (s : State) (l c : Nat) (q : List QFrame) : State :=
  s.modNet (fun n => { n with direct := putQ n.direct (8 * l + c) q })

/-- Stores a leg queue. -/
def State.setLegq (s : State) (i : Nat) (q : List QFrame) : State := s.modNet (fun n => { n with legq := putQ n.legq i q })

/-- Bytes of a queue, those in DRAM included. -/
def qBytes (q : List QFrame) : Nat := q.foldl (fun n f => n + f.len) 0

/-- Cells of a queue that are in the loft. -/
def qLoftCells (q : List QFrame) : Nat := q.foldl (fun n f => if f.spilled then n else n + cellsOf f.len) 0

/-- Does a frame of a leg in a class enter its leg queue (07 R299, R300)? -/
def State.inLegq (s : State) (leg : Leg) (c : Nat) : Bool := c == leg.videoClass && s.media_ leg.lport c

/-- Size of the spill region in bytes: kind 0x06 of the DRAM map (13 R544, R572). -/
def regionOf (c : Option Tack) (capMib kind : Nat) : Nat × Nat × Bool :=
  if tackHas c 0x0E then
    match (List.range 16).find? (fun j => tfld c 0x0E (96 + 16 * j) 1 == kind) with
    | some j => (tfld c 0x0E (100 + 16 * j) 4, tfld c 0x0E (104 + 16 * j) 4, bit (tfld c 0x0E (97 + 16 * j) 1) 0)
    | none => (0, 0, false)
  else
    let r := capMib - 16384
    let share (p : Nat) : Nat := r * p / 100 / 1024 * 1024
    match kind with
    | 1 => (8192, 8192, true)
    | 2 => (16384, share 30, false)
    | 3 => (16384 + share 30, share 20, false)
    | 4 => (16384 + share 30 + share 20, share 10, false)
    | 5 => (16384 + share 30 + share 20 + share 10, share 20, false)
    | 6 => (16384 + share 30 + share 20 + share 10 + share 20, share 8, false)
    | 7 => (16384 + share 30 + share 20 + share 10 + share 20 + share 8, share 10, false)
    | 8 => (16384 + share 30 + share 20 + share 10 + share 20 + share 8 + share 10, share 2, false)
    | _ => (0, 0, false)

/-- Sum of the set capacities in GiB (13 R543). -/
def State.capGib (s : State) : Nat := (s.dram.setGib.map (·.2)).sum

/-- Region of a kind under the tack in force: base and size in MiB, KEEP. -/
def State.region (s : State) (kind : Nat) : Nat × Nat × Bool := regionOf (s.gens.place.getD s.gens.cur) (s.capGib * 1024) kind

/-- Adds n to a counter for what comes of a source: at once when it is confirmed, else when it resolves (04 R184; 07 R312). Yard 8 marks
a counter that is not that of a frame's drop, which a voided source does not advance. -/
def State.countFor (s : State) (pending : Option Nat) (key n yard : Nat) : State :=
  match pending with
  | none => s.addCnt key n
  | some id => s.modNet (fun x => { x with pendDrops := x.pendDrops ++ [(id, key, n, yard)] })

/-- `countFor` for a frame. -/
def State.dropN (s : State) (f : QFrame) (key n yard : Nat) : State := s.countFor f.pending key n yard

/-- Records the drop of a frame. -/
def State.dropQ (s : State) (f : QFrame) (key yard : Nat) : State := s.dropN f key 1 yard

/-- Frames offered for egress, the base of MAX_TX_DROP_PPM, and frames that pool 0 refused, which count as ingress drops (03 R151,
R152). -/
def offeredCtr : Nat := ctr 1 0 256
def pool0Ctr : Nat := ctr 1 0 264

/-- The spill region becomes full or falls below 90 % (07 R321). -/
def State.spillMark (s : State) : State :=
  let size := (s.region 6).2.1 * 1048576
  if s.net.spillFull then
    if s.net.spillBytes * 10 < size * 9 then s.modNet (fun n => { n with spillFull := false }) else s
  else if size ≠ 0 ∧ size ≤ s.net.spillBytes then (s.modNet (fun n => { n with spillFull := true })).event 41 0
  else s

/-- Gives a frame's cells, or its space in the spill region, back (07 R317, R321). -/
def State.release (s : State) (f : QFrame) : State :=
  if f.spilled then (s.modNet (fun n => { n with spillBytes := n.spillBytes - f.len })).spillMark else s.poolSub f.pool (cellsOf f.len)

/-- The spill region is found full by a frame that it cannot take (07 R321). -/
def State.spillIsFull (s : State) : State :=
  if s.net.spillFull then s else (s.modNet (fun n => { n with spillFull := true })).event 41 0

/-- Where an arriving frame is held: in its pool, in the spill region, or nowhere, with the counter of its drop
(07 R318-R321). -/
inductive Hold where
  | loft
  | spill
  | drop (key : Nat)
  deriving DecidableEq, Repr

/-- How a queue of a class holds a frame that arrives (07 R317-R321); a HOST_TX holds its cells already (R318). -/
def State.holdOf (s : State) (l c : Nat) (legQueue : Bool) (q : List QFrame) (len : Nat) (hostTx : Bool) : Hold :=
  let k := s.poolOf l c
  let th := s.poolFld k 8
  let takes := hostTx || s.poolTakes k (cellsOf len)
  let spilling := q.any (·.spilled)
  let want := th != 0 && (s.region 6).2.1 != 0 && (legQueue || s.shaped l c) && decide (th ≤ (s.pool k).level) &&
    (spilling || decide (16 ≤ qLoftCells q) || !takes) && (spilling || !s.net.spillHold)
  if want || spilling then
    if (s.region 6).2.1 * 1048576 < s.net.spillBytes + len then .drop (shCtr (yardOf l) 24) else .spill
  else if takes then .loft else .drop (shCtr (yardOf l) 16)

/-- Length on the wire of a frame on a port: with the tag that VLAN_EN asks for now, at least 64 bytes; a HOST_TX is sent as the host
built it (05 R206, R215). -/
def State.wireLen (s : State) (l : Nat) (f : QFrame) : Nat :=
  if f.bare = 0 then f.len else max 64 (f.bare + if bit (lpfld s.gens.cur l 35 1) 0 then 4 else 0)

/-- The next hop under which a frame of a leg is built. -/
def State.addressed (s : State) (f : QFrame) : QFrame :=
  match f.leg with
  | 0 => f
  | i + 1 => match look s.objs.legs i with
    | some leg => { f with hop := leg.nextHop, v6 := leg.ipv6 }
    | none => f

/-- A frame is written to the spill region (07 R319, R321). -/
def State.spillFrame (s : State) (y : Nat) (f : QFrame) : State :=
  ((s.modNet (fun n => { n with spillBytes := n.spillBytes + f.len, spillCharge := n.spillCharge + f.len })).dropN f (shCtr y 40) (cellsOf f.len) 8)

/-- A frame enters its queue (07 R300, R311, R317-R321). A HOST_TX frame has taken its cells before its data was read, keeps them in the
pool it took them from, and is never dropped (R318, R329). -/
def State.enqueue (s : State) (l c : Nat) (f : QFrame) : State :=
  let y := yardOf l
  let f := s.addressed { f with len := s.wireLen l f }
  let s := s.dropN f offeredCtr 1 8
  let legQueue : Bool := match f.leg with
    | 0 => false
    | i + 1 => match look s.objs.legs i with
      | some leg => leg.lport == l && s.inLegq leg c
      | none => false
  let q := if legQueue then s.legq (f.leg - 1) else s.direct l c
  if legQueue ∧ s.cls l c 16 4 < qBytes q + f.len then s.dropQ f (shCtr y 8) y
  else
    let store (f : QFrame) (s : State) : State := if legQueue then s.setLegq (f.leg - 1) (q ++ [f]) else s.setDirect l c (q ++ [f])
    let k := s.poolOf l c
    let hostTx := f.kind == 3
    let f := { f with enter := s.now, pool := if hostTx then f.pool else k }
    match s.holdOf l c legQueue q f.len hostTx, hostTx with
    | .spill, _ =>
      (store { f with spilled := true } ((if hostTx then s.poolSub f.pool (cellsOf f.len) else s).spillFrame y f)).spillMark
    | _, true => store f s
    | .loft, false => store f (s.poolAdd k (cellsOf f.len))
    | .drop key, false =>
      if key = shCtr y 24 then s.spillIsFull.dropQ f key y
      else (s.dropN f (poolCtr k 32) (cellsOf f.len) 8).dropQ f key y

/-- Legs whose queues belong to a class, ascending (07 R299, R302). -/
def State.legsOfClass (s : State) (l c : Nat) : List Nat :=
  s.objs.legs.filterMap (fun (i, leg) => if leg.lport = l ∧ leg.videoClass = c then some i else none)

/-! ### Gates (05 R222-R226) -/

/-- Index of the running entry of a list and the ns that remain in it, at an offset in the cycle. -/
def gateAt : List (Nat × Nat) → Nat → Nat → Nat × Nat
  | [], i, _ => (i, 0)
  | (iv, _) :: rest, i, off => if off < iv then (i, iv - off) else gateAt rest (i + 1) (off - iv)

/-- Time from now until a gate closes along a rotated list, given what remains of the entry at its head; none when it stays open
through the whole cycle. -/
def untilClose (c : Nat) : List (Nat × Nat) → Nat → Option Nat
  | [], _ => none
  | (_, g) :: rest, acc =>
    if bit g c then
      match rest with
      | [] => none
      | (iv, g2) :: rest2 => if bit g2 c then untilClose c ((iv, g2) :: rest2) (acc + iv) else some acc
    else some acc

/-- Offset in the cycle at a reading of the list's time base; a step of the time base re-phases it (05 R226). -/
def GateList.phase (g : GateList) (ns : Nat) : Nat := (((ns : Int) - g.start) % g.cycle).toNat

/-- Entry that runs at a reading, and its gate state. -/
def GateList.stateAt (g : GateList) (ns : Nat) : Nat × Nat :=
  let i := (gateAt g.entries 0 (g.phase ns)).1
  (i, ((g.entries[i]?).map (·.2)).getD 0xFF)

/-- ns until gate c of a list closes, at a reading of its time base (05 R223). -/
def GateList.closeIn (g : GateList) (c ns : Nat) : Option Nat :=
  let (i, left) := gateAt g.entries 0 (g.phase ns)
  untilClose c (g.entries.drop i ++ g.entries) left

/-- The running list of a port takes the entry its time base gives; a frame in progress whose gate a list of another epoch or a
re-phasing holds closed is counted once, a pause frame apart, which no gate holds (05 R213, R225, R226). -/
def State.gateNow (s : State) (l : Nat) (overrun : Bool) : State :=
  match (s.lport l).gcl with
  | none => s.modLport l (fun p => { p with gates := 0xFF, gateIdx := 0 })
  | some g =>
    let (i, st) := g.stateAt (s.tbNs g.tb)
    let s := s.modLport l (fun p => { p with gates := st, gateIdx := i })
    match (s.lport l).tx with
    | some x =>
      if overrun ∧ x.frame.kind ≠ 8 ∧ x.overrun = false ∧ bit st x.cls = false then
        (s.modLport l (fun p => { p with tx := some { x with overrun := true } })).bump (ctr 4 l 184)
      else s
    | none => s

/-- Every running list that satisfies a test takes its entry anew (05 R226). -/
def State.regate (s : State) (test : GateList → Bool) : State :=
  forEach (s.net.lports.filterMap (fun (l, p) => if (p.gcl.map test).getD false then some l else none))
    (fun l s => (s.modLport l (fun p => { p with gclEpoch := p.gclEpoch + 1 })).gateNow l true) s

/-- Is gate c open and does a frame of `len` bytes fit before it closes (05 R222, R223)? -/
def State.gateFits (s : State) (l c len : Nat) : Bool :=
  let p := s.lport l
  match p.gcl with
  | none => true
  | some g =>
    bit p.gates c &&
      (match g.closeIn c (s.tbNs g.tb) with
       | none => true
       | some ns => decide ((len + 20) * bytePs (modeOf s.gens.cur (l / 4)) ≤ ns * 1000))

/-! ### Choosing the next frame (05 R213; 07 R302) -/

/-- A frame in cut-through reception, by its number. -/
def State.rxOf (s : State) (id : Nat) : Option RxPending :=
  (s.net.lports.findSome? (fun (_, p) => match p.rx with
    | some r => if r.id = id then some r else none
    | none => none))

/-- Does R193 hold for a frame on a class of a port? A frame from a confirmed source passes. -/
def State.cutThrough (s : State) (l c : Nat) (f : QFrame) : Bool :=
  match f.pending with
  | none => true
  | some id =>
    match s.rxOf id with
    | none => false
    | some r =>
      bit (lpfld s.gens.cur l 28 1) c &&
        decide (r.firstIn + r.lenIn * r.bytePs + 10000 + (if r.auth then 20000 else 0) ≤
          s.now + (s.wireLen l f - 4) * bytePs (modeOf s.gens.cur (l / 4)))

/-- Is the head of a queue ready, its leg shaper apart (07 R302)? -/
def State.headReady (s : State) (l c : Nat) (q : List QFrame) : Bool :=
  match q with
  | [] => false
  | f :: _ => s.cutThrough l c f && s.gateFits l c (s.wireLen l f)

/-- Is the head of a leg queue ready? -/
def State.legReady (s : State) (l c i : Nat) : Bool :=
  s.headReady l c (s.legq i) &&
    (match look s.objs.legs i with
     | some leg => decide (0 < leg.shapeKbps ∧ 0 ≤ s.legCredit leg)
     | none => false)

/-- Length on a port of the frame at the head of a leg queue. -/
def State.legHead (s : State) (l i : Nat) : Nat := ((s.legq i).head?.map (s.wireLen l)).getD 0

/-- One round of the deficit round robin over leg indices: the leg that sends, if one can, and the deficits as they then stand; a leg
that the turn passes while its head is not ready loses its deficit (07 R302). -/
def drr (s : State) (l c quantum : Nat) : List Nat → Tab Nat → Option Nat × Tab Nat
  | [], defs => (none, defs)
  | i :: rest, defs =>
    if s.legReady l c i then
      let d := lookD defs i 0 + quantum
      if s.legHead l i ≤ d then (some i, put defs i (d - s.legHead l i)) else drr s l c quantum rest (put defs i d)
    else drr s l c quantum rest (put defs i 0)

/-- Rounds of it, until a leg can send or none is ready; `n` bounds the quanta a frame can need: 9,216 bytes under a MAX_FRAME of 1,518
are seven. -/
def drrRounds (s : State) (l c quantum : Nat) (order : List Nat) : Nat → Tab Nat → Option Nat × Tab Nat
  | 0, defs => (none, defs)
  | n + 1, defs =>
    match drr s l c quantum order defs with
    | (some i, d) => (some i, d)
    | (none, d) => if order.any (fun i => s.legReady l c i) then drrRounds s l c quantum order n d else (none, d)

/-- Has a class had no chance to choose a frame before now: its port was sending, its shaper held it until now, or it was paused?
Otherwise nothing in it was ready, so that its turn has gone round and every deficit is lost (07 R302; notes/assumptions/58.md). -/
def State.turnKept (s : State) (l c : Nat) : Bool :=
  let p := s.lport l
  decide (s.now ≤ p.nextStart) || (s.shaped l c && (s.cls l c 4 4 == 0 || decide (s.clsCreditAt l c (s.now - 1000) < 0))) ||
    (look p.pausedSince c).isSome || look p.resumedAt c == some s.now

/-- The queue a class sends from, if it can send: its direct queue (none) or the leg queue of a leg; and the deficits of its legs as they
then stand. -/
def State.pickInClass (s : State) (l c : Nat) : Option (Option Nat) × Tab Nat :=
  if s.clsPermits l c = false then (none, [])
  else
    let legs := s.legsOfClass l c
    let x := s.shaper l c
    let kept := s.turnKept l c
    let defs : Tab Nat := legs.map (fun i => (i, if kept then ((look s.objs.legs i).map (·.deficit)).getD 0 else 0))
    if s.headReady l c (s.direct l c) then (some none, defs)
    else
      let mine : Bool := x.inTurn && legs.contains x.turn
      if mine ∧ kept ∧ s.legReady l c x.turn ∧ s.legHead l x.turn ≤ lookD defs x.turn 0 then
        (some (some x.turn), put defs x.turn (lookD defs x.turn 0 - s.legHead l x.turn))
      else
        let defs := if mine ∧ s.legReady l c x.turn = false then put defs x.turn 0 else defs
        let from_ := if x.inTurn then x.turn + 1 else x.turn
        let order := legs.filter (fun i => decide (from_ ≤ i)) ++ legs.filter (fun i => decide (i < from_))
        match drrRounds s l c (lpfld s.gens.cur l 24 2) order 8 defs with
        | (some i, d) => (some (some i), d)
        | (none, d) => (none, d)

/-- Is a class paused (05 R216, R219)? Keys: class c in pause mode, 8 + priority under PFC. -/
def State.paused (s : State) (l c : Nat) : Bool :=
  let p := s.lport l
  let map := lpfld s.gens.cur l 32 3
  let live (k : Nat) : Bool := match look p.pause k with
    | some e => decide (s.now < e)
    | none => false
  live c || (List.range 8).any (fun q => live (8 + q) && bits map (3 * q + 2) (3 * q) == c)

/-- The choice of the next frame of a port among classes in their order, the first that is not paused and can send: its class and queue;
and the deficits in the classes that were asked (05 R213; 07 R302). -/
def State.pickFrom (s : State) (l : Nat) : List Nat → Option (Nat × Option Nat) × Tab Nat
  | [] => (none, [])
  | c :: rest =>
    if s.paused l c then s.pickFrom l rest
    else
      match s.pickInClass l c with
      | (some q, ds) => (some (c, q), ds)
      | (none, ds) =>
        let (x, more) := s.pickFrom l rest
        (x, ds ++ more)

/-- The class and queue of the next frame of a port, the highest class first. -/
def State.pick (s : State) (l : Nat) : Option (Nat × Option Nat) × Tab Nat := s.pickFrom l [7, 6, 5, 4, 3, 2, 1, 0]

/-- Stores the deficits that a choice leaves. -/
def State.setDeficits (s : State) (ds : Tab Nat) : State := forEach ds (fun (j, d) s => s.modLeg j (fun x => { x with deficit := d })) s

/-- Takes the head of the chosen queue; a spilled frame is read back into the loft, and the frame takes the length that the settings now
in force give it (05 R234; 07 R320, R321). -/
def State.takeHead (s : State) (l c : Nat) (leg : Option Nat) : Option (QFrame × State) :=
  let q := match leg with
    | none => s.direct l c
    | some i => s.legq i
  match q with
  | [] => none
  | f :: rest =>
    let s := match leg with
      | none => s.setDirect l c rest
      | some i => (s.setLegq i rest).modShaper l c (fun x => { x with turn := i, inTurn := true })
    let g := { f with len := s.wireLen l f, spilled := false }
    if f.spilled then
      let s := (s.release f).modNet (fun n => { n with spillCharge := n.spillCharge + f.len })
      some (g, (s.dropN f (shCtr (yardOf l) 48) (cellsOf f.len) 8).poolAdd f.pool (cellsOf g.len))
    else if cellsOf f.len = cellsOf g.len then some (g, s)
    else some (g, (s.release f).poolAdd f.pool (cellsOf g.len))

/-! ### Discards -/

/-- Empties a direct queue, counting each frame, and answers the HOST_TX frames among them. -/
def State.discardAll (s : State) (fs : List QFrame) (key yard : Nat) : State :=
  forEach fs (fun f s => (s.release f).dropQ f key yard) s

/-- HEAD_AGE_DROP of one queue: heads older than DROP_AGE_MS go, HOST_TX frames never (07 R311). -/
def dropAged (s : State) (ageMs yard : Nat) : List QFrame → State × List QFrame
  | [] => (s, [])
  | f :: rest =>
    if ageMs ≠ 0 ∧ f.kind ≠ 3 ∧ f.enter + ageMs * 1000 * us < s.now then
      dropAged ((s.release f).dropQ f (shCtr yard 0) yard) ageMs yard rest
    else (s, f :: rest)

/-- HEAD_AGE_DROP of a queue: below 512 the direct queue 8 * LPORT + class, from 512 on the leg queue of leg index q - 512. -/
def headAgeDrop (q : Nat) (s : State) : State :=
  if q < 512 then
    let l := q / 8
    let c := q % 8
    let (s, rest) := dropAged s (s.cls l c 12 2) (yardOf l) (s.direct l c)
    s.setDirect l c rest
  else
    match look s.objs.legs (q - 512) with
    | none => s
    | some leg =>
      let (s, rest) := dropAged s (s.cls leg.lport leg.videoClass 12 2) (yardOf leg.lport) (s.legq (q - 512))
      s.setLegq (q - 512) rest

/-- A pending source resolves: its dropped copies are counted, its queued copies confirmed or discarded (04 R194; 07 R312). The
yard's `fw_void_discarded` stands at offset `voidOff` of block 0x05. -/
def State.resolveDrops (s : State) (id : Nat) (ok : Bool) (voidOff : Nat) : State :=
  let mine := s.net.pendDrops.filter (fun x => x.1 == id)
  let s := s.modNet (fun n => { n with pendDrops := n.pendDrops.filter (fun x => x.1 != id) })
  forEach mine (fun (_, key, n, y) s => if ok then s.addCnt key n else if y < 8 then s.bump (ctr 5 y voidOff) else s) s

/-- WATERMARK_REARM: the latch is armed again once its notice is consumed and the level below LOW_CELLS (07 R323). -/
def watermarkRearm (k : Nat) (s : State) : State :=
  if k < 16 ∧ (s.pool k).latched ∧ s.noticeDone k ∧ (s.pool k).level < s.poolFld k 16 then
    s.modPool k (fun p => { p with latched := false, notice := [] })
  else s

/-- WATERMARK_REARM (07 R323). -/
def execWatermarkRearm (t k : Nat) (s : State) : Host.Outcome State Fault Refusal := .next (watermarkRearm k (s.at t))

end Sys2Proof.Machine
end

