-- ==== Sys2Proof/Machine/Budget.lean ====
section
/-! DEFINITION. The DRAM budget and admission (01 R56-R65; 08 R341-R343, R351; 09 R388-R390; 10 R422-R426). -/
namespace Sys2Proof.Machine

/-! ### Peak and budgets -/

/-- Is a rank in service, spare or member (13 R560, R568)? -/
def Rank.inService (r : Rank) : Bool :=
  match r.state with
  | .member => true
  | .spare => true
  | .spareInUse => true
  | .migrating => true
  | .degraded => true
  | _ => false

/-- A rank by its key 4 * channel + rank. -/
def State.rank (s : State) (k : Nat) : Rank := lookD s.dram.ranks k {}

/-- Is a channel in service (13 R536)? -/
def State.chInService (s : State) (c : Nat) : Bool := [0, 1, 2, 3].any (fun r => (s.rank (4 * c + r)).inService)

/-- Peak of the channels in service, MB/s (13 R536). -/
def State.peakNow (s : State) : Nat := ((List.range 12).filter (fun c => s.chInService c)).length * s.dram.rate * 8

/-- The default budget of each client in MB/s at a peak of 844,800 MB/s (01 R56). -/
def defClient (i : Nat) : Nat :=
  match i with
  | 0 => 170000 | 1 => 145000 | 2 => 70000 | 3 => 110000 | 4 => 60000 | 5 => 30000 | 6 => 30000 | 7 => 45000 | 8 => 20000
  | _ => 0

/-- A figure scaled by the remaining peak over the peak found at BOOT (01 R61). -/
def State.scaled (s : State) (x : Nat) : Nat := if s.dram.peakBoot = 0 then 0 else x * s.peakNow / s.dram.peakBoot

/-- Budget of client i in bytes/s (01 R56, R57, R61, R62). -/
def State.clientBps (s : State) (i : Nat) : Nat :=
  if tackHas s.gens.cur 3 then s.scaled (s.fld 3 (4 + 4 * i) 4 * 1000000) else defClient i * 1000000 * s.peakNow / 844800

/-- Sustained figure in MB/s. -/
def State.sustained (s : State) : Nat :=
  if tackHas s.gens.cur 3 then s.scaled (s.fld 3 0 4) else 680000 * s.peakNow / 844800

/-- Share of class k (0 decode, 1 encode, 2 composition) of a yard in bytes/s (01 R62, R64, R65). -/
def State.yardShare (s : State) (k y : Nat) : Nat :=
  let permille := if tackHas s.gens.cur 3 then s.fld 3 (40 + 6 * y + 2 * k) 2 else 125
  s.clientBps k * permille / 1000

/-- Units of a yard in service (01 R33). -/
def State.ydStatus (s : State) (y : Nat) : Nat := lookD s.power.ydStatus y 0
def State.stallsIn (s : State) (y : Nat) : Nat := ((List.range 6).filter (fun i => bit (s.ydStatus y) i)).length
def State.thymesIn (s : State) (y : Nat) : Nat := ((List.range 8).filter (fun i => bit (s.ydStatus y) (6 + i))).length
def State.mixIn (s : State) (y : Nat) : Bool := bit (s.ydStatus y) 14
def State.cpIn (s : State) (y : Nat) : Bool := bit (s.ydStatus y) 15

/-! ### Sums over admissions; encode rates are held in fifths of a pixel/s -/

/-- Sum of a quantity over the admissions of a class in a yard. -/
def admSum (a : List Adm) (cls y : Nat) (f : Adm → Nat) : Nat :=
  a.foldl (fun n x => if x.cls = cls ∧ x.yard = y then n + f x else n) 0

/-- Bytes admitted in a region kind. -/
def regionUsed (a : List Adm) (kind : Nat) : Nat := a.foldl (fun n x => if x.region = kind then n + x.bytes else n) 0

/-- Do `bytes` more fit in a region; the composition region also holds the overlay cache (09 R407; 13 R544)? -/
def State.regionFits (s : State) (a : List Adm) (kind bytes : Nat) : Bool :=
  let cache := if kind = 4 then s.fld 0x0A 66 2 else 0
  decide (regionUsed a kind + bytes + cache * 1048576 ≤ (s.region kind).2.1 * 1048576)

/-- The stall load of a yard in fifths of a pixel/s of decode (08 R342). -/
def stallLoad5 (a : List Adm) (y : Nat) : Nat := 5 * admSum a 0 y (·.rate) + 2 * admSum a 1 y (·.rate)

/-- Clock of the stalls and compositors in percent: throttling slows it (14 R595). -/
def State.clockPct (s : State) : Nat := match s.power.level with
  | 0 => 100
  | 1 => 75
  | _ => 50

/-- What the throttled clock has run, in hundredths of ps (14 R595). -/
def State.clkRead (s : State) : Nat := s.power.clkAcc + (s.now - s.power.clkAt) * s.clockPct

/-- Does a yard pass R58 and R342 with more work of class 0 or 1? -/
def State.stallFits (s : State) (a : List Adm) (cls y rate dram : Nat) : Bool :=
  decide (stallLoad5 a y + (if cls = 0 then 5 else 2) * rate ≤ 50000000 * s.clockPct * s.stallsIn y) &&
    decide (admSum a cls y (·.dram) + dram ≤ s.yardShare cls y)

/-- The order in which yards are tried (01 R58). -/
def yardOrder (home : Nat) : List Nat := (List.range 8).map (fun i => (home + i) % 8)

/-- Places work of class 0 or 1 in the first yard that passes. -/
def State.placeStall (s : State) (a : List Adm) (x : Adm) (home : Nat) : Option (List Adm) :=
  if s.regionFits a x.region x.bytes then
    ((yardOrder home).find? (fun y => s.stallFits a x.cls y x.rate x.dram)).map (fun y => a ++ [{ x with yard := y }])
  else none

/-! ### Decode (08 R341, R343, R351) -/

/-- Bytes of a picture buffer (R351). -/
def pictureBytes (w h : Nat) (d10 : Bool) : Nat :=
  let w64 := cdiv w 64 * 64
  let h64 := cdiv h 64 * 64
  w64 * h64 * 3 / 2 * (if d10 then 5 else 4) / 4 + w64 * h64 / 16

/-- Decode profile j of the tack: width, height, fps, DEPTH10, BFRAMES, MAX_DPB (R367). -/
def State.decProfile (s : State) (j : Nat) : Nat × Nat × Nat × Bool × Bool × Nat :=
  let o := 64 + 16 * j
  (s.fld 9 o 2, s.fld 9 (o + 2) 2, s.fld 9 (o + 4) 1, bit (s.fld 9 (o + 5) 1) 0, bit (s.fld 9 (o + 5) 1) 1, s.fld 9 (o + 6) 1)

/-- The template record of a room template: PROFILE, DEC_S, DEC_T, DEC_SIM (R368). -/
def State.decRec (s : State) (tpl : Nat) : Nat × Nat × Nat × Nat :=
  let o := 320 + 4 * tpl
  (bits (s.fld 9 o 1) 3 0, bits (s.fld 9 (o + 1) 1) 1 0, bits (s.fld 9 (o + 1) 1) 3 2, bits (s.fld 9 (o + 2) 1) 1 0)

/-- DRAM bytes a pixel of decode, in thousandths (R343). -/
def decBytes (d10 bframes : Bool) : Nat := if d10 then (if bframes then 5250 else 4375) else (if bframes then 4200 else 3500)

/-- The admission of a decode target under a profile, before a yard is chosen (R341). -/
def decodeAdm (room key w h fps : Nat) (d10 bframes : Bool) (dpb : Nat) : Adm :=
  { room, cls := 0, key, yard := 0, rate := w * h * fps, dram := w * h * fps * decBytes d10 bframes / 1000
    bytes := (dpb + 3) * pictureBytes w h d10, region := 2 }

/-! ### Composition and rungs (09 R388-R390) -/

/-- A field of layout set k (1-16) by its own offset (09 R407). -/
def State.setFld (s : State) (k off n : Nat) : Nat := s.fld 0x0A (128 + 8384 * (k - 1) + off) n

/-- A field of rung r of ladder k (1-16) (09 R411). -/
def State.rungFld (s : State) (k r off n : Nat) : Nat := s.fld 0x0B (64 + 272 * (k - 1) + 16 + 32 * r + off) n

/-- RUNGS of a ladder. -/
def State.rungs (s : State) (k : Nat) : Nat := s.fld 0x0B (64 + 272 * (k - 1)) 1

/-- Codec, profile, structure, width and height of each rung of a ladder. -/
def State.ladder (s : State) (k : Nat) : List (Nat × Nat × Nat × Nat × Nat) :=
  (List.range (s.rungs k)).map (fun r =>
    (s.rungFld k r 0 1, s.rungFld k r 1 1, bits (s.rungFld k r 2 1) 1 0, s.rungFld k r 4 2, s.rungFld k r 6 2))

/-- Is the rung a 10-bit rung? -/
def rung10 (codec profile : Nat) : Bool := (codec == 9 || codec == 0x0A) && profile == 1

/-- The leader an L3T3 or first rung follows: none; a later rung of one size, codec, profile and structure follows the earliest
(R390). -/
def leaderOf (l : List (Nat × Nat × Nat × Nat × Nat)) (r : Nat) : Option Nat :=
  match l[r]? with
  | none => none
  | some x =>
    if x.2.2.1 = 3 then none
    else (List.range r).find? (fun i => decide (l[i]? = some x))

/-- The primary leader: the largest W × H, lowest index among equals (R390). -/
def primaryOf (l : List (Nat × Nat × Nat × Nat × Nat)) : Nat :=
  let area (r : Nat) : Nat := ((l[r]?).map (fun x => x.2.2.2.1 * x.2.2.2.2)).getD 0
  (List.range l.length).foldl (fun b r => if area b < area r then r else b) 0

/-- Encode rate of a rung in fifths of a pixel/s: W × H × FPS × L_r × f_r (R388). -/
def encRate5 (strct w h fps : Nat) (follower : Bool) : Nat :=
  if strct = 3 then w * h * fps * 5 * 21 / 16 else w * h * fps * (if follower then 3 else 5)

/-- The admission of a rung (R388, R389). -/
def rungAdm (room r fps : Nat) (x : Nat × Nat × Nat × Nat × Nat) (follower : Bool) : Adm :=
  let (codec, prof, st, w, h) := x
  let ten := rung10 codec prof
  let perPix := (if follower then 3000 else 5000) * (if st = 3 then 21 else 16) * (if ten then 5 else 4)
  { room, cls := 1, key := r, yard := 0, rate := encRate5 st w h fps follower, dram := w * h * fps * perPix / 64000
    bytes := if st = 3 then 3 * (pictureBytes (w / 4) (h / 4) ten + pictureBytes (w / 2) (h / 2) ten + pictureBytes w h ten)
      else (if st = 0 then 2 else 3) * pictureBytes w h ten
    region := 3 }

/-- The admission of a canvas in a yard (R388, R389). -/
def canvasAdm (room y w h fps : Nat) (d10 : Bool) : Adm :=
  { room, cls := 2, key := 0, yard := y, rate := w * h * fps, dram := w * h * fps * (if d10 then 5625 else 4500) / 1000
    bytes := 3 * pictureBytes w h d10, region := 4 }

/-- Does a yard's compositor pass with one more canvas? -/
def State.composeFits (s : State) (a : List Adm) (y : Nat) (x : Adm) : Bool :=
  s.cpIn y && decide (admSum a 2 y (·.rate) + x.rate ≤ 40000000 * s.clockPct) && decide (admSum a 2 y (·.dram) + x.dram ≤ s.yardShare 2 y)

/-- Places the rungs of a ladder one after the other; all or nothing (R388). -/
def State.placeRungs (s : State) (room home fps : Nat) (l : List (Nat × Nat × Nat × Nat × Nat)) :
    List Nat → List Adm → Option (List Adm)
  | [], a => some a
  | r :: rest, a =>
    match l[r]? with
    | none => some a
    | some x => (s.placeStall a (rungAdm room r fps x (leaderOf l r).isSome) home).bind (s.placeRungs room home fps l rest)

/-- Admits a room's canvas in its home yard, and its ladder (R388, R389). -/
def State.admitCanvas (s : State) (a : List Adm) (room home set lad : Nat) : Option (List Adm) :=
  let w := s.setFld set 0 2
  let h := s.setFld set 2 2
  let fps := s.setFld set 4 1
  let x := canvasAdm room home w h fps (bit (s.setFld set 5 1) 0)
  if s.composeFits a home x && s.regionFits a 4 x.bytes then
    s.placeRungs room home fps (s.ladder lad) (List.range (s.rungs lad)) (a ++ [x])
  else none

/-! ### Mixing (10 R422-R426) -/

/-- A field of audio profile k (1-16) by its own offset (10 R453). -/
def State.audFld (s : State) (k off n : Nat) : Nat := s.fld 0x0C (64 + 160 * (k - 1) + off) n

/-- The mix charge of a room with MIX_N n and reservation r (R426). -/
def mixCharge (n r : Nat) : Nat := 4000 + 15 * (n * r + 4 * (n + r))

/-- Does a yard's mix engine take the charge and the outputs, others of the room taken out (R425, R426)? -/
def State.mixFits (s : State) (a : List Adm) (y charge outs usedOuts : Nat) : Bool :=
  s.mixIn y && decide (admSum a 4 y (·.rate) + charge ≤ 3600000) && decide (usedOuts + outs ≤ 1024)

/-- Physical outputs in use in an engine, those of one room left out: reservations and unique rows. -/
def State.outsUsed (s : State) (y room : Nat) : Nat :=
  s.media.mixes.foldl (fun n (i, m) =>
    if i = room then n
    else match look s.objs.rooms i with
      | some r => if r.home = y then n + m.reserved + m.unique else n
      | none => n) 0

/-- Places one thyme charge whole in the first yard that keeps within THYME_ADMIT_PCT (R423). -/
def State.placeThyme (s : State) (a : List Adm) (room home key cycles : Nat) : Option (List Adm) :=
  if cycles = 0 then some a
  else
    ((yardOrder home).find? (fun y =>
      decide ((admSum a 3 y (·.rate) + cycles) * 100 ≤ s.thymesIn y * 3000000 * s.fld 0x0C 34 1))).map
      (fun y => a ++ [{ room, cls := 3, key, yard := y, rate := cycles }])

/-- Places several thyme charges (key and cycles). -/
def State.placeThymes (s : State) (room home : Nat) : List (Nat × Nat) → List Adm → Option (List Adm)
  | [], a => some a
  | (k, c) :: rest, a => (s.placeThyme a room home k c).bind (s.placeThymes room home rest)

/-- Decode charge of a codec (R422). -/
def decCycles (codec : Nat) : Nat := match codec with
  | 1 => 5500
  | 4 => 2000
  | _ => 400

/-- Encode charge of a codec under OPUS_BW. -/
def encCycles (codec bw : Nat) : Nat := match codec with
  | 1 => (match bw with
    | 2 => 15500
    | 1 => 9000
    | _ => 6000)
  | 4 => 2600
  | _ => 400

/-- Up-bridge or down-bridge charge of a codec's domain: none for Opus, 16 kHz for G.722, 8 kHz for G.711. -/
def bridgeCycles (codec : Nat) : Nat := match codec with
  | 1 => 0
  | 4 => 1500
  | _ => 1758

/-- Down-bridge charge of a mix output: of Opus by the domain of OPUS_BW (R418, R419). -/
def downCycles (codec bw : Nat) : Nat := match codec with
  | 1 => (match bw with
    | 2 => 0
    | 1 => 1500
    | _ => 1758)
  | _ => bridgeCycles codec

/-- Key of a thyme charge: 8 × stream + kind (0 jitter, 1 decode, 2 up-bridge, 3 input insert, 4 down-bridge, 5 encode); the
output inserts of a room are keyed 2^40 + n. -/
def thymeKey (stream kind : Nat) : Nat := 8 * stream + kind

/-- Charges of a mix source. -/
def inCharges (stream codec inBudget : Nat) : List (Nat × Nat) :=
  [(thymeKey stream 0, 1250), (thymeKey stream 1, decCycles codec), (thymeKey stream 2, bridgeCycles codec),
   (thymeKey stream 3, inBudget)]

/-- Charges of a mix output. -/
def outCharges (stream codec bw : Nat) : List (Nat × Nat) :=
  [(thymeKey stream 4, downCycles codec bw), (thymeKey stream 5, encCycles codec bw)]

/-- Output-insert charges of reserved outputs from n up to but not including m. -/
def insertCharges (n m outBudget : Nat) : List (Nat × Nat) :=
  ((List.range m).filter (fun j => decide (n ≤ j))).map (fun j => (2 ^ 40 + j, outBudget))

/-- Yard in which an admission stands. -/
def yardOfAdm (a : List Adm) (room cls key : Nat) : Option Nat :=
  (a.find? (fun x => x.room == room && x.cls == cls && x.key == key)).map (·.yard)

/-- Does any client's admitted charge exceed its budget (01 R61)?  DESIGN CHOICE: each yard's share of a yard-scope client counts as a
budget of its own, and the clients of device scope, which admit nothing, never exceed theirs (notes/assumptions/100.md). -/
def State.overcommit (s : State) : Bool :=
  (List.range 8).any (fun y => [0, 1, 2].any (fun k => decide (s.yardShare k y < admSum s.objs.adms k y (·.dram))))

end Sys2Proof.Machine
end

