-- ==== Sys2Proof/Machine/Rings.lean ====
section
/-! DEFINITION. Host ports: completions (02 R93-R95), fences (R96), batches (R98), the fetch of a descriptor with checks 1-5 of
R92, the setup lock (R85, R86) and the ways a port leaves RUN (R74). -/
namespace Sys2Proof.Machine

/-! ### Status codes (02 R94) -/
def stOk : Nat := 0x00
def stEmpty : Nat := 0x01
def stStaleHandle : Nat := 0x02
def stStaleGen : Nat := 0x03
def stBadOpcode : Nat := 0x04
def stBadParam : Nat := 0x05
def stNoCapacity : Nat := 0x06
def stNotOwner : Nat := 0x07
def stBatchAborted : Nat := 0x08
def stBatchState : Nat := 0x09
def stWrongMode : Nat := 0x0A
def stDmaError : Nat := 0x0B
def stTackInvalid : Nat := 0x0C
def stFlashError : Nat := 0x0D
def stNoParent : Nat := 0x0E
def stBusy : Nat := 0x0F
def stKeyError : Nat := 0x10
def stNotSent : Nat := 0x11

/-! ### Descriptor kinds (02 R90) -/

/-- A row of R90: marked with a length; object named (0 none, 1 room, 2 leg, 3 stream); gen-checked; accepted in a batch;
takes effect at a tick. -/
structure Kind where
  len : Bool := false
  handle : Nat := 0
  gen : Bool := false
  batch : Bool := false
  tick : Bool := false
  deriving DecidableEq, Repr

/-- The kind an opcode names (02 R90). -/
def kindOf (op : Nat) : Option Kind :=
  match op with
  | 0x00 => some { batch := true }
  | 0x01 => some { gen := true, batch := true, tick := true }
  | 0x02 => some { handle := 1, gen := true, batch := true, tick := true }
  | 0x03 => some { handle := 1, batch := true, tick := true }
  | 0x04 => some { handle := 1, gen := true, batch := true, tick := true }
  | 0x05 => some { handle := 2, gen := true, batch := true, tick := true }
  | 0x06 => some { handle := 2, batch := true, tick := true }
  | 0x07 => some { handle := 2, gen := true, batch := true, tick := true }
  | 0x08 => some { handle := 3, gen := true, batch := true, tick := true }
  | 0x09 => some { handle := 3, batch := true, tick := true }
  | 0x0A => some {}
  | 0x0B => some {}
  | 0x0C => some {}
  | 0x0D => some { len := true, handle := 3, batch := true, tick := true }
  | 0x10 => some { len := true, gen := true }
  | 0x11 => some { gen := true, tick := true }
  | 0x12 => some { gen := true, tick := true }
  | 0x14 => some { len := true, tick := true }
  | 0x18 => some { len := true, tick := true }
  | 0x1A => some { len := true }
  | 0x1B => some { len := true }
  | 0x1C => some { len := true, handle := 1 }
  | 0x1E => some { len := true }
  | 0x1F => some { len := true }
  | 0x20 => some { len := true }
  | _ => none

/-- Reserved bits (slot offset, mask) and reserved byte ranges of a kind's body (02 R640 and each kind's body). -/
def bodyReserved (op : Nat) : List (Nat × Nat) × List (Nat × Nat) :=
  match op with
  | 0x01 | 0x02 => ([(16, 0xC0), (17, 0xF0), (18, 0xE0), (19, 0xF0)], [(22, 24), (40, 64)])
  | 0x04 | 0x05 => ([(16, 0xC0), (17, 0xC0), (18, 0xC0), (19, 0xF8), (46, 0xE0)], [(47, 48), (60, 64)])
  | 0x07 | 0x08 =>
    ([(16, 0xE0), (18, 0x80), (19, 0xF0), (32, 0xFC), (34, 0xF0), (35, 0xE0), (36, 0xF0), (37, 0xF0), (38, 0xF0),
      (39, 0xF0), (40, 0xF0), (41, 0xE0), (42, 0xE0)], [(59, 64)])
  | 0x0C => ([], [(24, 64)])
  | 0x0D => ([(25, 0xFC)], [(32, 64)])
  | 0x10 => ([], [(24, 64)])
  | 0x11 => ([(20, 0xFC)], [(21, 64)])
  | 0x12 => ([], [(20, 64)])
  | 0x14 => ([(25, 0xFE)], [(26, 64)])
  | 0x18 => ([(28, 0xFC)], [(29, 32), (36, 40), (48, 64)])
  | 0x1A => ([], [(24, 64)])
  | 0x1B => ([(24, 0xC0), (25, 0xF8), (26, 0xFE)], [(27, 64)])
  | 0x1C => ([(24, 0xFC), (25, 0xFC)], [(26, 32), (40, 64)])
  | 0x1E | 0x1F => ([], [(28, 64)])
  | 0x20 => ([(19, 0xFC)], [(20, 24), (40, 64)])
  | _ => ([], [(16, 64)])

/-- Check 3 of R92 on the body: every reserved field of the kind is 0. -/
def bodyOk (op : Nat) (d : Desc) : Bool :=
  (bodyReserved op).1.all (fun (o, m) => dmask d o m) && (bodyReserved op).2.all (fun (lo, hi) => dzero d lo hi)

/-- Check 3 of R92 on the header: the reserved byte, and LENGTH and HANDLE in a kind without them. -/
def headerOk (k : Kind) (d : Desc) : Bool := d.rsv == 0 && (k.len || d.length == 0) && (k.handle != 0 || d.handle == 0)

/-- Check 4 of R92: the kinds a port in RUN accepts in a device mode (02 R105). BATCH_BEGIN and BATCH_END frame what is judged
one by one, so every mode that sweeps accepts them (notes/assumptions/11.md). -/
def modeAccepts (m : Mode) (op : Nat) : Bool :=
  match m with
  | .run => true
  | .standby => [0x00, 0x0A, 0x0B, 0x0C, 0x18, 0x10, 0x11, 0x12, 0x14, 0x1E, 0x1F, 0x20, 0x1A, 0x1B].contains op
  | .service => [0x00, 0x0A, 0x0B, 0x0C, 0x18, 0x1E, 0x1F, 0x20, 0x1A, 0x1B].contains op
  | .drain => [0x00, 0x0A, 0x0B, 0x0C, 0x18, 0x03, 0x06, 0x09, 0x1C, 0x1A].contains op
  | .safe => [0x00, 0x0A, 0x0B, 0x0C, 0x18, 0x1E, 0x1C].contains op
  | _ => false

/-! ### Completions -/

/-- Descriptors of a port's rings that feed completion ring j and are not completed. -/
def HostPort.owed (h : HostPort) (j : Nat) : Nat :=
  h.sq.foldl (fun n (i, q) => if h.cqOf i = j then n + q.out.length else n) 0

/-- The 16 bytes of a completion entry (02 R93). -/
def complBytes (c : Compl) : Bytes :=
  leBytes 2 c.tag ++ leBytes 1 c.status ++ leBytes 1 (b2n c.phase * 128 + c.ring % 64) ++ leBytes 4 c.result ++
    leBytes 6 c.tick ++ leBytes 2 c.sqhead

/-- Counts an unsignalled entry of a completion ring and sends its message when COAL_COUNT is reached (02 R109). -/
def HostPort.coalesce (h : HostPort) (now j : Nat) : HostPort :=
  let q := h.cqAt j
  let n := bits (h.reg (0x1050C + 16 * j)) 15 0
  let h := h.modCq j (fun q => { q with unsignalled := q.unsignalled + 1, oldest := if q.unsignalled = 0 then now else q.oldest })
  if n ≠ 0 ∧ n ≤ q.unsignalled + 1 ∧ h.msix then
    (h.msi (bits (h.cqCfg j) 21 16)).modCq j (fun q => { q with unsignalled := 0 })
  else h

/-- Writes the completion of the oldest descriptor of a ring; a halted completion ring receives no entry (02 R82), and an entry that
the bridge cannot issue is lost, its failure awaiting its report (R122). -/
def State.putCompl (s : State) (p r : Nat) (o : Outstanding) (status result : Nat) (tick : Option Nat) : State :=
  let h := s.host p
  let j := h.cqOf r
  let c := h.cqAt j
  let size := ringSize (h.cqCfg j)
  let h := h.modSq r (fun q => { q with out := q.out.drop 1 })
  if c.halted then s.modHost p (fun _ => h)
  else
    let e : Compl := {
      ring := r, tag := o.tag, status, result, tick := tick.getD s.tick
      sqhead := (h.sqAt r).fetched % ringSize (h.sqCfg r)
      phase := c.posted / size % 2 == 0, objKind := o.objKind, obj := o.obj, at_ := s.now }
    if h.canIssue = false then s.modHost p (fun _ => { h with unissued := (1, j) :: h.unissued }) else
    let s := s.hostWrite p (h.addrAt (0x10500 + 16 * j) + 16 * (c.posted % size)) (complBytes e)
    s.modHost p (fun _ =>
      (h.modCq j (fun c => { c with posted := c.posted + 1, entries := c.entries ++ [e] })).coalesce s.now j)

/-- Posts the completions of a ring that are decided, in submission order (02 R95). -/
def flushFrom (p r : Nat) : List Outstanding → State → State
  | [], s => s
  | o :: rest, s =>
    match o.done with
    | some (st, res, tk) => flushFrom p r rest (s.putCompl p r o st res tk)
    | none => s

/-- Posts what a ring can post. -/
def State.flush (s : State) (p r : Nat) : State := flushFrom p r ((s.host p).sqAt r).out s

/-- The kind of object a create makes: 1 room, 2 leg, 3 stream; 0 for every other kind. -/
def createKind (op : Nat) : Nat := match op with
  | 0x01 => 1
  | 0x04 => 2
  | 0x07 => 3
  | _ => 0

/-- Records the outcome of a descriptor of a ring.  The completion of a create that succeeds bears the new handle, any other the one
its descriptor names. -/
def State.resolve (s : State) (p r seq status result : Nat) (tick : Option Nat) (obj : Nat) : State :=
  s.modHost p (fun h => h.modSq r (fun q => { q with
    out := q.out.map (fun o => if o.seq = seq ∧ o.done = none then
      { o with
        done := some (status, result, tick), obj := if obj = 0 then o.obj else obj
        objKind := if obj = 0 ∨ createKind o.opcode = 0 then o.objKind else createKind o.opcode } else o) }))

/-- Has every descriptor fetched before `seq` from the rings completed? -/
def HostPort.fenceMet (h : HostPort) (seq : Nat) (rings : List Nat) : Bool :=
  rings.all (fun i => (h.sqAt i).out.all (fun o => decide (seq ≤ o.seq)))

/-- Completes each fence of a port whose descriptors have completed (02 R96). -/
def settleFences (p : Nat) : Nat → State → State
  | 0, s => s
  | n + 1, s =>
    let h := s.host p
    match h.sq.find? (fun (_, q) => match q.fence with
      | some (seq, rings) => h.fenceMet seq rings
      | none => false) with
    | none => s
    | some (r, q) =>
      let seq := (q.fence.map (·.1)).getD 0
      let s := s.modHost p (fun h => h.modSq r (fun q => { q with fence := none }))
      settleFences p n ((s.resolve p r seq stOk 0 none 0).flush p r)

/-- Decides a descriptor, posts what its ring can post, and settles the fences of the port. -/
def State.complete (s : State) (p r seq status : Nat) (result : Nat := 0) (tick : Option Nat := none) (obj : Nat := 0) :
    State :=
  settleFences p 64 ((s.resolve p r seq status result tick obj).flush p r)

/-! ### Host memory reads of the bridge (02 R122) -/

/-- Changes one access in progress. -/
def State.modDma (s : State) (id : Nat) (f : Dma → Dma) : State := { s with dmas := s.dmas.map (fun x => if x.id = id then f x else x) }

/-- Starts an access to the buffer of a descriptor. -/
def State.startDma (s : State) (p r seq : Nat) (use : DmaUse) (desc : Desc := {}) (gen : Nat := 0) : State :=
  { s with
    dmas := s.dmas ++ [{ id := s.nextDma, port := p, ring := r, seq, use, issued := (s.host p).canIssue, desc, gen }]
    nextDma := s.nextDma + 1 }

/-! ### Fetching -/

/-- Does the device sweep in this mode (14 R577)? -/
def Mode.sweeps (m : Mode) : Bool :=
  match m with
  | .reset => false | .boot => false | .keep => false | _ => true

/-- Is the ring one from which the bridge fetches now, space in its completion ring apart (02 R82, R84, R96)? -/
def State.ringOpen (s : State) (p r : Nat) : Bool :=
  let h := s.host p
  p < 4 && h.state == .run && s.power.mode.sweeps && h.sqEn r && !(h.sqAt r).halted && !(h.cqAt (h.cqOf r)).halted &&
    (h.sqAt r).fence.isNone

/-- Is an entry of the completion ring free for one more descriptor (02 R95)? -/
def State.cqFree (s : State) (p r : Nat) : Bool :=
  let h := s.host p
  let j := h.cqOf r
  decide ((h.cqAt j).entries.length + h.owed j < ringSize (h.cqCfg j))

/-- Copies a descriptor: its fetch number, and the state with the descriptor outstanding. -/
def State.accept (s : State) (p r op : Nat) (d : Desc) : Nat × State :=
  let seq := s.nextSeq
  let s := { s with nextSeq := seq + 1 }
  let s := s.modHost p (fun h => h.modSq r (fun q => { q with
    fetched := q.fetched + 1, prod := max q.prod (q.fetched + 1)
    out := q.out ++ [{ seq, tag := d.tag, opcode := op, objKind := ((kindOf op).map (·.handle)).getD 0, obj := d.handle }] }))
  (seq, s.bump (hpCtr p 16))

/-- Checks 1-4 of R92: the status of the first that fails. -/
def earlyStatus (m : Mode) (op : Nat) (d : Desc) : Option Nat :=
  match kindOf op with
  | none => some stBadOpcode
  | some k =>
    if k.len ∧ d.length = 0 then some stEmpty
    else if headerOk k d = false ∨ bodyOk op d = false then some stBadParam
    else if modeAccepts m op then none else some stWrongMode

/-- RESULT of a descriptor that fails check 3: KERNEL_LOAD gives reason 0x01 (11 R501). -/
def earlyResult (op st : Nat) : Nat := if op = 0x14 ∧ st = stBadParam then 1 else 0

/-- The open batch of a ring. -/
def State.batchOf (s : State) (p r : Nat) : Option Batch := ((s.host p).sqAt r).batch

/-- Sets the batch of a ring. -/
def State.setBatch (s : State) (p r : Nat) (b : Option Batch) : State :=
  s.modHost p (fun h => h.modSq r (fun q => { q with batch := b }))

/-- Decides every member of a batch that is not decided, and its begin, with one status; its commands wait no more. -/
def State.abortBatch (s : State) (p r : Nat) (b : Batch) (status : Nat) : State :=
  let s := { s with waiting := s.waiting.filter (fun w => w.batch != some b.beginSeq) }
  let s := forEach (b.beginSeq :: b.members) (fun q s => s.resolve p r q status 0 none 0) s
  settleFences p 64 ((s.setBatch p r none).flush p r)

/-- Leaves an aborted tail behind a batch aborted before its BATCH_END (02 R98). -/
def State.startTail (s : State) (p r : Nat) : State :=
  s.modHost p (fun h => h.modSq r (fun q => { q with tail := some (s.tick + 400) }))

/-- The aborted tail of a ring, when it has not ended by itself. -/
def State.tailOf (s : State) (p r : Nat) : Bool :=
  match ((s.host p).sqAt r).tail with
  | some e => decide (s.tick < e)
  | none => false

/-- A descriptor that becomes a member of the open batch: it waits for the effect tick, or it has failed already with its own
status (02 R98).  Checks 1-4 come before check 5, so a 4,097th descriptor that fails one of them, or has nothing to do, has the status
of that check (R92; notes/assumptions/99.md). -/
def State.addMember (s : State) (p r op seq : Nat) (d : Desc) (b : Batch) (start : State → State) : State :=
  let full : Bool := decide (4096 ≤ b.members.length)
  let old := b
  let b := { b with members := b.members ++ [seq] }
  match earlyStatus s.power.mode op d with
  | some st =>
    if st = stEmpty then
      { s.setBatch p r (some b) with
        waiting := s.waiting ++ [{ port := p, ring := r, seq, opcode := op, desc := d, effect := none, batch := some b.beginSeq }] }
    else (s.resolve p r seq st (earlyResult op st) none 0).setBatch p r (some { b with failed := true })
  | none =>
    if full then ((s.resolve p r seq stBatchState 0 none 0).abortBatch p r old stBatchAborted).startTail p r
    else
      if ((kindOf op).map (·.batch)).getD false = false then
        (s.resolve p r seq stBadParam 0 none 0).setBatch p r (some { b with failed := true })
      else
        start { s.setBatch p r (some b) with
          waiting := s.waiting ++ [{
            port := p, ring := r, seq, opcode := op, desc := d, effect := none, batch := some b.beginSeq
            data := if op = 0x0D then none else some [] }] }

/-- The bridge fetches a descriptor of a kind other than BATCH_BEGIN, BATCH_END: the aborted tail, the open batch, checks 1-4,
then `act` with the fetch number. `start` begins the buffer read of a batch member. -/
def fetchDesc (op p r : Nat) (d : Desc) (act : Nat → State → State) (s : State)
    (start : Nat → State → State := fun _ s => s) : State :=
  if s.ringOpen p r = false ∨ s.cqFree p r = false then s
  else
    let (seq, s) := s.accept p r op d
    if s.tailOf p r then s.complete p r seq stBatchAborted
    else
      match s.batchOf p r with
      | some b => s.addMember p r op seq d b (start seq)
      | none =>
        match earlyStatus s.power.mode op d with
        | some st => s.complete p r seq st (earlyResult op st)
        | none => act seq s

/-- A command that takes effect at a tick waits for the first boundary at least 100 µs after its fetch (02 R91). -/
def State.await (s : State) (p r op seq : Nat) (d : Desc) (data : Option Bytes := some []) : State :=
  { s with waiting := s.waiting ++ [{ port := p, ring := r, seq, opcode := op, desc := d, effect := some (s.now + 100 * us), data }] }

/-- The fetch of a kind that takes effect at a tick and reads no buffer. -/
def fetchTick (op p r : Nat) (d : Desc) (s : State) : State :=
  fetchDesc op p r d (fun seq s => s.await p r op seq d) s

/-- NOP completes OK (02 R90). -/
def doNop (p r : Nat) (d : Desc) (s : State) : State := fetchDesc 0x00 p r d (fun seq s => s.complete p r seq stOk) s

/-- FENCE: its ring fetches no more until every descriptor before the noted positions has completed (02 R96). -/
def doFence (p r : Nat) (d : Desc) (s : State) : State :=
  fetchDesc 0x0C p r d (fun seq s =>
    let rings := (List.range 64).filter (fun i => bit (dfld d 16 8) i || i == r)
    settleFences p 64 (s.modHost p (fun h => h.modSq r (fun q => { q with fence := some (seq, rings) })))) s

/-- BATCH_BEGIN opens a batch; inside an open one it aborts it (02 R98). -/
def doBatchBegin (p r : Nat) (d : Desc) (s : State) : State :=
  if s.ringOpen p r = false ∨ s.cqFree p r = false then s
  else
    let (seq, s) := s.accept p r 0x0A d
    if s.tailOf p r then s.complete p r seq stBatchAborted
    else
      match earlyStatus s.power.mode 0x0A d with
      | some st => s.complete p r seq st
      | none =>
        match s.batchOf p r with
        | some b => ((s.resolve p r seq stBatchState 0 none 0).abortBatch p r b stBatchAborted).startTail p r
        | none =>
          (s.setBatch p r (some { beginSeq := seq, startTick := s.tick })).modHost p
            (fun h => h.modSq r (fun q => { q with tail := none }))

/-- BATCH_END closes the batch: its members wait for their common tick, or complete as a batch that has failed (02 R98, R99). -/
def doBatchEnd (p r : Nat) (d : Desc) (s : State) : State :=
  if s.ringOpen p r = false ∨ s.cqFree p r = false then s
  else
    let (seq, s) := s.accept p r 0x0B d
    if s.tailOf p r then
      (s.modHost p (fun h => h.modSq r (fun q => { q with tail := none }))).complete p r seq stBatchState
    else
      match earlyStatus s.power.mode 0x0B d with
      | some st => s.complete p r seq st
      | none =>
        match s.batchOf p r with
        | none => s.complete p r seq stBatchState
        | some b =>
          if b.failed then (s.resolve p r seq stBatchAborted 0 none 0).abortBatch p r b stBatchAborted
          else if b.members = [] then
            (s.resolve p r seq stOk 0 none 0).abortBatch p r b stOk
          else
            let s := s.setBatch p r none
            let at_ := s.now + 100 * us
            { s with waiting := (s.waiting.map (fun w => if w.batch = some b.beginSeq then { w with effect := some at_ } else w)) ++
                [{ port := p, ring := r, seq, opcode := 0x0B, desc := d, effect := some at_, batch := some b.beginSeq }] }

/-- BATCH_TIMEOUT: 400 ticks after BATCH_BEGIN the open batch is aborted, its begin and members with BATCH-STATE (02 R98). -/
def batchTimeout (p r : Nat) (s : State) : State :=
  match s.batchOf p r with
  | some b => if b.startTick + 400 ≤ s.tick then (s.abortBatch p r b stBatchState).startTail p r else s
  | none => s

/-- ABORTED_TAIL_END: the tail ends by itself 400 ticks after the abort (02 R98). -/
def abortedTailEnd (p r : Nat) (s : State) : State :=
  match ((s.host p).sqAt r).tail with
  | some e => if e ≤ s.tick then s.modHost p (fun h => h.modSq r (fun q => { q with tail := none })) else s
  | none => s

/-! ### Halting (02 R81, R82, R122) -/

/-- Halts a submission ring (kind 0), a completion ring (1) with every ring that feeds it, or an event queue (2). -/
def State.haltRing (s : State) (p kind i : Nat) : State :=
  s.modHost p (fun h =>
    match kind with
    | 0 => h.modSq i (fun q => { q with halted := true })
    | 1 => ((List.range 64).filter (fun r => h.sqEn r && h.cqOf r == i)).foldl
        (fun h r => h.modSq r (fun q => { q with halted := true })) (h.modCq i (fun q => { q with halted := true }))
    | _ => h.modEq i (fun q => { q with halted := true }))

/-- RING_ERROR: an index that claims too much halts its ring (02 R81, R121). -/
def State.ringError (s : State) (p kind i idx : Nat) : State :=
  ((s.haltRing p kind i).bump (hpCtr p 56)).event 1 (i + kind * 64 + (idx % 2 ^ 32) * 256) p

/-- A failed host access is counted, reported through AER, and posts HOST_DMA_ERROR (02 R122). -/
def State.dmaError (s : State) (p kind i status tag : Nat) : State :=
  (s.hostFailed p status).event 2 (i % 64 + kind * 64 + (status % 8) * 256 + tag * 65536) p

/-! ### Entering and leaving RUN -/

/-- Rooms a port owns. -/
def State.roomsOf (s : State) (p : Nat) : List (Nat × Room) := s.objs.rooms.filter (fun kv => kv.2.owner == p)

/-- Payload of STATS_CANCELLED (15 R605): reason, SNAP_LEN in 64-byte units, address. -/
def SnapReq.cancelPayload (q : SnapReq) (reason : Nat) : Nat :=
  reason + cdiv q.snapLen 64 % 2 ^ 24 * 256 + q.addr / 64 % 2 ^ 32 * 2 ^ 32

/-- The periodic snapshots of a port that has left RUN are cancelled (04 R177).  15 R605 gives no reason for it: a free value, in an event
that finds its port out of RUN (notes/assumptions/108.md). -/
def State.snapPortGone (s : State) (p : Nat) (snaps : List SnapReq) : State :=
  forEach (snaps.filter (fun q => q.period != 0 && !q.cancelled)) (fun q s =>
    let (why, s) := s.draw 256
    s.event 5 (q.cancelPayload why) p) s

/-- A port leaves RUN: completions and events not written are discarded and counted, commands fetched keep their effect, and the
orphan grace runs (02 R74, R75, R104; 04 R177). -/
def State.leaveRun (s : State) (p : Nat) (dest : PortState) : State :=
  let h := s.host p
  if h.state ≠ .run then s.modHost p (fun h => { h with state := dest })
  else
    let lost := h.sq.filterMap (fun (i, q) => (q.out.getLast?).map (fun o => (i, q.out.length, o.tag)))
    let n := lost.foldl (fun n x => n + x.2.1) 0
    let s := (s.addCnt (hpCtr p 32) n).addCnt (hpCtr p 40) (h.eq.map (fun (_, e) => e.lost)).sum
    let s := s.addCnt (hpCtr p 96) h.puntHeld.length
    let punted := (h.puntHeld.map (fun f => cdiv (f.data.length + 4) 256)).sum
    let s := s.modNet (fun n => { n with
      pools := (adj n.pools 1 (fun x => { x with level := x.level - punted })).map
        (fun (k, x) => (k, { x with notice := x.notice.filter (fun y => y.1 != p) })) })
    let s := { s with
      waiting := s.waiting.filter (fun w => w.port != p || w.effect.isSome)
      dmas := s.dmas.filter (fun x => x.port != p ||
        (match x.use with | .write _ => false | .snapshot _ => false | _ => true)) }
    s.modHost p (fun h => { h with
      state := dest, sweepNow := 0, sq := [], cq := [], eq := [], atn := false
      discarded := lost.map (fun (i, n, t) => (i, (n, t))), unissued := []
      puntBufs := [], puntHeld := [], snaps := []
      grace := some (s.now + s.fld 2 (4 + 4 * p) 4 * 1000 * us) }) |>.snapPortGone p h.snaps

/-- The first ring or queue of a port that breaks a lock check: submission rings, completion rings, event queues, ascending. -/
def HostPort.firstRing (h : HostPort) (bad : Nat → Nat → Bool) : Option (Nat × Nat) :=
  match (List.range 64).find? (fun i => h.sqEn i && bad 1 i) with
  | some i => some (1, i)
  | none =>
    match (List.range 64).find? (fun j => h.cqEn j && bad 2 j) with
    | some j => some (2, j)
    | none => ([0, 1, 2, 3].find? (fun q => h.eqEn q && bad 3 q)).map (fun q => (3, q))

/-- Configuration register of a ring by ERRKIND. -/
def HostPort.cfgOfKind (h : HostPort) (kind i : Nat) : Nat :=
  match kind with
  | 1 => h.sqCfg i
  | 2 => h.cqCfg i
  | _ => h.eqCfg i

/-- Base address by ERRKIND. -/
def HostPort.baseOfKind (h : HostPort) (kind i : Nat) : Nat :=
  match kind with
  | 1 => h.addrAt (0x10100 + 16 * i)
  | 2 => h.addrAt (0x10500 + 16 * i)
  | _ => h.addrAt (0x10900 + 16 * i)

/-- The lock checks of R86 in order: code, ERRKIND, ERRRING of the first that fails. -/
def HostPort.lockCheck (h : HostPort) (m : Mode) : Option (Nat × Nat × Nat) :=
  let sweep := h.reg 0x10010
  let floor := bits sweep 7 0
  let ceil := bits sweep 15 8
  if m = .reset ∨ m = .boot ∨ m = .keep then some (1, 0, 0)
  else if h.bme = false then some (2, 0, 0)
  else if h.mrrs < 1024 then some (3, 0, 0)
  else if h.addrAt 0x10008 = 0 then some (4, 0, 0)
  else if floor = 0 ∨ ceil = 0 ∨ 128 < floor ∨ 128 < ceil ∨ ceil < floor then some (5, 0, 0)
  else
    match h.firstRing (fun k i => let l := bits (h.cfgOfKind k i) 4 0; decide (l < 4 ∨ 16 < l)) with
    | some (k, i) => some (6, k, i)
    | none =>
      match h.firstRing (fun k i => h.baseOfKind k i == 0) with
      | some (k, i) => some (7, k, i)
      | none =>
        match (List.range 64).find? (fun i => h.sqEn i && !h.cqEn (h.cqOf i)) with
        | some i => some (8, 1, i)
        | none =>
          let punt := h.reg 0x10018
          if bit punt 31 ∧ h.sqEn (bits punt 5 0) = false then some (9, 1, bits punt 5 0)
          else if (List.range 64).any (fun i => h.sqEn i) then none else some (0x0A, 0, 0)

/-- A port that returns within its grace takes its rooms back and learns which completions were lost; when the grace has ended, the
next boundary deletes the rooms all the same (02 R104). -/
def State.reclaim (s : State) (p : Nat) : State :=
  let h := s.host p
  let back : Bool := match h.grace with
    | some e => decide (s.now < e)
    | none => false
  let late : List (Nat × Nat) := match h.grace with
    | some e => if e ≤ s.now then (s.roomsOf p).map (fun (i, r) => (e, r.inc * 65536 + i)) else []
    | none => []
  let s := s.modHost p (fun h => { h with grace := none, discarded := [], doomed := h.doomed ++ late })
  if back then
    let n := (s.roomsOf p).length
    let s := s.when (0 < n) (fun s => s.event 4 n p)
    forEach h.discarded (fun (i, c, tag) s => s.event 3 (i + tag * 65536 + satU 32 c * 2 ^ 32) p) s
  else s

/-- LOCK: a write of 1 to HP_CTRL.LOCK (02 R85). In RUN it is an ignored write to an RL field (R77). -/
def lockPort (p : Nat) (s : State) : State :=
  if 4 ≤ p then s
  else
    match (s.host p).state with
    | .off => s
    | .run => s.bump (hpCtr p 64)
    | .setup =>
      match (s.host p).lockCheck s.power.mode with
      | some (code, kind, ring) => s.modHost p (fun h => { h with lockErr := code, errKind := kind, errRing := ring })
      | none =>
        let s := s.modHost p (fun h => { h with
          state := .run, lockErr := 0, errKind := 0, errRing := 0, sweepNow := bits (h.reg 0x10010) 7 0
          sq := [], cq := [], eq := [] })
        (s.reclaim p).releaseBoot p

/-- The write of a LOCK command: 1 in HP_CTRL.LOCK, 32 bits aligned, in a BAR0 that is open; any other write is no LOCK (00 R19, R20; 02 R76,
R85). -/
def lockWrite (p off value width : Nat) (s : State) : State :=
  if s.barOpen p ∧ off = 0x10000 ∧ width = 32 ∧ bit value 0 then lockPort p s else s

/-- HOST_LINK_UP puts the port in SETUP, outside RESET and BOOT (02 R70, R73). -/
def hostLinkUp (p width rate : Nat) (s : State) : State :=
  if 4 ≤ p then s
  else
    s.modHost p (fun h => { h with
      link := true, width, rate
      state := if h.state = .off ∧ s.power.mode ≠ .reset ∧ s.power.mode ≠ .boot then .setup else h.state })

/-- HOST_LINK_DOWN takes the port out of RUN, to OFF (02 R73, R74). -/
def hostLinkDown (p : Nat) (s : State) : State :=
  if 4 ≤ p then s
  else (s.leaveRun p .off).modHost p (fun h => { h.functionReset with link := false, width := 0, rate := 0 })

/-- FLR resets the function and takes a port from RUN to SETUP (02 R70, R73, R74). -/
def flrPort (p : Nat) (s : State) : State :=
  if 4 ≤ p ∨ (s.host p).link = false then s
  else (if (s.host p).state = .run then s.leaveRun p .setup else s).modHost p (fun h => h.functionReset)

/-- COALESCE_AGE: the oldest unsignalled entry is COAL_US old (02 R109). -/
def coalesceAge (p j : Nat) (s : State) : State :=
  let h := s.host p
  let q := h.cqAt j
  let age := bits (h.reg (0x1050C + 16 * j)) 31 16
  if h.state = .run ∧ h.msix ∧ age ≠ 0 ∧ 0 < q.unsignalled ∧ q.oldest + age * us ≤ s.now then
    s.modHost p (fun h => (h.msi (bits (h.cqCfg j) 21 16)).modCq j (fun q => { q with unsignalled := 0 }))
  else s

/-- HnRDY is released (02 R110). -/
def State.rdy (s : State) (p : Nat) : Bool :=
  s.running p && (s.power.mode == .run || s.power.mode == .standby || s.power.mode == .service) && !s.gens.switching

/-! ### The commands of this file -/

/-- NOP (02 R90). -/
def execNop (t p r : Nat) (d : Desc) (s : State) : Host.Outcome State Fault Refusal := .next (doNop p r d (s.at t))

/-- BATCH_BEGIN (02 R98). -/
def execBatchBegin (t p r : Nat) (d : Desc) (s : State) : Host.Outcome State Fault Refusal :=
  .next (doBatchBegin p r d (s.at t))

/-- BATCH_END (02 R98, R99). -/
def execBatchEnd (t p r : Nat) (d : Desc) (s : State) : Host.Outcome State Fault Refusal :=
  .next (doBatchEnd p r d (s.at t))

/-- FENCE (02 R96). -/
def execFence (t p r : Nat) (d : Desc) (s : State) : Host.Outcome State Fault Refusal := .next (doFence p r d (s.at t))

/-- LOCK (02 R85). -/
def execLock (t p off value width : Nat) (s : State) : Host.Outcome State Fault Refusal := .next (lockWrite p off value width (s.at t))

/-- HOST_LINK_UP (02 R73). -/
def execHostLinkUp (t : Nat) (l : LinkInfo) (s : State) : Host.Outcome State Fault Refusal :=
  .next (hostLinkUp l.port l.width l.rate (s.at t))

/-- HOST_LINK_DOWN (02 R74). -/
def execHostLinkDown (t p : Nat) (s : State) : Host.Outcome State Fault Refusal := .next (hostLinkDown p (s.at t))

/-- FLR (02 R74). -/
def execFlr (t p : Nat) (s : State) : Host.Outcome State Fault Refusal := .next (flrPort p (s.at t))

/-- HOT_RESET acts on the port as FLR does (02 R73, R74). -/
def execHotReset (t p : Nat) (s : State) : Host.Outcome State Fault Refusal := .next (flrPort p (s.at t))

/-- PERST_ASSERT: HnPERST_N low resets only its port, whose link goes down (14 R586, 02 R74). -/
def execPerstAssert (t p : Nat) (s : State) : Host.Outcome State Fault Refusal := .next (hostLinkDown p (s.at t))

/-- COALESCE_AGE (02 R109). -/
def execCoalesceAge (t p j : Nat) (s : State) : Host.Outcome State Fault Refusal := .next (coalesceAge p j (s.at t))

/-- BATCH_TIMEOUT (02 R98). -/
def execBatchTimeout (t p r : Nat) (s : State) : Host.Outcome State Fault Refusal := .next (batchTimeout p r (s.at t))

/-- ABORTED_TAIL_END (02 R98). -/
def execAbortedTailEnd (t p r : Nat) (s : State) : Host.Outcome State Fault Refusal :=
  .next (abortedTailEnd p r (s.at t))

end Sys2Proof.Machine
end

