-- ==== Sys2Proof/Machine/Ptp.lean ====
section
/-! DEFINITION. PTP messages as bytes, and the best master clock algorithm (12 R515-R518, R523; IEEE 1588-2019 as
notes/assumptions/122.md takes it). -/
namespace Sys2Proof.Machine

/-! ### Messages -/

/-- A PTP message with what its frame says of its sender; `correction` in 2^-16 ns. -/
structure PtpMsg where
  kind : Nat
  domain : Nat
  twoStep : Bool
  correction : Int
  src : Nat
  port : Nat
  seq : Nat
  body : Bytes
  mac : Nat
  ip : Nat
  deriving DecidableEq, Repr

/-- messageType of the standard. -/
def ptSync : Nat := 0
def ptDelayReq : Nat := 1
def ptPdelayReq : Nat := 2
def ptPdelayResp : Nat := 3
def ptFollowUp : Nat := 8
def ptDelayResp : Nat := 9
def ptPdelayFollowUp : Nat := 0xA
def ptAnnounce : Nat := 0xB
def ptSignalling : Nat := 0xC

/-- Where the message begins in a frame: after the Ethernet header, or after those of IP and UDP. -/
def ptpStart (b : Bytes) : Nat :=
  let l3 := if be b 12 2 = 0x8100 then 18 else 14
  match be b (l3 - 2) 2 with
  | 0x0800 => l3 + byteAt b l3 % 16 * 4 + 8
  | 0x86DD => l3 + 48
  | _ => l3

/-- The IP address of a frame's sender, 0 where it has none. -/
def ptpSender (b : Bytes) : Nat :=
  let l3 := if be b 12 2 = 0x8100 then 18 else 14
  match be b (l3 - 2) 2 with
  | 0x0800 => be b (l3 + 12) 4
  | 0x86DD => be b (l3 + 8) 16
  | _ => 0

/-- Reads the message of a frame; none when it is shorter than a header or not of version 2. -/
def readPtp (b : Bytes) : Option PtpMsg :=
  let m := b.drop (ptpStart b)
  let len := be m 2 2
  if m.length < 34 ∨ len < 34 ∨ m.length < len ∨ byteAt m 1 % 16 ≠ 2 then none
  else some {
    kind := byteAt m 0 % 16, domain := byteAt m 4, twoStep := bit (byteAt m 6) 1, correction := sgn 64 (be m 8 8)
    src := be m 20 8, port := be m 28 2, seq := be m 30 2, body := (m.take len).drop 34, mac := be b 6 6, ip := ptpSender b }

/-- The time, in ns, at an offset of a message's body. -/
def PtpMsg.time (m : PtpMsg) (off : Nat) : Int := ((be m.body off 6 * 1000000000 + be m.body (off + 6) 4 : Nat) : Int)

/-- The requestingPortIdentity of a response. -/
def PtpMsg.answers (m : PtpMsg) : Nat × Nat := (be m.body 10 8, be m.body 18 2)

/-- A time stamp of a message. -/
def ptpTime (ns : Nat) : Bytes := beBytes 6 (ns / 1000000000 % 2 ^ 48) ++ beBytes 4 (ns % 1000000000)

/-- A message: header and body. -/
def ptpBytes (kind domain flags : Nat) (corr : Int) (src seq : Nat) (logInterval : Nat) (body : Bytes) : Bytes :=
  let ctl := if kind = ptSync then 0 else if kind = ptDelayReq then 1 else if kind = ptFollowUp then 2 else if kind = ptDelayResp then 3 else 5
  beBytes 1 kind ++ beBytes 1 0x12 ++ beBytes 2 (34 + body.length) ++ beBytes 1 domain ++ [0] ++ beBytes 2 flags ++
    beBytes 8 (unsgn 64 corr) ++ zeros 4 ++ beBytes 8 src ++ beBytes 2 1 ++ beBytes 2 seq ++ beBytes 1 ctl ++ beBytes 1 logInterval ++ body

/-- Is a message an event message, which has a timestamp point? -/
def ptpEvent (kind : Nat) : Bool := decide (kind < 4)

/-- The IPv4 and UDP headers of n bytes of message; the UDP checksum is 0 (R523). `v` gives identification and time to live. -/
def ptpOver4 (src dst v port n : Nat) : Bytes :=
  let h := beBytes 2 0x4500 ++ beBytes 2 (28 + n) ++ beBytes 2 (v % 65536) ++ zeros 2 ++ beBytes 1 (v / 65536 % 256) ++ beBytes 1 17
  let addrs := beBytes 4 src ++ beBytes 4 dst
  h ++ beBytes 2 (65535 - foldSum (wordSum (h ++ addrs))) ++ addrs ++ beBytes 2 port ++ beBytes 2 port ++ beBytes 2 (8 + n) ++ zeros 2

/-- The UDP checksum over IPv6 of a datagram whose checksum field is `sum`. -/
def udp6Sum (src dst : Nat) (udp : Bytes) : Nat :=
  foldSum (wordSum (beBytes 16 src ++ beBytes 16 dst ++ beBytes 4 udp.length ++ beBytes 4 17 ++ udp))

/-- The IPv6 and UDP headers over a message and its trailer. `v` gives traffic class, flow label and hop limit. -/
def ptpOver6 (src dst v port : Nat) (payload : Bytes) : Bytes :=
  let n := 8 + payload.length
  let udp (sum : Nat) : Bytes := beBytes 2 port ++ beBytes 2 port ++ beBytes 2 n ++ beBytes 2 sum
  let sum := 65535 - udp6Sum src dst (udp 0 ++ payload)
  beBytes 4 (6 * 2 ^ 28 + v % 2 ^ 28) ++ beBytes 2 n ++ beBytes 1 17 ++ beBytes 1 (v / 2 ^ 28) ++ beBytes 16 src ++ beBytes 16 dst ++
    udp (if sum = 0 then 65535 else sum)

/-- Sets the 2-byte trailer so that the UDP checksum of a frame over IPv6 is right for the message as it leaves (R523). -/
def fixTrailer (b : Bytes) : Bytes :=
  if be b 12 2 = 0x86DD then
    let b0 := splice b (b.length - 2) (zeros 2)
    splice b0 (b.length - 2) (beBytes 2 (65535 - udp6Sum (be b 22 16) (be b 38 16) (b0.drop 54)))
  else b

/-! ### Best master clock algorithm -/

/-- Is the first of some pairs that differ lower on the left? -/
def lowerFirst : List (Nat × Nat) → Bool
  | [] => false
  | (x, y) :: rest => if x < y then true else if y < x then false else lowerFirst rest

/-- Is the clock of `a` better than that of `b`: by the first attribute in which they differ, or, for one grandmaster, by the path? -/
def Foreign.better (a b : Foreign) : Bool :=
  if a.gm = b.gm then lowerFirst [(a.steps, b.steps), (a.src, b.src), (a.port, b.port)]
  else lowerFirst [(a.prio1, b.prio1), (a.cls, b.cls), (a.accuracy, b.accuracy), (a.variance, b.variance), (a.prio2, b.prio2), (a.gm, b.gm)]

/-- A foreign master is qualified by two Announce messages within 4 announce intervals and fewer than 255 steps. -/
def Foreign.qualified (f : Foreign) (now interval : Nat) : Bool :=
  decide (f.steps < 255) && decide (2 ≤ (f.times.filter (fun t => decide (now ≤ t + 4 * interval))).length)

/-- The best of some foreign masters. -/
def bestForeign (l : List Foreign) : Option Foreign :=
  l.foldl (fun (b : Option Foreign) f => match b with
    | none => some f
    | some x => some (if f.better x then f else x)) none

/-- What the algorithm decides for a port. -/
inductive Decision where
  | stay | master
  | passive (f : Foreign)
  | slave (f : Foreign)
  deriving DecidableEq, Repr

/-- The state decision of an ordinary clock with one port: a slave-only one follows the best foreign master; another is MASTER when its
own data set is better, and PASSIVE before a better one when its class is at most 127. -/
def decide_ (slaveOnly : Bool) (own : Foreign) (best : Option Foreign) : Decision :=
  match best with
  | none => .stay
  | some f =>
    if slaveOnly then .slave f
    else if own.better f then .master
    else if own.cls ≤ 127 then .passive f
    else .slave f

end Sys2Proof.Machine
end

