-- ==== Sys2Proof/Machine/TimeBases.lean ====
section
/-! DEFINITION. The time bases: servo, states, PTP, explicit sets, 1PPS and the reference (12). -/
namespace Sys2Proof.Machine

/-- The n-byte field of the record of TBn in force (12 R529). -/
def State.tbFld (s : State) (n off w : Nat) : Nat := s.fld 0x0D (128 * n + off) w

/-- A signed field of that record. -/
def State.tbSFld (s : State) (n off w : Nat) : Int := sgn (8 * w) (s.tbFld n off w)

/-- ROLE, LPORT and DOMAIN. -/
def State.tbRole (s : State) (n : Nat) : Nat := bits (s.tbFld n 0 1) 1 0
def State.tbLport (s : State) (n : Nat) : Nat := bits (s.tbFld n 1 1) 5 0
def State.tbDomain (s : State) (n : Nat) : Nat := s.tbFld n 2 1

/-- Is the role one with a PTP port? -/
def State.tbPtp (s : State) (n : Nat) : Bool := s.tbRole n == 1 || s.tbRole n == 2

/-- An interval of 2^k seconds, in ps. -/
def logPs (k : Int) : Nat := if 0 ≤ k then 1000000000000 * 2 ^ k.toNat else 1000000000000 / 2 ^ (-k).toNat

/-- Sync interval and announce interval of a time base in ps. -/
def State.syncPs (s : State) (n : Nat) : Nat := logPs (s.tbSFld n 4 1)
def State.announcePs (s : State) (n : Nat) : Nat := logPs (s.tbSFld n 5 1)

/-- A counter of block 0x0B (12 R532). -/
def tbCtr (n off : Nat) : Nat := ctr 0x0B n off

/-- Code of a state in TB_STATUS (12 R528). -/
def TbState.code (x : TbState) : Nat :=
  match x with
  | .free => 0
  | .acquiring => 1
  | .locked => 2
  | .holdover => 3
  | .master => 4

/-- Does a state count as locked (12 R519)? -/
def TbState.counts (x : TbState) : Bool := x != .acquiring

/-- A change of state posts TB_STATE and is counted; `since` is when the present run in or out of the locked states began
(12 R519). -/
def State.tbGo (s : State) (n : Nat) (x : TbState) : State :=
  let old := (s.tb n).state
  if old = x then s
  else
    let s := s.modTb n (fun tb => { tb with
      state := x
      since := if old.counts = x.counts then tb.since else s.now
      holdAt := if x = .holdover then s.now else tb.holdAt })
    (s.bump (tbCtr n 152)).event 16 (n + x.code * 16 + old.code * 256)

/-- The servo's update with a new offset, all in units of 2^-16 (12 R518): f, f_int and whether it was clamped. Quotients are
truncated towards 0. -/
def servoStep (o f_int : Int) (phaseTc intDiv slewPpb : Nat) : Int × Int × Bool :=
  let lim : Int := (min slewPpb 500000) * 65536
  let p := Int.tdiv (-o * 1000) phaseTc
  let fNew := clampI (-lim) lim (f_int + p)
  let clamped := fNew != f_int + p
  (fNew, if clamped then f_int else clampI (-lim) lim (f_int + Int.tdiv p intDiv), clamped)

/-- The state an offset leads to: state and run of offsets within LOCK_NS (12 R519). -/
def lockStep (x : TbState) (run : Nat) (o : Int) (lockNs unlockNs lockCount : Nat) : TbState × Nat :=
  let within (lim : Nat) : Bool := decide (o.natAbs ≤ lim * 65536)
  match x with
  | .acquiring => if within lockNs then (if lockCount ≤ run + 1 then (.locked, 0) else (.acquiring, run + 1)) else (.acquiring, 0)
  | .locked => if within unlockNs then (.locked, 0) else (.acquiring, 0)
  | .holdover => if within unlockNs then (.locked, 0) else (.acquiring, 0)
  | y => (y, run)

/-- A new offset measurement in 2^-16 ns drives the servo once; within 4 sync intervals after a set it is discarded
(12 R514, R518, R519). -/
def State.tbOffset (s : State) (n : Nat) (o : Int) : State :=
  let tb := s.tb n
  let fresh : Bool := match tb.setAt with
    | some t => decide (t + 4 * s.syncPs n < s.now)
    | none => true
  if tb.state = .free ∨ tb.state = .master then s
  else if fresh = false then s.bump (tbCtr n 168)
  else
    let (f, fi, clamped) := servoStep o tb.fInt (s.tbFld n 16 2) (s.tbFld n 18 1) (s.tbFld n 12 4)
    let (x, run) := lockStep tb.state tb.lockRun o (s.tbFld n 20 4) (s.tbFld n 24 4) (s.tbFld n 19 1)
    let s := (s.tbSettle n).modTb n (fun tb => { tb with
      f := f, fInt := fi, offset := some o, offsetAt := s.now, lockRun := run
      portState := if tb.portState = 8 then 9 else tb.portState
      clampedSince := if clamped then (if tb.clampedSince.isSome then tb.clampedSince else some s.now) else none
      slewLimited := tb.slewLimited && clamped
      slewSaid := tb.slewSaid && clamped })
    s.tbGo n x

/-- Median of a list of delays: the middle of the sorted list, the lower of two. -/
def medianI (l : List Int) : Int :=
  let sorted := l.foldl (fun acc x => acc.filter (fun y => decide (y ≤ x)) ++ [x] ++ acc.filter (fun y => decide (x < y))) []
  (sorted.drop ((sorted.length - 1) / 2)).headD 0

/-- Mean path delay: the median of the last 8 valid measurements (12 R518). -/
def TimeBase.pathDelay (tb : TimeBase) : Int := medianI tb.delays

/-- Records a valid delay measurement. -/
def State.tbDelay (s : State) (n : Nat) (d : Int) : State := s.modTb n (fun tb => { tb with delays := (d :: tb.delays).take 8 })

/-! ### The clock of a time base (R515, R516) -/

/-- Bytes of the own MAC address of a logical port: MAC0, or the fused base + LPORT when it is 0 (05 R228, R230). -/
def ownMac (c : Option Tack) (l : Nat) : Nat :=
  let m := beNat 0 (leBytes 6 (lpfld c l 0 6))
  if m = 0 then (Config.macBase + l) % 2 ^ 48 else m

/-- clockIdentity of a time base: the own MAC address of its port, made an EUI-64 (notes/assumptions/122.md). -/
def State.clockId (s : State) (n : Nat) : Nat :=
  let m := ownMac s.gens.cur (s.tbLport n)
  m / 2 ^ 24 * 2 ^ 40 + 0xFFFE000000 + m % 2 ^ 24

/-- The own data set of a time base (R516). -/
def State.ownClock (s : State) (n : Nat) : Foreign :=
  { src := s.clockId n, gm := s.clockId n, prio1 := s.tbFld n 8 1, cls := s.tbFld n 10 1, accuracy := 0xFE, variance := 0xFFFF
    prio2 := s.tbFld n 9 1, steps := 0 }

/-- P2P, ONE_STEP and TRANSPORT. -/
def State.tbP2p (s : State) (n : Nat) : Bool := bit (s.tbFld n 0 1) 3
def State.tbOneStep (s : State) (n : Nat) : Bool := bit (s.tbFld n 0 1) 2
def State.tbTransport (s : State) (n : Nat) : Nat := bits (s.tbFld n 0 1) 5 4
def State.tbUnicast (s : State) (n : Nat) : Bool := s.tbTransport n == 1 || s.tbTransport n == 3

/-- portState as it is shown: FAULTY while the logical port of the clock is down (notes/assumptions/122.md). -/
def State.portStateOf (s : State) (n : Nat) : Nat :=
  let l := s.tbLport n
  if s.tbPtp n = false then 0
  else if (s.lport l).up && (lookD s.net.phys (l / 4) {}).loop == 0 then (s.tb n).portState else 2

/-- Latency from the balls to the MII boundary, and back, in 2^-16 ns (R521). -/
def rxLatency (mode : Nat) : Int := 65536 * (match mode with
  | 1 => 168
  | 2 => 196
  | _ => 248)
def txLatency (mode : Nat) : Int := 65536 * (match mode with
  | 1 => 112
  | 2 => 124
  | _ => 152)

/-- Mode of the port of a time base. -/
def State.tbMode (s : State) (n : Nat) : Nat := modeOf s.gens.cur (s.tbLport n / 4)

/-- The grandmaster that a time base follows; a change of its identity posts TB_GM_CHANGE (R519). -/
def State.tbGm (s : State) (n gm steps : Nat) (utc : Int) : State :=
  let changed := (s.tb n).gm != gm
  let s := s.modTb n (fun tb => { tb with gm, steps, utc })
  s.when changed (fun s => s.event 17 (n + (gm % 2 ^ 48) * 65536))

/-- The port becomes MASTER: f is held at 0 (R519). -/
def State.tbMaster (s : State) (n : Nat) : State :=
  let s := s.tbGm n (s.clockId n) 0 (s.tb n).utc
  ((s.tbSettle n).modTb n (fun tb => { tb with f := 0, portState := 6, parent := none })).tbGo n .master

/-- The port takes a foreign master: UNCALIBRATED (8) until its first offset, or PASSIVE (7).  Measurements of another master are
discarded; the delay of the link under peer delay stands. -/
def State.tbFollow (s : State) (n ps : Nat) (f : Foreign) : State :=
  let tb := s.tb n
  let same := tb.parent == some (f.src, f.port) && (tb.portState == ps || (ps == 8 && tb.portState == 9))
  let p2p := s.tbP2p n
  let s := (s.tbGm n f.gm f.steps f.utc).modTb n (fun tb =>
    let tb := { tb with parent := some (f.src, f.port), parentAddr := (f.mac, f.ip) }
    if same then tb
    else { tb with
      portState := ps, lastAnnounce := s.now, syncWait := none, msDiff := none, delays := if p2p then tb.delays else []
      reqSent := if p2p then tb.reqSent else none })
  if tb.state = .master then (s.modTb n (fun tb => { tb with lockRun := 0 })).tbGo n .acquiring else s

/-- The foreign masters that are qualified now. -/
def State.qualified (s : State) (n : Nat) : List Foreign := (s.tb n).foreign.filter (fun f => f.qualified s.now (s.announcePs n))

/-- The best master clock algorithm runs (R515, R519). -/
def State.tbDecide (s : State) (n : Nat) : State :=
  match decide_ (s.tbRole n == 1) (s.ownClock n) (bestForeign (s.qualified n)) with
  | .stay => s
  | .master => if (s.tb n).portState = 6 then s else s.tbMaster n
  | .passive f => s.tbFollow n 7 f
  | .slave f => s.tbFollow n 8 f

/-- Is a clockIdentity acceptable: GM_SET holds it, or holds none (12 R517)? -/
def State.gmAccepts (s : State) (n src : Nat) : Bool :=
  let set := [64, 72, 80, 88].map (fun o => beNat 0 (leBytes 8 (s.tbFld n o 8)))
  set.all (· == 0) || (src != 0 && set.contains src)

/-! ### Sending (R515, R517, R523) -/

/-- Where a message goes: MAC and IP address.  Group addresses but under unicast; a unicast master whose MAC address nothing has shown
yet (given as 2^48) has a free one (notes/assumptions/32.md). -/
def State.ptpDst (s : State) (n kind : Nat) (dest : Option (Nat × Nat)) : (Nat × Nat) × State :=
  let peer := kind == ptPdelayReq || kind == ptPdelayResp || kind == ptPdelayFollowUp
  match s.tbTransport n, dest with
  | 0, _ => ((if peer then 0x0180C200000E else 0x011B19000000, 0), s)
  | 2, _ => (if peer then (0x33330000006B, 0xFF02 * 2 ^ 112 + 0x6B) else (0x333300000181, 0xFF0E * 2 ^ 112 + 0x181), s)
  | _, some (mac, ip) => if mac < 2 ^ 48 then ((mac, ip), s) else let (m, s) := s.draw (2 ^ 48); ((m, ip), s)
  | _, none => ((0, 0), s)

/-- logMessageInterval of a kind. -/
def State.ptpInterval (s : State) (n kind : Nat) : Nat :=
  if kind = ptSync ∨ kind = ptFollowUp then s.tbFld n 4 1
  else if kind = ptAnnounce then s.tbFld n 5 1
  else if kind = ptDelayResp then s.tbFld n 6 1
  else 0x7F

/-- The frame of a message: Ethernet, IP and UDP headers of TRANSPORT, from MAC0 and the first own address of the version; the trailer of
a one-step event message over UDP/IPv6; padding and FCS come on the way out. -/
def State.ptpFrame (s : State) (n kind seq : Nat) (corr : Int) (body : Bytes) (dest : Option (Nat × Nat)) : QFrame × State :=
  let l := s.tbLport n
  let tr := s.tbTransport n
  let timed := kind == ptSync || kind == ptPdelayResp
  let flags := (if timed && !s.tbOneStep n then 0x200 else 0) + (if s.tbUnicast n then 0x400 else 0)
  let msg := ptpBytes kind (s.tbDomain n) flags corr (s.clockId n) seq (s.ptpInterval n kind) body
  let ((mac, ip), s) := s.ptpDst n kind dest
  let (v, s) := if tr = 0 then (0, s) else s.draw (2 ^ 36)
  let port := if ptpEvent kind then 319 else 320
  let upper : Bytes := match tr with
    | 0 => msg
    | 1 => ptpOver4 (beNat 0 (leBytes 4 (lpfld s.gens.cur l 64 4))) ip v port msg.length ++ msg
    | _ =>
      let payload := msg ++ (if timed && s.tbOneStep n then zeros 2 else [])
      ptpOver6 (beNat 0 (leBytes 16 (lpfld s.gens.cur l 80 16))) ip v port payload ++ payload
  let data := beBytes 6 mac ++ beBytes 6 (ownMac s.gens.cur l) ++
    beBytes 2 (if tr = 0 then 0x88F7 else if tr = 1 then 0x0800 else 0x86DD) ++ upper
  ({ bare := data.length + 4, enter := s.now, kind := 4, out := n, data }, s)

/-- Counter of messages sent of a kind (R532). -/
def ptpTxCtr (kind : Nat) : Option Nat :=
  if kind = ptSync then some 128 else if kind = ptAnnounce then some 120 else if kind = ptDelayReq then some 80
  else if kind = ptPdelayReq ∨ kind = ptPdelayResp ∨ kind = ptPdelayFollowUp then some 96 else none

/-- A message is built and queued in the direct queue of PTP_CLASS (R517). -/
def State.ptpQueue (s : State) (n kind seq : Nat) (corr : Int) (body : Bytes) (dest : Option (Nat × Nat)) (rxAt : Int := 0) : State :=
  let s := match ptpTxCtr kind with
    | some o => s.bump (tbCtr n o)
    | none => s
  let (f, s) := s.ptpFrame n kind seq corr body dest
  s.enqueue (s.tbLport n) (bits (s.tbFld n 3 1) 2 0) { f with rxAt }

/-- Takes the next sequenceId of a message type (R527). -/
def State.ptpSeq (s : State) (n kind : Nat) : Nat × State :=
  let q := lookD (s.tb n).seqs kind 0
  (q, s.modTb n (fun tb => { tb with seqs := put tb.seqs kind ((q + 1) % 65536) }))

/-- messageType of what PTP_MESSAGE_TRANSMIT sends. -/
def ptpCode (k : PtpKind) : Nat :=
  match k with
  | .sync => ptSync
  | .announce => ptAnnounce
  | .delayReq => ptDelayReq
  | .pdelayReq => ptPdelayReq
  | .negotiate => ptSignalling

/-- Does the port state of a time base send a kind of message? Sync and Announce come from a master, Delay_Req from a slave under
end-to-end delay, Pdelay_Req under peer delay, requests for unicast messages from a clock that is no master (12 R515, R516). -/
def State.ptpSends (s : State) (n : Nat) (k : PtpKind) : Bool :=
  let ps := (s.tb n).portState
  s.tbPtp n && provides s.gens.cur (s.tbLport n) &&
    (match k with
     | .sync => ps == 6
     | .announce => ps == 6
     | .delayReq => !s.tbP2p n && (ps == 8 || ps == 9)
     | .pdelayReq => s.tbP2p n
     | .negotiate => s.tbUnicast n && ps != 6)

/-- A request, grant, cancellation or its acknowledgement of unicast messages of a kind. -/
def unicastTlv (tlv kind interval duration : Nat) : Bytes :=
  let head := beBytes 2 tlv
  if tlv = 5 then head ++ beBytes 2 8 ++ beBytes 1 (16 * kind) ++ beBytes 1 interval ++ beBytes 4 duration ++ [0, 1]
  else if tlv = 4 then head ++ beBytes 2 6 ++ beBytes 1 (16 * kind) ++ beBytes 1 interval ++ beBytes 4 duration
  else head ++ beBytes 2 2 ++ beBytes 1 (16 * kind) ++ [0]

/-- Body of a message that an interval sends. -/
def State.ptpBody (s : State) (n : Nat) (k : PtpKind) : Bytes :=
  match k with
  | .announce =>
    let o := s.ownClock n
    zeros 10 ++ beBytes 2 (unsgn 16 (s.tb n).utc) ++ [0] ++ beBytes 1 o.prio1 ++ beBytes 1 o.cls ++ beBytes 1 o.accuracy ++
      beBytes 2 o.variance ++ beBytes 1 o.prio2 ++ beBytes 8 o.gm ++ beBytes 2 0 ++ [0xA0]
  | .pdelayReq => zeros 20
  | .negotiate =>
    List.replicate 10 0xFF ++ unicastTlv 4 ptAnnounce (s.tbFld n 5 1) 300 ++ unicastTlv 4 ptSync (s.tbFld n 4 1) 300 ++
      unicastTlv 4 ptDelayResp (s.tbFld n 6 1) 300
  | _ => zeros 10

/-- Receivers of a message under unicast: those it was granted to, the master, or the addresses of UNICAST_ADDR; else one group. -/
def State.ptpTo (s : State) (n : Nat) (k : PtpKind) : List (Option (Nat × Nat)) :=
  let tb := s.tb n
  if s.tbUnicast n = false then [none]
  else
    match k with
    | .sync => tb.grants.map some
    | .announce => tb.grants.map some
    | .negotiate =>
      let w := if s.tbTransport n = 1 then 4 else 16
      ([96, 112].map (fun o => beNat 0 (leBytes w (s.tbFld n o w)))).filterMap (fun ip => if ip = 0 then none
        else some (some (if tb.parentAddr.2 = ip then tb.parentAddr.1 else 2 ^ 48, ip)))
    | _ => if tb.parent.isSome then [some tb.parentAddr] else [none]

/-- PTP_MESSAGE_TRANSMIT: the messages of an interval are built and queued; a request's time is noted when it leaves (12 R517). -/
def ptpTransmit (n : Nat) (k : PtpKind) (s : State) : State :=
  if n < 4 ∧ s.ptpSends n k then
    let (q, s) := s.ptpSeq n (ptpCode k)
    let s := if k = .delayReq ∨ k = .pdelayReq then s.modTb n (fun tb => { tb with reqSent := some (q, none) }) else s
    let body := s.ptpBody n k
    forEach (s.ptpTo n k) (fun dest s => s.ptpQueue n (ptpCode k) q 0 body dest) s
  else s

/-- A message of a time base leaves: a one-step Sync or Pdelay_Resp takes its time, a two-step one is followed up, the time of a request
is noted (R520-R523). -/
def State.ptpDepart (s : State) (f : QFrame) : QFrame × State :=
  let n := f.out
  let o := ptpStart f.data
  let kind := byteAt f.data o % 16
  let seq := be f.data (o + 30) 2
  let v := s.tbVal n / 2 ^ 16
  let dest := (be f.data 0 6, if s.tbTransport n = 1 then be f.data 30 4 else be f.data 38 16)
  if kind = ptSync then
    if bit (byteAt f.data (o + 6)) 1 then (f, s.ptpQueue n ptFollowUp seq (v % 65536 : Nat) (ptpTime (s.tbNs n)) (some dest))
    else ({ f with data := fixTrailer (splice (splice f.data (o + 34) (ptpTime (s.tbNs n))) (o + 8) (beBytes 8 (v % 65536))) }, s)
  else if kind = ptDelayReq ∨ kind = ptPdelayReq then
    let sent : Nat × Option Int := (seq, some ((v : Int) + txLatency (s.tbMode n)))
    (f, s.modTb n (fun tb => { tb with reqSent := if tb.reqSent.map (·.1) = some seq then some sent else tb.reqSent }))
  else if kind = ptPdelayResp then
    let turn := sgn 64 (be f.data (o + 8) 8) + ((v : Int) - f.rxAt)
    if bit (byteAt f.data (o + 6)) 1 then (f, s.ptpQueue n ptPdelayFollowUp seq turn (zeros 10 ++ (f.data.drop (o + 44)).take 10) (some dest))
    else ({ f with data := fixTrailer (splice f.data (o + 8) (beBytes 8 (unsgn 64 turn))) }, s)
  else (f, s)

/-! ### Receiving (R517-R519) -/

/-- A foreign master as an Announce gives it. -/
def PtpMsg.foreign (m : PtpMsg) (times : List Nat) : Foreign :=
  { src := m.src, port := m.port, gm := be m.body 19 8, prio1 := byteAt m.body 13, cls := byteAt m.body 14, accuracy := byteAt m.body 15
    variance := be m.body 16 2, prio2 := byteAt m.body 18, steps := be m.body 27 2, utc := sgn 16 (be m.body 10 2), mac := m.mac, ip := m.ip
    times }

/-- An Announce: of an acceptable master it is entered, and the algorithm runs; any other is counted as discarded. -/
def State.tbAnnounce (s : State) (n : Nat) (m : PtpMsg) : State :=
  if s.gmAccepts n m.src = false then s.bump (tbCtr n 136)
  else
    let s := s.bump (tbCtr n 112)
    if m.src = s.clockId n then s
    else
      let old := ((s.tb n).foreign.find? (fun f => f.src == m.src && f.port == m.port)).map (·.times)
      let f := m.foreign (s.now :: ((old.getD []).take 3))
      (s.modTb n (fun tb => { tb with
        foreign := f :: tb.foreign.filter (fun x => !(x.src == m.src && x.port == m.port))
        lastAnnounce := if tb.parent = some (m.src, m.port) ∨ tb.portState = 4 then s.now else tb.lastAnnounce })).tbDecide n

/-- Receive time of a Sync less its origin and corrections: with a delay it gives an offset, corrected by ASYM_NS (R518). -/
def State.tbSync (s : State) (n : Nat) (d : Int) : State :=
  let s := s.modTb n (fun tb => { tb with msDiff := some d })
  if (s.tb n).delays = [] then s else s.tbOffset n (d - (s.tb n).pathDelay - s.tbSFld n 40 4 * 65536)

/-- Does a message come from the master that a slave follows? -/
def State.fromParent (s : State) (n : Nat) (m : PtpMsg) : Bool :=
  let tb := s.tb n
  tb.parent == some (m.src, m.port) && (tb.portState == 8 || tb.portState == 9)

/-- A Sync or its Follow_Up from the master: `rx` is the receive time, as the balls see it. -/
def State.tbSyncMsg (s : State) (n : Nat) (m : PtpMsg) (rx : Int) : State :=
  if s.fromParent n m = false then s
  else if m.kind = ptSync then
    if m.twoStep then s.modTb n (fun tb => { tb with syncWait := some (m.seq, rx, m.correction) })
    else s.tbSync n (rx - m.time 0 * 65536 - m.correction)
  else
    match (s.tb n).syncWait with
    | some (q, t2, c) =>
      if q = m.seq then (s.modTb n (fun tb => { tb with syncWait := none })).tbSync n (t2 - m.time 0 * 65536 - c - m.correction) else s
    | none => s

/-- A Delay_Resp: half of the two differences, in which ASYM_NS cancels. -/
def State.tbDelayResp (s : State) (n : Nat) (m : PtpMsg) : State :=
  if s.tbP2p n ∨ s.fromParent n m = false ∨ m.answers ≠ (s.clockId n, 1) then s
  else
    match (s.tb n).reqSent, (s.tb n).msDiff with
    | some (q, some t3), some a =>
      if q = m.seq then
        (s.modTb n (fun tb => { tb with reqSent := none })).tbDelay n ((a + (m.time 0 * 65536 - t3 - m.correction)) / 2)
      else s
    | _, _ => s

/-- A Pdelay_Resp or its follow-up. -/
def State.tbPdelayMsg (s : State) (n : Nat) (m : PtpMsg) (rx : Int) : State :=
  if s.tbP2p n = false ∨ m.answers ≠ (s.clockId n, 1) then s
  else if m.kind = ptPdelayResp then
    match (s.tb n).reqSent with
    | some (q, some t1) =>
      if q ≠ m.seq then s
      else if m.twoStep then
        s.modTb n (fun tb => { tb with reqSent := none, respWait := some (q, rx - t1 - m.correction, m.time 0 * 65536) })
      else (s.modTb n (fun tb => { tb with reqSent := none })).tbDelay n ((rx - t1 - m.correction) / 2)
    | _ => s
  else
    match (s.tb n).respWait with
    | some (q, d, t2) =>
      if q = m.seq then
        (s.modTb n (fun tb => { tb with respWait := none })).tbDelay n ((d - (m.time 0 * 65536 - t2) - m.correction) / 2)
      else s
    | none => s

/-- Unicast negotiation: a request is granted, a cancellation acknowledged, each for its first TLV. -/
def State.tbUnicastMsg (s : State) (n : Nat) (m : PtpMsg) : State :=
  let a := (m.mac, m.ip)
  let kind := byteAt m.body 14 / 16
  let answer (b : Bytes) (s : State) : State :=
    let (q, s) := s.ptpSeq n ptSignalling
    s.ptpQueue n ptSignalling q 0 (beBytes 8 m.src ++ beBytes 2 m.port ++ b) (some a)
  match be m.body 10 2 with
  | 4 => answer (unicastTlv 5 kind (byteAt m.body 15) (be m.body 16 4))
    (s.modTb n (fun tb => { tb with grants := if tb.grants.contains a then tb.grants else tb.grants ++ [a] }))
  | 6 => answer (unicastTlv 7 kind 0 0) (s.modTb n (fun tb => { tb with grants := tb.grants.filter (· != a) }))
  | _ => s

/-- Is a message of a kind that a time base supports: of signalling, unicast negotiation under a unicast TRANSPORT alone (R515)? -/
def State.ptpSupported (s : State) (n : Nat) (m : PtpMsg) : Bool :=
  [ptSync, ptDelayReq, ptPdelayReq, ptPdelayResp, ptFollowUp, ptDelayResp, ptPdelayFollowUp, ptAnnounce].contains m.kind ||
    (m.kind == ptSignalling && s.tbUnicast n && [4, 5, 6, 7].contains (be m.body 10 2))

/-- A time base takes a message of its own (12 R517-R519); `rx` is the receive timestamp in 2^-16 ns. -/
def State.tbMessage (s : State) (n : Nat) (m : PtpMsg) (rx : Int) : State :=
  let balls := rx - rxLatency (s.tbMode n)
  let asks := beBytes 8 m.src ++ beBytes 2 m.port
  if m.kind = ptAnnounce then s.tbAnnounce n m
  else if m.kind = ptSync then (s.bump (tbCtr n 64)).tbSyncMsg n m balls
  else if m.kind = ptFollowUp then (s.bump (tbCtr n 72)).tbSyncMsg n m balls
  else if m.kind = ptDelayResp then (s.bump (tbCtr n 88)).tbDelayResp n m
  else if m.kind = ptDelayReq then
    if (s.tb n).portState = 6 ∧ s.tbP2p n = false then
      s.ptpQueue n ptDelayResp m.seq (m.correction - rx % 65536) (ptpTime (rx / 65536).toNat ++ asks) (some (m.mac, m.ip))
    else s
  else if m.kind = ptPdelayReq then
    let s := s.bump (tbCtr n 104)
    if s.tbP2p n then s.ptpQueue n ptPdelayResp m.seq m.correction (zeros 10 ++ asks) (some (m.mac, m.ip)) rx else s
  else if m.kind = ptSignalling then s.tbUnicastMsg n m
  else (s.bump (tbCtr n 104)).tbPdelayMsg n m balls

/-- PTP_MESSAGE_RECEIVE of a frame whose timestamp point fell at `rx`: the time base whose role, LPORT and DOMAIN match takes it; otherwise
it is dropped and counted by every time base whose role names the port (12 R517, R520). -/
def ptpReceive (l rx : Nat) (frame : Bytes) (s : State) : State :=
  let named := [0, 1, 2, 3].filter (fun n => s.tbPtp n && s.tbLport n == l)
  let drop := forEach named (fun k s => s.bump (tbCtr k 136)) s
  match readPtp frame with
  | none => drop
  | some m =>
    match named.find? (fun n => s.tbDomain n == m.domain) with
    | some n => if s.ptpSupported n m then s.tbMessage n m ((s.tbAt n (min rx s.now) / 2 ^ 16 : Nat) : Int) else drop
    | none => drop

/-- HOLDOVER_ENTRY: LOCKED without a valid offset for 3 sync intervals, 3 s under role 3 (12 R519). -/
def holdoverEntry (n : Nat) (s : State) : State :=
  let tb := s.tb n
  let wait := if s.tbRole n = 3 then 3000000000000 else 3 * s.syncPs n
  if n < 4 ∧ tb.state = .locked ∧ tb.offsetAt + wait ≤ s.now then s.tbGo n .holdover else s

/-- HOLDOVER_END: HOLDOVER_MS pass in HOLDOVER (12 R519). -/
def holdoverEnd (n : Nat) (s : State) : State :=
  if n < 4 ∧ (s.tb n).state = .holdover ∧ (s.tb n).holdAt + s.tbFld n 28 4 * 1000 * us ≤ s.now then
    (s.modTb n (fun tb => { tb with lockRun := 0 })).tbGo n .acquiring
  else s

/-- SLEW_LIMIT_TIMEOUT: f clamped for 1 s without a break (12 R518). -/
def slewLimitTimeout (n : Nat) (s : State) : State :=
  match (s.tb n).clampedSince with
  | some c =>
    if n < 4 ∧ c + 1000000000000 ≤ s.now ∧ (s.tb n).slewSaid = false then
      let o := satS 32 (Int.tdiv ((s.tb n).offset.getD 0) (65536 * 1000))
      (s.modTb n (fun tb => { tb with slewLimited := true, slewSaid := true })).event 19 (n + unsgn 32 o * 2 ^ 32)
    else s
  | none => s

/-- A step of a time base by ns: offsets measured before it are discarded, a pulse under way keeps its width (12 R514, R526). -/
def State.tbJump (s : State) (n : Nat) (ns : Int) : State :=
  let v := s.tbVal n
  let w := (((v : Int) + ns * 2 ^ 32) % (2 ^ 80 * 1000000000 : Nat)).toNat
  let s := (s.tbSettle n).modTb n (fun tb => { tb with
    val := w, ppsRise := ((tb.ppsRise : Int) + ns).toNat, offset := none, setAt := some s.now
    syncWait := none, msDiff := none, reqSent := none, respWait := none })
  ({ s with tickVal := if n = 0 then s.tickVal + w - v else s.tickVal }).regate (fun g => g.tb == n)

/-- TB_SET_DONE: form, result and step made in ns (12 R514). -/
def State.tbSetDone (s : State) (n form result : Nat) (step : Int) : State :=
  (s.addCnt (tbCtr n 144) (1 - result)).event 18 (n + form * 4 + result * 16 + unsgn 56 step * 256)

/-- SECONDS_SET: at the rollover the seconds field becomes SET_VALUE (12 R513). -/
def secondsSet (n : Nat) (s : State) : State :=
  match (s.tb n).setSec with
  | some (v, from_) =>
    let sec := s.tbNs n / 1000000000
    if n < 4 ∧ from_ < sec then
      let step : Int := ((v : Int) - (sec % 2 ^ 48 : Nat)) * 1000000000
      ((s.tbJump n step).modTb n (fun tb => { tb with setSec := none })).tbSetDone n 1 0 step
    else s
  | none => s

/-- Offset of a 1PPS edge: the reading as a signed part of a second, less PPS_IN_OFFSET_NS, in 2^-16 ns (12 R518). -/
def ppsOffset (nanos frac : Nat) (inOffset : Int) : Int :=
  let x := ((nanos : Int) - inOffset) % 1000000000
  (if x < 500000000 then x else x - 1000000000) * 65536 + frac

/-- PPS_INPUT_EDGE (12 R525, R518); an active edge within 1 µs after the one before is ignored (16 R636). -/
def ppsInputEdge (n : Nat) (s : State) : State :=
  if n < 4 ∧ bit (s.tbFld n 11 1) 2 then
    let near := (s.tb n).ppsEdge.any (fun a => decide (s.now ≤ a + us))
    let s := s.modTb n (fun tb => { tb with ppsEdge := some s.now })
    if near then s
    else
      let v := s.tbVal n
      let s := (s.bump (tbCtr n 160)).modTb n (fun tb => { tb with ppsLast := some v, ppsLastAt := some s.now, ppsLost := false })
      if s.tbRole n = 3 then s.tbOffset n (ppsOffset (s.tbNanos n) (s.tbFrac n) (s.tbSFld n 52 4)) else s
  else s

/-- PPS_INPUT_LOSS: no edge for 1.5 s under role 3 (12 R518). -/
def ppsInputLoss (n : Nat) (s : State) : State :=
  let tb := s.tb n
  if n < 4 ∧ s.tbRole n = 3 ∧ tb.ppsLost = false ∧ (tb.ppsLastAt.getD tb.since) + 1500000000000 ≤ s.now then
    (s.modTb n (fun tb => { tb with ppsLost := true })).event 21 n
  else s

/-- Does TBn read a whole second plus PPS_OUT_OFFSET_NS: within 2 ns, or has it just stepped past it (12 R509, R526)? -/
def State.ppsDue (s : State) (n : Nat) : Bool :=
  let x := ((s.tbNs n : Int) - s.tbSFld n 44 4) % 1000000000
  decide (x ≤ 10) || decide (999999998 ≤ x)

/-- PPS_OUTPUT_RISE; a due edge while the pulse is high is skipped (12 R526). -/
def ppsOutputRise (n : Nat) (s : State) : State :=
  if n < 4 ∧ s.tbFld n 48 2 ≠ 0 ∧ (s.tb n).ppsOut = false ∧ s.ppsDue n then
    let ns := s.tbNs n
    s.modTb n (fun tb => { tb with ppsOut := true, ppsRise := ns })
  else s

/-- PPS_OUTPUT_FALL, PPS_WIDTH_MS after the rise as measured on TBn, or at once when the output is disabled (12 R526). -/
def ppsOutputFall (n : Nat) (s : State) : State :=
  if n < 4 ∧ (s.tb n).ppsOut ∧ (s.tb n).ppsRise + s.tbFld n 48 2 * 1000000 ≤ s.tbNs n then
    s.modTb n (fun tb => { tb with ppsOut := false })
  else s

/-- The internal fallback takes over: its deviation within 50 ppm is a free value (12 R510). -/
def State.tbFallback (s : State) : State :=
  let (v, s) := s.draw 100001
  forEach [0, 1, 2, 3] (fun n s => (s.tbSettle n).modTb n (fun tb => { tb with refFallback := true, dev := (v : Int) - 50000 })) s

/-- REFERENCE_LOSS: REFOK falls (12 R510). -/
def referenceLoss (s : State) : State :=
  if s.power.refOk then ((s.modPower (fun p => { p with refOk := false })).tbFallback).event 20 0 else s

/-- The time bases run on the reference. -/
def State.tbOnReference (s : State) : State :=
  forEach [0, 1, 2, 3] (fun n s => (s.tbSettle n).modTb n (fun tb => { tb with refFallback := false, dev := 0 })) s

/-- REFERENCE_RETURN: the counters take no step (12 R510). -/
def referenceReturn (s : State) : State :=
  if s.power.refOk then s else (s.modPower (fun p => { p with refOk := true })).tbOnReference

/-- ANNOUNCE_RECEIPT_TIMEOUT: ANNOUNCE_TIMEOUT intervals without an Announce of the master, or of any in LISTENING; the best master clock
algorithm runs again without it.  With no master a role 2 port becomes MASTER, another LISTENING, and LOCKED enters HOLDOVER (12 R519). -/
def announceTimeout (n lport : Nat) (s : State) : State :=
  let tb := s.tb n
  if n < 4 ∧ s.tbPtp n ∧ s.tbLport n = lport ∧ tb.portState ≠ 6 ∧ tb.lastAnnounce + s.tbFld n 7 1 * s.announcePs n ≤ s.now then
    let s := s.modTb n (fun tb => { tb with
      foreign := tb.foreign.filter (fun f => tb.parent != some (f.src, f.port)), parent := none, lastAnnounce := s.now })
    let s := if s.qualified n ≠ [] then s.tbDecide n
      else if s.tbRole n = 2 then s.tbMaster n
      else s.modTb n (fun tb => { tb with portState := 4, syncWait := none, msDiff := none })
    if (s.tb n).state = .locked ∧ (s.tb n).parent = none then s.tbGo n .holdover else s
  else s

/-- The explicit set of TBn at a switch tick of a commit (12 R513). -/
def State.tbSet (s : State) (n : Nat) : State :=
  let raw := leBytes 8 (s.tbFld n 32 8)
  match bits (s.tbFld n 11 1) 1 0 with
  | 1 => s.modTb n (fun tb => { tb with setSec := some (leNat raw % 2 ^ 48, s.tbNs n / 1000000000) })
  | 2 =>
    let tb := s.tb n
    (match tb.offset with
     | some o =>
       if s.now ≤ tb.offsetAt + 4 * s.syncPs n then
         let step := Int.tdiv (-o) 65536
         (s.tbJump n step).tbSetDone n 2 0 step
       else s.tbSetDone n 2 1 0
     | none => s.tbSetDone n 2 1 0)
  | 3 =>
    let step := sgn 64 (leNat raw)
    (s.tbJump n step).tbSetDone n 3 0 step
  | _ => s

/-- What restarts a servo: ROLE, LPORT, DOMAIN, TRANSPORT, P2P (12 R531). -/
def tbIdentity (c : Option Tack) (n : Nat) : Nat × Nat × Nat :=
  (tfld c 0x0D (128 * n) 1 &&& 0x3B, tfld c 0x0D (128 * n + 1) 1, tfld c 0x0D (128 * n + 2) 1)

/-- The servo of TBn restarts: f and f_int kept, measurements discarded; role 0 is FREE with f 0 (12 R512, R519, R531). -/
def State.tbRestart (s : State) (n : Nat) : State :=
  let role := s.tbRole n
  let s := (s.tbSettle n).modTb n (fun tb => { tb with
    offset := none, delays := [], lockRun := 0, clampedSince := none, slewLimited := false, slewSaid := false
    portState := if role = 1 ∨ role = 2 then 4 else 0, gm := 0, steps := 0, lastAnnounce := s.now
    foreign := [], parent := none, parentAddr := (0, 0), grants := [], syncWait := none, msDiff := none, reqSent := none, respWait := none
    f := if role = 0 then 0 else tb.f, fInt := if role = 0 then 0 else tb.fInt })
  s.tbGo n (if role = 0 then .free else .acquiring)

/-- The time-base section of a generation takes effect: sets first, on a commit only, then restarts, then f within the new bound
(12 R513, R514, R531; 01 R67). -/
def State.tbSwitch (s : State) (old : Option Tack) (commit : Bool) : State :=
  forEach [0, 1, 2, 3] (fun n s =>
    let s := if commit then s.tbSet n else s
    let s := if tbIdentity old n = tbIdentity s.gens.cur n then s else s.tbRestart n
    let lim : Int := (min (s.tbFld n 12 4) 500000) * 65536
    (s.tbSettle n).modTb n (fun tb => { tb with f := clampI (-lim) lim tb.f, fInt := clampI (-lim) lim tb.fInt })) s

/-- Continuous ms outside the locked states: HOLDOVER counts as locked, ACQUIRING does not (12 R519, R532). -/
def State.tbUnlockedMs (s : State) (n : Nat) : Nat :=
  if (s.tb n).state.counts then 0 else (s.now - (s.tb n).since) / (1000 * us)

/-- The record of a time base in block 0x0B, counters apart (12 R532). -/
def State.tbStatusByte (s : State) (n : Nat) : Nat :=
  let tb := s.tb n
  tb.state.code + s.tbRole n * 8 + b2n tb.refFallback * 32 + b2n tb.slewLimited * 64

/-! ### Commands -/

/-- PTP_MESSAGE_RECEIVE (12 R517). -/
def execPtpMessageReceive (t lport : Nat) (m : PtpFrame) (s : State) : Host.Outcome State Fault Refusal :=
  .next (ptpReceive lport m.rx m.frame (s.at t))
/-- PTP_MESSAGE_TRANSMIT (12 R517). -/
def execPtpMessageTransmit (t n : Nat) (k : PtpKind) (s : State) : Host.Outcome State Fault Refusal := .next (ptpTransmit n k (s.at t))
/-- HOLDOVER_ENTRY (12 R519). -/
def execHoldoverEntry (t n : Nat) (s : State) : Host.Outcome State Fault Refusal := .next (holdoverEntry n (s.at t))
/-- HOLDOVER_END (12 R519). -/
def execHoldoverEnd (t n : Nat) (s : State) : Host.Outcome State Fault Refusal := .next (holdoverEnd n (s.at t))
/-- SLEW_LIMIT_TIMEOUT (12 R518). -/
def execSlewLimitTimeout (t n : Nat) (s : State) : Host.Outcome State Fault Refusal := .next (slewLimitTimeout n (s.at t))
/-- SECONDS_SET (12 R513). -/
def execSecondsSet (t n : Nat) (s : State) : Host.Outcome State Fault Refusal := .next (secondsSet n (s.at t))
/-- PPS_INPUT_EDGE (12 R525). -/
def execPpsInputEdge (t n : Nat) (s : State) : Host.Outcome State Fault Refusal := .next (ppsInputEdge n (s.at t))
/-- PPS_INPUT_LOSS (12 R518). -/
def execPpsInputLoss (t n : Nat) (s : State) : Host.Outcome State Fault Refusal := .next (ppsInputLoss n (s.at t))
/-- PPS_OUTPUT_RISE (12 R526). -/
def execPpsOutputRise (t n : Nat) (s : State) : Host.Outcome State Fault Refusal := .next (ppsOutputRise n (s.at t))
/-- PPS_OUTPUT_FALL (12 R526). -/
def execPpsOutputFall (t n : Nat) (s : State) : Host.Outcome State Fault Refusal := .next (ppsOutputFall n (s.at t))
/-- REFERENCE_LOSS (12 R510). -/
def execReferenceLoss (t : Nat) (s : State) : Host.Outcome State Fault Refusal := .next (referenceLoss (s.at t))
/-- REFERENCE_RETURN (12 R510). -/
def execReferenceReturn (t : Nat) (s : State) : Host.Outcome State Fault Refusal := .next (referenceReturn (s.at t))
/-- ANNOUNCE_RECEIPT_TIMEOUT (12 R519). -/
def execAnnounceReceiptTimeout (t n lport : Nat) (s : State) : Host.Outcome State Fault Refusal := .next (announceTimeout n lport (s.at t))

end Sys2Proof.Machine
end

