-- ==== Sys2Proof/Machine/NetPorts.lean ====
section
/-! DEFINITION. Network ports (05): reading a received frame, its checks and steering, pause and priority flow control, gate
lists, link state, and what becomes of a frame whose source is confirmed or voided (04 R194). -/
namespace Sys2Proof.Machine

/-- A counter of block 0x04 (05 R235). -/
def npCtr (l off : Nat) : Nat := ctr 4 l off

/-- A counter of block 0x05 (06 R293). -/
def fwCtr (y off : Nat) : Nat := ctr 5 y off

/-- Is a logical port up for the rest of the bridge: not while LOOP is nonzero (05 R205, R228)? -/
def State.upl (s : State) (l : Nat) : Bool := (s.lport l).up && (lookD s.net.phys (l / 4) {}).loop == 0

/-! ### Reading a frame -/

/-- The link layer of a frame: addresses, tag, EtherType and where its payload begins. -/
structure Eth where
  dst : Nat
  src : Nat
  tagged : Bool
  vid : Nat
  pcp : Nat
  etype : Nat
  l3 : Nat
  deriving DecidableEq, Repr

/-- Reads the link layer of a frame (05 R200: one 802.1Q tag or none). -/
def parseEth (b : Bytes) : Eth :=
  let ty := be b 12 2
  let tag := ty == 0x8100
  { dst := be b 0 6, src := be b 6 6, tagged := tag
    vid := if tag then be b 14 2 % 4096 else 0
    pcp := if tag then be b 14 2 / 8192 else 0
    etype := if tag then be b 16 2 else ty
    l3 := if tag then 18 else 14 }

/-- The network layer of a frame. -/
structure Ip where
  v6 : Bool
  src : Nat
  dst : Nat
  /-- protocol of the upper layer -/
  proto : Nat
  /-- where the upper layer begins, and the bytes the IP length leaves for it -/
  l4 : Nat
  l4len : Nat
  /-- IP total length -/
  total : Nat
  fragment : Bool
  options : Bool
  /-- version, header length, total length and checksum are right -/
  ok : Bool
  deriving DecidableEq, Repr

/-- An address as one number; an IPv6 address has 2^128 added, so that the two versions never agree. -/
def ipKey (v6 : Bool) (n : Nat) : Nat := if v6 then 2 ^ 128 + n else n

/-- IPv6 extension headers from an offset: upper protocol, its offset, a Fragment header seen, another one seen
(notes/assumptions/12.md). -/
def ext6 (b : Bytes) : Nat → Nat → Nat → Bool → Bool → Nat × Nat × Bool × Bool
  | 0, nh, off, fr, ex => (nh, off, fr, ex)
  | n + 1, nh, off, fr, ex =>
    if nh = 44 then ext6 b n (byteAt b off) (off + 8) true ex
    else if nh = 51 then ext6 b n (byteAt b off) (off + (byteAt b (off + 1) + 2) * 4) fr true
    else if nh = 0 ∨ nh = 43 ∨ nh = 60 ∨ nh = 135 ∨ nh = 139 ∨ nh = 140 then
      ext6 b n (byteAt b off) (off + (byteAt b (off + 1) + 1) * 8) fr true
    else if nh = 50 then (nh, off, fr, true)
    else (nh, off, fr, ex)

/-- Reads the network layer of a frame whose EtherType is 0x0800 or 0x86DD. -/
def parseIp (b : Bytes) (e : Eth) : Ip :=
  let o := e.l3
  let room := b.length - o
  let v := byteAt b o / 16
  if e.etype = 0x0800 then
    let hl := byteAt b o % 16 * 4
    let total := be b (o + 2) 2
    let frag := be b (o + 6) 2
    { v6 := false, src := be b (o + 12) 4, dst := be b (o + 16) 4, proto := byteAt b (o + 9), l4 := o + hl, l4len := total - hl
      total
      fragment := frag % 16384 != 0
      options := decide (20 < hl)
      ok := v == 4 && decide (20 ≤ hl) && decide (hl ≤ total) && decide (total ≤ room) &&
        foldSum (wordSum ((b.drop o).take hl)) == 65535 }
  else
    let pay := be b (o + 4) 2
    let (nh, off, fr, ex) := ext6 b 8 (byteAt b (o + 6)) (o + 40) false false
    { v6 := true, src := ipKey true (be b (o + 8) 16), dst := ipKey true (be b (o + 24) 16), proto := nh, l4 := off
      l4len := pay + o + 40 - off, total := pay + 40, fragment := fr, options := ex
      ok := v == 6 && decide (pay + 40 ≤ room) }

/-- The UDP ports of a datagram and its payload. -/
def udpSrc (b : Bytes) (ip : Ip) : Nat := be b ip.l4 2
def udpDst (b : Bytes) (ip : Ip) : Nat := be b (ip.l4 + 2) 2
def udpLen (b : Bytes) (ip : Ip) : Nat := be b (ip.l4 + 4) 2
def udpData (b : Bytes) (ip : Ip) : Bytes := (b.drop (ip.l4 + 8)).take (udpLen b ip - 8)

/-! ### Addresses -/

/-- MACi of a logical port, as written in the tack. -/
def macAt (c : Option Tack) (l i : Nat) : Nat := beNat 0 (leBytes 6 (lpfld c l (6 * i) 6))

/-- The own addresses of a version, unused ones left out. -/
def ipList (c : Option Tack) (l : Nat) (v6 : Bool) : List Nat :=
  [0, 1, 2, 3].filterMap (fun i =>
    let a := if v6 then beNat 0 (leBytes 16 (lpfld c l (80 + 16 * i) 16)) else beNat 0 (leBytes 4 (lpfld c l (64 + 4 * i) 4))
    if a = 0 then none else some (ipKey v6 a))

/-- Own address i of a version; none when it is unset. -/
def ipAt (c : Option Tack) (l : Nat) (v6 : Bool) (i : Nat) : Option Nat :=
  let a := if v6 then beNat 0 (leBytes 16 (lpfld c l (80 + 16 * i) 16)) else beNat 0 (leBytes 4 (lpfld c l (64 + 4 * i) 4))
  if a = 0 then none else some (ipKey v6 a)

/-- Does the port accept a destination MAC address (05 R208)? -/
def macOk (c : Option Tack) (l dst : Nat) : Bool :=
  dst == ownMac c l || [1, 2, 3].any (fun i => macAt c l i != 0 && macAt c l i == dst) ||
    dst == 0xFFFFFFFFFFFF || dst == 0x011B19000000 || dst == 0x0180C200000E || dst == 0x0180C2000001 ||
    dst / 2 ^ 32 == 0x3333

/-- Is an IP destination refused as an address: another unicast address while the list of its version is not empty (R208)? -/
def ipRefused (c : Option Tack) (l : Nat) (ip : Ip) : Bool :=
  let own := ipList c l ip.v6
  let unicast := if ip.v6 then ip.dst % 2 ^ 128 / 2 ^ 120 != 0xFF else ip.dst / 2 ^ 28 != 0xE && ip.dst != 0xFFFFFFFF
  own != [] && unicast && !own.contains ip.dst

/-- Is a frame's tag accepted (R208)? -/
def vlanOk (c : Option Tack) (l : Nat) (e : Eth) : Bool :=
  !e.tagged || e.vid == 0 ||
    (bit (lpfld c l 35 1) 0 && e.vid == bits (lpfld c l 36 2) 11 0)

/-- Is the EtherType one that R209 handles? -/
def etypeOk (e : Nat) : Bool := e == 0x8808 || e == 0x88F7 || e == 0x0806 || e == 0x88CC || e == 0x0800 || e == 0x86DD

/-- Does the IP packet, with its UDP header, pass the header row of R207? The UDP length is judged in whole datagrams, behind IPv6
extension headers too. -/
def ipHeaderOk (b : Bytes) (ip : Ip) : Bool :=
  ip.ok &&
    (ip.proto != 17 || ip.fragment ||
      (decide (8 ≤ ip.l4len) && decide (8 ≤ udpLen b ip) && decide (udpLen b ip ≤ ip.l4len)))

/-- Offset in block 0x04 of the counter under which a received frame is dropped; none when it has no error (05 R207). -/
def rxError (c : Option Tack) (l : Nat) (b : Bytes) (fcsOk : Bool) : Option Nat :=
  let e := parseEth b
  let isIp := e.etype == 0x0800 || e.etype == 0x86DD
  let ip := parseIp b e
  if fcsOk = false then some 16
  else if b.length + 4 < 64 then some 24
  else if lpfld c l 24 2 < b.length + 4 then some 32
  else if macOk c l e.dst = false ∨ (isIp ∧ ipRefused c l ip) then some 40
  else if vlanOk c l e = false then some 48
  else if etypeOk e.etype = false then some 56
  else if isIp ∧ ipHeaderOk b ip = false then some 64
  else none

/-- Where R209 steers an accepted frame. -/
inductive Steer where
  | pause | ctrlOther | ptp
  | host (reason : Nat)
  | fwd
  deriving DecidableEq, Repr

/-- Does a time-base role name the logical port (R209)? -/
def State.ptpNamed (s : State) (l : Nat) : Bool := [0, 1, 2, 3].any (fun n => s.tbPtp n && s.tbLport n == l)

/-- Steering of an accepted frame (05 R209). -/
def State.steer (s : State) (l : Nat) (b : Bytes) : Steer :=
  let e := parseEth b
  let ip := parseIp b e
  let toTb : Steer := if s.ptpNamed l then .ptp else .host 0x0A
  if e.etype = 0x8808 then (if be b e.l3 2 = 1 ∨ be b e.l3 2 = 0x101 then .pause else .ctrlOther)
  else if e.etype = 0x88F7 then toTb
  else if e.etype = 0x0806 then .host 1
  else if e.etype = 0x88CC then .host 3
  else if ip.fragment then .host 5
  else if ip.options then .host 6
  else if ip.v6 ∧ (ip.proto = 58 ∨ (e.dst / 2 ^ 32 = 0x3333 ∧ ip.proto ≠ 17)) then .host 2
  else if ip.proto ≠ 17 then .host 4
  else if udpDst b ip = 319 ∨ udpDst b ip = 320 then toTb
  else .fwd

/-! ### Pause and PFC (05 R216-R220) -/

/-- Keys of the pause timers of a class under a tack: the class itself, and 8 + p for each priority the map gives it. -/
def pauseKeysOf (t : Option Tack) (l c : Nat) : List Nat :=
  let map := lpfld t l 32 3
  c :: ((List.range 8).filter (fun q => bits map (3 * q + 2) (3 * q) == c)).map (8 + ·)

/-- Instant at which a class that has been paused since `since` stops being paused, now at the latest. -/
def State.pauseEnd (s : State) (t : Option Tack) (l c since : Nat) : Nat :=
  min s.now (((pauseKeysOf t l c).filterMap (fun k => look (s.lport l).pause k)).foldl max since)

/-- Ends the account of a class's pause at an instant (R220). -/
def State.pauseCount (s : State) (l c since e : Nat) : State :=
  (s.addCnt (npCtr l (256 + 8 * c)) (e / 1000 - since / 1000)).modLport l (fun p => { p with
    pausedSince := del p.pausedSince c, resumedAt := put p.resumedAt c e })

/-- Ends the accounts of every class of a port before its timers or their classes change at a switch. -/
def State.pauseClose (s : State) (old : Option Tack) (l : Nat) : State :=
  forEach [0, 1, 2, 3, 4, 5, 6, 7] (fun c s =>
    match look (s.lport l).pausedSince c with
    | some since => s.pauseCount l c since (s.pauseEnd old l c since)
    | none => s) s

/-- Brings the account of paused time to now: a class that stopped being paused adds its time to `np_paused_ns`, a class that
became paused begins a run (R220). -/
def State.pauseSettle (s : State) (l : Nat) : State :=
  forEach [0, 1, 2, 3, 4, 5, 6, 7] (fun c s =>
    let p := s.lport l
    let on := s.paused l c
    match look p.pausedSince c with
    | some since =>
      if on then s else s.pauseCount l c since (s.pauseEnd s.gens.cur l c since)
    | none =>
      if on then
        s.modLport l (fun p => { p with
          pausedSince := put p.pausedSince c s.now
          stormSaid := if lookD p.resumedAt c 0 + 1000 * us ≤ s.now then p.stormSaid.filter (· != c) else p.stormSaid })
      else s) s

/-- Applies one pause entry to a timer: a new time replaces what remains; 0 resumes at once (R216, R218). -/
def State.pauseEntry (s : State) (l key quanta : Nat) : State :=
  let q := 64 * bytePs (modeOf s.gens.cur (l / 4))
  s.modLport l (fun p => { p with pause := put p.pause key (s.now + quanta * q) })

/-- A received pause or PFC frame (R216-R218). -/
def State.pauseFrame (s : State) (l : Nat) (b : Bytes) : State :=
  let o := (parseEth b).l3
  let op := be b o 2
  let fc := bits (lpfld s.gens.cur l 29 1) 1 0
  let s := (s.bump (npCtr l 72)).pauseSettle l
  if op = 1 ∧ fc = 1 then (forEach [0, 1, 2, 3, 4, 5, 6, 7] (fun c s => s.pauseEntry l c (be b (o + 2) 2)) s).pauseSettle l
  else if op = 0x101 ∧ fc = 2 then
    (forEach ([0, 1, 2, 3, 4, 5, 6, 7].filter (fun p => bit (be b (o + 2) 2) p))
      (fun p s => s.pauseEntry l (8 + p) (be b (o + 4 + 2 * p) 2)) s).pauseSettle l
  else s

/-- PAUSE_STORM: a class stays paused without a break for longer than STORM_MS (R220). -/
def pauseStorm (l c : Nat) (s : State) : State :=
  let p := s.lport l
  let ms := lpfld s.gens.cur l 60 2
  match look p.pausedSince c with
  | some since =>
    if ms ≠ 0 ∧ s.paused l c ∧ since + ms * 1000 * us < s.now ∧ p.stormSaid.contains c = false then
      ((s.modLport l (fun p => { p with stormSaid := c :: p.stormSaid })).bump (npCtr l 200)).event (yardSrc (yardOf l) 4) (l + c * 256)
    else s
  | none => s

/-! ### Pause and PFC the bridge sends (05 R221; 07 R322) -/

/-- A MAC control frame of a port: pause for all classes, or PFC for the priorities of a mask, with one time. -/
def State.ctlFrame (s : State) (l mask quanta : Nat) : Bytes :=
  let head := beBytes 6 0x0180C2000001 ++ beBytes 6 (ownMac s.gens.cur l) ++ beBytes 2 0x8808
  if bits (lpfld s.gens.cur l 29 1) 1 0 = 1 then padTo 60 (head ++ beBytes 2 1 ++ beBytes 2 quanta)
  else padTo 60 (head ++ beBytes 2 0x101 ++ beBytes 2 mask ++
    [0, 1, 2, 3, 4, 5, 6, 7].flatMap (fun p => beBytes 2 (if bit mask p then quanta else 0)))

/-- The provided ports a pool guards whose FC_MODE sends (R322). -/
def State.guarded (s : State) (k : Nat) : List Nat :=
  (List.range 64).filter (fun l => bit (s.fld 8 (48 * k + 32) 8) l && provides s.gens.cur l &&
    bits (lpfld s.gens.cur l 29 1) 1 0 != 0)

/-- Queues an XOFF, or a time of 0, ahead of every class of a port. -/
def State.sendCtl (s : State) (k l : Nat) (xoff : Bool) : State :=
  let f := s.ctlFrame l (s.fld 8 (48 * k + 21) 1) (if xoff then lpfld s.gens.cur l 30 2 else 0)
  (s.modLport l (fun p => { p with ctl := p.ctl ++ [f] })).modPool k (fun x => { x with
    xoffAt := if xoff then put x.xoffAt l s.now else del x.xoffAt l })

/-- POOL_LEVEL_CHECK: XOFF on a rise above PAUSE_CELLS, a time of 0 when the level falls back below (R221, R322). -/
def poolLevelCheck (k : Nat) (s : State) : State :=
  let x := s.pool k
  let th := s.poolFld k 24
  if 16 ≤ k then s
  else if bit (s.fld 8 (48 * k + 20) 1) 0 ∧ x.pausing = false ∧ th < x.level then
    forEach (s.guarded k) (fun l s => s.sendCtl k l true) (s.modPool k (fun x => { x with pausing := true }))
  else if x.pausing ∧ (x.level < th ∨ bit (s.fld 8 (48 * k + 20) 1) 0 = false) then
    forEach (s.guarded k) (fun l s => s.sendCtl k l false) (s.modPool k (fun x => { x with pausing := false }))
  else s

/-- XOFF_REPEAT: every PAUSE_TX_QUANTA / 2 quanta while the pool stays above its threshold (R221). -/
def xoffRepeat (k l : Nat) (s : State) : State :=
  let x := s.pool k
  let half := lpfld s.gens.cur l 30 2 * 32 * bytePs (modeOf s.gens.cur (l / 4))
  match look x.xoffAt l with
  | some t =>
    if x.pausing ∧ s.poolFld k 24 < x.level ∧ (s.guarded k).contains l ∧ t + half ≤ s.now then s.sendCtl k l true else s
  | none => s

/-! ### What the resolution of a source does to its replicas (04 R194; 07 R307, R312) -/

/-- A HOST_TX frame that never leaves whole completes with NOT-SENT (02 R118). -/
def State.notSent (s : State) (f : QFrame) : State :=
  match f.host with
  | some (p, r, seq, _) => s.complete p r seq stNotSent
  | none => s

/-- Bytes of the frame that is being sent that have left by now, counted from the destination address. -/
def State.txSent (s : State) (l : Nat) (x : TxFrame) : Nat := (s.now - x.start) / bytePs (modeOf s.gens.cur (l / 4))

/-- Cuts the frame a port is sending at a multiple of 64 bytes, with the inverse of its FCS; it is counted as stomped now, and its
shapers get back the bytes not sent (R184, R194, R307). -/
def State.stomp (s : State) (l : Nat) : State :=
  match (s.lport l).tx with
  | some x =>
    let cut := min (x.frame.len - 4) (max 64 ((cdiv (s.txSent l x) 64) * 64))
    let sent := cut + 4
    let s := (s.bump (npCtr l 128)).modLport l (fun p => { p with tx := some { x with
      stomped := true, ends := x.start + sent * bytePs (modeOf s.gens.cur (l / 4)), frame := { x.frame with pending := none } } })
    if x.frame.len ≤ sent then s
    else s.chargeShapers l x.cls x.frame.leg (-((x.frame.len - sent : Nat) : Int)) x.shaped
  | none => s

/-- Marks the queued copies of a source confirmed. -/
def clearPending (id : Nat) (q : List QFrame) : List QFrame :=
  q.map (fun f => if f.pending = some id then { f with pending := none } else f)

/-- A pending source is confirmed: its replicas may be sent in any class (04 R189, R193). -/
def State.confirmSource (s : State) (id : Nat) : State :=
  let s := s.resolveDrops id true 96
  s.modNet (fun n => { n with
    direct := n.direct.map (fun kv => (kv.1, clearPending id kv.2))
    legq := n.legq.map (fun kv => (kv.1, clearPending id kv.2))
    lports := n.lports.map (fun kv => (kv.1, { kv.2 with tx := kv.2.tx.map (fun x =>
      if x.frame.pending = some id then { x with frame := { x.frame with pending := none } } else x) })) })

/-- Discards the queued copies of a voided source, each counted for the yard that held it. -/
def State.voidQueue (s : State) (id yard : Nat) (q : List QFrame) : State :=
  forEach (q.filter (fun f => f.pending == some id)) (fun f s => (s.release f).bump (fwCtr yard 96)) s

/-- A pending source is voided: copies not started are discarded, a started one is stomped (04 R194). -/
def State.voidSource (s : State) (id : Nat) : State :=
  let s := s.resolveDrops id false 96
  let keep (q : List QFrame) : List QFrame := q.filter (fun f => f.pending != some id)
  let s := forEach s.net.direct (fun (k, q) s =>
    if q.any (fun f => f.pending == some id) then (s.voidQueue id (yardOf (k / 8)) q).setDirect (k / 8) (k % 8) (keep q) else s) s
  let s := forEach s.net.legq (fun (k, q) s =>
    if q.any (fun f => f.pending == some id) then
      let y := match look s.objs.legs k with
        | some leg => yardOf leg.lport
        | none => 0
      (s.voidQueue id y q).setLegq k (keep q)
    else s) s
  forEach (s.net.lports.filterMap (fun (l, p) => match p.tx with
    | some x => if x.frame.pending = some id then some l else none
    | none => none)) (fun l s => s.stomp l) s

/-! ### Link state (05 R205, R234) -/

/-- LOGICAL_PORT_UP: 10 ms after the last local or remote fault (R205). In modes whose network ports are down no port comes up
(14 R577). -/
def logicalPortUp (l : Nat) (s : State) : State :=
  let m := s.power.mode
  if provides s.gens.cur l = false ∨ (s.lport l).up ∨ (s.lport l).faultAt.any (fun f => decide (s.now < f + 10000 * us)) ∨ bit (lookD s.power.ydStatus (yardOf l) 0) 16 = false ∨ m = .reset ∨ m = .boot ∨ m = .keep ∨ m = .safe ∨
      (lookD s.net.phys (l / 4) {}).loop ≠ 0 then s
  else
    let flags := s.fld 4 (16 * (l / 4)) 1
    let s := s.modLport l (fun p => { p with
      up := true, amLock := true, localFault := false, remoteFault := false, anDone := bit flags 2, ltDone := bit flags 3 })
    s.event (yardSrc (yardOf l) 1) l

/-- A port that is up goes down: the frame being received is void, or, without cut-through, counted as the command says that it is in
reception, and the frame being sent is cut off (R205); a port that is down loses its lock when that is lost. -/
def State.linkDown (s : State) (l : Nat) (cause : DownCause) : State :=
  if (s.lport l).up = false then
    if cause.lockLost then s.modLport l (fun p => { p with amLock := false, anDone := false, ltDone := false }) else s
  else
    let s := s.modLport l (fun p => { p with
      up := false, localFault := p.localFault || cause.localFault, remoteFault := p.remoteFault || cause.remoteFault
      faultAt := if cause.localFault || cause.remoteFault then some s.now else p.faultAt
      amLock := p.amLock && !cause.lockLost, anDone := p.anDone && !cause.lockLost, ltDone := p.ltDone && !cause.lockLost })
    let s := match (s.lport l).rx with
      | some r =>
        let s := (((s.modLport l (fun p => { p with rx := none })).poolSub 0 (cellsOf r.lenIn)).voidSource r.id).bump (npCtr l 16)
        if r.unknown then s else s.bump (fwCtr (yardOf l) 88)
      | none =>
        if (s.lport l).rxRefused then s.modLport l (fun p => { p with rxRefused := false })
        else if cause.cutRx || (s.net.inRx.1 == s.now && s.net.inRx.2.contains l) then s.bump (npCtr l 16)
        else s
    let s := match (s.lport l).tx with
      | some x =>
        let charged := (x.ends - x.start) / bytePs (modeOf s.gens.cur (l / 4))
        let left := charged - s.txSent l x
        let s := s.modLport l (fun p => { p with tx := none, nextStart := s.now })
        if x.frame.kind = 8 then s.bump (npCtr l 144)
        else
          let s := (s.release x.frame).chargeShapers l x.cls x.frame.leg (-(left : Int)) x.shaped
          if x.stomped then s else (s.dropQ x.frame (npCtr l 144) (yardOf l)).notSent x.frame
      | none => s
    let s := s.modLport l (fun p => { p with ctl := [] })
    (s.bump (npCtr l 176)).event (yardSrc (yardOf l) 2)
      (l + b2n cause.localFault * 256 + b2n cause.remoteFault * 512 + b2n cause.lockLost * 1024)

/-- LOGICAL_PORT_DOWN: a loss of lock or a fault; of a port that is down it tells the condition it is now in (R205, R227). -/
def logicalPortDown (l : Nat) (cause : DownCause) (s : State) : State :=
  if provides s.gens.cur l = false then s
  else if (s.lport l).up then s.linkDown l cause
  else
    let flags := s.fld 4 (16 * (l / 4)) 1
    s.modLport l (fun p => { p with
      localFault := cause.localFault, remoteFault := cause.remoteFault, amLock := !cause.lockLost
      anDone := bit flags 2 && !cause.lockLost, ltDone := bit flags 3 && !cause.lockLost
      faultAt := if cause.localFault || cause.remoteFault then some s.now else p.faultAt })

/-- RETRAIN_END: every new logical port is up, or 10 s have passed (R234). -/
def retrainEnd (n : Nat) (s : State) : State :=
  let ph := lookD s.net.phys n {}
  match ph.retrainAt with
  | some t0 =>
    let mine := [0, 1, 2, 3].filter (fun k => provides s.gens.cur (4 * n + k))
    let ups := mine.filter (fun k => (s.lport (4 * n + k)).up)
    if n < 16 ∧ (ups.length = mine.length ∨ t0 + 10000000000000 ≤ s.now) then
      (s.modNet (fun x => { x with phys := put x.phys n { ph with retrainAt := none } })).event (yardSrc (n / 2) 6)
        (n + ((ups.map (fun k => 2 ^ k)).sum) * 256)
    else s
  | none => s

/-- FEC_DEGRADED_SET: DEGRADE_CW uncorrectable codewords within 400 ticks (R229). -/
def fecDegradedSet (l cw : Nat) (s : State) : State :=
  let lim := s.fld 4 (16 * (l / 4) + 4) 4
  if provides s.gens.cur l ∧ lim ≠ 0 ∧ lim ≤ cw ∧ (s.lport l).fecDegraded = false then
    (s.modLport l (fun p => { p with fecDegraded := true, fecLastBad := s.tick })).event (yardSrc (yardOf l) 3) (l + satU 32 cw * 2 ^ 32)
  else s

/-- FEC_DEGRADED_CLEAR: 400 whole ticks after that of the last uncorrectable codeword (R229). -/
def fecDegradedClear (l : Nat) (s : State) : State :=
  let p := s.lport l
  if p.fecDegraded ∧ p.fecLastBad + 401 ≤ s.tick then s.modLport l (fun p => { p with fecDegraded := false }) else s

/-! ### Gate lists (05 R222-R226) -/

/-- GATE_CHANGE: the running list takes the entry its time base gives. -/
def gateChange (l : Nat) (s : State) : State :=
  let p := s.lport l
  s.gateNow l (match p.tx with
    | some x => x.listEpoch != p.gclEpoch
    | none => false)

/-- GATE_LIST_START: the list committed at a switch starts at its first cycle start (R224, R225). -/
def gateListStart (l : Nat) (s : State) : State :=
  match (s.lport l).gclNext with
  | some g =>
    if g.start ≤ s.tbNs g.tb then
      let s := s.modLport l (fun p => { p with gcl := some g, gclNext := none, gclEpoch := p.gclEpoch + 1 })
      ((s.gateNow l true).bump (npCtr l 192)).event (yardSrc (yardOf l) 5) l
    else s
  | none => s

/-- The gate list a tack gives a port; its start as R224 computes it from the reading of GCL_TB at the switch boundary. -/
def State.gclOf (s : State) (c : Option Tack) (l : Nat) : Option GateList :=
  let f := lpfld c l 38 1
  if provides c l && bit f 0 then
    let n := lpfld c l 40 2
    let first := lpfld c l 42 2
    let tb := bits f 2 1
    let base := lpfld c l 44 6 * 1000000000 + lpfld c l 52 4
    let cyc := lpfld c l 56 4
    let t0 := s.tbNs tb + 2000
    some {
      entries := (List.range n).map (fun i => (tfld c 4 (12544 + 8 * (first + i)) 4, tfld c 4 (12548 + 8 * (first + i)) 1))
      tb, base, cycle := cyc, start := if t0 ≤ base then base else base + cdiv (t0 - base) cyc * cyc }
  else none

/-! ### Settings at a switch (05 R202, R224, R234) -/

/-- Frames queued for a logical port that the switch removes are discarded. -/
def State.purgePort (s : State) (l : Nat) : State :=
  let drop (q : List QFrame) (s : State) : State :=
    forEach q (fun f s => ((s.release f).dropQ f (npCtr l 144) (yardOf l)).notSent f) s
  let s := forEach [0, 1, 2, 3, 4, 5, 6, 7] (fun c s => (drop (s.direct l c) s).setDirect l c []) s
  forEach (s.objs.legs.filterMap (fun (i, leg) => if leg.lport = l then some i else none))
    (fun i s => (drop (s.legq i) s).setLegq i []) s

/-- Network-port effects of a switch from one tack to another: retraining, removed ports, pause timers, gate lists. -/
def State.switchPorts (s : State) (old new : Option Tack) : State :=
  let cfg (c : Option Tack) (n : Nat) : List Nat := [tfld c 4 (16 * n) 1, tfld c 4 (16 * n + 1) 1, tfld c 4 (16 * n + 2) 1]
  let s := forEach (List.range 16) (fun n s =>
    if cfg old n = cfg new n then s
    else
      let s := forEach [0, 1, 2, 3] (fun k s => s.linkDown (4 * n + k) { lockLost := true }) s
      let s := forEach [0, 1, 2, 3] (fun k s => if provides old (4 * n + k) && !provides new (4 * n + k) then s.purgePort (4 * n + k) else s) s
      s.modNet (fun x => { x with phys := adjD x.phys n {} (fun p => { p with mode := modeOf new n, retrainAt := some s.now }) })) s
  forEach (List.range 64) (fun l s =>
    let mode : Bool := bits (lpfld old l 29 1) 1 0 != bits (lpfld new l 29 1) 1 0
    let s := if mode ∨ lpfld old l 32 3 ≠ lpfld new l 32 3 then
        let s := s.pauseClose old l
        (if mode then s.modLport l (fun p => { p with pause := [] }) else s).pauseSettle l
      else s
    let same : Bool := bit (lpfld old l 38 1) 0 && bit (lpfld new l 38 1) 0 && provides old l &&
      (s.gclOf old l).map (fun g => (g.entries, g.tb, g.base, g.cycle)) == (s.gclOf new l).map (fun g => (g.entries, g.tb, g.base, g.cycle))
    if same then s
    else
      match s.gclOf new l with
      | some g => s.modLport l (fun p => { p with gclNext := some g })
      | none =>
        if (s.lport l).gcl.isSome ∨ (s.lport l).gclNext.isSome then
          s.modLport l (fun p => { p with gcl := none, gclNext := none, gates := 0xFF, gateIdx := 0, gclEpoch := p.gclEpoch + 1 })
        else s) s

/-- LOOP_WRITE: effective only in SERVICE and from the generation owner's port; code 3 is reserved and writes nothing
(05 R227, R228). -/
def loopWrite (p n value : Nat) (s : State) : State :=
  if s.power.mode = .service ∧ s.barOpen p ∧ s.isOwner p ∧ n < 16 ∧ bits value 1 0 ≠ 3 then
    s.modNet (fun x => { x with phys := adjD x.phys n {} (fun ph => { ph with loop := bits value 1 0 }) })
  else s

/-! ### The commands of this file -/

/-- LOOP_WRITE (05 R228). -/
def execLoopWrite (t p n value : Nat) (s : State) : Host.Outcome State Fault Refusal := .next (loopWrite p n value (s.at t))

/-- LOGICAL_PORT_UP (05 R205). -/
def execLogicalPortUp (t lport : Nat) (s : State) : Host.Outcome State Fault Refusal := .next (logicalPortUp lport (s.at t))

/-- LOGICAL_PORT_DOWN (05 R205). -/
def execLogicalPortDown (t lport : Nat) (cause : DownCause) (s : State) : Host.Outcome State Fault Refusal :=
  .next (logicalPortDown lport cause (s.at t))

/-- PAUSE_TIMER_EXPIRY: the class resumes (05 R217). -/
def execPauseTimerExpiry (t lport _c : Nat) (s : State) : Host.Outcome State Fault Refusal := .next ((s.at t).pauseSettle lport)

/-- PAUSE_STORM (05 R220). -/
def execPauseStorm (t lport c : Nat) (s : State) : Host.Outcome State Fault Refusal := .next (pauseStorm lport c (s.at t))

/-- POOL_LEVEL_CHECK (07 R322). -/
def execPoolLevelCheck (t k : Nat) (s : State) : Host.Outcome State Fault Refusal := .next (poolLevelCheck k (s.at t))

/-- XOFF_REPEAT (05 R221). -/
def execXoffRepeat (t k lport : Nat) (s : State) : Host.Outcome State Fault Refusal := .next (xoffRepeat k lport (s.at t))

/-- GATE_CHANGE (05 R222). -/
def execGateChange (t lport : Nat) (s : State) : Host.Outcome State Fault Refusal := .next (gateChange lport (s.at t))

/-- GATE_LIST_START (05 R224). -/
def execGateListStart (t lport : Nat) (s : State) : Host.Outcome State Fault Refusal := .next (gateListStart lport (s.at t))

/-- FEC_DEGRADED_SET (05 R229). -/
def execFecDegradedSet (t lport cw : Nat) (s : State) : Host.Outcome State Fault Refusal :=
  .next (fecDegradedSet lport cw (s.at t))

/-- FEC_DEGRADED_CLEAR (05 R229). -/
def execFecDegradedClear (t lport : Nat) (s : State) : Host.Outcome State Fault Refusal := .next (fecDegradedClear lport (s.at t))

/-- RETRAIN_END (05 R234). -/
def execRetrainEnd (t n : Nat) (s : State) : Host.Outcome State Fault Refusal := .next (retrainEnd n (s.at t))

end Sys2Proof.Machine
end

