-- ==== Sys2Proof/Machine/Objects.lean ====
section
/-! DEFINITION. Runtime objects (00 R3-R8; 06 R237-R258): handles, the checks of the object commands at their effect tick, and
what creates, modifies and deletes do. -/
namespace Sys2Proof.Machine

/-! ### Reading objects -/

/-- A field of a room's template as it was instantiated, by its offset in the record (06 R289). -/
def Room.tf (r : Room) (off n : Nat) : Nat := if r.tpl = [] then defRooms (16 + off) else le r.tpl off n

/-- Template bits: 1 FWD_VIDEO, 2 FWD_AUDIO, 3 COMPOSE, 4 MIX. -/
def Room.has (r : Room) (k : Nat) : Bool := bit (r.tf 0 1) k

/-- A field of a stream's stored body by its slot offset (06 R244). -/
def Stream.f (x : Stream) (off n : Nat) : Nat := le x.body (off - 16) n

def Stream.egress (x : Stream) : Bool := bit (x.f 16 1) 0
def Stream.video (x : Stream) : Bool := bit (x.f 16 1) 1
def Stream.log (x : Stream) : Bool := bit (x.f 16 1) 2
def Stream.histClass (x : Stream) : Nat := bits (x.f 16 1) 4 3
def Stream.codec (x : Stream) : Nat := x.f 17 1
def Stream.layering (x : Stream) : Nat := bits (x.f 19 1) 1 0
def Stream.simIndex (x : Stream) : Nat := bits (x.f 19 1) 3 2
def Stream.clock (x : Stream) : Nat := x.f 24 4
def Stream.source (x : Stream) : Nat := x.f 28 4
def Stream.outKind (x : Stream) : Nat := bits (x.f 32 1) 1 0
def Stream.index (x : Stream) : Nat := x.f 33 1
def Stream.maxS (x : Stream) : Nat := bits (x.f 34 1) 1 0
def Stream.maxT (x : Stream) : Nat := bits (x.f 34 1) 3 2
def Stream.pinned (x : Stream) : Bool := bit (x.f 35 1) 0
def Stream.pinS (x : Stream) : Nat := bits (x.f 35 1) 2 1
def Stream.pinT (x : Stream) : Nat := bits (x.f 35 1) 4 3
/-- Extension IDs: 0 DD, 1 level, 2 TWCC, 3 AST, 4 RID. -/
def Stream.ext (x : Stream) (k : Nat) : Nat := bits (x.f (36 + k) 1) 3 0
def Stream.rid (x : Stream) : Bytes := (x.body.drop 27).take (bits (x.f 42 1) 4 0)

/-- Handles (00 R3). -/
def roomHandle (i inc : Nat) : Nat := inc * 65536 + i
def legHandle (i inc : Nat) : Nat := inc * 1048576 + i
def streamHandle (i inc : Nat) : Nat := inc * 4194304 + i

/-- Index bits of a handle by kind: 1 room, 2 leg, 3 stream. -/
def indexBits (kind : Nat) : Nat := match kind with
  | 1 => 16
  | 2 => 20
  | _ => 22

/-- The room, leg or stream a handle names, when its incarnation is current. -/
def State.roomAt (s : State) (h : Nat) : Option (Nat × Room) :=
  (look s.objs.rooms (h % 65536)).bind (fun r => if roomHandle (h % 65536) r.inc = h then some (h % 65536, r) else none)
def State.legAt (s : State) (h : Nat) : Option (Nat × Leg) :=
  (look s.objs.legs (h % 1048576)).bind (fun r => if legHandle (h % 1048576) r.inc = h then some (h % 1048576, r) else none)
def State.streamAt (s : State) (h : Nat) : Option (Nat × Stream) :=
  (look s.objs.streams (h % 4194304)).bind (fun r => if streamHandle (h % 4194304) r.inc = h then some (h % 4194304, r) else none)

/-- The handle of a live object by index; 0 when there is none. -/
def State.roomH (s : State) (i : Nat) : Nat := ((look s.objs.rooms i).map (fun r => roomHandle i r.inc)).getD 0
def State.legH (s : State) (i : Nat) : Nat := ((look s.objs.legs i).map (fun r => legHandle i r.inc)).getD 0
def State.streamH (s : State) (i : Nat) : Nat := ((look s.objs.streams i).map (fun r => streamHandle i r.inc)).getD 0

/-- Legs of a room and streams of a leg, ascending. -/
def State.legsOf (s : State) (room : Nat) : List (Nat × Leg) := s.objs.legs.filter (fun kv => kv.2.room == room)
def State.streamsOf (s : State) (leg : Nat) : List (Nat × Stream) := s.objs.streams.filter (fun kv => kv.2.leg == leg)
def State.streamsIn (s : State) (room : Nat) : List (Nat × Stream) := s.objs.streams.filter (fun kv => kv.2.room == room)

/-- The 5-tuple of a leg under a tack (06 R238); an unset local address reads 0. -/
def legTuple (c : Option Tack) (l : Leg) : Nat × Nat × Nat × Nat × Nat :=
  (l.lport, (ipAt c l.lport l.ipv6 l.localIdx).getD 0, l.localUdp, l.remoteIp, l.remoteUdp)

/-! ### Reissuing an index (00 R5, R6; 02 R102) -/

/-- The incarnation that follows; it goes from the largest to 1. -/
def nextInc (kind last : Nat) : Nat := if last + 1 < 2 ^ (32 - indexBits kind) then last + 1 else 1

/-- Does an event entry name a handle of a kind: class O payloads (15 R605, R606)? -/
def eventNames (e : EvEntry) (kind h : Nat) : Bool :=
  let y := (e.source - 64) % 24
  match srcInfo e.source with
  | some (_, 1) =>
    if 64 ≤ e.source ∧ y = 16 then kind == 2 && bits e.payload 54 54 == 0 && bits e.payload 53 32 == h % 2 ^ 20
      || kind == 1 && bits e.payload 54 54 == 1 && bits e.payload 53 32 / 4 == h % 2 ^ 16
    else if 64 ≤ e.source ∧ y = 18 then kind == 2 && bits e.payload 19 0 == h % 2 ^ 20
    else if 64 ≤ e.source ∧ y = 20 then false
    else e.payload % 2 ^ 32 == h
  | _ => false

/-- Does an operation bear an object, by index? -/
def opNames (k : OpKind) (kind i : Nat) : Bool :=
  match k with
  | .decode t _ _ _ => kind == 3 && t == i
  | .encode r _ _ => kind == 1 && r == i
  | .compose r _ => kind == 1 && r == i
  | .codec st _ _ => kind == 3 && st == i
  | .kernel _ _ key _ => if key % 2 == 0 then kind == 3 && key / 2 == i else kind == 1 && key / 4096 == i
  | .mix r _ => kind == 1 && r == i

/-- Is the index drained of an old handle (02 R102)?  A command that has been fetched and is not completed bears the handle it names. -/
def State.drained (s : State) (kind i inc : Nat) : Bool :=
  let h := inc * 2 ^ indexBits kind + i
  s.media.ops.all (fun o => !opNames o.kind kind i) && s.media.noSlot.all (fun o => !opNames o.kind kind i) &&
    s.hosts.all (fun (_, p) =>
      p.sq.all (fun (_, q) => q.out.all (fun o => o.objKind != kind || o.obj != h)) &&
      p.cq.all (fun (_, q) => q.entries.all (fun c => c.objKind != kind || c.obj != h)) &&
      p.eq.all (fun (_, q) => q.entries.all (fun e => !eventNames e kind h))) &&
    (kind != 3 || s.objs.tombs.all (fun t => t.handle != h))

/-- The lowest index from n on that is free and drained, below a limit. -/
def findIndex {α : Type} (t : Tab α) (ok : Nat → Bool) (limit : Nat) : Nat → Nat → Option Nat
  | 0, n => if n < limit then some n else none
  | fuel + 1, n => if limit ≤ n then none else if has t n || !ok n then findIndex t ok limit fuel (n + 1) else some n

/-- A free index and its incarnation for a new object. The bridge takes the lowest (notes/assumptions/13.md). -/
def State.newIndex {α : Type} (s : State) (kind : Nat) (t : Tab α) (incs : Tab Nat) (base limit : Nat) : Option (Nat × Nat) :=
  let ok (n : Nat) : Bool := match look incs n with
    | some inc => s.drained kind n inc
    | none => true
  (findIndex t ok limit (incs.length + 1) base).map (fun i => (i, nextInc kind (lookD incs i 0)))

/-! ### Outcomes of a command at its effect tick -/

/-- State, status, RESULT and handle of a command. -/
abbrev Out : Type := State × Nat × Nat × Nat

/-- A command that fails leaves the state as it was. -/
def failOut (s : State) (status : Nat) (result : Nat := 0) : Out := (s, status, result, 0)

/-- A command that takes effect. -/
def okOut (s : State) (result : Nat := 0) (obj : Nat := 0) : Out := (s, stOk, result, obj)

/-- Owner of the live object a handle names: none when its incarnation is not current. -/
def State.ownerOf (s : State) (kind h : Nat) : Option Nat :=
  match kind with
  | 1 => (s.roomAt h).map (fun r => r.2.owner)
  | 2 => (s.legAt h).map (fun r => r.2.owner)
  | _ => (s.streamAt h).map (fun r => r.2.owner)

/-- Checks 6 and 7 of 02 R92: the status of the first that fails. A handle that names nothing live has no owner and is stale. -/
def State.handleCheck (s : State) (p kind h : Nat) : Option Nat :=
  match s.ownerOf kind h with
  | none => some stStaleHandle
  | some o => if o = p then none else some stNotOwner

/-! ### Rooms -/

/-- The template record of a tack, as a room keeps it. -/
def tplBytes (c : Option Tack) (i : Nat) : Bytes :=
  match c.bind (fun t => look t.secs 5) with
  | some b => padTo 64 ((b.drop (16 + 64 * i)).take 64)
  | none => []

/-- Legs of rooms homed in a yard that have a mix source or a mix output (06 R290). -/
def State.mixLegs (s : State) (y : Nat) : Nat :=
  (s.objs.legs.filter (fun (i, l) =>
    match look s.objs.rooms l.room with
    | some r => r.home == y && r.has 4 &&
        (s.streamsOf i).any (fun (_, x) => (!x.egress && !x.video) || (x.egress && x.outKind == 2))
    | none => false)).length

/-- The home yard R290 chooses among the yards that pass. -/
def State.chooseHome (s : State) (a : List Adm) (pass : Nat → Bool) : Option Nat :=
  let w (y : Nat) : Nat := s.fld 5 (2 * y) 2
  let cost5 (y : Nat) : Nat := 5 * admSum a 0 y (·.rate) + 2 * admSum a 1 y (·.rate) + 500000 * s.mixLegs y
  ((List.range 8).filter (fun y => w y != 0 && pass y)).foldl (fun b y =>
    match b with
    | none => some y
    | some z => if cost5 y * w z < cost5 z * w y then some y else some z) none

/-- AUDIO_PIN values of a body (06 R240). -/
def audioPins (d : Desc) : List Nat := [dfld d 24 4, dfld d 28 4, dfld d 32 4, dfld d 36 4]

/-- May every pin stand: 0, or an ingress audio stream of the room (06 R241)? -/
def State.pinsOk (s : State) (room : Option Nat) (pins : List Nat) : Bool :=
  pins.all (fun h => h == 0 ||
    (match s.streamAt h with
     | some (_, x) => some x.room == room && !x.egress && !x.video
     | none => false))

/-- The canvas of a room as it is instantiated at a tick (09 R374, R375, R390). RATE starts at RATE_MIN (notes/assumptions/14.md). -/
def State.newCanvas (s : State) (a : List Adm) (room set lad : Nat) : Canvas :=
  let l := s.ladder lad
  { cw := s.setFld set 0 2, ch := s.setFld set 2 2, fps := s.setFld set 4 1, d10 := bit (s.setFld set 5 1) 0, c0 := s.tick
    currentSince := s.tick
    rungs := (List.range l.length).map (fun r =>
      let x := (l[r]?).getD (0, 0, 0, 0, 0)
      { codec := x.1, profile := x.2.1, strct := x.2.2.1, w := x.2.2.2.1, h := x.2.2.2.2
        yard := (yardOfAdm a room 1 r).getD 0, leader := leaderOf l r, rate := s.rungFld lad r 12 4, rateTick := s.tick }) }

/-- The mix of a room as it is instantiated. -/
def State.newMix (s : State) (prof reserved : Nat) : MixRoom :=
  { mixN := s.audFld prof 0 1, opusBw := bits (s.audFld prof 1 1) 5 4, inKernel := s.audFld prof 56 1, outKernel := s.audFld prof 57 1
    inBudget := s.audFld prof 60 4, outBudget := s.audFld prof 64 4
    inParam := leBytes 32 (s.audFld prof 68 32), outParam := leBytes 32 (s.audFld prof 100 32), reserved }

/-- The encoder of a mix output from a tick on: PTIME_MS, OPUS_KBPS and OPUS_FEC as they stand (10 R449). -/
def State.newMixOut (s : State) (prof : Nat) : MixOut :=
  let ms := s.audFld prof 17 1
  { blocks := ms * 2 / 5, start := s.tick, ptime := ms, kbps := s.audFld prof 18 2, fec := bit (s.audFld prof 1 1) 0 }

/-- Clears the analysis ring of a room and writes its header (09 R403). -/
def State.clearRing (s : State) (room : Nat) : State :=
  let kib := s.fld 0x0B 0 4
  let base := (s.region 8).1 * 1048576 + room * kib * 1024
  if kib = 0 ∨ (s.region 8).2.1 = 0 then s
  else
    let kept := s.dram.analysis.filter (fun kv => decide (kv.1 < base ∨ base + kib * 1024 ≤ kv.1))
    let head := leBytes 8 0 ++ leBytes 4 (kib * 1024 - 64) ++ leBytes 4 (s.roomH room)
    (s.modDram (fun x => { x with analysis := kept })).dramWrite base (head ++ zeros (kib * 1024 - 16))

/-- ROOM_CREATE (06 R240, R241, R290; 09 R388; 10 R426). -/
def applyRoomCreate (p : Nat) (d : Desc) (s : State) : Out :=
  let c := s.gens.cur
  let i := dbits d 16 5 0
  let log := dfld d 20 2
  let used := (s.objs.rooms.map (fun kv => kv.2.logMib)).sum
  if dbits d 19 3 0 ≠ 0 ∨ tpValid c i = false ∨ s.pinsOk none (audioPins d) = false ∨
      (log ≠ 0 ∧ (s.region 7).2.1 < used + log) then failOut s stBadParam
  else
    let tpl := tplBytes c i
    let tf (off : Nat) : Nat := tpfld c i off 1
    let compose := bit (tf 0) 3
    let mix := bit (tf 0) 4
    let set := tf 4
    let lad := tf 5
    let prof := tf 6
    let a := s.objs.adms
    let charge := mixCharge (s.audFld prof 0 1) 0
    match s.newIndex 1 s.objs.rooms s.objs.roomInc 0 65536 with
    | none => failOut s stNoCapacity
    | some (n, inc) =>
      let cAdm (y : Nat) : Adm :=
        canvasAdm n y (s.setFld set 0 2) (s.setFld set 2 2) (s.setFld set 4 1) (bit (s.setFld set 5 1) 0)
      let pass (y : Nat) : Bool := (!compose || s.composeFits a y (cAdm y)) && (!mix || s.mixFits a y charge 0 (s.outsUsed y n))
      let home := if dbits d 17 3 3 = 1 then (if pass (dbits d 17 2 0) then some (dbits d 17 2 0) else none) else s.chooseHome a pass
      match home with
      | none => failOut s stNoCapacity
      | some y =>
        let a1 := if compose then s.admitCanvas a n y set lad else some a
        match a1 with
        | none => failOut s stNoCapacity
        | some a2 =>
          let a3 := if mix then a2 ++ [{ room := n, cls := 4, key := 0, yard := y, rate := charge }] else a2
          let r : Room := {
            inc, owner := p, template := i, gen := s.gen, tpl, home := y, homePin := dbits d 17 3 3 == 1
            prio := dbits d 18 3 0, prioPin := dbits d 18 4 4 == 1, logMib := log, createdTick := s.tick }
          let s1 := s.modObjs (fun o => { o with rooms := put o.rooms n r, roomInc := put o.roomInc n inc, adms := a3 })
          let s2 := if compose then (s1.modMedia (fun m => { m with canvases := put m.canvases n (s1.newCanvas a3 n set lad) })).clearRing n
            else s1
          let s3 := if mix then s2.modMedia (fun m => { m with mixes := put m.mixes n (s2.newMix prof 0) }) else s2
          okOut s3 (roomHandle n inc) (roomHandle n inc)

/-- Legs of a room that have a mix output (10 R425). -/
def State.mixOutputs (s : State) (room : Nat) : Nat :=
  ((s.legsOf room).filter (fun (i, _) => (s.streamsOf i).any (fun (_, x) => x.egress && x.outKind == 2))).length

/-- Charge of a room in its mix engine (10 R426). -/
def roomMixCharge (n reserved unique : Nat) : Nat := mixCharge n reserved + unique * 15 * (n + 4)

/-- Leaders of the decode targets of a room: the first stream of each simulcast group, and every other ingress video stream
(08 R340). -/
def State.targetKeys (s : State) (room : Nat) : List (Nat × List Nat) :=
  let vids := (s.streamsIn room).filter (fun (_, x) => !x.egress && x.video)
  vids.filterMap (fun (i, x) =>
    if x.layering = 2 then
      let grp := (vids.filter (fun (_, z) => z.leg == x.leg && z.layering == 2)).map (·.1)
      if grp.headD i = i then some (i, grp) else none
    else some (i, [i]))

/-- Admits each decode target of a room anew (08 R341). -/
def State.admitTargets (s : State) (room home : Nat) (q : Nat × Nat × Nat × Bool × Bool × Nat) :
    List (Nat × List Nat) → List Adm → Option (List Adm)
  | [], a => some a
  | (k, _) :: rest, a =>
    let (w, h, fps, d10, bf, dpb) := q
    (s.placeStall a (decodeAdm room k w h fps d10 bf dpb) home).bind (s.admitTargets room home q rest)

/-- A decode target as it is admitted. -/
def State.newTarget (s : State) (a : List Adm) (room tpl key : Nat) (streams : List Nat) : Target :=
  let (j, ds, dt, dsim) := s.decRec tpl
  let (w, h, fps, d10, bf, dpb) := s.decProfile j
  let x := (look s.objs.streams key).getD { inc := 0, leg := 0, room, owner := 0, body := [] }
  { room, owner := x.owner, leg := x.leg, streams, maxW := w, maxH := h, fps, d10, bframes := bf, dpb, decS := ds, decT := dt
    decSim := dsim, yard := (yardOfAdm a room 0 key).getD 0 }

/-- Thyme charges of every audio stream of a room that has a part in its mix (10 R422). -/
def State.roomCharges (s : State) (room prof : Nat) : List (Nat × Nat) :=
  (s.streamsIn room).flatMap (fun (i, x) =>
    if x.video then []
    else if x.egress then (if x.outKind = 2 then outCharges i x.codec (bits (s.audFld prof 1 1) 5 4) else [])
    else inCharges i x.codec (s.audFld prof 60 4))

/-- Every admission of a room under a template, in a home yard, the room's own taken out (01 R59). -/
def State.readmit (s : State) (room home tpl : Nat) : Option (List Adm) :=
  let a := s.objs.adms.filter (fun x => x.room != room)
  let tf (off : Nat) : Nat := tpfld s.gens.cur tpl off 1
  let compose := bit (tf 0) 3
  let mix := bit (tf 0) 4
  let a1 := if compose then s.admitTargets room home (s.decProfile (s.decRec tpl).1) (s.targetKeys room) a else some a
  let a2 := a1.bind (fun a => if compose then s.admitCanvas a room home (tf 4) (tf 5) else some a)
  a2.bind (fun a =>
    if mix then
      let n := s.audFld (tf 6) 0 1
      let res := min (s.mixOutputs room) (n + 1)
      let uniq := ((look s.media.mixes room).map (·.unique)).getD 0
      let charge := roomMixCharge n res uniq
      if s.mixFits a home charge (res + uniq) (s.outsUsed home room) then
        s.placeThymes room home (s.roomCharges room (tf 6) ++ insertCharges 0 res (s.audFld (tf 6) 64 4))
          (a ++ [{ room, cls := 4, key := 0, yard := home, rate := charge }])
      else none
    else some a)

/-- Moves a room's compose and mix admissions to another home yard. -/
def State.moveHome (s : State) (room y : Nat) : Option (List Adm) :=
  let own := s.objs.adms.filter (fun x => x.room == room)
  let a := s.objs.adms.filter (fun x => x.room != room || (x.cls != 2 && x.cls != 4))
  let m := (look s.media.mixes room)
  let ok2 := (own.filter (fun x => x.cls == 2)).all (fun x => s.composeFits a y x)
  let ok4 := (own.filter (fun x => x.cls == 4)).all (fun x =>
    s.mixFits a y x.rate ((m.map (fun q => q.reserved + q.unique)).getD 0) (s.outsUsed y room))
  if ok2 && ok4 then some (a ++ (own.filter (fun x => x.cls == 2 || x.cls == 4)).map (fun x => { x with yard := y })) else none

/-- The entries of a table that a test of their keys selects. -/
def keysOf {α : Type} (t : Tab α) (test : Nat → Bool) : Tab α := t.filter (fun kv => test kv.1)

/-- Adds the entries of another table; those that are there stay. -/
def keepIn {α : Type} (t new : Tab α) : Tab α := new.foldl (fun t kv => if has t kv.1 then t else put t kv.1 kv.2) t

/-- Entries that a boundary takes away or replaces stay for the operations that became ready before it (04 R170; 06 R241). -/
def Media.retire (m : Media) (at_ : Nat) (p : Past) : Media :=
  match m.past with
  | q :: rest =>
    if q.until_ = at_ then
      { m with past := { q with
        targets := keepIn q.targets p.targets, canvases := keepIn q.canvases p.canvases, mixes := keepIn q.mixes p.mixes
        jitter := keepIn q.jitter p.jitter, mixOuts := keepIn q.mixOuts p.mixOuts } :: rest }
    else { m with past := { p with until_ := at_ } :: m.past }
  | [] => { m with past := [{ p with until_ := at_ }] }

/-- The graph of a room is about to be taken away or replaced. -/
def State.retireRoom (s : State) (room : Nat) : State :=
  let mine (i : Nat) : Bool := ((look s.objs.streams i).map (fun x => x.room == room)).getD false
  s.modMedia (fun m => m.retire s.tickAt {
    targets := m.targets.filter (fun kv => kv.2.room == room), canvases := keysOf m.canvases (· == room)
    mixes := keysOf m.mixes (· == room), jitter := keysOf m.jitter mine, mixOuts := keysOf m.mixOuts mine })

/-- Every insert point of a room begins anew (11 R498). -/
def State.freshInserts (s : State) (room : Nat) : State :=
  let mine (k : Nat) : Bool := if k % 2 = 0 then ((look s.objs.streams (k / 2)).map (fun x => x.room == room)).getD false else k / 4096 == room
  s.modThyme (fun t => { t with
    instances := t.instances.filter (fun kv => !mine kv.1), blocks := t.blocks.filter (fun kv => !mine kv.1) })

/-- Instantiates the graph of a room under a template (06 R241; 01 R59). -/
def State.instantiate (s : State) (room tpl : Nat) (a : List Adm) : State :=
  let tf (off : Nat) : Nat := tpfld s.gens.cur tpl off 1
  let s := (s.retireRoom room).modObjs (fun o => { o with adms := a })
  let s := s.modRoom room (fun r => { r with template := tpl, gen := s.gen, tpl := tplBytes s.gens.cur tpl })
  let keys := s.targetKeys room
  let keep := s.media.targets.filter (fun kv => kv.2.room != room)
  let s := if bit (tf 0) 3 then
      (s.modMedia (fun m => { m with
        canvases := put m.canvases room (s.newCanvas a room (tf 4) (tf 5))
        targets := keys.foldl (fun t (k, grp) =>
          let n := s.newTarget a room tpl k grp
          put t k (match look s.media.targets k with
            | some old => { n with pics := old.pics, next := old.next, chains := old.chains, keyReq := old.keyReq
                                   member := old.member, unsupported := old.unsupported, hasConfirmed := old.hasConfirmed, everProduced := old.everProduced, needKey := old.needKey
                                   dueTicks := old.dueTicks }
            | none => n)) keep })).clearRing room
    else s.modMedia (fun m => { m with canvases := del m.canvases room, targets := keep })
  if bit (tf 0) 4 then
    let n := s.audFld (tf 6) 0 1
    let old := look s.media.mixes room
    let m := { s.newMix (tf 6) (min (s.mixOutputs room) (n + 1)) with unique := (old.map (·.unique)).getD 0 }
    let aud := (s.streamsIn room).filter (fun (_, x) => !x.video)
    let s := s.modMedia (fun x => { x with
      mixes := put x.mixes room m
      jitter := aud.foldl (fun t (i, z) => if z.egress ∨ has t i then t else put t i {}) x.jitter
      mixOuts := aud.foldl (fun t (i, z) => if z.egress ∧ z.outKind = 2 ∧ ¬has t i then put t i (s.newMixOut (tf 6)) else t) x.mixOuts })
    s.freshInserts room
  else
    let ids := (s.streamsIn room).map (·.1)
    (s.modMedia (fun x => { x with
      mixes := del x.mixes room, jitter := ids.foldl del x.jitter, mixOuts := ids.foldl del x.mixOuts })).freshInserts room

/-- ROOM_MODIFY (06 R241). -/
def applyRoomModify (d : Desc) (s : State) : Out :=
  match s.roomAt d.handle with
  | none => failOut s stStaleHandle
  | some (n, r) =>
    let mask := dbits d 19 3 0
    let tpl := dbits d 16 5 0
    let pin := dbits d 17 3 3 = 1
    let y := dbits d 17 2 0
    if dfld d 20 2 ≠ 0 ∨ (bit mask 0 ∧ tpValid s.gens.cur tpl = false) ∨ (bit mask 1 ∧ ¬pin ∧ y ≠ 0) ∨
        (bit mask 3 ∧ s.pinsOk (some n) (audioPins d) = false) then failOut s stBadParam
    else
      let home := if bit mask 1 ∧ pin then y else r.home
      let adms := if bit mask 0 then s.readmit n home tpl else if home = r.home then some s.objs.adms else s.moveHome n home
      match adms with
      | none => failOut s stNoCapacity
      | some a =>
        let s := s.modObjs (fun o => { o with adms := a })
        let s := s.modRoom n (fun r => { r with
          home
          homePin := if bit mask 1 then pin else r.homePin
          prio := if bit mask 2 then dbits d 18 3 0 else r.prio
          prioPin := if bit mask 2 then dbits d 18 4 4 == 1 else r.prioPin
          audioPin := if bit mask 3 then audioPins d else r.audioPin })
        okOut (if bit mask 0 then s.instantiate n tpl a else s)

/-! ### Deletes (06 R247, R251; 07 R313; 10 R436) -/

/-- Leaves a tombstone until the first boundary at or after QUARANTINE_MS from now; none when that is 0 (06 R251). -/
def State.tombstone (s : State) (kind handle owner ssrc yard : Nat) (tuple : Nat × Nat × Nat × Nat × Nat) : State :=
  let q := s.fld 6 0 4
  if q = 0 then s
  else s.modObjs (fun o => { o with
    tombs := o.tombs ++ [{ kind, handle, owner, tuple, ssrc, expiry := s.now + q * 1000 * us, yard }] })

/-- Takes a stream out of its decode target; the target and its admission end with its last stream (08 R341). -/
def State.leaveTarget (s : State) (i : Nat) : State :=
  match s.media.targets.find? (fun kv => kv.2.streams.contains i) with
  | none => s
  | some (k, t) =>
    let rest := t.streams.filter (· != i)
    if rest = [] then
      (s.modMedia (fun m => { (m.retire s.tickAt { targets := [(k, t)] }) with targets := del m.targets k })).modObjs (fun o => { o with
        adms := o.adms.filter (fun x => !(x.cls == 0 && x.room == t.room && x.key == k)) })
    else s.modMedia (fun m => { m with targets := adj m.targets k (fun t => { t with streams := rest }) })

/-- Takes a stream out of its room's mix: its charges end, its place fades and is then freed (10 R423, R436). -/
def State.leaveMix (s : State) (i : Nat) (x : Stream) : State :=
  let ramp := match look s.objs.rooms x.room with
    | some r => cdiv (s.audFld (r.tf 6 1) 7 1 * 2) 5
    | none => 0
  let s := s.modObjs (fun o => { o with
    adms := o.adms.filter (fun a => !(a.cls == 3 && a.room == x.room && a.key < 2 ^ 40 && a.key / 8 == i)) })
  s.modMedia (fun m => { (m.retire s.tickAt { jitter := keysOf m.jitter (· == i), mixOuts := keysOf m.mixOuts (· == i) }) with
    jitter := del m.jitter i, mixOuts := del m.mixOuts i
    mixes := adj m.mixes x.room (fun q => { q with
      active := q.active.filter (· != i), pinnedIn := q.pinnedIn.filter (· != i)
      fading := (q.places.filter (fun kv => kv.2 == i + 1)).foldl (fun f kv => put f kv.1 ramp) q.fading
      level := del q.level i, lastSpeak := del q.lastSpeak i, power := del q.power i, inMeter := del q.inMeter i, inComp := del q.inComp i }) })

/-- STREAM_DELETE of a live stream. -/
def State.deleteStream (s : State) (i : Nat) : State :=
  match look s.objs.streams i with
  | none => s
  | some x =>
    let h := streamHandle i x.inc
    let y := match look s.objs.legs x.leg with
      | some l => yardOf l.lport
      | none => 0
    let s := match look s.objs.legs x.leg with
      | some l => s.tombstone (if x.egress then 2 else 1) h x.owner x.ssrc y (legTuple s.gens.cur l)
      | none => s
    let s := if x.egress then (if x.outKind = 2 then s.leaveMix i x else s)
      else if x.video then s.leaveTarget i else s.leaveMix i x
    let s := s.modRoom x.room (fun r => { r with
      audioPin := r.audioPin.map (fun a => if a = h then 0 else a), audioSet := r.audioSet.filter (· != i) })
    let s := s.modThyme (fun t => { t with instances := t.instances.filter (fun kv => kv.1 != 2 * i), blocks := del t.blocks (2 * i) })
    s.modObjs (fun o => { o with streams := del o.streams i, logShed := del o.logShed i })

/-- Key of an overlay entry: host port, table (0 leg, 1 room), entry index (09 R385). -/
def ovlKey (host table index : Nat) : Nat := (2 * host + table) * 2 ^ 24 + index

/-- LEG_DELETE of a live leg: its streams, the frames in its queue, its tombstone. -/
def State.deleteLeg (s : State) (i : Nat) : State :=
  match look s.objs.legs i with
  | none => s
  | some l =>
    let s := forEach ((s.streamsOf i).map (·.1)) (fun k s => s.deleteStream k) s
    let s := (s.discardAll (s.legq i) (shCtr (yardOf l.lport) 32) (yardOf l.lport)).setLegq i []
    let s := s.tombstone 0 (legHandle i l.inc) l.owner 0 (yardOf l.lport) (legTuple s.gens.cur l)
    let s := s.modMedia (fun m => { m with overlays := [0, 1, 2, 3].foldl (fun t h => del t (ovlKey h 0 i)) m.overlays })
    s.modObjs (fun o => { o with legs := del o.legs i })

/-- In DRAIN, notes the tick at which the last room is gone (14 R582). -/
def State.noteDrained (s : State) : State :=
  if s.power.mode = .drain ∧ s.objs.rooms = [] ∧ s.power.drainEmpty = none then s.modPower (fun p => { p with drainEmpty := some s.tick }) else s

/-- A periodic request ends: a capture that is due or being written still is made (04 R174, R177). -/
def State.snapCancel (s : State) (p : Nat) (test : SnapReq → Bool) : State :=
  s.modHost p (fun h => { h with snaps := h.snaps.filterMap (fun q =>
    if test q ∧ q.period ≠ 0 then (if q.writing ∨ q.capture = 0 then some { q with cancelled := true } else none) else some q) })

/-- The periodic snapshots of a room that is deleted are cancelled (04 R177). -/
def State.snapRoomGone (s : State) (room : Nat) : State :=
  forEach [0, 1, 2, 3] (fun p s =>
    let hit (q : SnapReq) : Bool := q.room == room && q.period != 0 && !q.cancelled
    let s := forEach ((s.host p).snaps.filter hit) (fun q s => s.event 5 (q.cancelPayload 1) p) s
    s.snapCancel p hit) s

/-- ROOM_DELETE of a live room. -/
def State.deleteRoom (s : State) (i : Nat) : State :=
  match look s.objs.rooms i with
  | none => s
  | some r =>
    let s := (s.snapRoomGone (roomHandle i r.inc)).retireRoom i
    let s := forEach ((s.legsOf i).map (·.1)) (fun k s => s.deleteLeg k) s
    let s := s.modMedia (fun m => { m with
      canvases := del m.canvases i, mixes := del m.mixes i, targets := m.targets.filter (fun kv => kv.2.room != i) })
    let s := s.freshInserts i
    let s := s.modMedia (fun m => { m with
      overlays := [0, 1, 2, 3].foldl (fun t h => [0, 1, 2, 3].foldl (fun t j => del t (ovlKey h 1 (4 * i + j))) t) m.overlays })
    (s.modObjs (fun o => { o with rooms := del o.rooms i, adms := o.adms.filter (fun a => a.room != i) })).noteDrained

/-- ROOM_DELETE (06 R247). -/
def applyRoomDelete (d : Desc) (s : State) : Out :=
  match s.roomAt d.handle with
  | none => failOut s stStaleHandle
  | some (i, _) => okOut (s.deleteRoom i) 0 d.handle

/-- LEG_DELETE (06 R247; 07 R313). -/
def applyLegDelete (d : Desc) (s : State) : Out :=
  match s.legAt d.handle with
  | none => failOut s stStaleHandle
  | some (i, _) => okOut (s.deleteLeg i) 0 d.handle

/-- STREAM_DELETE (06 R247). -/
def applyStreamDelete (d : Desc) (s : State) : Out :=
  match s.streamAt d.handle with
  | none => failOut s stStaleHandle
  | some (i, _) => okOut (s.deleteStream i) 0 d.handle

/-! ### Legs -/

/-- The addressing a leg body gives, written into a leg (06 R239, R242). -/
def Leg.address (l : Leg) (d : Desc) : Leg :=
  let v6 := bit (dfld d 17 1) 0
  { l with
    lport := dbits d 16 5 0, ipv6 := v6, localIdx := dbits d 17 3 2, localUdp := dfld d 20 2, remoteUdp := dfld d 22 2
    remoteIp := ipKey v6 (be d.body 8 (if v6 then 16 else 4)), nextHop := be d.body 24 6 }

/-- Classes, shaper, rate pin and feedback of a body. -/
def Leg.classes (l : Leg) (d : Desc) : Leg :=
  { l with videoClass := dbits d 18 2 0, audioClass := dbits d 18 5 3, rtcpClass := dbits d 19 2 0 }
def Leg.shape (l : Leg) (d : Desc) : Leg := { l with shapeKbps := dfld d 48 4, shapeBurst := dfld d 52 4 }
def Leg.rate (l : Leg) (d : Desc) : Leg := { l with pinRate := dfld d 56 4 }
def Leg.feedback (l : Leg) (d : Desc) : Leg := { l with fbMode := dbits d 17 5 4, puntRtcp := bit (dfld d 17 1) 1 }

/-- Is the addressing of a body one that R239 and R243 accept? -/
def State.addressOk (s : State) (d : Desc) : Bool :=
  let v6 := bit (dfld d 17 1) 0
  let l := dbits d 16 5 0
  provides s.gens.cur l && (ipAt s.gens.cur l v6 (dbits d 17 3 2)).isSome && (v6 || dzero d 28 40) &&
    dfld d 20 2 != 0 && dfld d 22 2 != 0

/-- Are the shaper and the rate pin of a body in range? -/
def shapeOk (d : Desc) : Bool := decide (8 ≤ dfld d 48 4 ∧ dfld d 48 4 ≤ 400000000 ∧ dfld d 52 4 ≤ 16777216)
def pinOk (d : Desc) : Bool := dfld d 56 4 == 0 || decide (8 ≤ dfld d 56 4 ∧ dfld d 56 4 ≤ 400000000)

/-- Does another live leg have the 5-tuple (06 R238)? -/
def State.tupleTaken (s : State) (t : Nat × Nat × Nat × Nat × Nat) (except : Option Nat) : Bool :=
  s.objs.legs.any (fun (i, l) => decide (some i ≠ except) && legTuple s.gens.cur l == t)

/-- Leg shapers in use in a yard (07 R301). -/
def State.shapersIn (s : State) (y : Nat) : Nat := (s.objs.legs.filter (fun kv => yardOf kv.2.lport == y)).length

/-- E of a leg without reports: the pin, EST_MAX under FB_MODE 2, else EST_MIN (06 R266, R267). -/
def State.estStart (s : State) (l : Leg) : Nat :=
  if l.pinRate ≠ 0 then l.pinRate else if l.fbMode = 2 then s.fld 6 12 4 else s.fld 6 8 4

/-- LEG_CREATE (06 R242, R243; 07 R301, R310; 12 R524). -/
def applyLegCreate (p : Nat) (d : Desc) (s : State) : Out :=
  match s.roomAt d.handle with
  | none => failOut s stStaleHandle
  | some (room, _) =>
    let l0 : Leg := { inc := 0, room, owner := p, lport := 0 }
    let l := ((((l0.address d).classes d).shape d).rate d).feedback d
    if dbits d 46 4 0 ≠ 0 ∨ s.addressOk d = false ∨ l.fbMode = 3 ∨ shapeOk d = false ∨ pinOk d = false ∨
        s.tupleTaken (legTuple s.gens.cur l) none then failOut s stBadParam
    else
      match s.newIndex 2 s.objs.legs s.objs.legInc 0 1048576 with
      | none => failOut s stNoCapacity
      | some (i, inc) =>
        if 262144 ≤ s.shapersIn (yardOf l.lport) then failOut s stNoCapacity
        else
          let (n, s) := s.draw 65536
          let (k, s) := s.draw 65537
          let l := { l with
            inc, creditAt := s.now, est := s.estStart l, twccCounter := n, rtcpAt := s.now, rtcpFrac := k, fbAt := s.now }
          okOut (s.modObjs (fun o => { o with legs := put o.legs i l, legInc := put o.legInc i inc })) (legHandle i inc) (legHandle i inc)

/-- Puts a leg's queued frames where its class and port now have them: its leg queue, or the tail of the direct queue of its class
when that is not a media class (07 R301, R313). -/
def State.requeue (s : State) (i : Nat) : State :=
  match look s.objs.legs i with
  | some l =>
    if s.media_ l.lport l.videoClass then s
    else (s.setDirect l.lport l.videoClass (s.direct l.lport l.videoClass ++ s.legq i)).setLegq i []
  | none => s

/-- An estimate that is not pinned keeps within its bounds, also from the tick at which its pin is released (01 R67, R68). -/
def Leg.bounded (l : Leg) (lo hi : Nat) : Leg :=
  if l.est < lo then { l with est := lo, estFrac := 0 } else if hi < l.est + b2n (l.estFrac != 0) then { l with est := hi, estFrac := 0 } else l

/-- LEG_MODIFY (06 R243; 07 R301, R308, R313). -/
def applyLegModify (d : Desc) (s : State) : Out :=
  match s.legAt d.handle with
  | none => failOut s stStaleHandle
  | some (i, old) =>
    let m := dbits d 46 4 0
    let l := if bit m 0 then old.address d else old
    let l := if bit m 1 then l.classes d else l
    let l := if bit m 2 then l.shape d else l
    let l := if bit m 3 then l.rate d else l
    let l := if bit m 4 then l.feedback d else l
    let t0 := legTuple s.gens.cur old
    let t1 := legTuple s.gens.cur l
    if (bit m 0 ∧ s.addressOk d = false) ∨ l.fbMode = 3 ∨ (bit m 2 ∧ shapeOk d = false) ∨ (bit m 3 ∧ pinOk d = false) ∨
        (bit m 0 ∧ s.tupleTaken t1 (some i)) then failOut s stBadParam
    else if yardOf l.lport ≠ yardOf old.lport ∧ 262144 ≤ s.shapersIn (yardOf l.lport) then failOut s stNoCapacity
    else
      let s := s.legSettle i
      let credit := ((look s.objs.legs i).map (·.credit)).getD 0
      let s := if t0 ≠ t1 then s.tombstone 0 d.handle old.owner 0 (yardOf old.lport) t0 else s
      let l : Leg := { l with credit := min credit ((l.shapeBurst * 65536 : Nat) : Int), creditAt := s.now }
      let l : Leg := if l.pinRate ≠ 0 ∨ l.fbMode = 2 then { l with est := s.estStart l, estFrac := 0 } else l.bounded (s.fld 6 8 4) (s.fld 6 12 4)
      okOut ((s.modLeg i (fun _ => l)).requeue i)

/-! ### Streams -/

/-- The body of a stream command with its MASK cleared, as the stream stores it. -/
def streamBody (d : Desc) : Bytes :=
  let b := padTo 48 d.body
  b.take 25 ++ [0] ++ b.drop 26

/-- Are codec, layering and the fields that do not apply as R244-R246 demand, apart from what other objects decide? -/
def Stream.formOk (x : Stream) : Bool :=
  let eg := x.egress
  let codecOk := [1, 2, 3, 4, 8, 9, 0x0A].contains x.codec
  let layered := eg && x.video && decide (x.outKind ≤ 1)
  let ridLen := bits (x.f 42 1) 4 0
  codecOk && decide (x.layering ≤ 2) && decide (x.simIndex ≤ 2) && x.video == decide (8 ≤ x.codec) &&
    (eg || x.video || x.layering == 0) &&
    decide (8000 ≤ x.clock ∧ x.clock ≤ 90000) &&
    (eg || x.f 20 4 != 0 || ridLen != 0) &&
    decide (ridLen ≤ 16) && zeroIn x.body (27 + ridLen) 43 &&
    [0, 1, 2, 3, 4].all (fun k => decide (x.ext k ≤ 14)) &&
    ((eg && x.outKind == 0) || x.source == 0) &&
    (eg || (x.outKind == 0 && x.index == 0)) &&
    (layered || (x.f 34 1 == 0 && x.f 35 1 == 0)) &&
    (!eg || (x.histClass == 0 && ridLen == 0 && zeroIn x.body 27 43)) &&
    decide (x.maxS ≤ 2 ∧ x.maxT ≤ 2 ∧ x.pinS ≤ 2 ∧ x.pinT ≤ 2) &&
    (!eg ||
      (match x.outKind with
       | 0 => x.index == 0
       | 1 => x.video && decide (x.index ≤ 7)
       | 2 => !x.video && x.index == 0
       | _ => !x.video && decide (x.index ≤ 15)))

/-- Are the extension IDs of a leg's streams used consistently (06 R245)? -/
def idsOk (l : List Stream) : Bool :=
  let pairs := l.flatMap (fun x => [0, 1, 2, 3, 4].filterMap (fun k => if x.ext k = 0 then none else some (k, x.ext k)))
  pairs.all (fun (k, v) => pairs.all (fun (k2, v2) => (k == k2) == (v == v2)))

/-- Do the other streams of the leg and the room allow the stream (06 R245, R246; 10 R421)? `self` is its index in a modify, `out`
whether what the stream carries is judged. -/
def State.streamOk (s : State) (x : Stream) (self : Option Nat) (r : Room) (out : Bool := true) : Bool :=
  let others := (s.streamsOf x.leg).filter (fun kv => decide (some kv.1 ≠ self))
  let ing := others.filter (fun kv => !kv.2.egress)
  let ssrc := x.f 20 4
  let mixAudio := r.has 4 && !x.video && (!x.egress || x.outKind == 2)
  idsOk (x :: others.map (·.2)) &&
    (x.egress ||
      (ing.all (fun (_, z) => (ssrc == 0 || z.ssrc != ssrc) && (x.rid == [] || z.rid != x.rid)) &&
        (x.layering != 2 || ing.all (fun (_, z) => z.layering != 2 || z.simIndex != x.simIndex)))) &&
    (!x.egress || !out ||
      (match x.outKind with
       | 0 =>
         r.has (if x.video then 1 else 2) &&
           (match s.streamAt x.source with
            | some (_, z) => !z.egress && z.room == x.room && z.video == x.video && z.leg != x.leg
            | none => false)
       | 1 => r.has 3 && decide (x.index < s.rungs (r.tf 5 1))
       | 2 => r.has 4
       | _ => r.has 2 && decide (x.index < r.tf 7 1))) &&
    (!mixAudio ||
      (x.clock == (if x.codec = 1 then 48000 else 8000) &&
        others.all (fun (_, z) => z.video || (if x.egress then !(z.egress && z.outKind == 2) else z.egress))))

/-- Admits what a stream adds to its room: a decode target, a mix source or a mix output (08 R341; 10 R423-R426). -/
def State.admitStream (s : State) (i : Nat) (x : Stream) (r : Room) : Option (List Adm) :=
  let a := s.objs.adms
  if x.egress then
    if x.outKind = 2 ∧ r.has 4 then
      match look s.media.mixes x.room with
      | none => none
      | some m =>
        let res := max m.reserved (min (s.mixOutputs x.room + 1) (m.mixN + 1))
        let b := a.filter (fun q => !(q.room == x.room && q.cls == 4))
        let charge := roomMixCharge m.mixN res m.unique
        if res = m.reserved ∨ s.mixFits b r.home charge (res + m.unique) (s.outsUsed r.home x.room) then
          s.placeThymes x.room r.home (outCharges i x.codec m.opusBw ++ insertCharges m.reserved res m.outBudget)
            (b ++ [{ room := x.room, cls := 4, key := 0, yard := r.home, rate := charge }])
        else none
    else some a
  else if x.video then
    if r.has 3 then
      let grp := s.media.targets.any (fun kv => kv.2.leg == x.leg && x.layering == 2 &&
        kv.2.streams.any (fun k => match look s.objs.streams k with
          | some z => z.layering == 2
          | none => false))
      if grp then some a
      else
        let (w, h, fps, d10, bf, dpb) := s.decProfile (s.decRec r.template).1
        s.placeStall a (decodeAdm x.room i w h fps d10 bf dpb) r.home
    else some a
  else if r.has 4 then
    match look s.media.mixes x.room with
    | none => none
    | some m => s.placeThymes x.room r.home (inCharges i x.codec m.inBudget) a
  else some a

/-- Enters an admitted stream into its target or mix, or its rung's requests (08 R340; 09 R396; 10 R425). -/
def State.joinUnits (s : State) (i : Nat) (x : Stream) (r : Room) : State :=
  if x.egress then
    if x.outKind = 2 ∧ r.has 4 then
      s.modMedia (fun m => { m with
        mixOuts := put m.mixOuts i (s.newMixOut (r.tf 6 1))
        mixes := adj m.mixes x.room (fun q => { q with reserved := max q.reserved (min (s.mixOutputs x.room) (q.mixN + 1)) }) })
    else if x.outKind = 1 ∧ r.has 3 then
      let alone := !(s.streamsIn x.room).any (fun (k, z) => k != i && z.egress && z.outKind == 1 && z.index == x.index)
      s.modMedia (fun m => { m with canvases := adj m.canvases x.room (fun c => { c with
        rungs := (List.range c.rungs.length).filterMap (fun k => (c.rungs[k]?).map (fun g =>
          if k = x.index then { g with requests := g.requests + 1, wantKey := g.wantKey || alone, debt := if alone then 0 else g.debt }
          else g)) }) })
    else s
  else if x.video ∧ r.has 3 then
    match s.media.targets.find? (fun kv => kv.2.leg == x.leg && x.layering == 2 &&
        kv.2.streams.any (fun k => match look s.objs.streams k with
          | some z => z.layering == 2
          | none => false)) with
    | some (k, _) => s.modMedia (fun m => { m with targets := adj m.targets k (fun t => { t with streams := t.streams ++ [i] }) })
    | none => s.modMedia (fun m => { m with targets := put m.targets i (s.newTarget s.objs.adms x.room r.template i [i]) })
  else if x.video = false ∧ r.has 4 then s.modMedia (fun m => { m with jitter := put m.jitter i {} })
  else s

/-- STREAM_CREATE (06 R244-R246). -/
def applyStreamCreate (p : Nat) (d : Desc) (s : State) : Out :=
  match s.legAt d.handle with
  | none => failOut s stStaleHandle
  | some (leg, l) =>
    match look s.objs.rooms l.room with
    | none => failOut s stStaleHandle
    | some r =>
      let x : Stream := { inc := 0, leg, room := l.room, owner := p, body := streamBody d, ssrc := dfld d 20 4, createdTick := s.tick }
      if dbits d 41 4 0 ≠ 0 ∨ x.formOk = false ∨ s.streamOk x none r = false then failOut s stBadParam
      else if 32 ≤ (s.streamsOf leg).length then failOut s stNoCapacity
      else
        let base := if x.egress then 2097152 else 0
        match s.newIndex 3 s.objs.streams s.objs.streamInc base (base + 2097152) with
        | none => failOut s stNoCapacity
        | some (i, inc) =>
          match s.admitStream i x r with
          | none => failOut s stNoCapacity
          | some a =>
            let s := s.modObjs (fun o => { o with
              adms := a, streams := put o.streams i { x with inc }, streamInc := put o.streamInc i inc })
            okOut (s.joinUnits i x r) (streamHandle i inc) (streamHandle i inc)

/-- Does a modify keep every field it may not change or does not select (06 R245)? -/
def streamKeeps (old new : Stream) (mask : Nat) : Bool :=
  let same (lo hi : Nat) : Bool := (List.range (hi - lo)).all (fun k => old.f (lo + k) 1 == new.f (lo + k) 1)
  bits (old.f 16 1) 1 0 == bits (new.f 16 1) 1 0 && same 17 28 && same 42 59 &&
    (bit mask 3 || old.f 16 1 == new.f 16 1) && (bit mask 0 || same 28 34) && (bit mask 1 || same 34 36) && (bit mask 2 || same 36 41)

/-- STREAM_MODIFY (06 R245). -/
def applyStreamModify (d : Desc) (s : State) : Out :=
  match s.streamAt d.handle with
  | none => failOut s stStaleHandle
  | some (i, old) =>
    match look s.objs.rooms old.room with
    | none => failOut s stStaleHandle
    | some r =>
      let x := { old with body := streamBody d }
      if streamKeeps old x (dbits d 41 4 0) = false ∨ x.formOk = false ∨ s.streamOk x (some i) r (bit (dfld d 41 1) 0) = false then failOut s stBadParam
      else
        let moved := old.outKind ≠ x.outKind
        let s0 := if moved ∧ old.outKind = 2 then s.leaveMix i old else s
        let s1 := s0.modStream i (fun z => { z with body := x.body })
        match (if moved then (s0.modObjs (fun o => { o with streams := del o.streams i })).admitStream i x r else some s0.objs.adms) with
        | none => failOut s stNoCapacity
        | some a =>
          let s2 := s1.modObjs (fun o => { o with adms := a })
          okOut (if moved ∨ old.index ≠ x.index then s2.joinUnits i x r else s2)

/-! ### Keys (06 R253-R258, R260) -/

/-- Length of a blob by SUITE and WRAPPED; 0 for an undefined suite (06 R255). -/
def blobLen (suite : Nat) (wrapped : Bool) : Nat :=
  match suite with
  | 1 => if wrapped then 40 else 32
  | 2 => if wrapped then 40 else 32
  | 3 => if wrapped then 56 else 48
  | _ => 0

/-- Bytes of master key and salt in a clear blob (06 R253). -/
def keyLen (suite : Nat) : Nat := match suite with
  | 1 => 30
  | 2 => 28
  | _ => 44

/-- VALID of a port's key-encryption key (06 R256). -/
def HostPort.kekValid (h : HostPort) : Bool := (List.range 8).all (fun w => h.kekSeen.contains w)

/-- The key-encryption key as a number, byte 0 least significant. -/
def HostPort.kekValue (h : HostPort) : Nat := leNat ((List.range 8).flatMap (fun w => leBytes 4 (lookD h.kek w 0#32).toNat))

/-- Sets the rollover counter of a stream: the upper 32 bits of its newest extended number (06 R254, R261). -/
def Stream.setRoc (x : Stream) (roc : Nat) : Stream :=
  if x.egress then
    let last := roc * 65536 + x.lastOut % 65536
    { x with
      roc, off := x.off.map (fun o => o + ((last : Int) - x.lastOut)), lastOut := last
      shown := if x.shown.ts.isSome then { x.shown with out := roc * 65536 + x.shown.out % 65536 } else x.shown }
  else { x with roc, extSeq := x.extSeq.map (fun h => roc * 65536 + h % 65536) }

/-- What a key install does to the numbering: the ROC it sets; a context that ran out of indices begins again under its new key
(06 R254, R260; notes/assumptions/30.md). -/
def Stream.renew (x : Stream) (roc : Option Nat) : Stream :=
  let y := { x with exhausted := false, srtcpIndex := x.srtcpIndex % 2 ^ 31 }
  match roc with
  | some r => y.setRoc r
  | none => if x.exhausted ∧ x.srtcpIndex < 2 ^ 31 then { y with off := x.off.map (· - 2 ^ 48), lastOut := 0 } else y

/-- The same for the numbers of a mix output. -/
def State.renewMix (s : State) (i : Nat) (x : Stream) (roc : Option Nat) : State :=
  s.modMedia (fun m => { m with mixOuts := adj m.mixOuts i (fun o => { o with
    seq := match roc with
      | some r => r * 65536 + o.seq % 65536
      | none => if x.exhausted ∧ x.srtcpIndex < 2 ^ 31 then o.seq % 2 ^ 48 else o.seq }) })

/-- KEY_INSTALL, with its blob (06 R254-R258); RESULT is the bytes moved (02 R93). -/
def applyKeyInstall (p : Nat) (d : Desc) (blob : Bytes) (s : State) : Out :=
  match s.streamAt d.handle with
  | none => failOut s stStaleHandle
  | some (i, x) =>
    let suite := dfld d 24 1
    let wrapped := bit (dfld d 25 1) 0
    let overlap := dfld d 26 2
    if suite = 0 ∨ 3 < suite ∨ d.length ≠ blobLen suite wrapped ∨ 10000 < overlap ∨ (x.egress ∧ overlap ≠ 0) then failOut s stBadParam
    else
      let h := s.host p
      let clear := if wrapped then (if h.kekValid then keyUnwrap h.kekValue blob else none) else some blob
      match clear with
      | none => failOut s stKeyError
      | some b =>
        let k : SrtpKey := { suite, key := b.take (keyLen suite) }
        let roc := if bit (dfld d 25 1) 1 then some (dfld d 28 4) else none
        okOut ((s.renewMix i x roc).modStream i (fun y =>
          let z := y.renew roc
          { z with
            key := some k
            oldKey := match z.key with
              | some o => if overlap = 0 then none else some (o, s.now + overlap * 1000 * us)
              | none => none })) d.length

/-- KEY_OVERLAP_END: from the end of the overlap only the new key is used (06 R258). -/
def keyOverlapEnd (i : Nat) (s : State) : State :=
  s.modStream i (fun z =>
    match z.oldKey with
    | some (_, e) => if e ≤ s.now then { z with oldKey := none } else z
    | none => z)

/-- FW_KEK_WRITE: only port Hn's writes to its own words, outside RUN; word 0 clears VALID (06 R256). -/
def kekWrite (p n w value : Nat) (s : State) : State :=
  if s.barOpen p ∧ n = p ∧ w < 8 ∧ s.running p = false then
    s.modHost p (fun h => { h with
      kek := put h.kek w (BitVec.ofNat 32 value)
      kekSeen := if w = 0 then [0] else if h.kekSeen.contains 0 ∧ h.kekSeen.contains w = false then w :: h.kekSeen else h.kekSeen })
  else s

/-! ### Tombstones (06 R251) -/

/-- TOMBSTONE_EXPIRY: at the boundary, each tombstone whose time has come ends. -/
def tombstoneExpiry (s : State) : State :=
  let due := s.objs.tombs.filter (fun t => decide (t.expiry ≤ s.tickAt))
  let s := s.modObjs (fun o => { o with tombs := o.tombs.filter (fun t => decide (s.tickAt < t.expiry)) })
  forEach due (fun t s => s.event (yardSrc t.yard 9) (t.handle + satU 32 t.drops * 2 ^ 32) t.owner) s

/-! ### Orphan grace (02 R104) -/

/-- Deletes the rooms whose grace had ended, at a boundary since, when their port entered RUN again. -/
def State.deleteDoomed (s : State) (p : Nat) : State :=
  let due := (s.host p).doomed.filter (fun x => decide (x.1 ≤ s.tickAt))
  let s := s.modHost p (fun h => { h with doomed := h.doomed.filter (fun x => decide (s.tickAt < x.1)) })
  forEach due (fun x s => match s.roomAt x.2 with
    | some (i, _) => s.deleteRoom i
    | none => s) s

/-- ORPHAN_GRACE_EXPIRY: the port's rooms are deleted at the boundary at or after the end of the grace, without completions. In
KEEP the deletion waits for the exit (14 R584). -/
def orphanExpiry (p : Nat) (s : State) : State :=
  if 4 ≤ p ∨ s.power.mode = .keep then s
  else
    let s := s.deleteDoomed p
    match (s.host p).grace with
    | some e =>
      if e ≤ s.tickAt then
        let s := s.modHost p (fun h => { h with grace := none, discarded := [] })
        forEach ((s.roomsOf p).map (·.1)) (fun i s => s.deleteRoom i) s
      else s
    | none => s

/-! ### The commands of this file -/

/-- ROOM_CREATE: the bridge fetches the descriptor (06 R240). -/
def execRoomCreate (t p r : Nat) (d : Desc) (s : State) : Host.Outcome State Fault Refusal := .next (fetchTick 0x01 p r d (s.at t))

/-- ROOM_MODIFY (06 R241). -/
def execRoomModify (t p r : Nat) (d : Desc) (s : State) : Host.Outcome State Fault Refusal := .next (fetchTick 0x02 p r d (s.at t))

/-- ROOM_DELETE (06 R247). -/
def execRoomDelete (t p r : Nat) (d : Desc) (s : State) : Host.Outcome State Fault Refusal := .next (fetchTick 0x03 p r d (s.at t))

/-- LEG_CREATE (06 R242). -/
def execLegCreate (t p r : Nat) (d : Desc) (s : State) : Host.Outcome State Fault Refusal := .next (fetchTick 0x04 p r d (s.at t))

/-- LEG_MODIFY (06 R243). -/
def execLegModify (t p r : Nat) (d : Desc) (s : State) : Host.Outcome State Fault Refusal := .next (fetchTick 0x05 p r d (s.at t))

/-- LEG_DELETE (06 R247). -/
def execLegDelete (t p r : Nat) (d : Desc) (s : State) : Host.Outcome State Fault Refusal := .next (fetchTick 0x06 p r d (s.at t))

/-- STREAM_CREATE (06 R244). -/
def execStreamCreate (t p r : Nat) (d : Desc) (s : State) : Host.Outcome State Fault Refusal :=
  .next (fetchTick 0x07 p r d (s.at t))

/-- STREAM_MODIFY (06 R245). -/
def execStreamModify (t p r : Nat) (d : Desc) (s : State) : Host.Outcome State Fault Refusal :=
  .next (fetchTick 0x08 p r d (s.at t))

/-- STREAM_DELETE (06 R247). -/
def execStreamDelete (t p r : Nat) (d : Desc) (s : State) : Host.Outcome State Fault Refusal :=
  .next (fetchTick 0x09 p r d (s.at t))

/-- KEY_INSTALL: the bridge fetches the descriptor and reads its blob (06 R254). -/
def fetchKeyInstall (p r : Nat) (d : Desc) (s : State) : State :=
  fetchDesc 0x0D p r d (fun seq s => (s.await p r 0x0D seq d none).startDma p r seq .command) s
    (fun seq s => s.startDma p r seq .command)

/-- KEY_INSTALL (06 R254). -/
def execKeyInstall (t p r : Nat) (d : Desc) (s : State) : Host.Outcome State Fault Refusal := .next (fetchKeyInstall p r d (s.at t))

/-- FW_KEK_WRITE (06 R256). -/
def execFwKekWrite (t p n w value : Nat) (s : State) : Host.Outcome State Fault Refusal := .next (kekWrite p n w value (s.at t))

/-- KEY_OVERLAP_END (06 R258). -/
def execKeyOverlapEnd (t stream : Nat) (s : State) : Host.Outcome State Fault Refusal := .next (keyOverlapEnd stream (s.at t))

/-- TOMBSTONE_EXPIRY (06 R251). -/
def execTombstoneExpiry (t : Nat) (s : State) : Host.Outcome State Fault Refusal := .next (tombstoneExpiry (s.at t))

/-- ORPHAN_GRACE_EXPIRY (02 R104). -/
def execOrphanGraceExpiry (t p : Nat) (s : State) : Host.Outcome State Fault Refusal := .next (orphanExpiry p (s.at t))

end Sys2Proof.Machine
end

