-- ==== Sys2Proof/Machine/Legs.lean ====
section
/-! DEFINITION. What the pipeline sends on a leg by itself: RTCP and key requests (06 R276-R278), and the media log
(06 R282-R287). -/
namespace Sys2Proof.Machine

/-! ### Frames of a leg -/

/-- Bytes of a frame that carries n bytes of UDP payload on a leg, FCS included, without tag and padding (05 R206, R215): Ethernet, IP
and UDP headers. -/
def Leg.bareLen (l : Leg) (n : Nat) : Nat := 14 + (if l.ipv6 then 40 else 20) + 8 + n + 4

/-- UDP payload bytes of a frame of a leg (06 R268). -/
def QFrame.udpBytes (f : QFrame) : Nat := if f.leg = 0 then 0 else f.bare - (26 + if f.v6 then 40 else 20)

/-- Bytes a leg was sent by tick: (tick, audio and RTCP bytes, rung bytes, all bytes), newest first. -/
def addSent (l : List (Nat × Nat × Nat × Nat)) (tick a g b : Nat) : List (Nat × Nat × Nat × Nat) :=
  match l with
  | (k, x, y, z) :: rest =>
    if k = tick then (k, x + a, y + g, z + b) :: rest else (tick, a, g, b) :: l.filter (fun r => decide (tick ≤ r.1 + 200))
  | [] => [(tick, a, g, b)]

/-- Records what a leg is sent in this tick (06 R268; 07 R315): audio, RTCP and rung bytes apart.  A frame whose source is pending is
recorded when the source is confirmed (04 R184). -/
def State.noteSent (s : State) (f : QFrame) : State :=
  match f.leg with
  | 0 => s
  | i + 1 =>
    let n := f.udpBytes
    let video := f.kind ≠ 2 ∧ ((look s.objs.streams (f.stream - 1)).map (·.video)).getD false
    let rung := f.kind = 5 ∨ ((look s.objs.streams (f.stream - 1)).map (fun z => z.video && z.outKind == 1)).getD false
    s.modLeg i (fun l => { l with sent := addSent l.sent s.tick (if video then 0 else n) (if rung then n else 0) n })

/-- Length of an authentication tag (06 R253). -/
def tagLen (k : Option SrtpKey) : Nat :=
  match k with
  | none => 0
  | some k => if k.suite = 1 then 10 else 16

/-- Yard of a leg. -/
def State.legYard (s : State) (i : Nat) : Nat := ((look s.objs.legs i).map (fun l => yardOf l.lport)).getD 0

/-- Stream of a leg whose SRTCP context protects what the bridge sends: the first egress stream with a key, else the first
stream with one (notes/assumptions/15.md). -/
def State.rtcpCtx (s : State) (leg : Nat) : Option (Nat × Stream) :=
  match (s.streamsOf leg).find? (fun kv => kv.2.egress && kv.2.key.isSome) with
  | some x => some x
  | none => (s.streamsOf leg).find? (fun kv => kv.2.key.isSome)

/-- SSRC under which the bridge sends RTCP on a leg: that of its first egress stream; a free value when it has none. -/
def State.rtcpSsrc (s : State) (leg : Nat) : Nat × State :=
  match (s.streamsOf leg).find? (fun kv => kv.2.egress) with
  | some (_, x) => (x.ssrc, s)
  | none => s.draw (2 ^ 32)

/-- A context that has run out of indices stops sending and says so (06 R260). -/
def State.exhaust (s : State) (i : Nat) : State :=
  match look s.objs.streams i with
  | some x =>
    if x.exhausted then s
    else (s.modStream i (fun z => { z with exhausted := true })).event (yardSrc (s.legYard x.leg) 10) (streamHandle i x.inc) x.owner
  | none => s

/-- Sends an RTCP packet on a leg, in its RTCP class, protected under its context (06 R253, R260, R276). -/
def State.sendRtcp (s : State) (leg : Nat) (b : Bytes) : State :=
  match look s.objs.legs leg with
  | none => s
  | some l =>
    match s.rtcpCtx leg with
    | none => s.enqueue l.lport l.rtcpClass { bare := l.bareLen b.length, enter := s.now, leg := leg + 1, kind := 2, data := b }
    | some (i, x) =>
      if x.exhausted then s
      else if 2 ^ 31 ≤ x.srtcpIndex then s.exhaust i
      else
        let k := (x.key.map (·.key)).getD []
        let suite := (x.key.map (·.suite)).getD 0
        let f : QFrame := {
          bare := l.bareLen (b.length + 4 + tagLen x.key), enter := s.now, leg := leg + 1, kind := 2
          data := srtcpSeal suite k x.srtcpIndex b }
        (s.modStream i (fun z => { z with srtcpIndex := z.srtcpIndex + 1 })).enqueue l.lport l.rtcpClass f

/-- Header of an RTCP packet: count or format, packet type, length in words less one (RFC 3550, RFC 4585). -/
def rtcpHead (fmt pt words : Nat) : Bytes := beBytes 1 (128 + fmt) ++ beBytes 1 pt ++ beBytes 2 words

/-! ### Key requests (06 R277; 04 R198) -/

/-- Requests a key picture from an ingress stream: at most one per source per PLI_MIN_MS, merged; FIR when the last FIR that its leg
received came from it, PLI otherwise, or as `fir` forces. -/
def State.requestKey (s : State) (i : Nat) (fir : Option Bool := none) : State :=
  match look s.objs.streams i with
  | none => s
  | some x =>
    let early : Bool := match x.pliAt with
      | some t => decide (s.now < t + s.fld 6 20 2 * 1000 * us)
      | none => false
    if early then s
    else
      let useFir := fir.getD (((look s.objs.legs x.leg).map (fun l => l.lastFir == some x.ssrc)).getD false)
      let (own, s) := s.rtcpSsrc x.leg
      let s := s.modStream i (fun z => { z with pliAt := some s.now, firSeq := if useFir then (z.firSeq + 1) % 256 else z.firSeq })
      let y := s.legYard x.leg
      if useFir then
        (s.bump (fwCtr y 160)).sendRtcp x.leg (rtcpHead 4 206 4 ++ beBytes 4 own ++ beBytes 4 0 ++ beBytes 4 x.ssrc ++
          beBytes 1 ((x.firSeq + 1) % 256) ++ zeros 3)
      else
        (s.bump (fwCtr y 152)).sendRtcp x.leg (rtcpHead 1 206 2 ++ beBytes 4 own ++ beBytes 4 x.ssrc)

/-! ### NACKs the bridge sends (06 R278) -/

/-- Feedback control words of a generic NACK: packet number and bit mask of the 16 that follow (RFC 4585). -/
def nackWords : List Nat → List (Nat × Nat) → List (Nat × Nat)
  | [], acc => acc
  | n :: rest, acc =>
    match acc.getLast? with
    | some (p, m) => if p < n ∧ n ≤ p + 16 then nackWords rest (acc.dropLast ++ [(p, m ||| 2 ^ (n - p - 1))]) else nackWords rest (acc ++ [(n, 0)])
    | none => nackWords rest [(n, 0)]

/-- NACK_SEND: gaps that have stood for REORDER_MS are asked for, and again every max(RTT, 20 ms), up to NACK_TRIES times. -/
def nackSend (i : Nat) (s : State) : State :=
  match look s.objs.streams i with
  | none => s
  | some x =>
    if x.egress then s
    else
      let rtt := ((look s.objs.legs x.leg).map (·.rttUs)).getD 0
      let wait := max rtt 20000 * us
      let due (g : Gap) : Bool := decide (g.tries < s.fld 6 24 1) &&
        (if g.tries = 0 then decide (g.seen + s.fld 6 22 2 * 1000 * us ≤ s.now) else decide (g.last + wait ≤ s.now))
      let nums := (x.gaps.filter due).map (·.ext)
      if nums = [] then s
      else
        let (own, s) := s.rtcpSsrc x.leg
        let s := s.modStream i (fun z => { z with
          gaps := z.gaps.map (fun g => if due g then { g with tries := g.tries + 1, last := s.now } else g) })
        let ws := nackWords nums []
        (s.bump (fwCtr (s.legYard x.leg) 144)).sendRtcp x.leg (rtcpHead 1 205 (2 + ws.length) ++ beBytes 4 own ++ beBytes 4 x.ssrc ++
          ws.flatMap (fun (p, m) => beBytes 2 (p % 65536) ++ beBytes 2 m))

/-! ### Reports the bridge sends (06 R276) -/

/-- NTP timestamp of TB0: seconds since 1900 and their fraction, from TAI less the UTC offset. -/
def State.ntp (s : State) : Bytes :=
  beBytes 4 (((s.tbSec 0 : Int) - (s.tb 0).utc + 2208988800) % 4294967296).toNat ++ beBytes 4 (s.tbNanos 0 * 2 ^ 32 / 1000000000)

/-- Seconds in 2^-16 of a time in ps. -/
def ps16 (t : Nat) : Nat := t * 65536 / 1000000000000

/-- The middle 32 bits of an NTP timestamp (RFC 3550). -/
def midNtp (b : Bytes) : Nat := be b 2 4

/-- A report block about an ingress stream (RFC 3550): SSRC, share lost since the last report, count lost, newest extended number, jitter,
last sender report and the delay since it. -/
def Stream.reportBlock (x : Stream) (now : Nat) : Bytes :=
  let r := x.recep
  let expected := (x.extSeq.map (fun top => top + 1 - r.base.getD top)).getD 0
  let lost : Int := (expected : Int) - r.rcv
  let span := expected - r.expPrior
  let gone : Int := (span : Int) - (r.rcv - r.rcvPrior : Nat)
  let frac := if span = 0 ∨ gone ≤ 0 then 0 else min 255 (gone.toNat * 256 / span)
  let cum := max (-8388608) (min 8388607 lost)
  let (lsr, dlsr) := match r.sr with
    | some (ntp, at_) => (ntp, ps16 (now - at_))
    | none => (0, 0)
  beBytes 4 x.ssrc ++ beBytes 1 frac ++ beBytes 3 (if cum < 0 then (cum + 16777216).toNat else cum.toNat) ++
    beBytes 4 ((x.extSeq.getD 0) % 2 ^ 32) ++ beBytes 4 (r.jit16 / 16) ++ beBytes 4 lsr ++ beBytes 4 dlsr

/-- The counts that the next report starts from. -/
def Stream.nextReport (x : Stream) : Stream :=
  { x with recep := { x.recep with
      expPrior := (x.extSeq.map (fun top => top + 1 - x.recep.base.getD top)).getD 0, rcvPrior := x.recep.rcv } }

/-- When the next reports of a leg are due: RTCP_MS after the last, with an offset drawn at random in ±50 % (06 R276). -/
def State.rtcpDue (s : State) (l : Leg) : Nat := l.rtcpAt + s.fld 6 28 2 * 1000 * us * (32768 + l.rtcpFrac) / 65536

/-- RTCP_REPORT_TIMER: when they are due, an SR for each egress stream and an RR for each ingress stream of the leg. -/
def rtcpReport (leg : Nat) (s : State) : State :=
  match look s.objs.legs leg with
  | none => s
  | some l =>
    if s.now < s.rtcpDue l then s
    else
      let (k, s) := s.draw 65537
      let s := s.modLeg leg (fun l => { l with rtcpAt := s.now, rtcpFrac := k })
      forEach (s.streamsOf leg) (fun (i, x) s =>
        if x.egress then
          s.sendRtcp leg (rtcpHead 0 200 6 ++ beBytes 4 x.ssrc ++ s.ntp ++ beBytes 4 (x.lastOutTs % 2 ^ 32) ++
            beBytes 4 (x.packets % 2 ^ 32) ++ beBytes 4 (x.bytes % 2 ^ 32))
        else
          let (own, s) := s.rtcpSsrc leg
          (s.modStream i Stream.nextReport).sendRtcp leg (rtcpHead 1 201 7 ++ beBytes 4 own ++ x.reportBlock s.now)) s

/-! ### Feedback the bridge sends (06 R276): RFC 8888 and transport-wide -/

/-- Metric of a packet in an RFC 8888 report: received, ECN, and how long before the report in 1/1024 s. -/
def ccMetric (now : Nat) (got : Option (Nat × Nat)) : Nat :=
  match got with
  | none => 0
  | some (arrival, ecn) =>
    let ato := (now - arrival) * 1024 / 1000000000000
    0x8000 + ecn % 4 * 0x2000 + (if now < arrival then 0x1FFF else if 0x1FFE ≤ ato then 0x1FFE else ato)

/-- The numbers that a report covers: from the first that arrived since the last report, or the first not reported yet, to the newest. -/
def Stream.fbSpan (x : Stream) : Nat × Nat :=
  let top := x.arrivals.foldl (fun m a => max m a.1) 0
  let low := x.arrivals.foldl (fun m a => min m a.1) (x.fbNext.getD top)
  (max low (top + 1 - 16384), top + 1)

/-- Metric blocks of an ingress stream; none when nothing has arrived since the last report. -/
def Stream.ccBlock (x : Stream) (now : Nat) : Bytes :=
  if x.arrivals = [] then []
  else
    let (a, b) := x.fbSpan
    let ms := (List.range (b - a)).map (fun k => ccMetric now ((x.arrivals.find? (fun r => r.1 == a + k)).map (·.2)))
    beBytes 4 x.ssrc ++ beBytes 2 (a % 65536) ++ beBytes 2 (b - a) ++ ms.flatMap (beBytes 2) ++ (if (b - a) % 2 = 1 then zeros 2 else [])

/-- The arrivals have been reported. -/
def Stream.fbDone (x : Stream) : Stream := if x.arrivals = [] then x else { x with fbNext := some x.fbSpan.2, arrivals := [] }

/-- Symbols and times of transport-wide feedback from a time on, in 250 µs: for each number not received, or the time since the last. -/
def twParts (seen : List (Nat × Nat)) : List Nat → Nat → List (Nat × Bytes)
  | [], _ => []
  | n :: rest, last =>
    match seen.find? (fun r => r.1 == n) with
    | none => (0, []) :: twParts seen rest last
    | some (_, at_) =>
      let q := at_ / (250 * us)
      let d : Int := max (-32768) (min 32767 ((q : Int) - last))
      let part : Nat × Bytes := if 0 ≤ d ∧ d < 256 then (1, beBytes 1 d.toNat)
        else (2, beBytes 2 (if d < 0 then (d + 65536).toNat else d.toNat))
      part :: twParts seen rest ((last : Int) + d).toNat

/-- Status vectors of seven two-bit symbols. -/
def twChunks : Nat → List Nat → Bytes
  | 0, _ => []
  | f + 1, syms =>
    if syms = [] then []
    else beBytes 2 (0xC000 + (((syms.take 7).zipIdx).map (fun (v, i) => v * 4 ^ (6 - i))).sum) ++ twChunks f (syms.drop 7)

/-- Transport-wide feedback behind its two SSRCs, padded. -/
def Leg.twFeedback (l : Leg) : Bytes :=
  let top := l.twSeen.foldl (fun m a => max m a.1) 0
  let low := l.twSeen.foldl (fun m a => min m a.1) (l.twNext.getD top)
  let a := if l.twSeen = [] then l.twNext.getD 0 else max low (top + 1 - 65535)
  let nums := if l.twSeen = [] then [] else (List.range (top + 1 - a)).map (a + ·)
  let firstAt := ((nums.findSome? (fun n => l.twSeen.find? (fun r => r.1 == n))).map (·.2)).getD 0
  let ref := firstAt / (64000 * us)
  let parts := twParts l.twSeen nums (ref * 256)
  let body := beBytes 2 (a % 65536) ++ beBytes 2 nums.length ++ beBytes 3 (ref % 2 ^ 24) ++ beBytes 1 (l.fbCount % 256) ++
    twChunks parts.length (parts.map (·.1)) ++ parts.flatMap (·.2)
  padTo (cdiv body.length 4 * 4) body

/-- The numbers have been reported. -/
def Leg.twDone (l : Leg) : Leg :=
  { l with
    fbCount := l.fbCount + 1, twSeen := []
    twNext := if l.twSeen = [] then l.twNext else some (l.twSeen.foldl (fun m a => max m a.1) 0 + 1) }

/-- FEEDBACK_TIMER: when FB_INTERVAL_MS has passed, an RFC 8888 report (205, format 11) or transport-wide feedback (format 15) for a leg
whose FB_MODE is 0 or 1, on the confirmed packets (06 R276; notes/assumptions/117.md). -/
def feedbackSend (leg : Nat) (s : State) : State :=
  match look s.objs.legs leg with
  | none => s
  | some l =>
    if 2 ≤ l.fbMode ∨ s.now < l.fbAt + s.fld 6 30 2 * 1000 * us then s
    else
      let (own, s) := s.rtcpSsrc leg
      let s := s.modLeg leg (fun l => { l with fbAt := s.now })
      let ins := (s.streamsOf leg).filter (fun kv => !kv.2.egress)
      if l.fbMode = 0 then
        let b := beBytes 4 own ++ ins.flatMap (fun kv => kv.2.ccBlock s.now) ++ beBytes 4 (midNtp s.ntp)
        (forEach ins (fun kv s => s.modStream kv.1 Stream.fbDone) s).sendRtcp leg (rtcpHead 11 205 (b.length / 4) ++ b)
      else
        let b := beBytes 4 own ++ beBytes 4 ((ins.head?.map (fun kv => kv.2.ssrc)).getD 0) ++ l.twFeedback
        (s.modLeg leg Leg.twDone).sendRtcp leg (rtcpHead 15 205 (b.length / 4) ++ b)

/-! ### Media log (06 R282-R286) -/

/-- TB0 as seconds × 10^9 + nanoseconds. -/
def State.timeNs (s : State) : Nat := s.tbNs 0 % 2 ^ 64

/-- A log record, padded to a multiple of 8 bytes (R283). -/
def logRecord (type dir stream ext pktLen time pos : Nat) (payload : Bytes) : Bytes :=
  let len := cdiv (32 + payload.length) 8 * 8
  padTo len (leBytes 2 len ++ leBytes 1 type ++ leBytes 1 dir ++ leBytes 4 stream ++ leBytes 6 ext ++ leBytes 2 pktLen ++ leBytes 8 time ++
    leBytes 8 pos ++ payload)

/-- TIME_NS of a record. -/
def recTime (b : Bytes) : Nat := le b 16 8

/-- Position of the oldest retained record; the write position when there is none. -/
def Room.oldest (r : Room) : Nat := (r.logRecs.head?.map (·.1)).getD r.logWrite

/-- Moves a mark that the writer has overtaken; the span is noted for its reader, and said once until the reader's next LOG_READ
(R286). -/
def State.overtake (s : State) (room : Nat) (before : List (Nat × Bytes)) (k : Nat) : State :=
  match look s.objs.rooms room with
  | none => s
  | some r =>
    let m := r.marks.getD k 0
    let o := r.oldest
    if o ≤ m then s
    else
      let tOf (p : Nat) : Nat := match before.find? (fun x => x.1 == p) with
        | some x => recTime x.2
        | none => 0
      let t1 := match r.logRecs.head? with
        | some x => recTime x.2
        | none => s.timeNs
      let old := look r.lostSpan k
      let span := match old with
        | some (f, _, tf, _) => (f, o, tf, t1)
        | none => (m, o, tOf m, t1)
      let s := s.modRoom room (fun r => { r with marks := setAt r.marks k o, lostSpan := put r.lostSpan k span })
      if old.isSome then s else s.event 43 (roomHandle room r.inc + k * 2 ^ 32) r.owner

/-- Appends one record made from its position; a PAD record fills the space before the end of the ring (R282). -/
def State.logAppend (s : State) (room yard : Nat) (mk : Nat → Bytes) : State :=
  match look s.objs.rooms room with
  | none => s
  | some r =>
    let ring := r.logMib * 1048576
    let len := (mk 0).length
    if ring = 0 then s
    else
      let gap := ring - r.logWrite % ring
      let pad : List (Nat × Bytes) := if gap < len then
          [(r.logWrite, (padTo gap (logRecord 3 0 0 0 0 s.timeNs r.logWrite [])).take gap |> fun b => leBytes 2 (gap % 65536) ++ b.drop 2)] else []
      let pos := if gap < len then r.logWrite + gap else r.logWrite
      let all := r.logRecs ++ pad ++ [(pos, mk pos)]
      let recs := all.filter (fun x => decide (pos + len ≤ x.1 + ring))
      let s := s.modRoom room (fun r => { r with logWrite := pos + len, logRecs := recs })
      let s := (s.addCnt (fwCtr yard 192) (cdiv (pos + len - r.logWrite) 256)).modObjs (fun o => { o with
        logBytes := o.logBytes + (pos + len - r.logWrite) })
      forEach [0, 1, 2, 3] (fun k s => s.overtake room all k) s

/-- Writes a confirmed packet of a stream with LOG = 1; while its logging is shed it is only counted (R282, R287). -/
def State.logPacket (s : State) (i : Nat) (x : Stream) (ext : Nat) (pkt : Bytes) : State :=
  if x.log = false then s
  else
    let y := s.legYard x.leg
    if has s.objs.logShed i then
      (s.bump (fwCtr y 200)).modObjs (fun o => { o with logShed := adj o.logShed i (fun w => (w.1, s.timeNs)) })
    else s.logAppend x.room y (fun pos => logRecord 1 (b2n x.egress) (streamHandle i x.inc) ext pkt.length s.timeNs pos pkt)

/-- A GAP record (R283). -/
def gapRecord (from_ dest tFrom tTo time : Nat) : Bytes :=
  logRecord 2 0 0 0 0 time from_ (leBytes 8 from_ ++ leBytes 8 dest ++ leBytes 8 tFrom ++ leBytes 8 tTo)

/-- As many whole records as fit, with their positions, and the position after them.  A GAP record stands for one that is lost to
poison (13 R556). -/
def takeRecords (bad : List (Nat × Nat)) (now : Nat) : List (Nat × Bytes) → Nat → Nat → List (Nat × Bytes) × Nat
  | [], _, pos => ([], pos)
  | (p, b) :: rest, room, pos =>
    let next := p + b.length
    let out := match bad.find? (fun x => x.1 == p) with
      | some (_, time) => gapRecord p next time ((rest.head?.map (fun x => recTime x.2)).getD now) now
      | none => b
    if room < out.length then ([], pos)
    else
      let (more, e) := takeRecords bad now rest (room - out.length) next
      ((p, out) :: more, e)

/-- LOG_READ, once fetched (R284-R286): its checks, then the copy of the records from the mark on begins; it ends with its
HOST_DMA_COMPLETION (notes/assumptions/16.md). -/
def logRead (p r seq : Nat) (d : Desc) (s : State) : State :=
  match s.handleCheck p 1 d.handle with
  | some st => s.complete p r seq (if d.handle % 65536 ≠ 0 ∧ d.handle < 65536 then stBadParam else st)
  | none =>
    match s.roomAt d.handle with
    | none => s.complete p r seq stStaleHandle
    | some (i, rm) =>
      let k := dbits d 24 1 0
      let pos := dfld d 32 8
      if d.length % 64 ≠ 0 ∨ d.length < 16384 ∨ 16777216 < d.length ∨ dfld d 16 8 % 64 ≠ 0 ∨ rm.logMib = 0 ∨
          (bit (dfld d 25 1) 0 ∧ rm.logRecs.any (fun x => x.1 == pos) = false) then s.complete p r seq stBadParam
      else
        let m := if bit (dfld d 25 1) 1 then rm.oldest else if bit (dfld d 25 1) 0 then pos else rm.marks.getD k 0
        let gap := match look rm.lostSpan k with
          | some (f, t, tf, tt) => gapRecord f t tf tt s.timeNs
          | none => []
        let (recs, e) := takeRecords rm.logBad s.timeNs (rm.logRecs.filter (fun x => decide (m ≤ x.1))) (d.length - gap.length) m
        let s := s.modRoom i (fun r => { r with marks := setAt r.marks k e, lostSpan := del r.lostSpan k })
        s.startDma p r seq (.log (dfld d 16 8) i rm.inc k gap recs d.length)

/-- As many of the records as fit, and the position of the first that does not. -/
def fitRecords : List (Nat × Bytes) → Nat → Bytes × Option Nat
  | [], _ => ([], none)
  | (p, b) :: rest, room =>
    if room < b.length then ([], some p)
    else
      let (more, e) := fitRecords rest (room - b.length)
      (b ++ more, e)

/-- What stands in the buffer when the copy of a LOG_READ has finished: the records that have been overwritten meanwhile are left out, and
a GAP record stands in their place; and the first position that no longer fits (06 R285). -/
def State.logCopied (s : State) (room inc : Nat) (first : Bytes) (recs : List (Nat × Bytes)) (length : Nat) : Bytes × Option Nat :=
  let live : Option Room := (look s.objs.rooms room).bind (fun r => if r.inc = inc then some r else none)
  let gone (p : Nat) : Bool := (live.map (fun r => decide (p < r.oldest))).getD true
  let lost := recs.filter (fun x => gone x.1)
  let kept := recs.filter (fun x => !gone x.1)
  let gap := match lost.head? with
    | none => []
    | some x =>
      let dest := ((kept.head?.map (·.1)).orElse (fun _ => live.map Room.oldest)).getD (x.1 + ((recs.map (fun y => y.2.length)).sum))
      gapRecord x.1 dest (recTime x.2) ((kept.head?.map (fun y => recTime y.2)).getD s.timeNs) s.timeNs
  let (body, rest) := fitRecords kept (length - first.length - gap.length)
  (first ++ gap ++ body, rest)

/-- The copy of a LOG_READ has finished: RESULT is the bytes written; the mark goes back to what no longer fits. -/
def State.logFinish (s : State) (x : Dma) (addr room inc k : Nat) (first : Bytes) (recs : List (Nat × Bytes)) (length : Nat) : State :=
  let (out, rest) := s.logCopied room inc first recs length
  let s := match rest with
    | some p => s.modRoom room (fun r => if r.inc = inc then { r with marks := setAt r.marks k (min p (r.marks.getD k 0)) } else r)
    | none => s
  (s.hostPut x.port addr out).complete x.port x.ring x.seq stOk out.length

/-! ### The commands of this file -/

/-- LOG_READ (06 R284, R285). -/
def execLogRead (t p r : Nat) (d : Desc) (s : State) : Host.Outcome State Fault Refusal :=
  .next (fetchDesc 0x1C p r d (fun seq s => logRead p r seq d s) (s.at t))

/-- NACK_SEND (06 R278). -/
def execNackSend (t stream : Nat) (s : State) : Host.Outcome State Fault Refusal := .next (nackSend stream (s.at t))

/-- RTCP_REPORT_TIMER (06 R276). -/
def execRtcpReportTimer (t leg : Nat) (s : State) : Host.Outcome State Fault Refusal := .next (rtcpReport leg (s.at t))

/-- FEEDBACK_TIMER (06 R276). -/
def execFeedbackTimer (t leg : Nat) (s : State) : Host.Outcome State Fault Refusal := .next (feedbackSend leg (s.at t))

end Sys2Proof.Machine
end

