-- ==== Sys2Proof/Machine/Ostler.lean ====
section
/-! DEFINITION. The Ostler's books (01 R35-R49): slots, priorities, charged cycles, what an operation leaves when it ends, and what it sees. Unit
classes: 0 stall, 1 thyme core, 2 compositor, 3 mix engine. -/
namespace Sys2Proof.Machine

/-- A counter of R49 for a unit class of a yard: 0 dispatched, 8 pre-empted, 16 overruns, 24 slot waits, 32 busy cycles. -/
def ostCtr (y cls off : Nat) : Nat := ctr 3 y (40 * cls + off)

/-- Priority of a node of a room: the pin, or the template's (R41; 06 R240, R289). `node`: 0 decode, 1 encode, 2 compose, 3 audio,
4 mix. -/
def State.nodePrio (s : State) (room node : Nat) : Nat :=
  match look s.objs.rooms room with
  | none => 0
  | some r => if r.prioPin then r.prio else bits (r.tf (1 + node / 2) 1) (4 * (node % 2) + 3) (4 * (node % 2))

/-- Is a slot free for an operation of a priority (R39)? Operations of priority 12-15 fill the 4,096 reserved slots first. -/
def slotFree (ops : List Op) (prio : Nat) : Bool :=
  let high := (ops.filter (fun o => decide (12 ≤ o.prio))).length
  let open_ := ops.length - high + (high - 4096)
  decide (open_ < 61440) || (decide (12 ≤ prio) && decide (high < 4096))

/-- The input of an operation that waits for a slot is queued in pool 2, is spilled from it, or, when the pool refuses it, waits upstream
(R40; 07 R316-R319). The cells it takes are a free value (notes/assumptions/58.md). -/
def State.holdInput (s : State) (o : Op) : Op × State :=
  let (v, s) := s.draw 65536
  let queue := s.media.noSlot.filter (fun x => x.yard == o.yard && x.cls == o.cls)
  let spilling := queue.any (fun x => x.spilled != 0)
  let takes := s.poolTakes 2 v
  let th := s.poolFld 2 8
  let want := th != 0 && (s.region 6).2.1 != 0 && decide (th ≤ (s.pool 2).level) &&
    (decide (16 ≤ (queue.map (·.cells)).sum) || !takes) && !s.net.spillHold
  if (spilling || want) && decide (s.net.spillBytes + v * 256 ≤ (s.region 6).2.1 * 1048576) then
    ({ o with spilled := v }, ((s.modNet (fun n => { n with
      spillBytes := n.spillBytes + v * 256, spillCharge := n.spillCharge + v * 256 })).addCnt (shCtr o.yard 40) v).spillMark)
  else if takes then ({ o with cells := v }, s.poolAdd 2 v)
  else (o, s)

/-- What waiting inputs held of pool 2 and of the spill region goes back: those of `before` that wait no longer. -/
def State.freeInputs (s : State) (before : List Op) : State :=
  forEach (before.filter (fun o => !s.media.noSlot.any (fun x => x.id == o.id))) (fun o s =>
    let s := if o.cells = 0 then s else s.poolSub 2 o.cells
    if o.spilled = 0 then s
    else ((s.modNet (fun n => { n with
      spillBytes := n.spillBytes - o.spilled * 256, spillCharge := n.spillCharge + o.spilled * 256 })).addCnt (shCtr o.yard 48) o.spilled).spillMark) s

/-- A new operation becomes ready, or its input stays queued until a slot frees (R39, R40). -/
def State.addOp (s : State) (kind : OpKind) (yard cls prio budget : Nat) : State :=
  let o : Op := { id := s.media.nextOp, kind, yard, cls, prio, readyAt := s.now, budget }
  let s := s.modMedia (fun m => { m with nextOp := m.nextOp + 1 })
  if slotFree s.media.ops prio then s.modMedia (fun m => { m with ops := m.ops ++ [o] })
  else
    let (o, s) := s.holdInput o
    s.modMedia (fun m => { m with
      noSlot := m.noSlot ++ [o], slotWaits := m.slotWaits.filter (· != (yard, cls)) ++ [(yard, cls)] })

/-- Operations that waited for a slot take those that are free, oldest first. -/
def takeSlots (now : Nat) : List Op → List Op → List Op × List Op
  | ops, [] => (ops, [])
  | ops, o :: rest =>
    if slotFree ops o.prio then takeSlots now (ops ++ [{ o with readyAt := now, cells := 0, spilled := 0 }]) rest
    else
      let (a, b) := takeSlots now ops rest
      (a, o :: b)

/-- An operation by its number. -/
def State.opAt (s : State) (id : Nat) : Option Op := s.media.ops.find? (fun o => o.id == id)

/-- Does an operation consume the output of another (01 R37): the picture of its rung or room before, or the block before of its
stream, insert point or room? -/
def OpKind.consumes (a b : OpKind) : Bool :=
  match a, b with
  | .encode r k n, .encode r2 k2 n2 => r == r2 && k == k2 && decide (n2 < n)
  | .compose r n, .compose r2 n2 => r == r2 && decide (n2 < n)
  | .codec i n k, .codec i2 n2 k2 => i == i2 && k == k2 && decide (n2 < n)
  | .kernel _ _ i n, .kernel _ _ i2 n2 => i == i2 && decide (n2 < n)
  | .mix r n, .mix r2 n2 => r == r2 && decide (n2 < n)
  | _, _ => false

/-- Does an operation still wait for an input: an earlier operation that has neither ended nor been voided (01 R37)? -/
def Media.blocked (m : Media) (o : Op) : Bool :=
  m.ops.any (fun x => o.kind.consumes x.kind) || m.noSlot.any (fun x => o.kind.consumes x.kind)

/-- Removes every operation that satisfies a test; slots that fall free are taken, and an operation whose last input has ended is
ready from now on. -/
def State.dropOps (s : State) (test : Op → Bool) : State :=
  let before := s.media.noSlot
  (s.modMedia (fun m =>
    let (a, b) := takeSlots s.now (m.ops.filter (fun o => !test o)) (m.noSlot.filter (fun o => !test o))
    let n := { m with ops := a, noSlot := b }
    { n with ops := a.map (fun o => if m.blocked o && !n.blocked o then { o with readyAt := s.now } else o) })).freeInputs before

/-- Changes one operation. -/
def State.modOp (s : State) (id : Nat) (f : Op → Op) : State :=
  s.modMedia (fun m => { m with ops := m.ops.map (fun o => if o.id = id then f o else o) })

/-- Charges cycles to an operation's unit class (R49), and to the stall it ran on (08 R372; 09 R415). -/
def State.charge_ (s : State) (o : Op) (cycles : Nat) : State :=
  let s := s.addCnt (ostCtr o.yard o.cls 32) cycles
  if o.cls = 0 then s.modMedia (fun m => { m with stallBusy := adjD m.stallBusy o.yard 0 (· + cycles) }) else s

/-- Cycles of an operation on its unit since its dispatch, at the clock of its class, thyme cycles for a thyme core (R46; 10 R422; 14
R595); `moved` ps of that time went into restoring and saving its context and are not charged. -/
def State.cyclesOf (s : State) (o : Op) (moved : Nat := 0) : Nat :=
  if o.cls = 1 then (s.now - o.startAt - moved) * 6 / 5000
  else if o.cls = 3 then (s.now - o.startAt - moved) * 3 / 2000
  else (s.clkRead - o.startClk - moved * s.clockPct) * 3 / 200000

/-- An operation ends: it is charged what it used in all, and leaves its slot. -/
def State.endOp (s : State) (o : Op) (cycles : Nat) : State :=
  (s.charge_ o (cycles - o.charged)).dropOps (fun x => x.id == o.id)

/-- An operation that is running. -/
def State.runningOp (s : State) (id : Nat) : Option Op := (s.opAt id).bind (fun o => if o.unit.isSome then some o else none)

/-- A running operation that ends after `cycles` charged cycles in all; one that has reached its budget before has been ended by the
watchdog (R47). -/
def State.endingOp (s : State) (id cycles : Nat) : Option Op :=
  (s.runningOp id).bind (fun o => if cycles ≤ o.budget then some o else none)

/-- A pre-empted operation gives its unit up and keeps its ready time (R42, R48); `busy` counts the cycles of the unit itself, `moved`
the time its context took. -/
def State.yieldOp (s : State) (o : Op) (busy : Nat) (moved : Nat := 0) : State :=
  let c := s.cyclesOf o moved
  (((s.charge_ o c).addCnt busy c).bump (ostCtr o.yard o.cls 8)).modOp o.id (fun x => { x with unit := none, marked := false, charged := x.charged + c })

/-- Units of a class in service in a yard, by their number within the yard. -/
def State.unitsOf (s : State) (y cls : Nat) : List Nat :=
  match cls with
  | 0 => (List.range 6).filter (fun i => bit (s.ydStatus y) i)
  | 1 => (List.range 8).filter (fun i => bit (s.ydStatus y) (6 + i))
  | 2 => if s.cpIn y then [0] else []
  | _ => if s.mixIn y then [0] else []

/-- Media runs in RUN and DRAIN (14 R577). -/
def State.mediaOn (s : State) : Bool := s.power.mode == .run || s.power.mode == .drain

/-! ### What an operation sees (03 R140; 04 R170) -/

/-- What commands have set in an object, laid over what has become of it since. -/
def Room.settings (a b : Room) : Room := { b with
  owner := a.owner, template := a.template, gen := a.gen, tpl := a.tpl, home := a.home, homePin := a.homePin, prio := a.prio
  prioPin := a.prioPin, audioPin := a.audioPin }
def Leg.settings (a b : Leg) : Leg := { b with
  owner := a.owner, lport := a.lport, ipv6 := a.ipv6, localIdx := a.localIdx, fbMode := a.fbMode, puntRtcp := a.puntRtcp
  videoClass := a.videoClass, audioClass := a.audioClass, rtcpClass := a.rtcpClass, localUdp := a.localUdp, remoteUdp := a.remoteUdp
  remoteIp := a.remoteIp, nextHop := a.nextHop }
def Stream.settings (a b : Stream) : Stream := { b with owner := a.owner, body := a.body }

/-- What a boundary put in force for an operation, unless that is still in force. -/
def State.opView (s : State) (o : Op) : Option View :=
  if s.tickAt ≤ o.readyAt then none else s.views.find? (fun v => decide (v.since ≤ o.readyAt))

/-- The objects of `a`, in number and settings, each with what has become of it in `b`. -/
def overlay {α : Type} (inc : α → Nat) (settings : α → α → α) (a b : Tab α) : Tab α :=
  a.map (fun (i, x) => (i, match look b i with
    | some y => if inc x = inc y then settings x y else x
    | none => x))

/-- The tombstones of `a`, each with the drops it has in `b`. -/
def overlayTombs (a b : List Tombstone) : List Tombstone :=
  a.map (fun x => match b.find? (fun y => y.kind == x.kind && y.handle == x.handle) with
    | some y => { x with drops := y.drops }
    | none => x)

/-- `overlay` for all objects. -/
def Objects.overlay (a b : Objects) : Objects := { b with
  rooms := Machine.overlay (·.inc) Room.settings a.rooms b.rooms, legs := Machine.overlay (·.inc) Leg.settings a.legs b.legs
  streams := Machine.overlay (·.inc) Stream.settings a.streams b.streams, tombs := overlayTombs a.tombs b.tombs }

/-- What was taken away or replaced since an instant, newest first. -/
def Media.pastSince (m : Media) (ready : Nat) : List Past := m.past.filter (fun p => decide (ready < p.until_))

/-- A table as an operation sees it: over the present entries those of the past, the oldest last. -/
def seeTab {α : Type} (f : Past → Tab α) (past : List Past) (t : Tab α) : Tab α :=
  past.foldl (fun t p => (f p).foldl (fun t kv => put t kv.1 kv.2) t) t

/-- The media units that an operation sees which became ready at an instant (04 R170; 06 R241). -/
def Media.seen (m : Media) (ready : Nat) : Media :=
  let past := m.pastSince ready
  { m with
    targets := seeTab (·.targets) past m.targets, canvases := seeTab (·.canvases) past m.canvases, mixes := seeTab (·.mixes) past m.mixes
    jitter := seeTab (·.jitter) past m.jitter, mixOuts := seeTab (·.mixOuts) past m.mixOuts }

/-- A past entry is the one that is seen when no older past has its key. -/
def owns {α : Type} (f : Past → Tab α) (older : List Past) (k : Nat) : Bool := older.all (fun p => !has (f p) k)

/-- The past with what has become of its entries in the tables `new`. -/
def seenBack {α : Type} (f : Past → Tab α) (older : List Past) (p : Past) (new : Tab α) : Tab α :=
  (f p).map (fun (k, x) => (k, if owns f older k then (look new k).getD x else x))

/-- The present table with what has become of its entries: those that the past hides stay. -/
def presentBack {α : Type} (f : Past → Tab α) (past : List Past) (old new : Tab α) : Tab α :=
  let hidden (k : Nat) : Bool := past.any (fun p => has (f p) k)
  keepIn (new.filter (fun kv => !hidden kv.1)) (old.filter (fun kv => hidden kv.1))

/-- Carries each past on; `ready` parts those that the operation saw. -/
def pastBack (ready : Nat) (n : Media) : List Past → List Past
  | [] => []
  | p :: rest =>
    let older := rest.filter (fun q => decide (ready < q.until_))
    (if ready < p.until_ then { p with
        targets := seenBack (·.targets) older p n.targets, canvases := seenBack (·.canvases) older p n.canvases
        mixes := seenBack (·.mixes) older p n.mixes, jitter := seenBack (·.jitter) older p n.jitter
        mixOuts := seenBack (·.mixOuts) older p n.mixOuts }
     else p) :: pastBack ready n rest

/-- Does an operation work on an entry of the past? -/
def Past.holds (p : Past) (k : OpKind) : Bool :=
  match k with
  | .decode t _ _ _ => has p.targets t
  | .encode r _ _ => has p.canvases r
  | .compose r _ => has p.canvases r
  | .codec i _ _ => has p.jitter i || has p.mixOuts i
  | .kernel _ _ key _ => if key % 2 = 0 then has p.jitter (key / 2) else has p.mixes (key / 4096)
  | .mix r _ => has p.mixes r

/-- Back from the media units `n` that an operation has left to those of `m`.  An operation that its work has made ready belongs to the
present, where a unit that was taken away or replaced makes none ready. -/
def Media.backTo (m n : Media) (ready : Nat) : Media :=
  let past := m.pastSince ready
  let stale (o : Op) : Bool := decide (m.nextOp ≤ o.id) && past.any (fun p => p.holds o.kind)
  { n with
    targets := presentBack (·.targets) past m.targets n.targets, canvases := presentBack (·.canvases) past m.canvases n.canvases
    mixes := presentBack (·.mixes) past m.mixes n.mixes, jitter := presentBack (·.jitter) past m.jitter n.jitter
    mixOuts := presentBack (·.mixOuts) past m.mixOuts n.mixOuts, past := pastBack ready n m.past
    ops := n.ops.filter (fun o => !stale o), noSlot := n.noSlot.filter (fun o => !stale o) }

/-- The state that an operation sees: that of the boundary that opened the tick in which it became ready, with what has become of it
since. -/
def State.opSeen (s : State) (o : Op) : State :=
  match s.opView o with
  | none => s
  | some v => { s with
    gens := { s.gens with cur := v.tack, place := some s.gens.cur }
    objs := v.objs.overlay s.objs, media := s.media.seen o.readyAt }

/-- Runs the work of an operation under what it sees; what it sends waits where the settings in force put it, and goes with a leg that is
gone. -/
def State.underOp (s : State) (o : Op) (work : State → State) : State :=
  match s.opView o with
  | none => work s
  | some v =>
    let t := work (s.opSeen o)
    let gone := v.objs.legs.filter (fun kv => (look s.objs.legs kv.1).isNone)
    let t := forEach gone (fun (i, l) t =>
      if t.legq i = [] then t else (t.discardAll (t.legq i) (shCtr (yardOf l.lport) 32) (yardOf l.lport)).setLegq i []) t
    let waiting := t.media.noSlot
    forEach (s.objs.legs.map (·.1)) (fun i t => if t.legq i = s.legq i then t else t.requeue i)
      (({ t with
        gens := { t.gens with cur := s.gens.cur, place := s.gens.place }, objs := s.objs.overlay t.objs
        media := s.media.backTo t.media o.readyAt } : State).freeInputs waiting)

/-- The views that live operations still need, newest first; `until_` is the instant at which the next newer view begins. -/
def neededViews (ops : List Op) : Nat → List View → List View
  | _, [] => []
  | until_, v :: rest =>
    if ops.any (fun o => decide (v.since ≤ o.readyAt) && decide (o.readyAt < until_)) then v :: neededViews ops v.since rest
    else neededViews ops v.since rest

/-- A boundary's commands have taken effect: what is in force now is noted. -/
def State.noteView (s : State) : State :=
  let s := s.modMedia (fun m => { m with past := m.past.filter (fun p => m.ops.any (fun o => decide (o.readyAt < p.until_))) })
  { s with views := { since := s.tickAt, tack := s.gens.cur, objs := s.objs } :: neededViews s.media.ops s.tickAt s.views }

end Sys2Proof.Machine
end

