-- ==== Sys2Proof/Machine/Pictures.lean ====
section
/-! DEFINITION. The samples of pictures: what a buffer reads as, the scaler, borders and overlays of the compositor (09 R380, R381, R387),
the concealment of blocks (08 R358), which headers the stalls decode (08 R337-R339), and what the encoders may produce (09 R392, R394). -/
namespace Sys2Proof

/-! ### Rectangles, blocks and vectors -/

/-- Luma samples a sample of a component (0 Y, 1 Cb, 2 Cr) stands for in each direction. -/
def subsample (c : Nat) : Nat := if c = 0 then 1 else 2

/-- Does a sample of a component lie in a rectangle?  A sample of chroma stands where its first luma sample does
(notes/assumptions/109.md). -/
def Rect.holds (r : Rect) (c x y : Nat) : Bool :=
  let k := subsample c
  decide (r.x ≤ k * x) && decide (k * x < r.x + r.w) && decide (r.y ≤ k * y) && decide (k * y < r.y + r.h)

/-- The inside of a border. -/
def Rect.inner (r : Rect) (n : Nat) : Rect := { x := r.x + n, y := r.y + n, w := r.w - 2 * n, h := r.h - 2 * n }

/-- Samples of a component of a decoded block. -/
def DecBlock.plane (b : DecBlock) (c : Nat) : List Nat := match c with
  | 0 => b.luma
  | 1 => b.cb
  | _ => b.cr

/-- A sample of a decoded block, if it holds one there. -/
def DecBlock.at_ (b : DecBlock) (c x y : Nat) : Option Nat :=
  let k := subsample c
  if b.rect.holds c x y then (b.plane c)[(y - Machine.cdiv b.rect.y k) * Machine.cdiv b.rect.w k + (x - Machine.cdiv b.rect.x k)]? else none

/-- The cropping window of a picture (09 R381). -/
def PicHeader.window (h : PicHeader) : Rect := if h.crop.w = 0 ∨ h.crop.h = 0 then { w := h.width, h := h.height } else h.crop

/-- A vector in quarter samples brought within the search window, ±256 luma samples horizontally and ±128 vertically (R392). -/
def BlockVec.clip (v : BlockVec) : BlockVec := { v with x := Machine.clampI (-1024) 1024 v.x, y := Machine.clampI (-512) 512 v.y }

/-- Is a vector within the search window? -/
def BlockVec.inWindow (v : BlockVec) : Bool :=
  decide (-1024 ≤ v.x) && decide (v.x ≤ 1024) && decide (-512 ≤ v.y) && decide (v.y ≤ 512)

namespace Machine

/-! ### Planes and rectangles -/

/-- A coordinate brought within 0 … n - 1, so that a read beyond an edge gives the nearest sample (08 R356). -/
def edge (n : Nat) (v : Int) : Nat := min v.toNat (n - 1)

/-- One of three. -/
def pick3 (c : Nat) (v : Nat × Nat × Nat) : Nat := match c with
  | 0 => v.1
  | 1 => v.2.1
  | _ => v.2.2

/-- A colour of 8 bits on a canvas (09 R381, R387). -/
def toCanvas (d10 : Bool) (v : Nat) : Nat := if d10 then 4 * v else v

/-! ### Blocks (08 R358) -/

/-- Displacement of a component in whole samples by a vector in eighths of a luma sample, to the nearest with ties upwards
(notes/assumptions/109.md). -/
def wholeVec (c : Nat) (v : Int) : Int := if c = 0 then (v + 4) / 8 else (v + 8) / 16

/-- Inserts a number into a list in rising order. -/
def insertI (x : Int) : List Int → List Int
  | [] => [x]
  | y :: t => if x ≤ y then x :: y :: t else y :: insertI x t

/-- The median of vector components; none gives the zero vector. -/
def median (l : List Int) : Int :=
  if l = [] then 0
  else if l.length % 2 = 1 then ((l.foldl (fun acc x => insertI x acc) [])[l.length / 2]?).getD 0
  else Config.evenMedian l

/-! ### The scaler (09 R381) -/

/-- The smallest power of two by which a source dimension is read with decimation, as its exponent. -/
def decimation (src placed : Nat) : Nat := ((List.range 16).find? (fun j => decide (src ≤ 8 * placed * 2 ^ j))).getD 15

/-- The taps that make sample `i` of a placed dimension: coefficient, and position in the source dimension.  Sample centres are aligned, the
phase is the nearest of 64, and a tap beyond the window reads its edge (notes/assumptions/109.md). -/
def taps (n src placed i : Nat) : List (Int × Nat) :=
  let j := decimation src placed
  let read := cdiv src (2 ^ j)
  let pos : Int := ((((2 * i + 1) * read : Nat) - (placed : Int)) * 64 + placed) / (2 * placed)
  (List.range n).map (fun t => (Config.scalerTap n read placed (pos % 64).toNat t, min (edge read (pos / 64 - (n / 2 - 1 : Nat) + t) * 2 ^ j) (src - 1)))

/-- A filtered sum, rounded to nearest with ties upwards and brought within the depth. -/
def scaleRound (d10 : Bool) (sum : Int) : Nat :=
  let b := 2 * Config.scalerBits
  min ((2 * sum + (2 ^ b : Nat)) / (2 ^ (b + 1) : Nat)).toNat (if d10 then 1023 else 255)

/-- A sample of a source picture in a canvas of another depth; the reduction of the largest values stays within 8 bits
(notes/assumptions/109.md). -/
def convertDepth (from10 to10 : Bool) (v : Nat) : Nat :=
  match from10, to10 with
  | true, false => min 255 ((v + 2) / 4)
  | false, true => 4 * v
  | _, _ => v

/-! ### Overlays (09 R387) -/

/-- A pixel of a bitmap: A, and Y, Cb, Cr. -/
def Bitmap.pixel (b : Bitmap) (x y : Nat) : Nat × (Nat × Nat × Nat) :=
  if b.format = 2 then
    let o := y * b.stride + 4 * x
    (byteAt b.data (o + 3), (byteAt b.data o, byteAt b.data (o + 1), byteAt b.data (o + 2)))
  else (byteAt b.data (y * b.stride + x), b.colour)

/-- A pixel of a bitmap that stands at a place and is drawn within a rectangle. -/
def Bitmap.over (b : Bitmap) (clip : Rect) (bx by_ : Int) (x y : Nat) : Option (Nat × (Nat × Nat × Nat)) :=
  let i := (x : Int) - bx
  let j := (y : Int) - by_
  if clip.holds 0 x y ∧ 0 ≤ i ∧ i < b.w ∧ 0 ≤ j ∧ j < b.h then some (b.pixel i.toNat j.toNat) else none

/-- The mean of some numbers, rounded to nearest. -/
def meanOf (l : List Nat) : Nat := (l.sum + l.length / 2) / l.length

/-- A and ov of one component: of luma the pixel's, of chroma the means over its 2 × 2 block; A is 0 and ov does not count where no pixel of
the bitmap lies (notes/assumptions/109.md). -/
def Bitmap.blendOf (b : Bitmap) (clip : Rect) (bx by_ : Int) (c x y : Nat) : Option (Nat × Nat) :=
  if c = 0 then (b.over clip bx by_ x y).map (fun p => (p.1, p.2.1))
  else
    let ps := [(2 * x, 2 * y), (2 * x + 1, 2 * y), (2 * x, 2 * y + 1), (2 * x + 1, 2 * y + 1)].filterMap (fun q => b.over clip bx by_ q.1 q.2)
    if ps = [] then none else some (((ps.map (·.1)).sum + 2) / 4, meanOf (ps.map (fun p => pick3 c p.2)))

/-- The blend (R387).  In a 10-bit canvas ov is scaled by 4; scaling A and its full scale by 4 as well leaves the quotient the same. -/
def blend (d10 : Bool) (a ov bg : Nat) : Nat := (a * toCanvas d10 ov + (255 - a) * bg + 127) / 255

/-! ### What a buffer reads as -/

/-- The sample of a component at a place of its plane. -/
def Frame.sample : Frame → Nat → Nat → Nat → Nat
  | .raw seed depth, c, x, y => Config.freeNat (seed + (c * 8192 + y) * 8192 + x) % 2 ^ depth
  | .flat a b d, c, _, _ => pick3 c (a, b, d)
  | .mono base mid, c, x, y => if c = 0 then base.sample c x y else mid
  | .block base b, c, x, y => match b.at_ c x y with
    | some v => v
    | none => base.sample c x y
  | .copy base r src w h dx dy, c, x, y =>
    if r.holds c x y then
      src.sample c (edge (cdiv w (subsample c)) (x + wholeVec c dx)) (edge (cdiv h (subsample c)) (y + wholeVec c dy))
    else base.sample c x y
  | .paint base r hole colour d10, c, x, y =>
    if r.holds c x y ∧ hole.holds c x y = false then toCanvas d10 (pick3 c colour) else base.sample c x y
  | .scaled base clip px py pw ph src win from10 to10, c, x, y =>
    let k := subsample c
    let i := (x : Int) - px / k
    let j := (y : Int) - py / k
    if clip.holds c x y ∧ 0 ≤ i ∧ i < cdiv pw k ∧ 0 ≤ j ∧ j < cdiv ph k then
      let cols := taps 8 (cdiv win.w k) (cdiv pw k) i.toNat
      let rows := taps 6 (cdiv win.h k) (cdiv ph k) j.toNat
      let sum := (rows.map (fun v => v.1 * (cols.map (fun u => u.1 * (src.sample c (win.x / k + u.2) (win.y / k + v.2) : Int))).sum)).sum
      convertDepth from10 to10 (scaleRound from10 sum)
    else base.sample c x y
  | .bitmap base clip bx by_ bm d10, c, x, y =>
    match bm.blendOf clip bx by_ c x y with
    | some (a, ov) => blend d10 a ov (base.sample c x y)
    | none => base.sample c x y

/-- Mid-grey (08 R357, R358). -/
def midGrey (depth : Nat) : Frame := .flat (2 ^ (depth - 1)) (2 ^ (depth - 1)) (2 ^ (depth - 1))

/-! ### Placement in a tile (09 R380) -/

/-- An even number not above another. -/
def evenDown (n : Nat) : Nat := n / 2 * 2

/-- Place and size of a source window in a tile under FIT: 0 fits the whole window inside, 1 covers the tile; aspect kept, centred, on even
places and sizes (notes/assumptions/109.md). -/
def fitTile (fit1 : Bool) (tile : Rect) (w h : Nat) : Int × Int × Nat × Nat :=
  let wide := decide (tile.w * h ≤ tile.h * w)
  let (pw, ph) :=
    if wide == fit1 then (if fit1 then (2 * cdiv (w * tile.h) (2 * h), tile.h) else (max 2 (evenDown (w * tile.h / h)), tile.h))
    else if fit1 then (tile.w, 2 * cdiv (h * tile.w) (2 * w)) else (tile.w, max 2 (evenDown (h * tile.w / w)))
  (tile.x + ((tile.w : Int) - pw) / 4 * 2, tile.y + ((tile.h : Int) - ph) / 4 * 2, pw, ph)

/-- Where a label stands in a tile: LABEL 1 bottom left, 2 bottom right, 3 top left, 4 top right, inset from both edges (R387). -/
def labelAt (label margin : Nat) (tile : Rect) (b : Bitmap) : Int × Int :=
  (if label % 2 = 1 then (tile.x + margin : Nat) else (tile.x + tile.w : Nat) - (margin + b.w : Nat),
   if label ≤ 2 then (tile.y + tile.h : Nat) - (margin + b.h : Nat) else (tile.y + margin : Nat))

/-- How a tile of a layout is drawn: rectangle, FIT, LABEL, LABEL_MARGIN. -/
structure TileGeom where
  rect : Rect
  fit1 : Bool
  label : Nat
  margin : Nat
  deriving DecidableEq, Repr

/-- Settings by which a canvas is drawn: depth, FILL, border. -/
structure DrawCtx where
  d10 : Bool
  fill : Nat × Nat × Nat
  borderW : Nat
  border : Nat × Nat × Nat
  deriving DecidableEq, Repr

/-- Draws the source picture in a tile, over FILL. -/
def drawSource (x : DrawCtx) (g : TileGeom) (f : Frame) (pic : Option Image) : Frame :=
  match pic with
  | none => f
  | some i =>
    let (px, py, pw, ph) := fitTile g.fit1 g.rect i.win.w i.win.h
    .scaled f g.rect px py pw ph i.frame i.win i.d10 x.d10

/-- Draws a tile (R380): FILL, and when it has a source the picture, the border and the label. -/
def drawTile (x : DrawCtx) (g : TileGeom) (t : Option TileShow) (f : Frame) : Frame :=
  let f := Frame.paint f g.rect {} x.fill x.d10
  match t with
  | none => f
  | some t =>
    let f := drawSource x g f t.pic
    let f := if x.borderW = 0 then f else Frame.paint f g.rect (g.rect.inner x.borderW) x.border x.d10
    match t.label with
    | some b =>
      if g.label = 0 ∨ 4 < g.label then f
      else
        let (lx, ly) := labelAt g.label g.margin g.rect b
        .bitmap f g.rect lx ly b x.d10
    | none => f

/-- Draws a canvas: FILL, the tiles in ascending index, then the room overlays. -/
def drawCanvas (x : DrawCtx) (w h : Nat) (tiles : List (TileGeom × Option TileShow)) (overlays : List Bitmap) : Frame :=
  let f := tiles.foldl (fun f t => drawTile x t.1 t.2 f)
    (.flat (toCanvas x.d10 x.fill.1) (toCanvas x.d10 x.fill.2.1) (toCanvas x.d10 x.fill.2.2))
  overlays.foldl (fun f b => .bitmap f { w, h } b.x b.y b x.d10) f

/-! ### Levels of the codecs (08 R338; 09 R394), from their standards (notes/assumptions/110.md) -/

/-- A level: its number in tenths, largest picture in luma samples, squares of width and height, luma samples a second, and kbit/s. -/
structure VideoLevel where
  num : Nat
  size : Nat
  w2 : Nat
  h2 : Nat
  rate : Nat
  kbps : Nat
  deriving DecidableEq, Repr

/-- A level of H.264 from its limits in macroblocks; no dimension exceeds the root of eight times the largest picture. -/
def avcLevel (num mbps fs kbps : Nat) : VideoLevel :=
  { num, size := 256 * fs, w2 := 2048 * fs, h2 := 2048 * fs, rate := 256 * mbps, kbps }

/-- A level of H.265. -/
def hevcLevel (num size rate kbps : Nat) : VideoLevel := { num, size, w2 := 8 * size, h2 := 8 * size, rate, kbps }

/-- A level of AV1. -/
def av1Level (num size w h rate kbps : Nat) : VideoLevel := { num, size, w2 := w * w, h2 := h * h, rate, kbps }

/-- The levels of a codec that the stalls know, lowest first. -/
def levelsOf (codec : Nat) : List VideoLevel :=
  match codec with
  | 8 => [avcLevel 10 1485 99 64, avcLevel 11 3000 396 192, avcLevel 12 6000 396 384, avcLevel 13 11880 396 768, avcLevel 20 11880 396 2000,
      avcLevel 21 19800 792 4000, avcLevel 22 20250 1620 4000, avcLevel 30 40500 1620 10000, avcLevel 31 108000 3600 14000,
      avcLevel 32 216000 5120 20000, avcLevel 40 245760 8192 20000, avcLevel 41 245760 8192 50000, avcLevel 42 522240 8704 50000,
      avcLevel 50 589824 22080 135000, avcLevel 51 983040 36864 240000, avcLevel 52 2073600 36864 240000]
  | 9 => [hevcLevel 10 36864 552960 128, hevcLevel 20 122880 3686400 1500, hevcLevel 21 245760 7372800 3000,
      hevcLevel 30 552960 16588800 6000, hevcLevel 31 983040 33177600 10000, hevcLevel 40 2228224 66846720 12000,
      hevcLevel 41 2228224 133693440 20000, hevcLevel 50 8912896 267386880 25000, hevcLevel 51 8912896 534773760 40000]
  | _ => [av1Level 20 147456 2048 1152 4423680 1500, av1Level 21 278784 2816 1584 8363520 3000, av1Level 30 665856 4352 2448 19975680 6000,
      av1Level 31 1065024 5504 3096 31950720 10000, av1Level 40 2359296 6144 3456 70778880 12000, av1Level 41 2359296 6144 3456 141557760 20000,
      av1Level 50 8912896 8192 4352 267386880 30000, av1Level 51 8912896 8192 4352 534773760 40000]

/-- Size as a codec's level counts it: H.264 in whole macroblocks. -/
def levelSize (codec n : Nat) : Nat := if codec = 8 then cdiv n 16 * 16 else n

/-- Does a level permit a picture of a size? -/
def VideoLevel.holds (l : VideoLevel) (codec w h : Nat) : Bool :=
  decide (levelSize codec w * levelSize codec h ≤ l.size) && decide (levelSize codec w ^ 2 ≤ l.w2) &&
    decide (levelSize codec h ^ 2 ≤ l.h2)

/-! ### What the stalls decode (08 R337-R339) -/

/-- Profile and level of R337. -/
def profileOk (codec : Nat) (h : PicHeader) : Bool :=
  match codec with
  | 8 => (h.profile == .constrainedBaseline || h.profile == .main || h.profile == .high) && decide (h.level ≤ 52)
  | 9 => (h.profile == .main || h.profile == .main10) && decide (h.level ≤ 51) && !h.highTier
  | _ => h.profile == .main && decide (h.level ≤ 51)

/-- Chroma format and bit depth of R337. -/
def formatOk (codec : Nat) (h : PicHeader) : Bool :=
  match codec with
  | 8 => h.depth == 8 && decide (h.chroma ≤ 1)
  | 9 => h.chroma == 1 && (h.depth == 8 || (h.depth == 10 && h.profile == .main10))
  | _ => decide (h.chroma ≤ 1) && (h.depth == 8 || h.depth == 10)

/-- Does a picture keep to 8,192 × 4,352 and to its level (R338)? -/
def sizeOk (codec : Nat) (h : PicHeader) : Bool :=
  decide (h.width ≤ 8192) && decide (h.height ≤ 4352) &&
    (match (levelsOf codec).filter (fun (l : VideoLevel) => decide (l.num ≤ h.level)) with
     | [] => (levelsOf codec).take 1
     | l => l.drop (l.length - 1)).all (fun (l : VideoLevel) => l.holds codec h.width h.height)

/-- The code of R339 of a picture under the decode profile of a target, 0 when it breaks no rule; of several, the lowest
(notes/assumptions/111.md). -/
def unsupportedCode (codec : Nat) (t : Target) (h : PicHeader) : Nat :=
  if profileOk codec h = false then 1
  else if formatOk codec h = false then 2
  else if codec = 8 ∧ h.fields then 3
  else if codec = 0x0A ∧ h.largeScaleTile then 4
  else if t.maxW < h.width ∨ t.maxH < h.height ∨ sizeOk codec h = false then 5
  else if t.dpb < h.dpb then 6
  else if (h.depth = 10 ∧ t.d10 = false) ∨ (h.bPictures ∧ t.bframes = false) then 7
  else 0

/-! ### Motion search and tools of the encoders (09 R390, R392, R394) -/

/-- The hints of a leader of w × h from the vectors of the primary leader of pw × ph: for each of its blocks the vector of the block at the
same place, scaled to its size and clipped to the window (R390, R392; notes/assumptions/112.md). -/
def hintsFrom (vectors : List BlockVec) (pw ph w h : Nat) : List BlockVec :=
  let cols := cdiv w 16
  let pcols := cdiv pw 16
  (List.range (cols * cdiv h 16)).map (fun i =>
    let bx := i % cols * pw / w
    let by_ := i / cols * ph / h
    let v := (vectors[by_ * pcols + bx]?).getD {}
    BlockVec.clip { v with x := v.x * w / pw, y := v.y * h / ph })

/-- Is a tool in the table of R394 for a codec and profile? -/
def toolListed (codec profile : Nat) (t : EncTool) : Bool :=
  match codec, t with
  | _, .intraPicture => true
  | _, .interPicture => true
  | _, .oneReference => true
  | _, .deblocking => true
  | _, .transform4x4 => true
  | 8, .cavlc => profile == 0
  | 8, .cabac => profile != 0
  | 8, .intra4x4 => true
  | 8, .intra16x16 => true
  | 8, .intra8x8 => profile == 2
  | 8, .transform8x8 => profile == 2
  | 8, .refMarking => true
  | 8, .prefixNal => true
  | 9, .temporalSwitch => true
  | 9, .cabac => true
  | 9, .intraAngular => true
  | 9, .merge5 => true
  | 9, .tmvp => true
  | 9, .transform8x8 => true
  | 9, .transformLarge => true
  | 9, .transformSkip => true
  | 9, .signHiding => true
  | 9, .sao => true
  | 0x0A, .intraAv1 => true
  | 0x0A, .regularInterpolation => true
  | 0x0A, .transform8x8 => true
  | 0x0A, .transformLarge => true
  | 0x0A, .cdef => true
  | _, _ => false

/-- The lowest level that covers a rung's size, picture rate and RATE_MAX_KBPS; the highest known when none does
(notes/assumptions/110.md). -/
def rungLevel (codec profile w h fps kbps : Nat) : Nat :=
  let covers (l : VideoLevel) : Bool :=
    l.holds codec w h && decide (levelSize codec w * levelSize codec h * fps ≤ l.rate) &&
      decide (kbps ≤ if codec = 8 ∧ profile = 2 then l.kbps * 5 / 4 else l.kbps)
  match (levelsOf codec).find? covers with
  | some l => l.num
  | none => ((levelsOf codec).getLast?.map (·.num)).getD 0

/-- Is a result one that the encoders produce (R392, R394): only tools of the table, a key picture without inter prediction, with its
parameter sets and what they signal, a dependency descriptor for every packet of AV1 (R397), and no vector outside the window? -/
def encodeFits (z : EncodeResult) (codec profile level : Nat) (key : Bool) : Bool :=
  z.tools.all (toolListed codec profile) && !(key && z.tools.contains .interPicture) && z.mvs.all (·.inWindow) &&
    z.signal == (if key then some { profile, level } else none) && (!key || z.units.any (·.params)) &&
    (codec != 0x0A || z.units.all (fun u => u.dd != []))

end Machine

end Sys2Proof
end

