-- ==== Sys2Proof/Machine/Stalls.lean ====
section
/-! DEFINITION. Video decoding in the stalls (08): when a picture is decoded, its shares, damage, chains of pending pictures and
re-decode (04 R195-R199). -/
namespace Sys2Proof.Machine

/-! ### Reading targets -/

/-- A counter of block 0x07 of a stall (08 R372). -/
def stCtr (stall off : Nat) : Nat := ctr 7 stall off

/-- A decode target. -/
def State.target (s : State) (k : Nat) : Option Target := look s.media.targets k

/-- Updates a decode target. -/
def State.modTarget (s : State) (k : Nat) (f : Target → Target) : State :=
  s.modMedia (fun m => { m with targets := adj m.targets k f })

/-- Updates a picture of a target. -/
def State.modPic (s : State) (k n : Nat) (f : Picture → Picture) : State :=
  s.modTarget k (fun t => { t with pics := t.pics.map (fun p => if p.num = n then f p else p) })

/-- A picture of a target. -/
def Target.pic (t : Target) (n : Nat) : Option Picture := t.pics.find? (fun p => p.num == n)

/-- The streams of a target with their places in a simulcast group. -/
def State.members (s : State) (t : Target) : List (Nat × Nat) :=
  t.streams.filterMap (fun i => (look s.objs.streams i).map (fun x => (i, x.simIndex)))

/-- The member that a target is to decode: DEC_SIM, or the highest below it that exists (R340). -/
def State.wantedMember (s : State) (t : Target) : Option (Nat × Nat) :=
  ((s.members t).filter (fun p => decide (p.2 ≤ t.decSim))).foldl (fun (b : Option (Nat × Nat)) p =>
    match b with
    | none => some p
    | some q => if q.2 < p.2 then some p else b) none

/-- The stream that a target decodes: of a simulcast group, the member decoded, else the one that it is to decode (R340, R359). -/
def State.targetSource (s : State) (k : Nat) (t : Target) : Nat :=
  ((((s.members t).find? (fun p => t.member == some p.2)).or (s.wantedMember t)).map (·.1)).getD (t.streams.headD k)

/-- Does a target decode a picture, and is it due?  Its layer is at most (DEC_S, DEC_T) and its member the one decoded, or the wanted one,
which takes over at a key picture (R340); with packets missing it is due DEC_WAIT_MS after a packet of a later picture (R345). -/
def State.takesPicture (s : State) (t : Target) (i : PicInfo) : Bool :=
  decide (i.layer.1 ≤ t.decS) && decide (i.layer.2 ≤ t.decT) &&
  (i.missing.isEmpty || i.later.any (fun a => decide (a + s.fld 9 2 2 * 1000 * us ≤ s.now))) &&
  (i.sim.all (fun j => t.member == some j || ((i.key || t.member == none) && (s.wantedMember t).any (fun p => p.2 == j))))

/-- The target on the member of a picture that it decodes. -/
def Target.onMember (t : Target) (i : PicInfo) : Target := { t with member := i.sim.or t.member }

/-- Handle by which events and requests name a target: that of its source. -/
def State.targetHandle (s : State) (k : Nat) (t : Target) : Nat := s.streamH (s.targetSource k t)

/-- Requests a key picture for a target (R359); `fresh` starts its repetition anew. Requests merge with those of R277. -/
def State.keyRequest (s : State) (k stall : Nat) (fresh : Bool) : State :=
  match s.target k with
  | none => s
  | some t =>
    let i := s.targetSource k t
    let before := (look s.objs.streams i).bind (·.pliAt)
    let s := s.requestKey i (some (bit (s.fld 9 4 1) 2))
    let after := (look s.objs.streams i).bind (·.pliAt)
    let s := if before ≠ after then s.bump (stCtr stall 112) else s
    if fresh ∧ t.keyReq = none then s.modTarget k (fun t => { t with keyReq := some (s.fld 9 10 1, s.now) }) else s

/-! ### Shares (R348, R349) -/

/-- Samples of consecutive partitions that one share may take within a limit while `keep` partitions remain for the others. -/
def fillShare (limit keep : Nat) : Nat → List Nat → Nat × List Nat
  | acc, [] => (acc, [])
  | acc, p :: rest => if acc + p ≤ limit ∧ keep ≤ rest.length then fillShare limit keep (acc + p) rest else (acc, p :: rest)

/-- Contiguous groups of partitions within a limit, each as large as it may be: the samples of each, none when the limit is too
small. -/
def groupShares (limit : Nat) : Nat → List Nat → Option (List Nat)
  | 0, [] => some []
  | 0, _ => none
  | _ + 1, [] => none
  | n + 1, p :: rest =>
    if limit < p then none
    else
      let (g, more) := fillShare limit n p rest
      (groupShares limit n more).map (g :: ·)

/-- Sums of contiguous partitions that begin with the first. -/
def prefixSums : Nat → List Nat → List Nat
  | _, [] => []
  | acc, p :: rest => (acc + p) :: prefixSums (acc + p) rest

/-- Sums of every contiguous group. -/
def groupSums : List Nat → List Nat
  | [] => []
  | p :: rest => prefixSums 0 (p :: rest) ++ groupSums rest

/-- The grouping into k shares whose largest is least; among equals the one whose first share is larger. -/
def bestShares (k : Nat) (parts : List Nat) : List Nat :=
  let fits := (groupSums parts).filter (fun m => (groupShares m k parts).isSome)
  match fits with
  | [] => parts
  | m :: ms => (groupShares (ms.foldl min m) k parts).getD parts

/-- Samples of the shares of a picture when it is divided into k (R349). -/
def sharesOf (i : PicInfo) (k : Nat) : List Nat :=
  if i.wfRows ≠ 0 then (List.range k).map (fun j => cdiv (i.wfRows - j) k * i.wfRow) else bestShares k i.parts

/-- Time of the largest share in ns; a wavefront lags two CTUs a stall. -/
def shareNs (i : PicInfo) (k : Nat) : Nat :=
  (sharesOf i k).foldl max 0 + (if i.wfRows ≠ 0 then (k - 1) * 2 * i.wfCtu else 0)

/-- Number of shares: the least k that keeps within DEC_TARGET_US, else the most (R349). -/
def shareCount (i : PicInfo) (targetUs : Nat) : Nat :=
  let n := max 1 (if i.wfRows ≠ 0 then i.wfRows else i.parts.length)
  let top := min 6 n
  (((List.range top).map (· + 1)).find? (fun k => decide (shareNs i k ≤ targetUs * 1000))).getD top

/-- Luma samples of a picture. -/
def lumaOf (i : PicInfo) : Nat := if i.wfRows ≠ 0 then i.wfRows * i.wfRow else i.parts.sum

/-- Cycle budget of a decode operation (R353). -/
def State.decodeBudget (s : State) (samples : Nat) : Nat := cdiv (3 * samples * s.fld 9 7 1) 8 + 90000

/-! ### Resolution -/

/-- Stall that a target's pictures are counted at when none decoded them: the first of its yard (notes/assumptions/17.md). -/
def Target.stall0 (t : Target) : Nat := 6 * t.yard

/-- Counts a picture once it is resolved (R372; 04 R184, R191). -/
def State.countPic (s : State) (p : Picture) (x : PicState) (wasPending : Bool) : State :=
  let c (off : Nat) : Nat := stCtr p.stall off
  let s := (s.bump (c 0)).addCnt (c 8) p.samples
  let s := if x = .concealed then s.bump (c 24) else if x = .void then s.bump (c 32) else s
  let s := if wasPending then s.bump (c 40) else s
  if p.substituted then s.bump (c 128) else s

/-- The writes outside its buffers are counted, and the event is posted once, for a picture that resolves (R355; 04 R184, R186). -/
def State.tellClips (s : State) (k : Nat) (p : Picture) : State :=
  match p.clips, s.target k with
  | (stall, _) :: _, some t =>
    (forEach p.clips (fun (st, n) s => s.addCnt (stCtr st 104) n) s).event (yardSrc t.yard 13) (s.targetHandle k t + stall * 2 ^ 32) t.owner
  | _, _ => s

/-- A picture resolves. -/
def State.resolvePic (s : State) (k : Nat) (p : Picture) (x : PicState) (voidRef wasPending : Bool) : State :=
  let s := s.modPic k p.num (fun q => { q with state := x, voidRef, endAt := if wasPending then q.endAt else s.now })
  let s := (s.countPic p x wasPending).tellClips k p
  let s := s.modTarget k (fun t => { t with
    everProduced := t.everProduced || x == .confirmed || x == .concealed, hasConfirmed := t.hasConfirmed || x == .confirmed })
  if p.info.key ∧ x ≠ .void then s.modTarget k (fun t => { t with keyReq := none }) else s

/-- A picture that is never decoded becomes void or skipped. -/
def State.leavePic (s : State) (k : Nat) (p : Picture) (x : PicState) : State :=
  let s := s.modPic k p.num (fun q => { q with state := x, voidRef := x == .void, endAt := s.now })
  if x = .void then s.bump (stCtr p.stall 32) else s

/-- Is a picture void as a reference? -/
def Picture.refVoid (p : Picture) : Bool := p.state == .void || p.voidRef

/-- Does a picture reference a void one of its target (04 R198)? -/
def Target.refsVoid (t : Target) (p : Picture) : Bool := p.info.refs.any (fun n => (t.pic n).any (·.refVoid))

/-- Chains that a picture joins: those of its pending references. -/
def Target.joins (t : Target) (p : Picture) : List Chain := t.chains.filter (fun c => c.members.any (fun n => p.info.refs.contains n))

/-! ### Chains (04 R196-R199; 08 R361-R364) -/

/-- What a decoded picture resolves to when none of its inputs is void or pending, and whether it is void as a reference (R354, R357). -/
def Picture.outcome (p : Picture) : PicState × Bool :=
  if p.overrun ∨ p.damaged ∨ p.info.refLost then (.concealed, true) else (.confirmed, false)

/-- Drops a target's re-decode operations of one picture list. -/
def State.dropAgain (s : State) (k : Nat) (nums : List Nat) : State :=
  s.dropOps (fun o => match o.kind with
    | .decode t n _ again => t == k && again && nums.contains n
    | _ => false)

/-- The stall at which a chain is counted: the one that decoded the first share of its first picture. -/
def Target.chainStall (t : Target) (c : Chain) : Nat := ((t.pic c.first).map (·.stall)).getD t.stall0

/-- Chains without some pictures; one that has none left is gone. -/
def chainsWithout (chains : List Chain) (nums : List Nat) : List Chain :=
  (chains.map (fun x => { x with
    members := x.members.filter (fun n => !nums.contains n), todo := x.todo.filter (fun n => !nums.contains n) })).filter
      (fun x => x.members != [])

/-- A chain becomes void: its pictures are void, and a key picture is requested (04 R198; R364). -/
def State.endChain (s : State) (k : Nat) (c : Chain) : State :=
  match s.target k with
  | none => s
  | some t =>
    let stall := t.chainStall c
    let s := (s.dropAgain k c.members).modTarget k (fun t => { t with chains := chainsWithout (t.chains.filter (fun x => x != c)) c.members })
    let s := forEach c.members (fun n s =>
      match t.pic n with
      | some p => if p.state = .pending then s.resolvePic k p .void true true else s
      | none => s) s
    (s.bump (stCtr stall 56)).keyRequest k stall true

/-- A pending picture becomes void: with it its chain when it is the first, for every other references it (04 R188, R190, R196). -/
def State.voidMember (s : State) (k : Nat) (p : Picture) : State :=
  match (s.target k).bind (fun t => t.chains.find? (fun c => c.first == p.num)) with
  | some c => s.endChain k c
  | none => (s.modTarget k (fun t => { t with chains := chainsWithout t.chains [p.num] })).resolvePic k p .void true true

/-- A chain becomes confirmed: its pictures resolve in decode order, but for those that another chain still holds (04 R190, R197). -/
def State.confirmChain (s : State) (k : Nat) (c : Chain) : State :=
  match s.target k with
  | none => s
  | some t =>
    let rest := t.chains.filter (fun x => x != c)
    let s := s.modTarget k (fun t => { t with chains := rest })
    let s := forEach c.members (fun n s =>
      match s.target k with
      | none => s
      | some t =>
        match t.pic n with
        | some p =>
          if p.state = .pending ∧ rest.all (fun x => !x.members.contains n) then
            if t.refsVoid p then s.resolvePic k p .void true true else s.resolvePic k p p.outcome.1 p.outcome.2 true
          else s
        | none => s) s
    s.bump (stCtr (t.chainStall c) 48)

/-- Has a chain been decoded again to its end, with nothing missing (R361, R363)? -/
def Chain.settled (c : Chain) : Bool := c.todo == [] && c.missing == [] && c.good != []

/-- Chains that are decoded again to their end become confirmed. -/
def State.settleChains (s : State) (k : Nat) : State :=
  forEach (((s.target k).map (fun t => t.chains.filter (·.settled))).getD []) (fun c s => s.confirmChain k c) s

/-! ### Starting decodes -/

/-- The substitute of a reference never received: mid-grey, or with SUBST the last confirmed picture (R357). -/
def State.substitute (s : State) (t : Target) (depth : Nat) : Frame :=
  let last := (t.pics.filter (fun q => q.state == .confirmed)).getLast?
  if bit (s.fld 9 4 1) 3 then (last.map (·.frame)).getD (midGrey depth) else midGrey depth

/-- A buffer before a decode writes it: undefined (R352), with mid-grey chroma for a monochrome picture (R338). -/
def State.newBuffer (s : State) (h : PicHeader) : Frame × State :=
  let f := Frame.raw s.free h.depth
  (if h.chroma = 0 then .mono f (2 ^ (h.depth - 1)) else f, { s with free := s.free + 2 ^ 28 })

/-- Creates the decode operations of a picture (R347, R349, R353, R362). -/
def State.openShares (s : State) (k : Nat) (t : Target) (p : Picture) (again : Bool) : State :=
  let n := shareCount p.info (s.fld 9 12 4)
  let shares := sharesOf p.info n
  let prio := s.nodePrio t.room 0
  let prio := if again then min 15 (prio + 4) else prio
  let against := if p.info.refLost then some (s.substitute t p.info.hdr.depth) else none
  let (work, s) := s.newBuffer p.info.hdr
  let s := s.modPic k p.num (fun q => { q with
    shares := shares.length, left := shares.length, samples := lumaOf p.info, work, against, substituted := against.isSome
    clipped := false, poisoned := false, damaged := false, overrun := false
    state := if again then q.state else .decoding, lossy := if again then q.lossy else !q.info.missing.isEmpty })
  forEach shares.zipIdx (fun (n, j) s => s.addOp (.decode k p.num j again) t.yard 0 prio (s.decodeBudget n)) s

/-- Is a decode of the target ready or running (R347)? -/
def State.decoding (s : State) (k : Nat) : Bool :=
  let mine (o : Op) : Bool := match o.kind with
    | .decode t _ _ _ => t == k
    | _ => false
  s.media.ops.any mine || s.media.noSlot.any mine

/-- Starts what a target decodes next: a picture of a chain that is decoded again, else the next picture in decode order; one
that references a void picture is void (R347, R363; 04 R198). -/
def startNext (k : Nat) : Nat → State → State
  | 0, s => s
  | fuel + 1, s =>
    match s.target k with
    | none => s
    | some t =>
      if s.decoding k then s
      else
        match t.chains.findSome? (fun c => c.todo.head?.bind t.pic) with
        | some p => if t.refsVoid p then startNext k fuel ((s.voidMember k p).settleChains k) else s.openShares k t p true
        | none =>
          match t.pics.find? (fun p => p.state == .waiting) with
          | none => s
          | some p => if t.refsVoid p then startNext k fuel (s.leavePic k p .void) else s.openShares k t p false

/-- Starts what can start, with fuel for every picture of the target. -/
def State.advance (s : State) (k : Nat) : State := startNext k (((s.target k).map (fun t => t.pics.length)).getD 0 + 1) s

/-! ### Re-decode (R361-R363) -/

/-- A chain becomes void, and the target goes on. -/
def State.voidChain (s : State) (k : Nat) (c : Chain) : State := (s.endChain k c).advance k

/-- Busy cycles of a yard's stalls over the last 8 ticks, and the cycles there were (R361). -/
def State.stallCycles (s : State) (y : Nat) : Nat × Nat := (((lookD s.media.utilTicks y []).take 8).sum, 8 * 3750000 * s.stallsIn y)

/-- Stall utilisation of a yard over the last 8 ticks, in permille (R361). -/
def State.stallUtil (s : State) (y : Nat) : Nat := if (s.stallCycles y).2 = 0 then 0 else (s.stallCycles y).1 * 1000 / (s.stallCycles y).2

/-- The re-decode decision: 1 granted, 2 refused on utilisation or size, 3 refused on time; 4 is added when the template fixes it
(R361, R372; 14 R595). -/
def State.redecodeDecision (s : State) (t : Target) (c : Chain) : Nat :=
  let policy := bits (s.fld 9 4 1) 1 0
  let samples := (c.members.map (fun n => ((t.pic n).map (fun p => lumaOf p.info)).getD 0)).sum
  let inTime := decide (samples * 1000 ≤ c.ends - s.now)
  if policy = 0 then 6
  else if s.power.level ≠ 0 then 2
  else if policy = 2 then (if inTime then 5 else 7)
  else if s.fld 9 5 1 * (s.stallCycles t.yard).2 < 100 * (s.stallCycles t.yard).1 ∨ s.fld 9 6 1 < c.members.length then 2
  else if inTime then 1 else 3

/-- Takes the decision for a chain whose last missing packet has arrived, and acts on it (R361-R363). -/
def State.decideChain (s : State) (k : Nat) (c : Chain) : State :=
  match s.target k with
  | none => s
  | some t =>
    let d := s.redecodeDecision t c
    let stall := t.chainStall c
    let s := s.modMedia (fun m => { m with lastDecision := put m.lastDecision t.yard d })
    if d % 4 = 1 then
      let todo := c.members.filter (fun n => !c.good.contains n)
      ((s.bump (stCtr stall 64)).modTarget k (fun t => { t with
        chains := t.chains.map (fun x => if x = c then { x with todo } else x) })).advance k
    else (s.bump (stCtr stall 72)).voidChain k c

/-- A packet that was missing arrives confirmed: pictures that wait and chains lose it; a chain that lacks nothing more is decided
(R361). -/
def State.packetArrived (s : State) (stream ext : Nat) : State :=
  match s.media.targets.find? (fun kv => kv.2.streams.contains stream) with
  | none => s
  | some (k, t) =>
    if t.chains.any (fun c => c.missing.contains ext) ∨ t.pics.any (fun p => p.info.missing.contains ext) then
      let done := t.chains.filter (fun c => c.missing == [ext])
      let s := s.modTarget k (fun t => { t with
        pics := t.pics.map (fun p => { p with info := { p.info with missing := p.info.missing.filter (· != ext) } })
        chains := t.chains.map (fun c => { c with missing := c.missing.filter (· != ext) }) })
      forEach done (fun c s => s.decideChain k { c with missing := [] }) s
    else s

/-- Is a NACK outstanding for a missing packet of a stream (R360)? -/
def State.nackOut (s : State) (x : Stream) (ext : Nat) : Bool :=
  let tries := s.fld 6 24 1
  let rtt := max (((look s.objs.legs x.leg).map (·.rttUs)).getD 0) 20000 * us
  match x.gaps.find? (fun g => g.ext == ext) with
  | some g => tries != 0 && (decide (g.tries < tries) || decide (s.now < g.last + rtt))
  | none => false

/-! ### PICTURE_DUE -/

/-- Pictures due, and those of them decoded, in the last 400 ticks. -/
def Target.rate (t : Target) (tick : Nat) : Nat × Nat :=
  let w := t.dueTicks.filter (fun p => decide (tick < p.1 + 400))
  (w.length, (w.filter (·.2)).length)

/-- Is a non-reference picture skipped, and is it the throttle that skips it (R344; 14 R595)? -/
def State.skips (s : State) (t : Target) (i : PicInfo) : Option Bool :=
  let (due, done) := t.rate s.tick
  if i.nonRef = false then none
  else if t.fps < due ∧ t.fps ≤ done then some false
  else if s.power.level ≠ 0 ∧ 50000000 * s.clockPct * s.stallsIn t.yard < stallLoad5 s.objs.adms t.yard then some true
  else none

/-- PICTURE_DUE (R345): a picture that the target decodes takes its place in decode order, decoded, void, skipped or unsupported; any
other leaves it alone. -/
def pictureDue (k : Nat) (i : PicInfo) (s : State) : State :=
  match s.target k with
  | none => s
  | some t =>
    if s.mediaOn = false ∨ s.takesPicture t i = false then s
    else
      let t := t.onMember i
      let n := t.next
      let stall := t.stall0
      let skip := s.skips t i
      let code := if i.headersOk then unsupportedCode (((look s.objs.streams (s.targetSource k t)).map (·.codec)).getD 0) t i.hdr else 0
      let p : Picture := { num := n, info := i, stall, window := s.fld 9 0 2 }
      let s := s.modTarget k (fun t => { t.onMember i with
        next := n + 1, pics := t.pics ++ [p]
        dueTicks := (s.tick, skip.isNone) :: t.dueTicks.filter (fun q => decide (s.tick < q.1 + 400)) })
      let void_ (s : State) : State := s.leavePic k p .void
      if i.headersOk = false then
        ((void_ (s.modTarget k (fun t => { t with needKey := true }))).keyRequest k stall true).advance k
      else if code ≠ 0 ∨ (t.unsupported ∧ i.key = false) then
        let s := (void_ s).bump (stCtr stall 120)
        if t.unsupported then s
        else (s.modTarget k (fun t => { t with unsupported := true })).event (yardSrc t.yard 12) (s.targetHandle k t + code * 2 ^ 32) t.owner
      else
        let s := s.modTarget k (fun t => { t with unsupported := false })
        if t.needKey ∧ i.key = false then void_ s
        else
          let s := s.modTarget k (fun t => { t with needKey := false })
          match skip with
          | some throttle =>
            let s := (s.leavePic k p .skipped).bump (stCtr stall 136)
            if throttle then s.bump (ctr 0x0D 0 72) else s
          | none =>
            let src := look s.objs.streams (s.targetSource k t)
            if p.window ≠ 0 ∧ i.missing.any (fun e => !((src.map (fun x => s.nackOut x e)).getD false)) then
              ((void_ s).keyRequest k stall true).advance k
            else
              let waits := t.chains.any (fun c => c.todo != [] && c.members.any (fun m => i.refs.contains m))
              (if waits then s.bump (stCtr ((t.chains.head?.map t.chainStall).getD stall) 88) else s).advance k

/-! ### DECODE_COMPLETE -/

/-- A picture enters a chain: those of its pending references, and one of its own when it was decoded with loss from none
(04 R196).  While a chain is decoded again, a picture whose first decode ends used what that replaces, and is decoded again too (R197);
one that lacks data waits for the decision its packets bring (R363). -/
def Target.enterChain (t : Target) (p : Picture) (now : Nat) : List Chain :=
  let joined := t.joins p
  if joined = [] then
    t.chains ++ [{ first := p.num, ends := now + p.window * 1000 * us, members := [p.num], missing := p.info.missing }]
  else
    t.chains.map (fun c => if joined.contains c then
      { c with
        members := c.members ++ [p.num], missing := c.missing ++ p.info.missing
        todo := if c.todo ≠ [] ∧ c.missing = [] ∧ p.info.missing = [] then c.todo ++ [p.num] else c.todo } else c)

/-- The last share of a picture's first decode has ended, seam pass included: the picture resolves or is pending (R350, R357). -/
def State.finishPic (s : State) (k n : Nat) : State :=
  match s.target k with
  | none => s
  | some t =>
    match t.pic n with
    | none => s
    | some p =>
      if p.clipped ∨ p.poisoned then ((s.resolvePic k p .void true false).keyRequest k p.stall true).advance k
      else if t.refsVoid p then (s.resolvePic k p .void true false).advance k
      else if p.lossy ∧ p.window = 0 then ((s.resolvePic k p .void true false).keyRequest k p.stall true).advance k
      else if p.lossy ∨ t.joins p ≠ [] then
        let chains := t.enterChain p s.now
        let s := s.modTarget k (fun t => { t with chains, everProduced := true })
        let s := s.modPic k n (fun q => { q with state := .pending, endAt := s.now, voidRef := p.outcome.2 })
        let s := if p.outcome.2 then s.keyRequest k p.stall true else s
        let ready := if p.lossy ∧ p.info.missing = [] then chains.filter (fun c => c.members.contains n && c.missing == []) else []
        (forEach ready (fun c s => s.decideChain k c) s).advance k
      else
        let s := s.resolvePic k p p.outcome.1 p.outcome.2 false
        (if p.outcome.2 then s.keyRequest k p.stall true else s).advance k

/-- A picture of a chain has been decoded again: damage of that decode counts as that of a first one (R354, R357), and the chain is
confirmed when the picture was the last and nothing is missing (R361, R363). -/
def State.finishAgain (s : State) (k n : Nat) : State :=
  match s.target k with
  | none => s
  | some t =>
    match t.pic n with
    | none => s
    | some p =>
      let s := (s.bump (stCtr p.stall 80)).modTarget k (fun t => { t with
        chains := t.chains.map (fun c => if c.todo.head? = some n then { c with todo := c.todo.drop 1, good := n :: c.good } else c) })
      let s := if p.clipped ∨ p.poisoned then (s.voidMember k p).keyRequest k p.stall true
        else if t.refsVoid p then s.voidMember k p
        else
          let s := s.modPic k n (fun q => { q with voidRef := p.outcome.2 })
          if p.outcome.2 then s.keyRequest k p.stall true else s
      (s.settleChains k).advance k

/-- Conceals a missing or undecodable block (R358): a copy from the most recent reference that is confirmed or pending, displaced by the
median of the vectors of its decoded neighbours; mid-grey when there is none. -/
def concealBlock (ref : Option Picture) (d10 : Bool) (f : Frame) (b : LostBlock) : Frame :=
  match ref with
  | some q => .copy f b.rect q.frame q.info.hdr.width q.info.hdr.height (median (b.vectors.map (·.1))) (median (b.vectors.map (·.2)))
  | none => .paint f b.rect {} (128, 128, 128) d10

/-- The most recent reference of a target before a picture that is confirmed or pending. -/
def Target.lastRef (t : Target) (n : Nat) : Option Picture :=
  (t.pics.filter (fun q => decide (q.num < n) && !q.info.nonRef && (q.state == .confirmed || q.state == .pending))).getLast?

/-- What a decode operation writes: the blocks it has reconstructed, and those it conceals. -/
def reconOver (r : Recon) (ref : Option Picture) (d10 : Bool) (f : Frame) : Frame :=
  r.lost.foldl (concealBlock ref d10) (r.blocks.foldl .block f)

/-- A share of a picture has ended; the last one completes the picture. -/
def State.shareDone (s : State) (k n : Nat) (again : Bool) (made : Recon) (f : Picture → Picture) : State :=
  let ref := (s.target k).bind (fun t => t.lastRef n)
  let s := s.modPic k n (fun p => { f p with left := p.left - 1, work := reconOver made ref (p.info.hdr.depth == 10) p.work })
  match (s.target k).bind (fun t => t.pic n) with
  | some p =>
    if p.left = 0 then
      let s := s.modPic k n (fun p => { p with frame := p.work })
      if again then s.finishAgain k n else s.finishPic k n
    else s
  | none => s

/-- DECODE_COMPLETE (R350): a decode operation that runs on a stall ends. -/
def decodeComplete (id : Nat) (r : DecodeResult) (s : State) : State :=
  match s.endingOp id r.cycles with
  | none => s
  | some o => s.underOp o (fun s =>
    match o.kind with
    | .decode k n _ again =>
      let stall := 6 * o.yard + o.unit.getD 0
      let s := ((s.endOp o r.cycles).addCnt (stCtr stall 144) (r.cycles - o.charged)).bump (stCtr stall 16)
      s.shareDone k n again r.made (fun p => { p with
        clips := if r.writeClipped = 0 then p.clips else p.clips ++ [(stall, r.writeClipped)]
        clipped := p.clipped || r.writeClipped != 0, poisoned := p.poisoned || r.poisoned || o.poisoned, damaged := p.damaged || r.syntaxError })
    | _ => s)

/-- The watchdog ends a decode operation: what it has reconstructed is kept, the rest of its share is concealed (R354). -/
def State.decodeOverrun (s : State) (o : Op) (k n : Nat) (again : Bool) (made : Recon) : State :=
  let stall := 6 * o.yard + o.unit.getD 0
  let s := ((s.bump (stCtr stall 96)).bump (stCtr stall 16)).addCnt (stCtr stall 144) (o.budget - o.charged)
  s.shareDone k n again made (fun p => { p with overrun := true })

/-- REPAIR_WINDOW_END: chains whose window has ended become void (04 R197; 08 R362, R363). -/
def repairWindowEnd (k : Nat) (s : State) : State :=
  match s.target k with
  | none => s
  | some t => forEach (t.chains.filter (fun c => decide (c.ends ≤ s.now))) (fun c s =>
      match s.target k with
      | some t => match t.chains.find? (fun x => x.first == c.first) with
        | some c => s.voidChain k c
        | none => s
      | none => s) s

/-- KEY_REPEAT: the request is repeated, or its tries have run out (R359). -/
def keyRepeat (k : Nat) (s : State) : State :=
  match s.target k with
  | none => s
  | some t =>
    match t.keyReq with
    | none => s
    | some (n, last) =>
      if s.now < last + s.fld 9 8 2 * 1000 * us then s
      else if n = 0 then
        (s.modTarget k (fun t => { t with keyReq := none })).event (yardSrc t.yard 14) (s.targetHandle k t) t.owner
      else (s.modTarget k (fun t => { t with keyReq := some (n - 1, s.now) })).keyRequest k t.stall0 false

/-! ### The commands of this file -/

/-- PICTURE_DUE (08 R345). -/
def execPictureDue (t target : Nat) (info : PicInfo) (s : State) : Host.Outcome State Fault Refusal :=
  .next (pictureDue target info (s.at t))

/-- DECODE_COMPLETE (08 R350). -/
def execDecodeComplete (t op : Nat) (res : DecodeResult) (s : State) : Host.Outcome State Fault Refusal :=
  .next (decodeComplete op res (s.at t))

/-- REPAIR_WINDOW_END (04 R197). -/
def execRepairWindowEnd (t target : Nat) (s : State) : Host.Outcome State Fault Refusal := .next (repairWindowEnd target (s.at t))

/-- KEY_REPEAT (08 R359). -/
def execKeyRepeat (t target : Nat) (s : State) : Host.Outcome State Fault Refusal := .next (keyRepeat target (s.at t))

end Sys2Proof.Machine
end

