-- ==== Sys2Proof/Machine/Rtp.lean ====
section
/-! DEFINITION. RTP packets: reading and building them with their header extensions (06 R248, R271, R273; 12 R524), extended
numbers (R261) and SRTP (R253, R258, R259). -/
namespace Sys2Proof.Machine

/-- An RTP packet in parts; `body` is the payload with its padding. -/
structure Rtp where
  marker : Bool
  pt : Nat
  seq : Nat
  ts : Nat
  ssrc : Nat
  csrc : Bytes := []
  exts : List (Nat × Bytes) := []
  pad : Bool := false
  body : Bytes := []
  deriving DecidableEq, Repr

/-- Elements of a one-byte or two-byte header extension (RFC 8285; notes/assumptions/18.md). -/
def readExts (two : Bool) : Nat → Bytes → List (Nat × Bytes)
  | 0, _ => []
  | _, [] => []
  | n + 1, b :: rest =>
    if b = 0 then readExts two n rest
    else if two then
      let len := byteAt rest 0
      (b.toNat, (rest.drop 1).take len) :: readExts two n (rest.drop (1 + len))
    else if b.toNat / 16 = 15 then []
    else
      let len := b.toNat % 16 + 1
      (b.toNat / 16, rest.take len) :: readExts two n (rest.drop len)

/-- Reads an RTP packet; none when it is too short for its own header. -/
def parseRtp (b : Bytes) : Option Rtp :=
  let b0 := byteAt b 0
  let cc := b0 % 16
  let x := bit b0 4
  let xo := 12 + 4 * cc
  let xlen := if x then 4 + 4 * be b (xo + 2) 2 else 0
  if b0 / 64 ≠ 2 ∨ b.length < xo + (if x then 4 else 0) ∨ b.length < xo + xlen then none
  else
    let raw := (b.drop (xo + 4)).take (xlen - 4)
    let exts := if x = false then [] else if be b xo 2 = 0xBEDE then readExts false raw.length raw
      else if be b xo 2 / 16 = 0x100 then readExts true raw.length raw else []
    some {
      marker := bit (byteAt b 1) 7, pt := byteAt b 1 % 128, seq := be b 2 2, ts := be b 4 4, ssrc := be b 8 4
      csrc := (b.drop 12).take (4 * cc), exts, pad := bit b0 5, body := b.drop (xo + xlen) }

/-- Bytes of the header extension: one-byte elements, two-byte ones when an element is longer than 16 bytes. -/
def buildExts (l : List (Nat × Bytes)) : Bytes :=
  if l = [] then []
  else
    let two := l.any (fun e => decide (16 < e.2.length ∨ e.2.length = 0))
    let raw := l.flatMap (fun (i, d) => if two then beBytes 1 i ++ beBytes 1 d.length ++ d else beBytes 1 (i * 16 + (d.length - 1)) ++ d)
    let words := cdiv raw.length 4
    beBytes 2 (if two then 0x1000 else 0xBEDE) ++ beBytes 2 words ++ padTo (4 * words) raw

/-- The bytes of a packet. -/
def buildRtp (r : Rtp) : Bytes :=
  beBytes 1 (128 + b2n r.pad * 32 + b2n (!r.exts.isEmpty) * 16 + r.csrc.length / 4) ++ beBytes 1 (b2n r.marker * 128 + r.pt % 128) ++
    beBytes 2 (r.seq % 65536) ++ beBytes 4 (r.ts % 2 ^ 32) ++ beBytes 4 (r.ssrc % 2 ^ 32) ++ r.csrc ++ buildExts r.exts ++ r.body

/-- An element of a packet; ID 0 names none. -/
def Rtp.ext (r : Rtp) (id : Nat) : Option Bytes := if id = 0 then none else (r.exts.find? (fun e => e.1 == id)).map (·.2)

/-- Writes an element of a packet that carries it (12 R522, R524). -/
def fillExt (pkt : Bytes) (id : Nat) (v : Bytes) : Bytes :=
  match parseRtp pkt with
  | some r => if (r.ext id).isSome then buildRtp { r with exts := r.exts.map (fun e => if e.1 = id then (id, v) else e) } else pkt
  | none => pkt

/-! ### Extended numbers (R261) -/

/-- The extended value nearest to the newest one; below 0 there is none. -/
def extend (v h w : Nat) : Option Nat :=
  let d := (v + 2 ^ w - h % 2 ^ w) % 2 ^ w
  if d < 2 ^ (w - 1) then some (h + d) else if 2 ^ w - d ≤ h then some (h - (2 ^ w - d)) else none

/-- Extended number of a packet of a stream. -/
def Stream.extendSeq (x : Stream) (seq : Nat) : Option Nat :=
  match x.extSeq with
  | none => some (x.roc * 65536 + seq)
  | some h => extend seq h 16

/-- Extended timestamp; one that would lie below 0 is taken as its wire value. -/
def Stream.extendTs (x : Stream) (ts : Nat) : Nat :=
  match x.extTs with
  | none => ts
  | some h => (extend ts h 32).getD ts

/-- Newest extended timestamp once ts has been seen, or sent. -/
def Stream.newestTs (x : Stream) (ts : Nat) : Nat := max (x.extTs.getD 0) (x.extendTs ts)

/-- E in 2^-32 kbit/s, and a percentage of it in kbit/s (R267, R268). -/
def Leg.e32 (l : Leg) : Nat := l.est * 2 ^ 32 + l.estFrac
def Leg.percentOf (l : Leg) (n : Nat) : Nat := l.e32 * n / 100 / 2 ^ 32

/-! ### SRTP (R253, R258, R259) -/

/-- The keys in service on an ingress stream, the new one first, the old one while the overlap lasts (R258). -/
def State.keysOf (s : State) (x : Stream) : List SrtpKey :=
  x.key.toList ++ (match x.oldKey with
    | some (o, e) => if s.now < e then [o] else []
    | none => [])

/-- Authenticates and opens a packet under the first key that it passes under: the clear packet. A stream without a key carries plain
RTP. -/
def State.openRtp (s : State) (x : Stream) (ext : Nat) (pkt : Bytes) : Option Bytes :=
  if x.key.isNone then some pkt else (s.keysOf x).findSome? (fun k => srtpOpen k.suite k.key (ext / 65536) pkt)

/-- Decrypts a packet whose tag is not in yet (04 R189): under the key that its tag will pass under, else under the newest key
(notes/assumptions/6.md). -/
def State.peekRtp (s : State) (x : Stream) (ext : Nat) (pkt : Bytes) : Bytes :=
  match s.openRtp x ext pkt, x.key with
  | some b, _ => b
  | none, some k => srtpPeek k.suite k.key (ext / 65536) pkt
  | none, none => pkt

/-- Does the replay window refuse a number: below it, or marked in it (R259)? `marks` are newest first. -/
def replayed (win : Nat) (marks : List Nat) (h : Option Nat) (ext : Nat) : Bool :=
  match h with
  | none => false
  | some top => decide (ext + win ≤ top) || marks.contains ext

/-- Marks a number and keeps what lies within the window. -/
def markReplay (win : Nat) (marks : List Nat) (top ext : Nat) : List Nat :=
  (ext :: marks).filter (fun m => decide (top < m + win))

/-- SRTCP context of a received packet: the ingress stream of its sender, else the first ingress stream of the leg with a key
(notes/assumptions/15.md). -/
def State.rtcpFrom (s : State) (leg sender : Nat) : Option (Nat × Stream) :=
  let ing := (s.streamsOf leg).filter (fun kv => !kv.2.egress)
  match ing.find? (fun kv => kv.2.ssrc == sender) with
  | some x => some x
  | none => ing.find? (fun kv => kv.2.key.isSome)

/-- SRTCP index of a packet: the 31 bits before its tag. -/
def srtcpIndexOf (k : SrtpKey) (pkt : Bytes) : Nat := be pkt (pkt.length - 4 - (if k.suite = 1 then 10 else 0)) 4 % 2 ^ 31

end Sys2Proof.Machine
end

