-- ==== Sys2Proof/Machine/Layers.lean ====
section
/-! DEFINITION. What the pipeline reads of a video packet's layer (06 R263): the dependency descriptor of the AV1 RTP payload format with
its template structure, and the headers of H.264 (RFC 6184), H.265 (RFC 7798) and AV1 payloads. -/
namespace Sys2Proof.Machine

/-- What is read of a packet: its layer by the dependency descriptor, or layer id and temporal id of its NAL units; the switch
indications (R263): layers whose decode target has "switch", a key picture, H.265 TSA and STSA pictures; and whether it ends the frame of
its layer. -/
structure PktInfo where
  dd : Option (Nat × Nat) := none
  switches : List (Nat × Nat) := []
  layerId : Nat := 0
  tid : Nat := 0
  key : Bool := false
  tsa : Bool := false
  stsa : Bool := false
  ends : Bool := false
  deriving DecidableEq, Repr

/-! ### The dependency descriptor -/

/-- n bits of a string from bit `pos` on, the first most significant; bits beyond its end are 0. -/
def bitsAt (b : Bytes) (pos n : Nat) : Nat :=
  let first := pos / 8
  let len := (pos + n + 7) / 8 - first
  be b first len / 2 ^ (8 * (first + len) - pos - n) % 2 ^ n

/-- Spatial and temporal layer of each template from `pos` on, and the position behind. -/
def ddLayers (b : Bytes) : Nat → Nat → Nat → Nat → List (Nat × Nat) × Nat
  | 0, pos, _, _ => ([], pos)
  | n + 1, pos, s, t =>
    match bitsAt b pos 2 with
    | 0 => let (l, e) := ddLayers b n (pos + 2) s t; ((s, t) :: l, e)
    | 1 => let (l, e) := ddLayers b n (pos + 2) s (t + 1); ((s, t) :: l, e)
    | 2 => let (l, e) := ddLayers b n (pos + 2) (s + 1) 0; ((s, t) :: l, e)
    | _ => ([(s, t)], pos + 2)

/-- Frame differences of one template: how many, and the position behind. -/
def ddDiffs (b : Bytes) : Nat → Nat → Nat × Nat
  | 0, pos => (0, pos)
  | n + 1, pos => if bitsAt b pos 1 = 1 then let (k, e) := ddDiffs b n (pos + 5); (k + 1, e) else (0, pos + 1)

/-- The same for n templates. -/
def ddAllDiffs (b : Bytes) : Nat → Nat → List Nat × Nat
  | 0, pos => ([], pos)
  | n + 1, pos =>
    let (k, p) := ddDiffs b 64 pos
    let (l, e) := ddAllDiffs b n p
    (k :: l, e)

/-- A non-symmetric number below n, and the position behind. -/
def nsAt (b : Bytes) (pos n : Nat) : Nat × Nat :=
  let w := Nat.log2 n + 1
  let m := 2 ^ w - n
  let v := bitsAt b pos (w - 1)
  if v < m then (v, pos + w - 1) else (bitsAt b pos w - m, pos + w)

/-- Skips n non-symmetric numbers below m. -/
def nsSkip (b : Bytes) (m : Nat) : Nat → Nat → Nat
  | 0, pos => pos
  | n + 1, pos => nsSkip b m n (nsAt b pos m).2

/-- Reads a template structure from bit `pos` on, and the position behind it. -/
def ddStructAt (b : Bytes) (pos ext : Nat) : DdStruct × Nat :=
  let dts := bitsAt b (pos + 6) 5 + 1
  let (layers, p) := ddLayers b 64 (pos + 11) 0 0
  let n := layers.length
  let dti (i j : Nat) : Nat := bitsAt b (p + 2 * (i * dts + j)) 2
  let (diffs, q) := ddAllDiffs b n (p + 2 * n * dts)
  let (chains, c) := nsAt b q (dts + 1)
  let after := if chains = 0 then c else nsSkip b chains dts c + 4 * n * chains
  let maxS := layers.foldl (fun m l => max m l.1) 0
  let behind := if bitsAt b after 1 = 1 then after + 1 + 32 * (maxS + 1) else after + 1
  let templates := (layers.zip diffs).zipIdx.map (fun (x, i) =>
    ({ s := x.1.1, t := x.1.2, dtis := (List.range dts).map (dti i), noRefs := x.2 == 0 } : DdTemplate))
  let targets := (List.range dts).map (fun j =>
    (templates.filter (fun x => x.dtis.getD j 0 != 0)).foldl (fun (m : Nat × Nat) x => (max m.1 x.s, max m.2 x.t)) (0, 0))
  ({ ext, offset := bitsAt b pos 6, dts, templates, layers := targets, chains }, behind)

/-- The decode target of a layer: that whose layer it is, else the lowest one that holds it (notes/assumptions/29.md). -/
def DdStruct.targetFor (st : DdStruct) (s t : Nat) : Option Nat :=
  match st.layers.idxOf? (s, t) with
  | some j => some j
  | none => (st.layers.zipIdx.foldl (fun (b : Option ((Nat × Nat) × Nat)) x =>
      if s ≤ x.1.1 ∧ t ≤ x.1.2 ∧ b.all (fun y => decide (x.1.1 < y.1.1 ∨ (x.1.1 = y.1.1 ∧ x.1.2 < y.1.2))) then some x else b) none).map (·.2)

/-- Skips the frame differences that a frame gives itself; are there none? -/
def ddOwnDiffs (b : Bytes) : Nat → Nat → Bool × Nat
  | 0, pos => (true, pos)
  | n + 1, pos =>
    let k := bitsAt b pos 2
    if k = 0 then (true, pos + 2) else (false, (ddOwnDiffs b n (pos + 2 + 4 * k)).2)

/-- Reads a dependency descriptor under the structure it carries, or else the given one: the layer, the layers of the decode targets that
it says "switch" for, whether it is a key picture; and the structure it carries. -/
def ddRead (b : Bytes) (ext : Nat) (known : Option DdStruct) : Option ((Nat × Nat) × List (Nat × Nat) × Bool) × Option DdStruct :=
  let long := decide (3 < b.length)
  let flag (i : Nat) : Bool := long && bitsAt b (24 + i) 1 == 1
  let (own, pos) := if flag 0 then
      let (st, e) := ddStructAt b 29 ext
      (some st, e)
    else (none, 29)
  match own.orElse (fun _ => known) with
  | none => (none, none)
  | some st =>
    let pos := if flag 1 then pos + st.dts else pos
    match st.templates[(bitsAt b 2 6 + 64 - st.offset) % 64]? with
    | none => (none, own)
    | some x =>
      let dtis := if flag 2 then (List.range st.dts).map (fun j => bitsAt b (pos + 2 * j) 2) else x.dtis
      let pos := if flag 2 then pos + 2 * st.dts else pos
      let noRefs := if flag 3 then (ddOwnDiffs b 64 pos).1 else x.noRefs
      let switches := [0, 1, 2].flatMap (fun a => [0, 1, 2].filterMap (fun t =>
        if (st.targetFor a t).any (fun j => dtis.getD j 0 == 2) then some (a, t) else none))
      (some ((min x.s 2, min x.t 2), switches, noRefs && x.s == 0), own)

/-! ### NAL units and OBUs -/

/-- The NAL units of an aggregation packet, each behind its 16-bit size. -/
def nalUnits : Nat → Bytes → List Bytes
  | 0, _ => []
  | n + 1, b =>
    if b.length < 3 then []
    else
      let k := be b 0 2
      ((b.drop 2).take k) :: nalUnits n (b.drop (2 + k))

/-- NAL units of an H.264 payload, a fragment under the type it carries. -/
def avcUnits (b : Bytes) : List Bytes :=
  let t := byteAt b 0 % 32
  if t = 24 then nalUnits b.length (b.drop 1)
  else if t = 28 then [beBytes 1 (byteAt b 0 / 32 * 32 + byteAt b 1 % 32) ++ b.drop 2]
  else [b]

/-- H.264: temporal_id and dependency_id of the NAL unit of type 14 that the payload holds, and an IDR picture, which its parameter sets
announce (RFC 6184). -/
def avcInfo (b : Bytes) : Option (Nat × Nat) × Bool :=
  let us := avcUnits b
  ((us.find? (fun u => byteAt u 0 % 32 == 14)).map (fun u => (byteAt u 3 / 32, byteAt u 2 / 16 % 8)),
    us.any (fun u => byteAt u 0 % 32 == 5 || byteAt u 0 % 32 == 7))

/-- Types of the NAL units of an H.265 payload, a fragment under the type it carries. -/
def hevcTypes (b : Bytes) : List Nat :=
  let t := byteAt b 0 / 2 % 64
  if t = 48 then (nalUnits b.length (b.drop 2)).map (fun u => byteAt u 0 / 2 % 64)
  else if t = 49 then [byteAt b 2 % 64]
  else [t]

/-- What an H.265 payload gives (RFC 7798): nuh_layer_id, temporal id, IRAP, which its parameter sets announce, TSA and STSA. -/
def hevcInfo (b : Bytes) : PktInfo :=
  let ts := hevcTypes b
  { layerId := bitsAt b 7 6, tid := bitsAt b 13 3 - 1
    key := ts.any (fun t => decide (16 ≤ t ∧ t ≤ 23) || decide (32 ≤ t ∧ t ≤ 34))
    tsa := ts.any (fun t => t == 2 || t == 3), stsa := ts.any (fun t => t == 4 || t == 5) }

/-! ### A packet of a stream -/

/-- The payload without its padding. -/
def Rtp.payload (r : Rtp) : Bytes := if r.pad then r.body.take (r.body.length - byteAt r.body (r.body.length - 1)) else r.body

/-- Reads a packet of a video stream, in the order of extended numbers: a structure serves the packets from the one that carried it on
until another replaces it. The stream keeps what later packets are read by. -/
def Stream.readInfo (x : Stream) (ext : Nat) (r : Rtp) : PktInfo × Stream :=
  let ts := x.extendTs r.ts
  let base : PktInfo × Stream :=
    if x.codec = 8 then
      let (found, idr) := avcInfo r.payload
      let here := found.orElse (fun _ => x.prefixNal.bind (fun p => if p.1 = ts then some p.2 else none))
      ({ layerId := (here.map (·.2)).getD 0, tid := (here.map (·.1)).getD 0, key := idr, ends := r.marker },
        { x with prefixNal := match found with
          | some p => some (ts, p)
          | none => x.prefixNal })
    else if x.codec = 9 then ({ hevcInfo r.payload with ends := r.marker }, x)
    else ({ key := bit (byteAt r.payload 0) 3, ends := r.marker }, x)
  match r.ext (x.ext 0) with
  | none => base
  | some b =>
    let (got, own) := ddRead b ext (x.ddStructs.find? (fun st => decide (st.ext ≤ ext)))
    let y := match own with
      | some st => { base.2 with
          ddStructs := ((x.ddStructs.filter (fun z => decide (st.ext < z.ext))) ++ st :: x.ddStructs.filter (fun z => decide (z.ext < st.ext))).take 8 }
      | none => base.2
    match got with
    | none => (base.1, y)
    | some (layer, switches, key) => ({ base.1 with dd := some layer, switches, key, ends := bit (byteAt b 0) 6 }, y)

/-- The layer of a video packet, none when it is dropped as unparsed. A layer above 2 is treated as 2. -/
def Stream.layerOf (x : Stream) (m : PktInfo) : Option (Nat × Nat) :=
  let base : Option (Nat × Nat) := match m.dd with
    | some l => some l
    | none => if (x.codec = 8 ∨ x.codec = 9) ∧ m.layerId ≠ 0 then none else some (0, min m.tid 2)
  base.map (fun (s, t) => if x.layering = 2 then (x.simIndex, t) else (s, t))

end Sys2Proof.Machine
end

