-- ==== Sys2Proof/Machine/Rtcp.lean ====
section
/-! DEFINITION. Received RTCP (06 R276-R281): the packets of a compound (RFC 3550), feedback messages (RFC 4585, RFC 5104), RFC 8888 and
transport-wide reports, and what a leg's estimate measures from them (R266). -/
namespace Sys2Proof.Machine

/-- One message of a compound RTCP packet. -/
inductive RtcpItem where
  /-- sender report: sender, the middle 32 bits of its NTP time -/
  | sr (ssrc ntp : Nat)
  /-- report block about `ssrc`: last SR and the delay since it, in 2^-16 s -/
  | report (ssrc lsr dlsr : Nat)
  /-- generic NACK: media source and numbers -/
  | nack (ssrc : Nat) (nums : List Nat)
  | pli (ssrc : Nat)
  /-- full intra request of a sender for a media source -/
  | fir (sender ssrc : Nat)
  /-- RFC 8888: the report timestamp in 2^-16 s, and for each media source its first number and what is said of each: not received, or the
  arrival before the timestamp in 1/1024 s -/
  | ccfb (rts : Nat) (blocks : List (Nat × Nat × List (Option Nat)))
  /-- transport-wide feedback on a media source: first number, reference time in 64 ms, and for each number the time since the last
  received one in 250 µs -/
  | twcc (ssrc first ref : Nat) (deltas : List (Option Int))
  deriving DecidableEq, Repr

/-! ### Reading -/

/-- The packets of a compound: count or format, type, and what follows the header word. -/
def rtcpSplit : Nat → Bytes → List (Nat × Nat × Bytes)
  | 0, _ => []
  | n + 1, b =>
    if b.length < 4 then []
    else
      let len := 4 * be b 2 2
      (byteAt b 0 % 32, byteAt b 1, (b.drop 4).take len) :: rtcpSplit n (b.drop (4 + len))

/-- Pieces of n bytes. -/
def words (n : Nat) : Nat → Bytes → List Bytes
  | 0, _ => []
  | f + 1, b => if b.length < n then [] else b.take n :: words n f (b.drop n)

/-- Numbers that one entry of a generic NACK names (RFC 4585). -/
def nackNums (b : Bytes) : List Nat :=
  let pid := be b 0 2
  pid :: ([0, 1, 2, 3, 4, 5, 6, 7, 8, 9, 10, 11, 12, 13, 14, 15].filter (fun i => bit (be b 2 2) i)).map (fun i => (pid + i + 1) % 65536)

/-- Metric blocks of an RFC 8888 report. -/
def ccBlocks : Nat → Bytes → List (Nat × Nat × List (Option Nat))
  | 0, _ => []
  | n + 1, b =>
    if b.length < 8 then []
    else
      let k := be b 6 2
      let got := (List.range k).map (fun i =>
        let m := be b (8 + 2 * i) 2
        if m < 0x8000 then none else some (m % 8192))
      (be b 0 4, be b 4 2, got) :: ccBlocks n (b.drop (8 + 2 * (k + k % 2)))

/-- Symbols of the status chunks of transport-wide feedback, `left` of them, and the bytes behind the chunks. -/
def twSymbols : Nat → Nat → Bytes → List Nat × Bytes
  | 0, _, b => ([], b)
  | f + 1, left, b =>
    if left = 0 ∨ b.length < 2 then ([], b)
    else
      let c := be b 0 2
      let sym : List Nat := if c < 0x8000 then List.replicate (min (c % 8192) left) (c / 8192)
        else if c < 0xC000 then (List.range (min 14 left)).map (fun i => c / 2 ^ (13 - i) % 2)
        else (List.range (min 7 left)).map (fun i => c / 4 ^ (6 - i) % 4)
      let (rest, e) := twSymbols f (left - sym.length) (b.drop 2)
      (sym ++ rest, e)

/-- The times that stand behind the chunks. -/
def twDeltas : List Nat → Bytes → List (Option Int)
  | [], _ => []
  | 1 :: l, b => some (byteAt b 0 : Int) :: twDeltas l (b.drop 1)
  | 2 :: l, b => some (sgn 16 (be b 0 2)) :: twDeltas l (b.drop 2)
  | _ :: l, b => none :: twDeltas l b

/-- The messages of one packet of a compound. -/
def rtcpMessages (fmt pt : Nat) (b : Bytes) : List RtcpItem :=
  let reports (off : Nat) : List RtcpItem := (words 24 fmt (b.drop off)).map (fun w => .report (be w 0 4) (be w 16 4) (be w 20 4))
  match pt, fmt with
  | 200, _ => .sr (be b 0 4) (be b 6 4) :: reports 24
  | 201, _ => reports 4
  | 205, 1 => [.nack (be b 4 4) ((words 4 b.length (b.drop 8)).flatMap nackNums)]
  | 205, 11 => [.ccfb (be b (b.length - 4) 4) (ccBlocks b.length ((b.drop 4).take (b.length - 8)))]
  | 205, 15 =>
    let (syms, rest) := twSymbols b.length (be b 10 2) (b.drop 16)
    [.twcc (be b 4 4) (be b 8 2) (be b 12 3) (twDeltas syms rest)]
  | 206, 1 => [.pli (be b 4 4)]
  | 206, 4 => (words 8 b.length (b.drop 8)).map (fun w => .fir (be b 0 4) (be w 0 4))
  | _, _ => []

/-- The messages of a compound RTCP packet. -/
def rtcpItems (b : Bytes) : List RtcpItem := (rtcpSplit b.length b).flatMap (fun (fmt, pt, x) => rtcpMessages fmt pt x)

/-! ### What feedback says of the packets sent to a leg (R266) -/

/-- Notes what a report says of the newest packet of a number that has left; an arrival once told stands. -/
def tell (is : Depart → Bool) (what : Option Int) : List Depart → List Depart
  | [] => []
  | d :: rest => if is d then { d with told := match d.told, what with
      | some (some a), none => some (some a)
      | _, w => some w } :: rest
    else d :: tell is what rest

/-- An RFC 8888 report: arrivals in µs of the peer's clock. -/
def Leg.takeCcfb (l : Leg) (rts : Nat) (blocks : List (Nat × Nat × List (Option Nat))) : Leg :=
  let now := ((l.rtsTop.map (fun h => (extend rts h 32).getD h))).getD rts
  { l with
    rtsTop := some (max now (l.rtsTop.getD 0))
    departs := blocks.foldl (fun ds (ssrc, first, got) =>
      let top := ((l.departs.find? (fun d => d.ssrc == ssrc)).map (·.seq)).getD 0
      let start := (extend first top 16).getD first
      got.zipIdx.foldl (fun ds (m, i) =>
        tell (fun d => d.ssrc == ssrc && d.seq == start + i) (m.map (fun ato => ((now : Int) - 64 * ato) * 1000000 / 65536)) ds) ds) l.departs }

/-- Transport-wide feedback; its numbers are extended by the leg's counter (12 R524). -/
def Leg.takeTwcc (l : Leg) (first ref : Nat) (deltas : List (Option Int)) : Leg :=
  let t := ((l.refTop.map (fun h => (extend ref h 24).getD h))).getD ref
  let start := (extend first l.twccCounter 16).getD first
  let ds := (deltas.zipIdx.foldl (fun (st : Int × List Depart) (d, i) =>
    let at_ := st.1 + d.getD 0
    (at_, tell (fun x => x.tw == some (start + i)) (d.map (fun _ => at_ * 250)) st.2)) ((t : Int) * 256, l.departs)).2
  { l with refTop := some (max t (l.refTop.getD 0)), departs := ds }

/-- The three measurements over the last 100 ms (notes/assumptions/116.md): the rate of what arrived at the peer within 100 ms before the
newest arrival, in kbit/s; the share, in ppm, that was lost of the packets reported that left within 100 ms before the newest of them; and
the growth of the one-way delay over the arrivals of that span, in µs per 100 ms. -/
def Leg.measure (l : Leg) : Nat × Nat × Int :=
  let got := l.departs.filterMap (fun d => match d.told with
    | some (some a) => some (a, d)
    | _ => none)
  let top := got.foldl (fun m x => max m x.1) ((got.head?.map (·.1)).getD 0)
  let near := got.filter (fun x => decide (top < x.1 + 100000))
  let told := l.departs.filter (fun d => d.told.isSome)
  let last := told.foldl (fun m d => max m d.at_) 0
  let span := told.filter (fun d => decide (last < d.at_ + 100000 * us))
  let lost := (span.filter (fun d => d.told == some none)).length
  let first := near.foldl (fun (b : Option (Int × Depart)) x => match b with
    | some y => if x.1 < y.1 then some x else b
    | none => some x) none
  let newest := near.foldl (fun (b : Option (Int × Depart)) x => match b with
    | some y => if y.1 < x.1 then some x else b
    | none => some x) none
  let grad : Int := match first, newest with
    | some (a, d), some (b, e) =>
      if b ≤ a then 0 else ((b - a) - ((e.at_ : Int) - d.at_) / us) * 100000 / (b - a)
    | _, _ => 0
  ((near.map (fun x => x.2.bytes)).sum * 80 / 1000, lost * 1000000 / span.length, grad)

end Sys2Proof.Machine
end

