-- ==== Sys2Proof/Machine/Estimate.lean ====
section
/-! DEFINITION. The bandwidth estimate, layer targets and the forwarded-audio set (06 R264-R270, R274), queue sampling (07 R314,
R315), and the shedding of history and log (06 R280, R287). -/
namespace Sys2Proof.Machine

/-! ### Estimate (06 R266, R267) -/

/-- The fall branch for a rate received, in 2^-32 kbit/s. -/
def State.fallTo (s : State) (rRecv : Nat) : Nat := max (s.fld 6 8 4 * 2 ^ 32) (rRecv * 85 * 2 ^ 32 / 100)

/-- E and STATE after a report. No rise at the first report, nor at the first after E fell for lack of reports
(notes/assumptions/19.md). -/
def State.estStep (s : State) (l : Leg) (rRecv lossPpm : Nat) (gradUs : Int) : Nat × Nat :=
  let above : Int := s.fld 6 6 2
  if 100000 < lossPpm ∨ above < gradUs then (s.fallTo rRecv, 2)
  else if lossPpm < 20000 ∧ gradUs * 2 ≤ above then
    (match l.lastReport with
     | some t => (min (s.fld 6 12 4 * 2 ^ 32) (l.e32 + l.e32 * s.fld 6 17 1 * (s.now - t) / 100000000000000), 1)
     | none => (l.e32, 0))
  else (l.e32, 0)

/-- A feedback report of a leg, of the kind of an FB_MODE: what it says of the packets sent, the three measurements and E. A report of
another kind than the leg's FB_MODE is only counted. -/
def State.feedbackReport (s : State) (leg mode : Nat) (take : Leg → Leg) : State :=
  match look s.objs.legs leg with
  | none => s
  | some l =>
    if l.fbMode ≠ mode then s.modLeg leg (fun l => { l with fbReports := l.fbReports + 1 })
    else
      let (rRecv, lossPpm, gradUs) := (take l).measure
      let (e, st) := s.estStep l rRecv lossPpm gradUs
      s.modLeg leg (fun l => { take l with
        fbReports := l.fbReports + 1, rRecv, lossPpm, gradUs, lastReport := some s.now, estState := st
        est := if l.pinRate ≠ 0 then l.pinRate else e / 2 ^ 32, estFrac := if l.pinRate ≠ 0 then 0 else e % 2 ^ 32 })

/-- ESTIMATE_TIMEOUT: no report for 1 s takes E to EST_MIN (06 R267). -/
def estimateTimeout (leg : Nat) (s : State) : State :=
  match look s.objs.legs leg with
  | none => s
  | some l =>
    match l.lastReport with
    | some t =>
      if t + 1000000 * us ≤ s.now ∧ l.fbMode ≠ 2 ∧ l.pinRate = 0 then
        s.modLeg leg (fun l => { l with est := s.fld 6 8 4, estFrac := 0, lastReport := none, estState := 2 })
      else s
    | none => if l.fbMode ≠ 2 ∧ l.pinRate = 0 then s.modLeg leg (fun l => { l with est := s.fld 6 8 4, estFrac := 0 }) else s

/-! ### Rates -/

/-- kbit/s of the bytes of the last 200 ticks (500 ms). -/
def kbps500 (bytes : Nat) : Nat := bytes * 16 / 1000

/-- Bytes recorded by layer within the last n ticks, up to a layer; `exactS` counts one spatial layer only. -/
def layerBytes (rates : List (Nat × Nat × Nat × Nat)) (tick n s t : Nat) (exactS : Bool) : Nat :=
  rates.foldl (fun b (k, ls, lt, x) =>
    if tick ≤ k + n ∧ k < tick ∧ lt ≤ t ∧ (if exactS then ls == s else decide (ls ≤ s)) then b + x else b) 0

/-- Adds bytes to the record of a tick and layer, and drops what is older than 200 ticks. -/
def addRate (rates : List (Nat × Nat × Nat × Nat)) (tick s t bytes : Nat) : List (Nat × Nat × Nat × Nat) :=
  match rates with
  | (k, ls, lt, x) :: rest =>
    if k = tick ∧ ls = s ∧ lt = t then (k, ls, lt, x + bytes) :: rest
    else (tick, s, t, bytes) :: rates.filter (fun r => decide (tick ≤ r.1 + 200))
  | [] => [(tick, s, t, bytes)]

/-- Bytes of a measure that a leg was sent in the last n ticks. -/
def Leg.sentIn (l : Leg) (tick n : Nat) (f : Nat × Nat × Nat × Nat → Nat) : Nat :=
  l.sent.foldl (fun b r => if tick ≤ r.1 + n ∧ r.1 < tick then b + f r else b) 0

/-- Members of the simulcast group of an ingress stream; of another stream, itself. -/
def State.groupOf (s : State) (i : Nat) (x : Stream) : List (Nat × Stream) :=
  if x.layering = 2 then (s.streamsOf x.leg).filter (fun kv => !kv.2.egress && kv.2.video && kv.2.layering == 2) else [(i, x)]

/-- Layers that the source of an egress stream has, that is those seen in the last 500 ms: S, T and rate in kbit/s (06 R268, R270;
09 R398). -/
def State.layerRates (s : State) (z : Stream) : List (Nat × Nat × Nat) :=
  let pick (rates : List (Nat × Nat × Nat × Nat)) (exact : Bool) : List (Nat × Nat × Nat) :=
    [0, 1, 2].flatMap (fun a => [0, 1, 2].filterMap (fun b =>
      if rates.any (fun r => decide (s.tick ≤ r.1 + 200) && r.2.1 == a && r.2.2.1 == b) then
        some (a, b, kbps500 (layerBytes rates s.tick 200 a b exact)) else none))
  if z.outKind = 1 then
    match (look s.media.canvases z.room).bind (fun c => c.rungs[z.index]?) with
    | some g => pick g.rates false
    | none => []
  else
    match s.streamAt z.source with
    | none => []
    | some (i, x) => if x.layering = 2 then (s.groupOf i x).flatMap (fun kv => pick kv.2.rates true) else pick x.rates false

/-! ### Layer target (06 R268-R270) -/

/-- A layer and pause as one rank: paused is lowest, then spatial before temporal. -/
def layerRank (s t : Nat) (paused : Bool) : Nat := if paused then 0 else 1 + 3 * s + t

/-- The last layer in ascending order of rate whose rate is within the share; none when no layer is. -/
def bestLayer (share : Nat) (l : List (Nat × Nat × Nat)) : Option (Nat × Nat × Nat) :=
  (l.filter (fun x => decide (x.2.2 ≤ share))).foldl (fun b x =>
    match b with
    | none => some x
    | some y => if y.2.2 < x.2.2 ∨ (y.2.2 = x.2.2 ∧ layerRank y.1 y.2.1 false < layerRank x.1 x.2.1 false) then some x else b) none

/-- Target: a pinned one clipped to the layers that the source has, else by the share a layer within MAX_S and MAX_T, or paused under
PAUSE_BELOW. -/
def State.targetOf (s : State) (z : Stream) (share : Nat) : Nat × Nat × Bool :=
  let rates := s.layerRates z
  let low := ((rates.find? (fun x => x.1 == 0 && x.2.1 == 0)).map (·.2.2)).getD 0
  if z.pinned then
    (min z.pinS (rates.foldl (fun m x => max m x.1) 0), min z.pinT (rates.foldl (fun m x => max m x.2.1) 0), false)
  else if share < low ∧ bit (s.fld 6 25 1) 0 then (0, 0, true)
  else
    match bestLayer share (rates.filter (fun x => decide (x.1 ≤ z.maxS ∧ x.2.1 ≤ z.maxT))) with
    | some (a, b, _) => (a, b, false)
    | none => (0, 0, false)

/-- Records a tick target: it is the lowest one since the first of those that it does not fall below. -/
def Stream.noteTarget (z : Stream) (now : Nat) : Stream :=
  let r := layerRank z.targetS z.targetT z.targetPaused
  let below := z.upSince.filter (fun u => decide (layerRank u.2.1 u.2.2.1 u.2.2.2 < r))
  let since := ((z.upSince.drop below.length).head?.map (·.1)).getD now
  { z with upSince := below ++ [(since, z.targetS, z.targetT, z.targetPaused)] }

/-- The layer that the tick target decides on: below the actual layer, the target at once; above it, the lowest of the targets of the
last UP_HOLD_MS (06 R268-R270; 01 R68). -/
def Stream.decided (z : Stream) (now hold : Nat) : Option (Nat × Nat × Bool) :=
  let ta := layerRank z.targetS z.targetT z.targetPaused
  let aa := layerRank z.actualS z.actualT z.actualPaused
  if z.hasActual = false ∨ ta = aa then none
  else if ta < aa then some (z.targetS, z.targetT, z.targetPaused)
  else
    match (z.upSince.filter (fun u => decide (u.1 + hold ≤ now ∧ aa < layerRank u.2.1 u.2.2.1 u.2.2.2))).getLast? with
    | some u => some u.2
    | none => none

/-- What a tick target makes of the decision that an egress stream holds; an unchanged decision keeps its instant and the pictures that
had started by then. -/
def Stream.decide_ (z : Stream) (now hold : Nat) : Stream :=
  let z := z.noteTarget now
  let d := z.decided now hold
  if d = z.want then z else { z with want := d, wantPic := z.seenPic, wantSince := if d.isSome then some now else none }

/-- Is the source leg of a stream in its room's forwarded-audio set? -/
def State.speaking (s : State) (room leg : Nat) : Bool :=
  match look s.objs.rooms room with
  | none => false
  | some r => r.audioSet.any (fun i => ((look s.objs.streams i).map (fun x => x.leg == leg)).getD false)

/-- Weight of a forwarded video stream. -/
def State.weightOf (s : State) (z : Stream) : Nat :=
  match s.streamAt z.source with
  | some (_, x) => if s.speaking z.room x.leg then 2 else 1
  | none => 1

/-- Layer targets of one leg at a tick (06 R268-R270; 09 R398). -/
def State.legTargets (s : State) (i : Nat) (l : Leg) : State :=
  let other := kbps500 (l.sentIn s.tick 200 (fun r => r.2.1 + r.2.2.1))
  let budget := l.percentOf (s.fld 6 16 1) - other
  let mine := (s.streamsOf i).filter (fun kv => kv.2.egress && kv.2.video && decide (kv.2.outKind ≤ 1))
  let fwd := mine.filter (fun kv => kv.2.outKind == 0)
  let total := (fwd.map (fun kv => s.weightOf kv.2)).sum
  let s := s.modLeg i (fun l => { l with videoBudget := budget })
  let hold := s.fld 6 18 2 * 1000 * us
  forEach mine (fun (k, z) s =>
    let share := if z.outKind = 1 then budget else if total = 0 then 0 else budget * s.weightOf z / total
    let (a, b, p) := s.targetOf z share
    s.modStream k (fun z => { z with share, targetS := a, targetT := b, targetPaused := p }.decide_ s.now hold)) s

/-- Layer targets of every leg. -/
def State.layerTargets (s : State) : State := forEach s.objs.legs (fun (i, _) s =>
  match look s.objs.legs i with
  | some l => s.legTargets i l
  | none => s) s

/-- A request for a key picture of a rung (09 R396). -/
def State.rungKey (s : State) (room rung : Nat) : State :=
  s.modMedia (fun m => { m with canvases := adj m.canvases room (fun c => { c with
    rungs := match c.rungs[rung]? with
      | some g => setAt c.rungs rung { g with requests := g.requests + 1 }
      | none => c.rungs }) })

/-- KEY_WAIT_EXPIRY: the wanted switch point has not come; a key picture is requested from the source, of a simulcast change from
the new member, and of a rung from the rung itself (06 R264; 09 R398). -/
def keyWaitExpiry (i : Nat) (s : State) : State :=
  match look s.objs.streams i with
  | none => s
  | some z =>
    if z.outKind = 1 then
      (match z.want, z.wantSince, look s.objs.rooms z.room with
       | some _, some t, some r =>
         if s.now < t + r.tf 10 2 * 1000 * us then s
         else (s.modStream i (fun z => { z with wantSince := none })).rungKey z.room z.index
       | _, _, _ => s)
    else
    match z.want, z.wantSince, look s.objs.rooms z.room, s.streamAt z.source with
    | some w, some t, some r, some (k, x) =>
      if s.now < t + r.tf 10 2 * 1000 * us then s
      else
        let dest := if x.layering = 2 then (((s.groupOf k x).find? (fun kv => kv.2.simIndex == w.1)).map (·.1)).getD k else k
        (s.modStream i (fun z => { z with wantSince := none })).requestKey dest
    | _, _, _, _ => s

/-! ### Forwarded-audio set (06 R274, R275) -/

/-- Smoothed level as a fraction of 840: the mean of the last 8 tick levels there are. -/
def Stream.smooth (x : Stream) : Nat := if x.levels = [] then 127 * 840 else x.levels.sum * 840 / x.levels.length

/-- Closes the tick level of every audio stream. -/
def State.closeLevels (s : State) : State :=
  s.modObjs (fun o => { o with streams := o.streams.map (fun (i, x) =>
    if x.egress ∨ x.video then (i, x) else (i, { x with levels := (x.tickLevel :: x.levels).take 8, tickLevel := 127 })) })

/-- The member of a set with the highest smoothed level, ties to the higher index; pinned ones apart. -/
def worstOf (sm : Nat → Nat) (pins : List Nat) (set : List Nat) : Option Nat :=
  (set.filter (fun i => !pins.contains i)).foldl (fun b i =>
    match b with
    | none => some i
    | some j => if sm j < sm i ∨ (sm j = sm i ∧ j < i) then some i else b) none

/-- Candidates enter in order of level: a free place, or that of a member with a higher level. -/
def fillSet (sm : Nat → Nat) (pins : List Nat) (n : Nat) : List Nat → List Nat → List Nat
  | [], set => set
  | i :: rest, set =>
    if set.length < n then fillSet sm pins n rest (set ++ [i])
    else
      match worstOf sm pins set with
      | some w => if sm i < sm w then fillSet sm pins n rest (set.filter (· != w) ++ [i]) else set
      | none => set

/-- A set brought to n members. -/
def trimSet (sm : Nat → Nat) (pins : List Nat) (n : Nat) : Nat → List Nat → List Nat
  | 0, set => set
  | f + 1, set =>
    if set.length ≤ n then set
    else
      match worstOf sm pins set with
      | some w => trimSet sm pins n f (set.filter (· != w))
      | none => set

/-- Inserts an index by level and then by index. -/
def insertBy (sm : Nat → Nat) (i : Nat) : List Nat → List Nat
  | [] => [i]
  | j :: rest => if sm i < sm j ∨ (sm i = sm j ∧ i < j) then i :: j :: rest else j :: insertBy sm i rest

/-- The forwarded-audio set of a room at a tick; pinned streams are in it also beyond FWD_AUDIO_N (notes/assumptions/62.md). -/
def State.audioSetOf (s : State) (room : Nat) (r : Room) : List Nat :=
  let n := r.tf 7 1
  let hang := r.tf 8 2 * 1000 * us
  let cands := (s.streamsIn room).filter (fun kv => !kv.2.egress && !kv.2.video)
  let sm (i : Nat) : Nat := ((look s.objs.streams i).map Stream.smooth).getD (127 * 840)
  let pins := ((cands.filter (fun (i, x) => r.audioPin.contains (streamHandle i x.inc))).map (·.1))
  let keep := r.audioSet.filter (fun i => pins.contains i ||
    (match look s.objs.streams i with
     | some x => cands.any (fun kv => kv.1 == i) && (match x.lastV with
       | some v => decide (s.now < v + hang)
       | none => false)
     | none => false))
  let set := trimSet sm pins n (keep.length + pins.length) (keep ++ pins.filter (fun i => !keep.contains i))
  let order := (cands.filter (fun kv => !set.contains kv.1 && decide (sm kv.1 < 127 * 840))).foldl (fun l kv => insertBy sm kv.1 l) []
  fillSet sm pins n order set

/-- The forwarded-audio sets of a tick. -/
def State.audioSets (s : State) : State :=
  forEach s.objs.rooms (fun (i, _) s =>
    match look s.objs.rooms i with
    | some r => s.modRoom i (fun q => { q with audioSet := if r.has 2 then s.audioSetOf i r else [] })
    | none => s) s.closeLevels

/-- The ingress stream in a receiver's slot: the k-th member of the set that is not of its own leg (R275). -/
def State.slotMember (s : State) (z : Stream) : Option Nat :=
  match look s.objs.rooms z.room with
  | none => none
  | some r => (r.audioSet.filter (fun i => ((look s.objs.streams i).map (fun x => x.leg != z.leg)).getD false))[z.index]?

/-! ### Queue sampling (07 R314, R315) -/

/-- Bucket of a head delay in µs. -/
def delayBucket (d : Nat) : Nat := if d < 1000 then 0 else if d < 5000 then 1 else if d < 20000 then 2 else if d < 100000 then 3 else 4

/-- Rate a leg sent over the last 100 ms, kbit/s: 40 ticks. -/
def Leg.sentRate (l : Leg) (tick : Nat) : Nat :=
  l.sentIn tick 40 (·.2.2.2) * 80 / 1000

/-- Samples one queue: depth, head delay, histogram and, for a leg queue, the delay signal. -/
def State.sampleQ (s : State) (yard l c : Nat) (leg : Option Nat) (q : List QFrame) : State :=
  let ps := ((q.head?).map (fun f => s.tickAt - f.enter)).getD 0
  let d := ps / us
  let s := s.bump (shCtr yard 56)
  let s := s.modNet (fun n => { n with samples := (yard, s.tick, qBytes q, d) :: n.samples })
  let s := if q = [] then s else s.bump (shCtr yard (72 + 8 * delayBucket d))
  match leg with
  | none => s
  | some i =>
    match look s.objs.legs i with
    | none => s
    | some x =>
      let lim := s.cls l c 14 2 * 1000 * us
      if lim = 0 ∨ ps ≤ lim ∨ x.fbMode = 2 ∨ x.pinRate ≠ 0 then s
      else
        (s.modLeg i (fun x => { x with
          est := s.fallTo (x.sentRate s.tick) / 2 ^ 32, estFrac := s.fallTo (x.sentRate s.tick) % 2 ^ 32, estState := 2 })).bump (shCtr yard 64)

/-- QUEUE_SAMPLE at a boundary: the queues whose index is the tick modulo 8. -/
def State.sampleQueues (s : State) : State :=
  let s := s.modNet (fun n => { n with samples := n.samples.filter (fun x => decide (s.tick < x.2.1 + 8)) })
  let s := forEach ((List.range 512).filter (fun i => i % 8 == s.tick % 8 && provides s.gens.cur (i / 8)))
    (fun i s => s.sampleQ (yardOf (i / 8)) (i / 8) (i % 8) none (s.direct (i / 8) (i % 8))) s
  forEach (s.objs.legs.filterMap (fun (i, l) => if i % 8 = s.tick % 8 ∧ s.media_ l.lport l.videoClass then some (i, l) else none))
    (fun (i, l) s => s.sampleQ (yardOf l.lport) l.lport l.videoClass (some i) (s.legq i)) s

/-! ### Shedding (06 R280, R287; 07 R321) -/

/-- The DRAM charge of the history in the tick that ends, against its budget. -/
def State.shedHistory (s : State) : State :=
  let above := decide (s.clientBps 3 < s.objs.histBytes * 400)
  let lv := s.objs.shedLevel
  let s := s.modObjs (fun o => { o with histBytes := 0, shedUnder := if above then 0 else o.shedUnder + 1 })
  if above ∧ lv < 4 then (s.modObjs (fun o => { o with shedLevel := lv + 1 })).event 42 (lv + 1) else s

/-- HISTORY_SHED_RESTORE: after 400 ticks under the budget the highest shed class is restored (06 R280). -/
def historyShedRestore (s : State) : State :=
  let lv := s.objs.shedLevel
  if 0 < lv ∧ 400 ≤ s.objs.shedUnder then
    (s.modObjs (fun o => { o with shedLevel := lv - 1, shedUnder := 0 })).event 42 (lv - 1)
  else s

/-- The DRAM charge of the log in the tick that ends: over its budget the logging stream of the highest index stops; after 400
ticks within it the stopped stream of the lowest index resumes with a SHED record (notes/assumptions/20.md). -/
def State.shedLog (s : State) : State :=
  let above := decide (s.clientBps 6 < s.objs.logBytes * 400)
  let under := s.objs.logUnder + 1
  let s := s.modObjs (fun o => { o with logBytes := 0, logUnder := if above then 0 else under })
  if above then
    match ((s.objs.streams.filter (fun kv => kv.2.log && !has s.objs.logShed kv.1)).map (·.1)).getLast? with
    | some i => s.modObjs (fun o => { o with logShed := put o.logShed i (s.timeNs, s.timeNs) })
    | none => s
  else if 400 ≤ under then
    match s.objs.logShed with
    | (i, (a, b)) :: rest =>
      let s := s.modObjs (fun o => { o with logShed := rest })
      (match look s.objs.streams i with
       | some x => s.logAppend x.room (s.legYard x.leg) (fun pos =>
           logRecord 4 (b2n x.egress) (streamHandle i x.inc) 0 0 s.timeNs pos (leBytes 8 a ++ leBytes 8 b))
       | none => s)
    | [] => s
  else s

/-- The spill charge of the tick that ends: over its budget no queue begins to spill in the next (07 R321). -/
def State.shedSpill (s : State) : State :=
  let above := decide (s.clientBps 4 < s.net.spillCharge * 400)
  let s := s.modNet (fun n => { n with spillCharge := 0, spillHold := above })
  if above then s.bump (ctr 6 8 776) else s

/-! ### The commands of this file -/

/-- ESTIMATE_TIMEOUT (06 R267). -/
def execEstimateTimeout (t leg : Nat) (s : State) : Host.Outcome State Fault Refusal := .next (estimateTimeout leg (s.at t))

/-- KEY_WAIT_EXPIRY (06 R264). -/
def execKeyWaitExpiry (t stream : Nat) (s : State) : Host.Outcome State Fault Refusal := .next (keyWaitExpiry stream (s.at t))

/-- HISTORY_SHED_RESTORE (06 R280). -/
def execHistoryShedRestore (t : Nat) (s : State) : Host.Outcome State Fault Refusal := .next (historyShedRestore (s.at t))

end Sys2Proof.Machine
end

