-- ==== Sys2Proof/Machine/Punt.lean ====
section
/-! DEFINITION. Punted frames (02 R112-R116): posting buffers, writing frames into them, and the hold time. -/
namespace Sys2Proof.Machine

/-! ### Settings -/

/-- Punt ring of a port, when HP_PUNT enables it (02 R112, R114). -/
def HostPort.puntRing (h : HostPort) : Option Nat := if bit (h.reg 0x10018) 31 then some (bits (h.reg 0x10018) 5 0) else none

/-- Port that receives punted frames matching no leg (02 R119). -/
def State.puntDefault (s : State) : Nat := bits (s.fld 2 1 1) 1 0

/-- Punt hold time in ps. -/
def State.puntHold (s : State) : Nat := s.fld 2 20 4 * us

/-- Seconds and nanoseconds of TB0 at an instant, past or present: before a step or a change of its rate as it then ran (12 R520). -/
def State.tb0At (s : State) (ps : Nat) : Nat × Nat :=
  let v := s.tbAt 0 ps
  (v / 2 ^ 32 / 1000000000 % 2 ^ 48, v / 2 ^ 32 % 1000000000)

/-! ### Writing frames -/

/-- The 32-byte header of a punted frame (02 R115). -/
def puntHeader (len lport reason ns sec leg gen : Nat) : Bytes :=
  layout 32 [(0, 2, len), (2, 1, lport), (3, 1, reason), (4, 4, ns), (8, 6, sec), (16, 4, leg), (20, 4, gen)]

/-- Fills buffers in posting order: what each takes, and the buffers left. -/
def fillBufs : Bytes → List PuntBuf → List (PuntBuf × Bytes) × List PuntBuf
  | [], bufs => ([], bufs)
  | b :: bs, buf :: rest =>
    let all := b :: bs
    match all.drop buf.len with
    | [] => ([(buf, all)], rest)
    | more@(_ :: _) =>
      let (used, left) := fillBufs more rest
      ((buf, all.take buf.len) :: used, left)
  | _ :: _, [] => ([], [])
termination_by structural _ bufs => bufs

/-- RESULT of a filled buffer (02 R116). -/
def puntResult (n : Nat) (first last : Bool) : Nat := n + b2n first * 65536 + b2n last * 131072

/-- Writes one frame into the oldest posted buffers, each of which completes when it has been written (02 R113, R115, R116, R122). -/
def State.puntWrite (s : State) (p : Nat) (bytes : Bytes) : State :=
  let (used, left) := fillBufs bytes (s.host p).puntBufs
  let s := (s.modHost p (fun h => { h with puntBufs := left })).bump (hpCtr p 72)
  let n := used.length
  forEach used.zipIdx (fun ((buf, b), i) s =>
    (s.hostWrite p buf.addr b).startDma p buf.ring buf.seq (.write (puntResult b.length (i == 0) (i + 1 == n)))) s

/-- Do the posted buffers hold a frame with its header (02 R113)? -/
def HostPort.puntFits (h : HostPort) (len : Nat) : Bool := decide (len ≤ (h.puntBufs.map (·.len)).sum)

/-- Writes the held frames of a port in arrival order, as far as its buffers reach. -/
def puntDrain (p : Nat) : Nat → State → State
  | 0, s => s
  | n + 1, s =>
    match (s.host p).puntHeld with
    | [] => s
    | f :: rest =>
      if (s.host p).puntFits (32 + f.data.length) then
        let s := (s.modHost p (fun h => { h with puntHeld := rest })).poolSub 1 (cellsOf (f.data.length + 4))
        puntDrain p n (s.puntWrite p (f.header ++ f.data))
      else s

/-- A confirmed frame is punted to a port (02 R113, R114): `rxAt` is its receive timestamp point, `leg` the handle of its leg. -/
def State.punt (s : State) (p lport reason leg gen rxAt : Nat) (data : Bytes) : State :=
  let h := s.host p
  if s.running p = false ∨ h.puntRing = none then s.bump (hpCtr p 96)
  else
    let (sec, ns) := s.tb0At rxAt
    let head := puntHeader data.length lport reason ns sec leg gen
    if h.puntHeld = [] ∧ h.puntFits (32 + data.length) then s.puntWrite p (head ++ data)
    else if s.puntHold = 0 then s.bump (hpCtr p 88)
    else if s.poolTakes 1 (cellsOf (data.length + 4)) = false then
      (s.addCnt (poolCtr 1 32) (cellsOf (data.length + 4))).bump (hpCtr p 88)
    else
      ((s.modHost p (fun h => { h with puntHeld := h.puntHeld ++ [{ header := head, data, at_ := s.now }] })).poolAdd 1
        (cellsOf (data.length + 4))).bump (hpCtr p 80)

/-- PUNT_HOLD_EXPIRY: frames whose hold time is over are dropped whole (02 R114). -/
def puntHoldExpiry (p : Nat) (s : State) : State :=
  let gone := (s.host p).puntHeld.takeWhile (fun f => decide (f.at_ + s.puntHold ≤ s.now))
  let s := s.modHost p (fun h => { h with puntHeld := h.puntHeld.drop gone.length })
  let s := forEach gone (fun f s => (s.poolSub 1 (cellsOf (f.data.length + 4))).bump (hpCtr p 88)) s
  puntDrain p (s.host p).puntHeld.length s

/-- PUNT_POST, once fetched: places one buffer in the port's punt ring (02 R112). -/
def puntPost (p r seq : Nat) (d : Desc) (s : State) : State :=
  let h := s.host p
  let addr := dfld d 16 8
  if h.puntRing ≠ some r ∨ d.length % 64 ≠ 0 ∨ d.length < 256 ∨ 16384 < d.length ∨ addr % 64 ≠ 0 then
    s.complete p r seq stBadParam
  else
    let s := s.modHost p (fun h => { h with puntBufs := h.puntBufs ++ [{ ring := r, seq, len := d.length, addr }] })
    puntDrain p (h.puntHeld.length) s

/-! ### The commands of this file -/

/-- PUNT_POST (02 R112). -/
def execPuntPost (t p r : Nat) (d : Desc) (s : State) : Host.Outcome State Fault Refusal :=
  .next (fetchDesc 0x1A p r d (fun seq s => puntPost p r seq d s) (s.at t))

/-- PUNT_HOLD_EXPIRY (02 R114). -/
def execPuntHoldExpiry (t p : Nat) (s : State) : Host.Outcome State Fault Refusal := .next (puntHoldExpiry p (s.at t))

end Sys2Proof.Machine
end

