-- ==== Sys2Proof/Machine/Forward.lean ====
section
/-! DEFINITION. Layered forwarding of one packet to one egress stream: switch points (06 R264, R265), numbering (R271, R272),
header rewrite (R273) and the copy that enters the queue. -/
namespace Sys2Proof.Machine

/-- A source packet as it is offered to egress streams: `src` is the ingress stream's index + 1, or 2^32 + rung; `pending` the
number of its reception while it is not confirmed. -/
structure SrcPkt where
  src : Nat
  ext : Nat
  rtp : Rtp
  info : PktInfo := {}
  /-- the picture it belongs to: its extended timestamp, or its number in a rung; and the layers of which that picture has frames -/
  pic : Nat := 0
  tops : List (Nat × Nat) := []
  /-- layer; none when the packet is left out whatever the actual layer -/
  layer : Option (Nat × Nat) := some (0, 0)
  sim : Bool := false
  codec : Nat := 0
  /-- extension IDs of the dependency descriptor and the audio level at the source -/
  ddId : Nat := 0
  levelId : Nat := 0
  /-- how long egress mappings of it are kept, in ms (R279) -/
  histMs : Nat := 0
  pending : Option Nat := none
  /-- a packet of a rung: every T1 and T2 picture is a switch point for its own layer (09 R395) -/
  rung : Bool := false
  deriving DecidableEq, Repr

/-! ### Switch points (R264) -/

/-- Does a picture's switch indication cover the wanted spatial layer ws, when the wanted layer is (ws, wt) (R263;
notes/assumptions/29.md)? -/
def SrcPkt.coversS (p : SrcPkt) (ws wt : Nat) : Bool := p.info.key || p.info.switches.contains (ws, wt)

/-- Does it cover the wanted temporal layer wt? -/
def SrcPkt.coversT (p : SrcPkt) (ws wt : Nat) : Bool :=
  let t := ((p.layer.map (·.2)).getD 0)
  p.coversS ws wt || (p.info.dd.isNone && ((p.codec == 8 && t == 0) || (p.rung && t != 0 && t == wt) ||
    (p.codec == 9 && ((p.info.tsa && decide (t ≤ wt)) || (p.info.stsa && t == wt)))))

/-- Did a packet's picture start after the decision that an egress stream holds? -/
def Stream.startsAfter (z : Stream) (p : SrcPkt) : Bool := (look z.wantPic p.src).all (fun n => decide (n < p.pic))

/-- The actual layer after a packet, for a stream whose first packet it may be (R264, R269). -/
def Stream.switchAt (z : Stream) (p : SrcPkt) : Stream :=
  let ls := (p.layer.map (·.1)).getD 0
  if z.hasActual = false then
    if p.sim ∧ z.targetPaused = false ∧ ¬(p.info.key ∧ ls = z.targetS) then z
    else { z with hasActual := true, actualS := z.targetS, actualT := z.targetT, actualPaused := z.targetPaused }
  else
    match z.want with
    | none => z
    | some (ws, wt, wp) =>
      if z.startsAfter p = false then z
      else if wp then { z with actualPaused := true, want := none, wantSince := none }
      else if z.actualPaused then
        if (p.sim ∧ p.info.key ∧ ls = ws) ∨ (p.sim = false ∧ p.coversS ws wt ∧ p.coversT ws wt) then
          { z with actualPaused := false, actualS := ws, actualT := wt, want := none, wantSince := none }
        else z
      else if p.sim ∧ ws ≠ z.actualS then
        if p.info.key ∧ ls = ws then { z with actualS := ws, actualT := wt, want := none, wantSince := none } else z
      else if p.sim ∧ ls ≠ z.actualS then z
      else
        let ns := if ws < z.actualS ∨ p.coversS ws wt then ws else z.actualS
        let nt := if wt < z.actualT ∨ p.coversT ws wt then wt else z.actualT
        let done := ns = ws ∧ nt = wt
        { z with actualS := ns, actualT := nt, want := if done then none else z.want, wantSince := if done then none else z.wantSince }

/-- An egress stream has been offered a picture. -/
def Stream.sawPic (z : Stream) (p : SrcPkt) : Stream :=
  { z with seenPic := put z.seenPic p.src (max p.pic ((look z.seenPic p.src).getD 0)) }

/-- Is a layer within an actual layer: of a simulcast source, of its member (R264, R268)? -/
def layerIn (sim : Bool) (l : Nat × Nat) (s t : Nat) : Bool := (if sim then l.1 == s else decide (l.1 ≤ s)) && decide (l.2 ≤ t)

/-- Is a packet within the actual layer? -/
def Stream.within (z : Stream) (p : SrcPkt) : Bool :=
  match p.layer with
  | none => false
  | some l => z.hasActual && !z.actualPaused && layerIn p.sim l z.actualS z.actualT

/-- Does a packet end the highest spatial layer that is forwarded of its picture (R265)? -/
def SrcPkt.endsPicture (p : SrcPkt) (s t : Nat) : Bool :=
  match p.layer with
  | none => false
  | some l => p.info.ends && p.tops.all (fun k => decide (k.1 ≤ l.1) || !layerIn p.sim k s t)

/-! ### Numbering (R271, R272) -/

/-- What becomes of a packet on an egress stream. -/
inductive Place where
  /-- nothing is sent -/
  | none
  | send (out : Nat)
  deriving DecidableEq, Repr

/-- Numbers from a up to but not including b that are not in a list. -/
def missingBetween (a b : Nat) (but : List Nat) : List Nat :=
  ((List.range (b - a)).map (a + ·)).filter (fun m => !but.contains m)

/-- The reserved number of a missing packet of any source that the stream has followed, and whether the packet is sent in it: its layer
lay within the actual layer in force when it was reserved. -/
def Stream.reservedFor (z : Stream) (p : SrcPkt) : Option (Reserved × Bool) :=
  (z.reserved.find? (fun r => r.src == p.src && r.ext == p.ext)).map (fun r =>
    (r, (p.layer.map (fun l => layerIn p.sim l r.s r.t)).getD false))

/-- Numbering of a packet of the stream's current source that has no reserved number; `inside`: it lies within the actual layer. -/
def Stream.number (z : Stream) (p : SrcPkt) (off : Int) (inside : Bool) : Stream × Place :=
  let e := p.ext
  if e ≤ z.lastNumbered then (z, .none)
  else if z.leftOut.contains e ∨ z.sentAhead.contains e then (z, .none)
  else if z.leftOut.any (fun m => decide (e < m)) then
    if inside then
      let n := (z.leftOut.filter (fun m => decide (m < e))).length
      ({ z with sentAhead := e :: z.sentAhead }, .send ((e : Int) + off - n).toNat)
    else ({ z with dropped := z.dropped + 1, leftOut := e :: z.leftOut }, .none)
  else if inside then
    let gone := missingBetween (z.lastNumbered + 1) e (z.leftOut ++ z.sentAhead)
    let res := gone.map (fun (m : Nat) => ({
      src := p.src, ext := m, out := (((m : Nat) : Int) + off - (z.leftOut.filter (fun k => decide (k < m))).length).toNat
      s := z.actualS, t := z.actualT, tsOff := z.tsOff, frameOff := z.frameOff } : Reserved))
    let off2 := off - z.dropped
    ({ z with off := some off2, dropped := 0, leftOut := [], sentAhead := [], lastNumbered := e
              reserved := (z.reserved ++ res).filter (fun r => r.src != p.src || decide (e < r.ext + 4096)) }, .send ((e : Int) + off2).toNat)
  else ({ z with dropped := z.dropped + 1, leftOut := e :: z.leftOut }, .none)

/-- The first packet of an egress stream, or the first of a new member or slot: offsets of number, timestamp and frame number
(R271, R273, R275). `r1` … `r3` are the random starts. -/
def Stream.rebase (z : Stream) (p : SrcPkt) (now r1 r2 r3 : Nat) : Stream :=
  let e : Int := p.ext
  let fn := ((p.rtp.ext p.ddId).map (fun b => be b 1 2)).getD 0
  match z.off with
  | none => { z with
      off := some ((z.roc * 65536 + r1 : Nat) - e), tsOff := r2, frameOff := some r3, curSource := p.src, lastNumbered := p.ext
      dropped := 0, leftOut := [], sentAhead := [], lastOut := z.roc * 65536 + r1 }
  | some _ =>
    let gap := max 1 ((now - z.lastOutAt) * z.clock / 1000000000000)
    { z with
      off := some ((z.lastOut : Int) + 1 - e), tsOff := (z.lastOutTs + gap + 2 ^ 32 - p.rtp.ts) % 2 ^ 32
      frameOff := some ((z.lastFrame + 1 + 65536 - fn) % 65536), curSource := p.src, lastNumbered := p.ext
      dropped := 0, leftOut := [], sentAhead := [] }

/-! ### Rewrite (R265, R273; 12 R524) -/

/-- Elements of a copy: dependency descriptor with its frame number re-based and its end-of-frame flag, audio level, and the
transport-wide number and abs-send-time that are written at departure. Others are dropped. -/
def Stream.copyExts (z : Stream) (p : SrcPkt) (twcc ends : Bool) : List (Nat × Bytes) :=
  let dd := match p.rtp.ext p.ddId with
    | some b =>
      if z.ext 0 = 0 then []
      else
        let b0 := byteAt b 0
        [(z.ext 0, beBytes 1 (if ends then b0 ||| 0x40 else b0) ++ beBytes 2 ((be b 1 2 + z.frameOff.getD 0) % 65536) ++ b.drop 3)]
    | none => []
  let level := match p.rtp.ext p.levelId with
    | some b => if z.ext 1 = 0 then [] else [(z.ext 1, b)]
    | none => []
  dd ++ level ++ (if twcc && z.ext 2 != 0 then [(z.ext 2, zeros 2)] else []) ++ (if z.ext 3 != 0 then [(z.ext 3, zeros 3)] else [])

/-- A sent packet of a LOG stream enters the log: at once when it is confirmed, else with its source (R282; 04 R191). -/
def State.logCopy (s : State) (i : Nat) (z : Stream) (pending : Option Nat) (out : Nat) (pkt : Bytes) : State :=
  match pending with
  | none => s.logPacket i z out pkt
  | some id =>
    if z.log = false then s
    else s.modNet (fun n => { n with lports := n.lports.map (fun (l, x) =>
      (l, { x with rx := x.rx.map (fun r => if r.id = id then { r with logs := r.logs ++ [(i, out, pkt)] } else r) })) })

/-- Sends a copy on an egress stream, or padding in its place: the packet before protection enters the queue of its class, that of a LOG
stream the log, and the egress number is mapped (R271, R279, R282). `z` gives the actual layer and the offsets of its header. -/
def State.sendCopy (s : State) (i : Nat) (z : Stream) (l : Leg) (p : SrcPkt) (out : Nat) (slotStart : Bool) (pad : Bool) : State :=
  if z.exhausted then s
  else if 2 ^ 48 ≤ out then s.exhaust i
  else
    let ends := !pad && z.video && p.endsPicture z.actualS z.actualT
    let ts := (p.rtp.ts + z.tsOff) % 2 ^ 32
    let r : Rtp := if pad then
        { marker := false, pt := z.f 18 1, seq := out, ts, ssrc := z.ssrc, pad := true, body := [0, 0, 0, 4] }
      else
        { p.rtp with
          marker := p.rtp.marker || ends || slotStart, pt := z.f 18 1, seq := out, ts, ssrc := z.ssrc
          exts := z.copyExts p (l.fbMode == 1) ends }
    let pkt := buildRtp r
    let c := if z.video then l.videoClass else l.audioClass
    let newest := !pad && decide (z.lastOut ≤ out)
    let s := s.modStream i (fun z => { z with
      extTs := if pad then z.extTs else some (z.newestTs ts), lastOut := max z.lastOut out, lastOutTs := if newest then ts else z.lastOutTs
      lastOutAt := if newest = false ∨ (ts = z.lastOutTs ∧ z.packets ≠ 0 ∧ slotStart = false) then z.lastOutAt else s.now
      lastFrame := match p.rtp.ext p.ddId with
        | some b => if newest then (be b 1 2 + z.frameOff.getD 0) % 65536 else z.lastFrame
        | none => z.lastFrame
      egMap := if p.histMs = 0 then z.egMap else
        { out, stream := p.src, src := if pad then none else some p.ext, until_ := s.now + p.histMs * 1000 * us, pkt } ::
          z.egMap.filter (fun m => decide (s.now ≤ m.until_)) })
    let s := if pad then s.countFor p.pending (fwCtr (s.legYard z.leg) 104) 1 8 else s
    let s := s.logCopy i z p.pending out pkt
    s.enqueue l.lport c {
      bare := l.bareLen (pkt.length + tagLen z.key), enter := s.now, leg := z.leg + 1, stream := i + 1, key := z.key
      kind := if pad then 1 else if z.outKind = 1 then 5 else 0
      pending := p.pending, out, src := some p.ext, data := pkt }

/-- Counts a change of actual layer: at once for a confirmed packet, else when it is confirmed. -/
def State.countSwitch (s : State) (i : Nat) (p : SrcPkt) : State :=
  match p.pending with
  | none => (s.modStream i (fun z => { z with switches := z.switches + 1 })).bump (fwCtr (s.legYard (((look s.objs.streams i).map (·.leg)).getD 0)) 168)
  | some id => s.modNet (fun n => { n with lports := n.lports.map (fun (l, x) =>
      (l, { x with rx := x.rx.map (fun r => if r.id = id then { r with switched := i :: r.switched } else r) })) })

/-- What an egress stream comes to report of itself. -/
def Stream.report (z : Stream) : Reported :=
  { out := if z.extTs.isSome then z.lastOut else 0, ts := z.extTs, actualS := z.actualS, actualT := z.actualT, paused := z.actualPaused }

/-- An egress stream reports what a packet has left: at once for a confirmed packet, else when it is confirmed (04 R191). -/
def State.report (s : State) (i : Nat) (pending : Option Nat) : State :=
  match pending, look s.objs.streams i with
  | none, _ => s.modStream i (fun z => { z with shown := z.report })
  | some id, some z => s.modNet (fun n => { n with lports := n.lports.map (fun (l, x) => (l, { x with
      rx := x.rx.map (fun r => if r.id = id then { r with reports := r.reports.filter (fun k => k.1 != i) ++ [(i, z.report)] } else r) })) })
  | some _, none => s

/-- A source packet on an egress stream that takes it: the actual layer, the numbering and the copy. -/
def State.takeCopy (s : State) (i : Nat) (z0 : Stream) (l : Leg) (p : SrcPkt) : State :=
  let z := (if z0.video then z0.switchAt p else { z0 with hasActual := true }).sawPic p
  let changed := z0.hasActual && (z.actualS != z0.actualS || z.actualT != z0.actualT || z.actualPaused != z0.actualPaused)
  let s := s.modStream i (fun _ => z)
  let s := if changed then s.countSwitch i p else s
  let inside := if z.video then z.within p else true
  if z.off = none ∨ z.curSource ≠ p.src then
    if inside = false then s
    else
      let (r1, s) := s.draw 65536
      let (r2, s) := s.draw (2 ^ 32)
      let (r3, s) := s.draw 65536
      let slot := z.outKind == 3 && z.off.isSome
      let z := z.rebase p s.now r1 r2 r3
      let s := s.modStream i (fun y => { z with switches := y.switches })
      s.sendCopy i z l p ((p.ext : Int) + z.off.getD 0).toNat slot false
  else
    let (z, place) := z.number p (z.off.getD 0) inside
    let s := s.modStream i (fun y => { z with switches := y.switches })
    (match place with
     | .none => s
     | .send out => s.sendCopy i z l p out false false)

/-- Offers a source packet to an egress stream: a missing one goes into its reserved number, whichever source the stream now follows
(R272); `takes`: the stream follows this source. -/
def State.offerCopy (s : State) (i : Nat) (p : SrcPkt) (takes : Bool) : State :=
  match look s.objs.streams i with
  | none => s
  | some z =>
    match look s.objs.legs z.leg with
    | none => s
    | some l =>
      match z.reservedFor p with
      | some (r, inside) =>
        (s.modStream i (fun z => { z with reserved := z.reserved.filter (fun q => !(q.src == p.src && q.ext == p.ext)) })).sendCopy i
          { z with tsOff := r.tsOff, frameOff := r.frameOff, actualS := r.s, actualT := r.t } l p r.out false (!inside)
      | none => if takes then s.takeCopy i z l p else s

/-- Offers a source packet to an egress stream, which reports what comes of it. -/
def State.forwardCopy (s : State) (i : Nat) (p : SrcPkt) (takes : Bool := true) : State := (s.offerCopy i p takes).report i p.pending

/-- Does an egress stream follow an ingress stream (R246, R275)? -/
def State.follows (s : State) (z : Stream) (i : Nat) (x : Stream) : Bool :=
  (z.outKind == 0 && (s.groupOf i x).any (fun kv => streamHandle kv.1 kv.2.inc == z.source)) || (z.outKind == 3 && s.slotMember z == some i)

/-- Egress streams to which the packets of an ingress stream are offered, ascending, and whether they follow it: besides those that do,
those that hold reserved numbers for it. -/
def State.receivers (s : State) (i : Nat) (x : Stream) : List (Nat × Bool) :=
  (s.streamsIn x.room).filterMap (fun (k, z) =>
    let takes := s.follows z i x
    if z.egress && (takes || z.reserved.any (fun r => r.src == i + 1)) then some (k, takes) else none)

/-- Retention of a stream in ms: none without a region, or while its class is shed (R279, R280). -/
def State.histMs (s : State) (cls : Nat) : Nat := if (s.region 5).2.1 = 0 then 0 else s.pfld 6 (32 + 2 * cls) 2

/-- The packet of an ingress stream as egress streams see it; `tops` are the layers of which its picture has frames. -/
def State.srcPkt (s : State) (i : Nat) (x : Stream) (ext : Nat) (r : Rtp) (m : PktInfo) (tops : List (Nat × Nat)) (pending : Option Nat) :
    SrcPkt :=
  { src := i + 1, ext, rtp := r, info := m, layer := if x.video then x.layerOf m else some (0, 0), sim := x.layering == 2, codec := x.codec
    pic := x.extendTs r.ts, tops := if x.layering = 2 then tops.map (fun l => (x.simIndex, l.2)) else tops
    ddId := x.ext 0, levelId := x.ext 1, histMs := s.histMs x.histClass, pending }

/-- Offers a packet of an ingress stream to every egress stream that takes it. -/
def State.forwardAll (s : State) (i : Nat) (x : Stream) (ext : Nat) (r : Rtp) (m : PktInfo) (tops : List (Nat × Nat)) (pending : Option Nat) :
    State :=
  let p := s.srcPkt i x ext r m tops pending
  forEach (s.receivers i x) (fun k s => s.forwardCopy k.1 p k.2) s

end Sys2Proof.Machine
end

