-- ==== Sys2Proof/Machine/Receive.lean ====
section
/-! DEFINITION. Received frames: cut-through start and complete-packet notice (01 R53, R54; 04 R189-R194; 05 R207-R212),
classification (06 R248-R252), confirmation of RTP, and received RTCP (06 R276-R281). -/
namespace Sys2Proof.Machine

/-! ### Classification -/

/-- Kinds of R248. -/
inductive UdpKind where
  | stun | dtls | rtcp | rtp | unknown
  deriving DecidableEq, Repr

/-- Kind of a UDP payload by its first two bytes alone. -/
def udpKind (b : Bytes) : UdpKind :=
  let b0 := byteAt b 0
  let b1 := byteAt b 1
  if b = [] then .unknown
  else if b0 ≤ 3 then .stun
  else if 20 ≤ b0 ∧ b0 ≤ 63 then .dtls
  else if 128 ≤ b0 ∧ b0 ≤ 191 then
    (if 192 ≤ b1 ∧ b1 ≤ 223 then .rtcp else .rtp)
  else .unknown

/-- ECN bits of a datagram (R276). -/
def ecnOf (b : Bytes) (e : Eth) (ip : Ip) : Nat := if ip.v6 then byteAt b (e.l3 + 1) / 16 % 4 else byteAt b (e.l3 + 1) % 4

/-- 5-tuple of a received datagram, as legs keep it (06 R238). -/
def rxTuple (l : Nat) (ip : Ip) (b : Bytes) : Nat × Nat × Nat × Nat × Nat := (l, ip.dst, udpDst b ip, ip.src, udpSrc b ip)

/-- The live leg of a 5-tuple. -/
def State.legBy (s : State) (t : Nat × Nat × Nat × Nat × Nat) : Option (Nat × Leg) :=
  s.objs.legs.find? (fun kv => legTuple s.gens.cur kv.2 == t)

/-- A live tombstone of a kind, 5-tuple and SSRC (06 R251). -/
def State.tombAt (s : State) (kind : Nat) (t : Nat × Nat × Nat × Nat × Nat) (ssrc : Nat) : Bool :=
  s.objs.tombs.any (fun x => x.kind == kind && x.tuple == t && x.ssrc == ssrc)

/-- A match with a tombstone is dropped and counted against the old handle. -/
def State.tombDrop (s : State) (y kind : Nat) (t : Nat × Nat × Nat × Nat × Nat) (ssrc : Nat) : State :=
  (s.bump (fwCtr y 40)).modObjs (fun o => { o with
    tombs := o.tombs.map (fun x => if x.kind = kind ∧ x.tuple = t ∧ x.ssrc = ssrc then { x with drops := x.drops + 1 } else x) })

/-- The ingress stream of a leg with an SSRC. -/
def State.ingressBy (s : State) (leg ssrc : Nat) : Option (Nat × Stream) :=
  (s.streamsOf leg).find? (fun kv => !kv.2.egress && kv.2.ssrc == ssrc && (ssrc != 0 || kv.2.f 20 4 != 0))

/-- The unbound ingress stream of a leg that a packet's RID names (06 R250). -/
def State.ridStream (s : State) (leg : Nat) (r : Rtp) : Option (Nat × Stream) :=
  (s.streamsOf leg).find? (fun kv => !kv.2.egress && kv.2.ssrc == 0 && kv.2.rid != [] && r.ext (kv.2.ext 4) == some kv.2.rid)

/-- A classifier lookup; whether it misses the cache is a free value (06 R249). -/
def State.classify (s : State) (y : Nat) : State :=
  let (m, s) := s.draw 2
  if m = 1 then s.bump (fwCtr y 24) else s

/-! ### History (06 R279, R280) -/

/-- Every history in the region: class, entries, and whose it is: 0 and a stream, or a room + 1 and a rung (R279; 09 R397). -/
def State.histories (s : State) : List (Nat × List HistEntry × Nat × Nat) :=
  s.objs.streams.map (fun (i, x) => (x.histClass, x.hist, 0, i)) ++
    s.media.canvases.flatMap (fun (room, c) => c.rungs.zipIdx.map (fun (g, r) => (bits (s.fld 0x0B 11 1) 1 0, g.hist, room + 1, r)))

/-- Bytes in the history region. -/
def State.histUsed (s : State) : Nat :=
  s.histories.foldl (fun n h => n + (h.2.1.filter (fun h => decide (s.now ≤ h.until_))).foldl (fun m h => m + h.len) 0) 0

/-- Updates a rung of a room. -/
def State.modRung (s : State) (room r : Nat) (f : Rung → Rung) : State :=
  s.modMedia (fun m => { m with canvases := adj m.canvases room (fun c => { c with
    rungs := match c.rungs[r]? with
      | some g => setAt c.rungs r (f g)
      | none => c.rungs }) })

/-- Frees space in the region: the oldest entries of the lowest class go first. -/
def State.histEvict (s : State) (need size : Nat) : Nat → State
  | 0 => s
  | n + 1 =>
    if s.histUsed + need ≤ size then s
    else
      let pick := s.histories.foldl (fun (b : Option (Nat × Nat × Nat × Nat)) (cls, hist, room, i) =>
        match hist.getLast? with
        | none => b
        | some h =>
          match b with
          | none => some (cls, h.until_, room, i)
          | some (c, u, j) => if cls < c ∨ (cls = c ∧ h.until_ < u) then some (cls, h.until_, room, i) else some (c, u, j)) none
      match pick with
      | none => s
      | some (_, _, 0, i) => (s.modStream i (fun x => { x with hist := x.hist.dropLast })).histEvict need size n
      | some (_, _, k + 1, r) => (s.modRung k r (fun g => { g with hist := g.hist.dropLast })).histEvict need size n

/-- Keeps a confirmed packet of an ingress stream. -/
def State.keepHist (s : State) (i y : Nat) (x : Stream) (ext : Nat) (layer : Nat × Nat) (pkt : Bytes) : State :=
  let ms := s.histMs x.histClass
  if ms = 0 then s
  else if x.histClass < s.objs.shedLevel then s.bump (fwCtr y 184)
  else
    let size := (s.region 5).2.1 * 1048576
    let s := s.histEvict pkt.length size 4096
    let h : HistEntry := { ext, until_ := s.now + ms * 1000 * us, len := pkt.length, layerS := layer.1, layerT := layer.2, payload := pkt }
    ((s.modStream i (fun z => { z with hist := h :: z.hist.filter (fun e => decide (s.now ≤ e.until_)) })).addCnt (fwCtr y 176)
      (cdiv pkt.length 256)).modObjs (fun o => { o with histBytes := o.histBytes + pkt.length })

/-! ### Confirmation of RTP (04 R189; 06 R259-R263) -/

/-- Gaps and lost numbers after a confirmed packet: new numbers between the newest and it are missing; those that have left the replay
window and whose NACKs are spent are lost (R278, R296). -/
def Stream.newGaps (x : Stream) (ext now win tries : Nat) : Stream :=
  match x.extSeq with
  | none => x
  | some h =>
    let top := max h ext
    let add := if h < ext then (missingBetween (h + 1) ext []).map (fun m => ({ ext := m, seen := now } : Gap)) else []
    let all := x.gaps.filter (fun g => g.ext != ext) ++ add
    let live := all.filter (fun g => decide (top < g.ext + win ∨ g.tries < tries))
    { x with gaps := live, lost := x.lost + (all.length - live.length) }

/-- Reception of a confirmed packet (R276; RFC 3550): its arrival in ticks of the RTP clock. -/
def Recep.take (r : Recep) (ext ts arrival : Nat) : Recep :=
  let transit : Int := (arrival : Int) - ts
  let d : Nat := (r.transit.map (fun t => (transit - t).natAbs)).getD 0
  { r with base := some (r.base.getD ext), transit := some transit, jit16 := r.jit16 + d - (r.jit16 + 8) / 16, rcv := r.rcv + 1 }

/-- What a confirmed packet writes into its stream: numbers, windows, counters and levels; the window takes its present size (R292). Only
the bytes of a packet that lies on a layer count for its rate (R268). -/
def Stream.confirmed (x : Stream) (ext : Nat) (r : Rtp) (bytes now tick arrival win tries : Nat) (layer : Option (Nat × Nat)) : Stream :=
  let top := max (x.extSeq.getD ext) ext
  let x := x.newGaps ext now win tries
  let ts := x.extendTs r.ts
  let x := { x with
    extSeq := some top, extTs := some (max (x.extTs.getD ts) ts), roc := top / 65536, replay := markReplay win x.replay top ext, win
    packets := x.packets + 1, bytes := x.bytes + bytes, recep := x.recep.take ext ts (arrival * x.clock / 1000000000000)
    rates := match layer with
      | some l => addRate x.rates tick l.1 l.2 bytes
      | none => x.rates }
  if x.video then x
  else
    match r.ext (x.ext 1) with
    | some b =>
      let v := byteAt b 0
      if bit v 7 then { x with tickLevel := min x.tickLevel (v % 128), lastV := some now } else x
    | none => x

/-- Ticks of the RTP clock that an audio packet covers: of Opus by its table-of-contents byte (RFC 6716), of G.711 and G.722 one a byte
(10 R420, R427). -/
def audioTicks (codec : Nat) (b : Bytes) : Nat :=
  if codec = 1 then
    let toc := byteAt b 0
    let cfg := toc / 8
    let frame := if cfg < 12 then [480, 960, 1920, 2880].getD (cfg % 4) 0
      else if cfg < 16 then [480, 960].getD (cfg % 2) 0
      else [120, 240, 480, 960].getD (cfg % 4) 0
    match toc % 4 with
    | 0 => frame
    | 3 => frame * (byteAt b 1 % 64)
    | _ => 2 * frame
  else b.length

/-- Does the jitter buffer take a packet of that length (R427)? -/
def audioLengthOk (codec ticks : Nat) : Bool :=
  if codec = 1 then decide (120 ≤ ticks) && decide (ticks ≤ 5760) else decide (8 ≤ ticks) && decide (ticks ≤ 480)

/-- A packet enters a jitter buffer: the RFC 3550 jitter, the newest packet and the end of the audio held. -/
def Jitter.take (j : Jitter) (arrival ts ticks : Nat) : Jitter :=
  let transit : Int := (arrival : Int) - ts
  let d : Nat := (j.transit.map (fun t => (transit - t).natAbs)).getD 0
  { j with
    pkts := if j.pkts.any (fun p => p.1 == ts) then j.pkts else (ts, ticks) :: j.pkts, transit := some transit
    jit16 := j.jit16 + d - (j.jit16 + 8) / 16, newest := if j.endTs.all (fun e => decide (e ≤ ts + ticks)) then ticks else j.newest
    endTs := some (max (j.endTs.getD 0) (ts + ticks)) }

/-- A confirmed audio packet of a MIX room goes to its jitter buffer, unless its PT differs or its time has passed (10 R427,
R429). -/
def State.toJitter (s : State) (i : Nat) (x : Stream) (ts : Nat) (r : Rtp) : State :=
  match look s.media.jitter i, look s.objs.rooms x.room with
  | some j, some rm =>
    let body := if r.pad then r.body.take (r.body.length - byteAt r.body (r.body.length - 1)) else r.body
    let ticks := audioTicks x.codec body
    if r.pt ≠ x.f 18 1 then s.bump (ctr 9 rm.home 40)
    else if (j.readPos.map (fun p => decide (ts * 1000000000 < p))).getD false then s.bump (ctr 9 rm.home 16)
    else if audioLengthOk x.codec ticks = false then s
    else s.modMedia (fun m => { m with jitter := adj m.jitter i (fun q => q.take (s.now * x.clock / 1000000000000) ts ticks) })
  | _, _ => s

/-- A pending source is confirmed: what it withheld from log and statistics follows (04 R191). -/
def State.confirmRx (s : State) (rx : RxPending) : State :=
  let s := forEach (s.net.lports.filterMap (fun (_, p) => p.tx.bind (fun x => if x.frame.pending = some rx.id then some x.frame else none)))
    (fun f s => s.noteSent f) s
  let s := forEach rx.reports (fun (k, r) s => s.modStream k (fun z => { z with shown := r })) s
  let s := s.confirmSource rx.id
  let s := forEach rx.logs (fun (k, out, pkt) s =>
    match look s.objs.streams k with
    | some z => s.logPacket k z out pkt
    | none => s) s
  forEach rx.switched (fun k s =>
    match look s.objs.streams k with
    | some z => (s.modStream k (fun z => { z with switches := z.switches + 1 })).bump (fwCtr (s.legYard z.leg) 168)
    | none => s) s

/-- A source that fails is void. -/
def State.voidRx (s : State) (y : Nat) (rx : Option RxPending) : State :=
  let s := s.bump (fwCtr y 88)
  match rx with
  | some r => s.voidSource r.id
  | none => s

/-- What is read of a packet, and the stream that keeps what later packets are read by (R263). -/
def Stream.infoOf (x : Stream) (ext : Nat) (r : Rtp) : PktInfo × Stream := if x.video then x.readInfo ext r else ({}, x)

/-- How a frame arrived: its first byte in ps, its ECN bits, and the layers of its picture. -/
structure Arrival where
  at_ : Nat
  ecn : Nat := 0
  layers : List (Nat × Nat) := []
  deriving DecidableEq, Repr

/-- A confirmed packet is noted for the feedback that its leg's FB_MODE selects (R276). -/
def State.noteArrival (s : State) (i : Nat) (x : Stream) (ext : Nat) (r : Rtp) (a : Arrival) : State :=
  match look s.objs.legs x.leg with
  | none => s
  | some l =>
    if l.fbMode = 0 then s.modStream i (fun z => { z with arrivals := (ext, a.at_, a.ecn) :: z.arrivals.take 16383 })
    else
      match l.fbMode, r.ext (x.ext 2) with
      | 1, some b =>
        (match l.twTop with
         | none => s.modLeg x.leg (fun l => { l with twTop := some (be b 0 2), twSeen := [(be b 0 2, a.at_)] })
         | some h =>
           (match extend (be b 0 2) h 16 with
            | some n => s.modLeg x.leg (fun l => { l with twTop := some (max h n), twSeen := (n, a.at_) :: l.twSeen.take 16383 })
            | none => s))
      | _, _ => s

/-- An RTP packet of an ingress stream whose frame passed its FCS: authentication, replay, and what confirmation brings. -/
def State.takeRtp (s : State) (y i : Nat) (x : Stream) (pkt : Bytes) (a : Arrival) (rx : Option RxPending) (bind : Option Nat) : State :=
  match parseRtp pkt with
  | none => s.voidRx y rx
  | some head =>
    match x.extendSeq head.seq with
    | none => (s.bump (fwCtr y 56)).voidRx y rx
    | some ext =>
      match s.openRtp x ext pkt with
      | none => (s.bump (fwCtr y 48)).voidRx y rx
      | some clear =>
        match parseRtp clear with
        | none => (s.bump (fwCtr y 48)).voidRx y rx
        | some r =>
          if replayed x.win x.replay x.extSeq ext then (s.bump (fwCtr y 56)).voidRx y rx
          else
            let (m, x) := x.infoOf ext r
            let layer := if x.video then x.layerOf m else some (0, 0)
            let x1 := { x.confirmed ext r pkt.length s.now s.tick a.at_ (s.pfld 6 4 2) (s.fld 6 24 1) layer with ssrc := bind.getD x.ssrc }
            let s := (s.modStream i (fun _ => x1)).bump (fwCtr y 80)
            let s := match bind with
              | some ssrc => s.event (yardSrc y 8) (streamHandle i x.inc + ssrc * 2 ^ 32) x.owner
              | none => s
            let s := if layer.isSome then s else s.bump (fwCtr y 64)
            let s := s.noteArrival i x1 ext r a
            let s := match rx with
              | some q => s.confirmRx q
              | none => s
            let s := (s.logPacket i x1 ext clear).keepHist i y x1 ext (layer.getD (0, 0)) clear
            let s := if rx.isNone then s.forwardAll i x1 ext r m a.layers none else s
            let s := if x.video then s.packetArrived i ext else s.toJitter i x1 (x.extendTs r.ts) r
            s

/-! ### Received RTCP (06 R276, R277, R281; 08; 09 R396) -/

/-- Is the source packet of an egress number still retained? -/
def State.retains (s : State) (z : Stream) (m : EgMap) : Bool :=
  match m.src with
  | none => false
  | some e =>
    let live (h : List HistEntry) : Bool := h.any (fun x => x.ext == e && decide (s.now ≤ x.until_))
    if 2 ^ 32 ≤ m.stream then
      ((look s.media.canvases z.room).bind (fun c => c.rungs[m.stream - 2 ^ 32]?)).any (fun g => live g.hist)
    else ((look s.objs.streams (m.stream - 1)).map (fun x => live x.hist)).getD false

/-- Sends one number again, or counts why not (R281): a mapping lasts for its span, and a packet that never departed is sent as it was
built. Nothing is sent on a context that has run out (R260). -/
def State.resend (s : State) (y i : Nat) (num : Nat) : State :=
  match look s.objs.streams i with
  | none => s
  | some z =>
    match look s.objs.legs z.leg, extend num z.lastOut 16 with
    | some l, some out =>
      (match z.egMap.find? (fun m => m.out == out && m.src.isSome && decide (s.now ≤ m.until_)) with
       | none => s.bump (fwCtr y 136)
       | some m =>
         if s.retains z m = false then
           (s.bump (fwCtr y 128)).modStream i (fun z => { z with nackExpired := z.nackExpired + 1 })
         else if z.exhausted ∨ (m.lastSent ≠ 0 ∧ s.now < m.lastSent + s.fld 6 26 2 * 1000 * us) then s
         else
           let c := if z.video then l.videoClass else l.audioClass
           let data := if m.data = [] then m.pkt else m.data
           let s := (s.bump (fwCtr y 120)).modStream i (fun z => { z with
             nackServed := z.nackServed + 1, egMap := z.egMap.map (fun q => if q.out = out then { q with lastSent := s.now } else q) })
           s.enqueue l.lport c {
             bare := l.bareLen (data.length + tagLen z.key), enter := s.now, leg := z.leg + 1, stream := i + 1, key := z.key, kind := 7
             out, src := m.src, data })
    | _, _ => s.bump (fwCtr y 136)

/-- A request for a key picture from the source of an egress stream, or of its rung (R277; 09 R396). -/
def State.keyWanted (s : State) (z : Stream) : State :=
  if z.outKind = 0 then
    match s.streamAt z.source with
    | some (k, x) =>
      s.requestKey (if x.layering = 2 then (((s.groupOf k x).find? (fun kv => kv.1 + 1 == z.curSource)).map (·.1)).getD k else k)
    | none => s
  else if z.outKind = 1 then s.rungKey z.room z.index
  else s

/-- Round-trip time in µs from a report block: now, less the delay and the last SR (RFC 3550); none without one. -/
def State.rttFrom (s : State) (lsr dlsr : Nat) : Option Nat :=
  let d := (midNtp s.ntp + 2 ^ 33 - lsr - dlsr) % 2 ^ 32
  if lsr = 0 ∨ 2 ^ 31 ≤ d then none else some (d * 1000000 / 65536)

/-- One message of an authentic RTCP packet of a leg. Parts about an SSRC that a tombstone holds are dropped (R251). -/
def State.rtcpItem (s : State) (y leg : Nat) (t : Nat × Nat × Nat × Nat × Nat) (m : RtcpItem) : State :=
  let about (ssrc : Nat) (f : Nat → Stream → State → State) : State :=
    if s.tombAt 2 t ssrc then s.tombDrop y 2 t ssrc
    else
      match (s.streamsOf leg).find? (fun kv => kv.2.egress && kv.2.ssrc == ssrc) with
      | some (i, z) => f i z s
      | none => s
  match m with
  | .sr ssrc ntp =>
    (match s.ingressBy leg ssrc with
     | some (i, _) => s.modStream i (fun x => { x with recep := { x.recep with sr := some (ntp, s.now) } })
     | none => s)
  | .report ssrc lsr dlsr => about ssrc (fun _ _ s => s.modLeg leg (fun l => { l with rttUs := (s.rttFrom lsr dlsr).getD l.rttUs }))
  | .nack ssrc nums => about ssrc (fun i _ s => forEach nums (fun n s => s.resend y i n) (s.bump (fwCtr y 112)))
  | .pli ssrc => about ssrc (fun _ z s => s.keyWanted z)
  | .fir sender ssrc => about ssrc (fun _ z s => (s.modLeg leg (fun l => { l with lastFir := some sender })).keyWanted z)
  | .ccfb rts blocks =>
    let (gone, live) := blocks.partition (fun b => s.tombAt 2 t b.1)
    let s := forEach gone (fun b s => s.tombDrop y 2 t b.1) s
    if live = [] ∧ gone ≠ [] then s else s.feedbackReport leg 0 (fun l => l.takeCcfb rts live)
  | .twcc ssrc first ref deltas =>
    if s.tombAt 2 t ssrc then s.tombDrop y 2 t ssrc else s.feedbackReport leg 1 (fun l => l.takeTwcc first ref deltas)

/-- Opens a received SRTCP packet under the first key in service that it passes under (R258): its index and the clear packet. -/
def State.openRtcp (s : State) (x : Stream) (pkt : Bytes) : Option (Nat × Bytes) :=
  (s.keysOf x).findSome? (fun k =>
    let idx := srtcpIndexOf k pkt
    (srtcpOpen k.suite k.key idx pkt).map (fun b => (idx, b)))

/-- The clear bytes of a received RTCP packet of a leg, or the counter of its drop: authentication, then the replay window of its index
(R259, R292). -/
def State.rtcpClear (s : State) (leg : Nat) (pkt : Bytes) : (Nat ⊕ Bytes) × State :=
  match s.rtcpFrom leg (be pkt 4 4) with
  | none => (.inr pkt, s)
  | some (i, x) =>
    if x.key.isNone then (.inr pkt, s)
    else
      match s.openRtcp x pkt with
      | none => (.inl 48, s)
      | some (idx, clear) =>
        if replayed x.srtcpWin x.srtcpReplay (x.srtcpReplay.foldl (fun m n => some (max (m.getD 0) n)) none) idx then (.inl 56, s)
        else
          let win := s.pfld 6 4 2
          let top := x.srtcpReplay.foldl max idx
          (.inr clear, s.modStream i (fun z => { z with srtcpReplay := markReplay win z.srtcpReplay top idx, srtcpWin := win }))

/-- A received RTCP packet of a leg: SRTCP authentication and replay, the copy that PUNT_RTCP asks for, and its messages. -/
def State.takeRtcp (s : State) (y leg : Nat) (l : Leg) (t : Nat × Nat × Nat × Nat × Nat) (pkt frame : Bytes) (lport gen rxAt : Nat) : State :=
  match s.rtcpClear leg pkt with
  | (.inl off, s) => s.bump (fwCtr y off)
  | (.inr clear, s) =>
    let s := s.bump (fwCtr y 80)
    let s := if l.puntRtcp then s.punt l.owner lport 0x0B (legHandle leg l.inc) gen rxAt frame else s
    forEach (rtcpItems clear) (fun m s => s.rtcpItem y leg t m) s

/-! ### The forwarding pipeline -/

/-- A confirmed-FCS frame steered to forwarding (06 R248-R252). Frames count by kind as they are sorted, and as confirmed unless the
authentication or the replay check of their stream fails (04 R189). -/
def State.takeFwd (s : State) (lport gen rxAt : Nat) (f : RxFrame) (rx : Option RxPending) : State :=
  let y := yardOf lport
  let e := parseEth f.data
  let ip := parseIp f.data e
  let b := udpData f.data ip
  let t := rxTuple lport ip f.data
  match udpKind b with
  | .unknown => (s.bump (fwCtr y 80)).bump (fwCtr y 16)
  | kind =>
    let s := s.classify y
    let s := if kind = .rtp then s.bump (fwCtr y 0) else if kind = .rtcp then s.bump (fwCtr y 8) else s
    let ok := s.bump (fwCtr y 80)
    if s.tombAt 0 t 0 then
      (match rx with
       | some r => (s.voidSource r.id).tombDrop y 0 t 0
       | none => ok.tombDrop y 0 t 0)
    else
      match s.legBy t with
      | none =>
        ok.punt s.puntDefault lport (if kind = .stun then 7 else if kind = .dtls then 8 else 9) 0 gen rxAt f.data
      | some (leg, l) =>
        match kind with
        | .stun => ok.punt l.owner lport 7 (legHandle leg l.inc) gen rxAt f.data
        | .dtls => ok.punt l.owner lport 8 (legHandle leg l.inc) gen rxAt f.data
        | .rtcp => s.takeRtcp y leg l t b f.data lport gen rxAt
        | .unknown => s
        | .rtp =>
          let ssrc := be b 8 4
          let a : Arrival := { at_ := rxAt, ecn := ecnOf f.data e ip, layers := f.layers }
          if (rx.map (·.unknown)).getD false then ok.bump (fwCtr y 32)
          else if s.tombAt 1 t ssrc then ok.tombDrop y 1 t ssrc
          else
            match s.ingressBy leg ssrc with
            | some (i, x) => s.takeRtp y i x b a rx none
            | none =>
              match (parseRtp b).bind (s.ridStream leg) with
              | some (i, x) => s.takeRtp y i x b a none (some ssrc)
              | none => ok.bump (fwCtr y 32)

/-! ### Frames stamped before a boundary (03 R139; 04 R170) -/

/-- The generation a frame is stamped with: the one in force at its first byte (03 R139). -/
def State.stampAt (s : State) (first : Nat) : Nat :=
  if s.gens.switching ∧ first < s.tickAt then (s.gens.old.map (·.gen)).getD 0 else s.gen

/-- The state that a frame with this stamp sees: before the last boundary's commands and under its generation when its first byte came
before that boundary. -/
def State.seen (s : State) (first gen : Nat) : State :=
  if s.tickAt ≤ first then s
  else { s with gens := { s.gens with cur := s.cfgOf gen, place := some s.gens.cur }, objs := s.objsBefore.overlay s.objs }

/-- Back from the state `t` that a frame of before the boundary has left, to the objects and the generation of `s`: what it did to objects
that are gone goes with them, and its copies wait where the settings in force put them. -/
def State.backTo (s t : State) : State :=
  let t := forEach (s.objsBefore.streams.filter (fun kv => (look s.objs.streams kv.1).isNone)) (fun kv t => t.deleteStream kv.1) t
  let t := forEach (s.objsBefore.legs.filter (fun kv => (look s.objs.legs kv.1).isNone)) (fun kv t => t.deleteLeg kv.1) t
  let t := { t with gens := s.gens, objs := s.objs.overlay t.objs }
  forEach (s.objs.legs.map (·.1)) (fun i t => t.requeue i) t

/-- Runs a generation-bound stage of a frame under what the frame sees. -/
def State.under (s : State) (first gen : Nat) (work : State → State) : State :=
  if s.tickAt ≤ first then work s else s.backTo (work (s.seen first gen))

/-! ### CUT_THROUGH_START -/

/-- Length of a frame as its headers give it (04 R193). -/
def headerLen (b : Bytes) : Nat := let e := parseEth b; max 64 (e.l3 + (parseIp b e).total + 4)

/-- Pool 0 refuses the cells of a received frame (07 R318). -/
def State.refuse0 (s : State) (n : Nat) : State := (s.addCnt (poolCtr 0 32) n).bump pool0Ctr

/-- CUT_THROUGH_START: CT_THRESH bytes of a frame of forwarding are in the loft; RTP of a known leg enters the pipeline pending
(01 R54; 05 R211, R212; 06 R250). A frame that pool 0 refuses is dropped whole (07 R318). -/
def cutThroughStart (l : Nat) (f : RxFrame) (s : State) : State :=
  let bp := bytePs (modeOf s.gens.cur (l / 4))
  let thr0 := lpfld s.gens.cur l 26 2
  let gen := s.stampAt (s.now - thr0 * bp)
  let c := s.cfgOf gen
  let thr := lpfld c l 26 2
  let first := s.now - thr * bp
  let v := s.seen first gen
  let lenIn := headerLen f.data
  if s.upl l = false ∨ s.mediaOn = false ∨ (s.lport l).rx.isSome ∨ (s.lport l).rxRefused ∨ thr = 0 ∨ f.data.length < thr ∨
      (rxError c l f.data true).isSome ∨ v.steer l f.data ≠ .fwd then s
  else if s.poolTakes 0 (cellsOf lenIn) = false then (s.refuse0 (cellsOf lenIn)).modLport l (fun p => { p with rxRefused := true })
  else
    let ip := parseIp f.data (parseEth f.data)
    let b := udpData f.data ip
    let t := rxTuple l ip f.data
    if udpKind b ≠ .rtp ∨ v.tombAt 0 t 0 ∨ v.tombAt 1 t (be b 8 4) then s
    else
      match v.legBy t with
      | none => s
      | some (leg, _) =>
        let id := s.net.nextRx
        let found := v.ingressBy leg (be b 8 4)
        let rx : RxPending := {
          id, gen, firstIn := first, lenIn, bytePs := bp, auth := (found.map (fun x => x.2.key.isSome)).getD false
          unknown := found.isNone }
        let s := ((s.modNet (fun n => { n with nextRx := id + 1 })).modLport l (fun p => { p with rx := some rx })).poolAdd 0 (cellsOf lenIn)
        match found, parseRtp b with
        | some (i, x), some head =>
          (match x.extendSeq head.seq with
           | some ext =>
             s.under first gen (fun s => match parseRtp (s.peekRtp x ext b) with
              | some r => s.forwardAll i x ext r (x.infoOf ext r).1 f.layers (some id)
              | none => s)
           | none => s)
        | _, _ => s

/-! ### COMPLETE_PACKET_NOTICE -/

/-- COMPLETE_PACKET_NOTICE: the last byte of a frame is in the loft and its FCS judged (01 R53; 05 R207, R209). A frame that did not
start in cut-through has stood in pool 0 until now (07 R316). Replicas that the notice did not confirm are void. -/
def completeNotice (l : Nat) (f : RxFrame) (s : State) : State :=
  if s.upl l = false then s
  else if (s.lport l).rxRefused then s.modLport l (fun p => { p with rxRefused := false })
  else
    let rx := (s.lport l).rx
    let len := f.data.length + 4
    let first := match rx with
      | some r => r.firstIn
      | none => s.now - len * bytePs (modeOf s.gens.cur (l / 4))
    let gen := match rx with
      | some r => r.gen
      | none => s.stampAt first
    if rx.isNone ∧ s.poolTakes 0 (cellsOf len) = false then s.refuse0 (cellsOf len)
    else
      let s := match rx with
        | some r => (s.modLport l (fun p => { p with rx := none })).poolSub 0 (cellsOf r.lenIn)
        | none => (s.poolAdd 0 (cellsOf len)).poolSub 0 (cellsOf len)
      match rxError (s.cfgOf gen) l f.data f.fcsOk with
      | some off =>
        let s := s.bump (npCtr l off)
        (match rx with
         | some r => if r.unknown then s else s.voidRx (yardOf l) (some r)
         | none => s)
      | none =>
        let s := (s.bump (npCtr l 0)).addCnt (npCtr l 8) len
        let s := match (s.seen first gen).steer l f.data with
        | .pause => s.pauseFrame l f.data
        | .ctrlOther => s.bump (npCtr l 80)
        | .ptp => s.bump (npCtr l 104)
        | .host reason => (s.bump (npCtr l 96)).under first gen (fun s => s.punt s.puntDefault l reason 0 gen first f.data)
        | .fwd =>
          let s := s.bump (npCtr l 88)
          if s.mediaOn then s.under first gen (fun s => s.takeFwd l gen first f rx) else s.bump (ctr 0x0D 0 96)
        match rx with
        | some r => s.voidSource r.id
        | none => s

/-! ### The commands of this file -/

/-- CUT_THROUGH_START (01 R54). -/
def execCutThroughStart (t lport : Nat) (f : RxFrame) (s : State) : Host.Outcome State Fault Refusal :=
  .next (cutThroughStart lport f (s.at t))

/-- COMPLETE_PACKET_NOTICE (01 R53). -/
def execCompletePacketNotice (t lport : Nat) (f : RxFrame) (s : State) : Host.Outcome State Fault Refusal :=
  .next (completeNotice lport f (s.at t))

end Sys2Proof.Machine
end

