-- ==== Sys2Proof/Machine/Transmit.lean ====
section
/-! DEFINITION. Sending: the start and end of a frame on a logical port (05 R213; 07 R300-R307; 12 R520-R524), and HOST_TX
(02 R117, R118; 07 R318). -/
namespace Sys2Proof.Machine

/-! ### HOST_TX (02 R117, R118) -/

/-- Length on the wire of a host frame of n bytes, FCS included. -/
def hostLen (n : Nat) : Nat := max 60 n + 4

/-- LPORT and class of a HOST_TX. -/
def txLport (d : Desc) : Nat := dbits d 24 5 0
def txClass (d : Desc) : Nat := dbits d 25 2 0

/-- Descriptors that wait for their pool start the read of their data in order; one that is refused holds back those behind it of
the same pool (07 R318). -/
def hostStart (s : State) : List (Nat × Nat × Nat × Nat × Desc) → List Nat → State × List (Nat × Nat × Nat × Nat × Desc)
  | [], _ => (s, [])
  | (p, r, seq, gen, d) :: rest, held =>
    let k := s.poolOf (txLport d) (txClass d)
    let n := cellsOf (hostLen d.length)
    if held.contains k = false ∧ s.poolTakes k n then
      hostStart (((s.poolAdd k n).startDma p r seq .hostTx d gen).modDma s.nextDma (fun x => { x with pool := k })) rest held
    else
      let (s, left) := hostStart s rest (k :: held)
      (s, (p, r, seq, gen, d) :: left)

/-- Lets waiting HOST_TX descriptors go on. -/
def State.hostPump (s : State) : State :=
  if s.net.hostWait = [] then s
  else
    let (s, left) := hostStart s s.net.hostWait []
    s.modNet (fun n => { n with hostWait := left })

/-- HOST_TX, once fetched: it bears the generation then in force (03 R139). -/
def hostTx (p r seq : Nat) (d : Desc) (s : State) : State :=
  if 9212 < d.length ∨ provides s.gens.cur (txLport d) = false then s.complete p r seq stBadParam
  else (s.modNet (fun n => { n with hostWait := n.hostWait ++ [(p, r, seq, s.gen, d)] })).hostPump

/-- Do two reads feed the same ring, logical port and class (R118)? -/
def Dma.sameLine (a b : Dma) : Bool :=
  a.port == b.port && a.ring == b.ring && txLport a.desc == txLport b.desc && txClass a.desc == txClass b.desc &&
    a.use == .hostTx && b.use == .hostTx

/-- Frames whose data has been read enter their queue, in submission order of their ring, port and class. On a port that a switch has
removed they are not sent, and count nowhere (05 R202, R234). -/
def hostRelease (x : Dma) : Nat → State → State
  | 0, s => s
  | n + 1, s =>
    match s.dmas.find? (fun y => y.sameLine x) with
    | none => s
    | some y =>
      match y.data with
      | none => s
      | some b =>
        let s := { s with dmas := s.dmas.filter (fun z => z.id != y.id) }
        let f : QFrame := {
          len := hostLen y.desc.length, enter := s.now, kind := 3, pool := y.pool, data := padTo (max 60 b.length) b
          host := some (y.port, y.ring, y.seq, bit (dfld y.desc 26 1) 0) }
        hostRelease x n (if provides s.gens.cur (txLport y.desc) then s.enqueue (txLport y.desc) (txClass y.desc) f
          else (s.release f).notSent f)

/-- The data of a HOST_TX has been read, or its read has failed with a status. -/
def State.hostData (s : State) (x : Dma) (data : Option Bytes) : State :=
  match data with
  | some b =>
    hostRelease x s.dmas.length { s with dmas := s.dmas.map (fun y => if y.id = x.id then { y with data := some b } else y) }
  | none =>
    let s := { s with dmas := s.dmas.filter (fun y => y.id != x.id) }
    let s := s.poolSub x.pool (cellsOf (hostLen x.desc.length))
    (hostRelease x s.dmas.length (s.complete x.port x.ring x.seq stDmaError)).hostPump

/-! ### Starting a frame -/

/-- Is it an RTP packet of a stream? -/
def QFrame.isRtp (f : QFrame) : Bool := [0, 1, 5, 6, 7].contains f.kind

/-- Writes abs-send-time and the transport-wide number into an RTP packet at its first departure; a packet that is sent again keeps
those (12 R522, R524; 06 R281). Also the transport-wide number that it bears. -/
def State.departRtp (s : State) (f : QFrame) (z : Stream) : (Bytes × Option Nat) × State :=
  match (if f.kind = 7 then z.egMap.find? (fun m => m.out == f.out && m.data != []) else none) with
  | some m => ((m.data, m.tw), s)
  | none =>
    let b := if z.ext 3 = 0 then f.data else fillExt f.data (z.ext 3) (beBytes 3 s.absSendTime)
    match look s.objs.legs z.leg with
    | some l =>
      if l.fbMode = 1 ∧ z.ext 2 ≠ 0 ∧ f.kind ≠ 1 then
        ((fillExt b (z.ext 2) (beBytes 2 (l.twccCounter % 65536)), some l.twccCounter),
          s.modLeg z.leg (fun l => { l with twccCounter := l.twccCounter + 1 }))
      else ((b, none), s)
    | none => ((b, none), s)

/-- A packet sent to a leg, for what its feedback will say of it; those of the last 10 s are held (06 R266). -/
def Leg.sentPacket (l : Leg) (d : Depart) : Leg :=
  if l.fbMode = 2 then l else { l with departs := d :: l.departs.filter (fun x => decide (d.at_ < x.at_ + 10000000 * us)) }

/-- A departing RTP packet of an egress stream: completed, noted for retransmission and feedback, and protected (12 R522-R524; 06 R253,
R258, R266, R279). -/
def State.departStream (s : State) (f : QFrame) (z : Stream) : QFrame × State :=
  let ((b, tw), s) := s.departRtp f z
  let s := s.modStream (f.stream - 1) (fun z => { z with
    egMap := z.egMap.map (fun m => if m.out = f.out ∧ m.data = [] then { m with data := b, tw, lastSent := s.now } else m) })
  let data := match z.key with
    | some k => srtpSeal k.suite k.key (f.out / 65536) b
    | none => b
  ({ f with data }, s.modLeg z.leg (fun l => l.sentPacket { ssrc := z.ssrc, seq := f.out, tw, at_ := s.now, bytes := data.length }))

/-- The payload of a frame as it leaves: RTP is completed and protected, a Sync or Pdelay_Resp takes its time or is followed up
(12 R522-R524; 06 R253, R281; notes/assumptions/32.md). -/
def State.depart (s : State) (f : QFrame) : QFrame × State :=
  if f.isRtp then
    match look s.objs.streams (f.stream - 1) with
    | some z => s.departStream f z
    | none => ({ f with data := match f.key with
        | some k => srtpSeal k.suite k.key (f.out / 65536) f.data
        | none => f.data }, s)
  else if f.kind = 4 then s.ptpDepart f
  else (f, s)

/-- The tag of a frame the bridge sends: VID, and PCP its class; a pause or PFC frame is of no class, and its PCP is a free value
(05 R215). -/
def State.vlanTag (s : State) (l c kind : Nat) : Bytes × State :=
  if bit (lpfld s.gens.cur l 35 1) 0 then
    let (v, s) := if kind = 8 then s.draw 8 else (c, s)
    (beBytes 2 0x8100 ++ beBytes 2 (v % 8 * 8192 + bits (lpfld s.gens.cur l 36 2) 11 0), s)
  else ([], s)

/-- The link-layer header under which a frame leaves (05 R215). -/
def State.linkHead (s : State) (l c : Nat) (f : QFrame) : Bytes × State :=
  if f.kind = 3 then ([], s)
  else
    let (tag, s) := s.vlanTag l c f.kind
    if f.kind = 4 ∨ f.kind = 8 then (f.data.take 12 ++ tag ++ (f.data.drop 12).take 2, s)
    else (beBytes 6 f.hop ++ beBytes 6 (ownMac s.gens.cur l) ++ tag ++ beBytes 2 (if f.v6 then 0x86DD else 0x0800), s)

/-- A frame starts on a port (05 R213, R223; 07 R305). -/
def State.startFrame (s : State) (l c : Nat) (f : QFrame) : State :=
  let (head, s) := s.linkHead l c f
  let (f, s) := s.depart f
  let s := s.when f.pending.isNone (fun s => s.noteSent f)
  let bp := bytePs (modeOf s.gens.cur (l / 4))
  s.modLport l (fun p => { p with tx := some {
    frame := f, head, cls := c, shaped := f.kind != 8 && s.shaped l c, start := s.now, ends := s.now + f.len * bp, listEpoch := p.gclEpoch, stamp := (s.tbSec 0, s.tbNanos 0) } })

/-- Does a frame wait for a context that has stopped sending until the next KEY_INSTALL (06 R260)? -/
def State.stopped (s : State) (f : QFrame) : Bool := f.isRtp && ((look s.objs.streams (f.stream - 1)).map (·.exhausted)).getD false

/-- A pause or PFC frame of these bytes, without the padding to 60. -/
def ctlQFrame (now : Nat) (b : Bytes) : QFrame := { enter := now, kind := 8, bare := (if be b 14 2 = 1 then 18 else 34) + 4, data := b }

/-- TRANSMIT_FRAME_START: at a frame boundary the MAC starts a pause frame that waits, else the eligible frame of the highest class.
A frame that leaves the shaper tree of a port that is down, as every port is in SAFE, is charged and discarded (05 R205, R213; 07 R307;
14 R585). A packet of a context that has run out is not encrypted: it is discarded (06 R260; notes/assumptions/118.md). -/
def transmitStart (l : Nat) (s : State) : State :=
  let p := s.lport l
  if 64 ≤ l ∨ p.tx.isSome ∨ s.now < p.nextStart ∨ s.power.mode = .reset ∨ s.power.mode = .boot ∨ s.power.mode = .keep then s
  else
    match s.upl l, p.ctl with
    | true, b :: rest =>
      let f := ctlQFrame s.now b
      (s.modLport l (fun p => { p with ctl := rest })).startFrame l 0 { f with len := s.wireLen l f }
    | up, _ =>
      let (choice, ds) := s.pick l
      let s := s.setDeficits ds
      match choice with
      | none => s
      | some (c, q) =>
        match s.takeHead l c q with
        | none => s
        | some (f, s) =>
          if s.stopped f then (s.release f).hostPump
          else
            let s := s.chargeShapers l c f.leg (s.charge l c f.len) (s.shaped l c)
            if up then s.startFrame l c f
            else (((s.release f).dropQ f (npCtr l 144) (yardOf l)).notSent f).hostPump

/-! ### Ending a frame -/

/-- Yard whose pipeline made a copy: that of the stream's present source. -/
def State.copyYard (s : State) (z : Stream) : Nat :=
  match look s.objs.streams (z.curSource - 1) with
  | some x => s.legYard x.leg
  | none => s.legYard z.leg

/-- Counts a frame sent with a good FCS (05 R235; 06 R296; 02 R118). -/
def State.countSent (s : State) (l : Nat) (x : TxFrame) : State :=
  let f := x.frame
  if f.kind = 8 then s.bump (npCtr l 136)
  else
    let s := ((s.bump (npCtr l 112)).addCnt (npCtr l 120) f.len).bump (npCtr l (320 + 8 * x.cls))
    let s := match f.host with
      | some (p, r, seq, ts) => (s.bump (hpCtr p 104)).complete p r seq stOk (if ts then x.stamp.2 else 0)
      | none => s
    match f.stream with
    | 0 => s
    | i + 1 =>
      match look s.objs.streams i with
      | some z =>
        let n := f.udpBytes
        let s := s.modStream i (fun z => { z with packets := z.packets + 1, bytes := z.bytes + n })
        if f.kind = 0 ∨ f.kind = 7 then s.bump (fwCtr (s.copyYard z) 72) else s
      | none => s

/-- TRANSMIT_FRAME_END: the last byte of the frame has left the MAC; the FCS of a replica waits until its source is confirmed or void
(02 R118; 04 R194). -/
def transmitEnd (l : Nat) (s : State) : State :=
  match (s.lport l).tx with
  | none => s
  | some x =>
    if s.now < x.ends ∨ x.frame.pending.isSome then s
    else
      let bp := bytePs (modeOf s.gens.cur (l / 4))
      let s := s.modLport l (fun p => { p with tx := none, nextStart := x.ends + 20 * bp })
      let s := if x.frame.kind = 8 then s else s.release x.frame
      (if x.stomped then s else s.countSent l x).hostPump

/-! ### The commands of this file -/

/-- HOST_TX (02 R117). -/
def execHostTx (t p r : Nat) (d : Desc) (s : State) : Host.Outcome State Fault Refusal :=
  .next (fetchDesc 0x1B p r d (fun seq s => hostTx p r seq d s) (s.at t))

/-- HEAD_AGE_DROP (07 R311): a HOST_TX that waits for cells may then go on (R318). -/
def execHeadAgeDrop (t queue : Nat) (s : State) : Host.Outcome State Fault Refusal := .next (headAgeDrop queue (s.at t)).hostPump

/-- TRANSMIT_FRAME_START (05 R213). -/
def execTransmitFrameStart (t lport : Nat) (s : State) : Host.Outcome State Fault Refusal := .next (transmitStart lport (s.at t))

/-- TRANSMIT_FRAME_END (02 R118). -/
def execTransmitFrameEnd (t lport : Nat) (s : State) : Host.Outcome State Fault Refusal := .next (transmitEnd lport (s.at t))

end Sys2Proof.Machine
end

