-- ==== Sys2Proof/Machine/Compose.lean ====
section
/-! DEFINITION. Composition and multi-rung encoding (09): tile sources and layouts, composed pictures, the encodes of a ladder, their
bit budgets, packets and analysis records, rung rates, and overlays. -/
namespace Sys2Proof.Machine

/-- A counter of a compositor record and of a stall record of block 0x08 (R415). -/
def cpCtr (y off : Nat) : Nat := ctr 8 y off
def enCtr (stall off : Nat) : Nat := ctr 8 (8 + stall) off

/-- A canvas, and updates of it. -/
def State.canvas (s : State) (room : Nat) : Option Canvas := look s.media.canvases room
def State.modCanvas (s : State) (room : Nat) (f : Canvas → Canvas) : State :=
  s.modMedia (fun m => { m with canvases := adj m.canvases room f })

/-- Updates a composed picture of a room. -/
def State.modCanvasPic (s : State) (room n : Nat) (f : CanvasPic → CanvasPic) : State :=
  s.modCanvas room (fun c => { c with pics := c.pics.map (fun p => if p.num = n then f p else p) })

/-! ### Speakers and ranks (R383) -/

/-- Speaker set of a room in order of entry, as streams: the active set of its mix, else its forwarded-audio set. -/
def State.speakerSet (s : State) (room : Nat) (r : Room) : List Nat :=
  if r.has 4 then ((look s.media.mixes room).map (·.active)).getD []
  else if r.has 2 then r.audioSet else []

/-- Leg of a stream. -/
def State.legOf (s : State) (i : Nat) : Nat := ((look s.objs.streams i).map (·.leg)).getD 0

/-- Loudest first: the highest level of the mix, or the lowest smoothed level. -/
def State.loudness (s : State) (room : Nat) (r : Room) (i : Nat) : Int :=
  if r.has 4 then ((look s.media.mixes room).map (fun m => lookD m.level i (-12000))).getD (-12000)
  else -(((look s.objs.streams i).map (·.smooth)).getD 0 : Nat)

/-- The current speaker as leg index + 1; 0 when the set is empty. -/
def State.currentSpeaker (s : State) (room : Nat) (r : Room) : Nat :=
  match (s.speakerSet room r).foldl (fun (b : Option Nat) i =>
    match b with
    | none => some i
    | some j =>
      let x := s.loudness room r i
      let y := s.loudness room r j
      if y < x ∨ (x = y ∧ s.legOf i < s.legOf j) then some i else some j) none with
  | some i => s.legOf i + 1
  | none => 0

/-- At every tick boundary each COMPOSE room notes its current speaker and when each leg was last in the set. -/
def State.noteSpeakers (s : State) : State :=
  forEach s.media.canvases (fun (room, c) s =>
    match look s.objs.rooms room with
    | none => s
    | some r =>
      let cur := s.currentSpeaker room r
      let s := if cur = c.current then s else s.modCanvas room (fun c => { c with current := cur, currentSince := s.tick })
      forEach (s.speakerSet room r) (fun i s => s.modLeg (s.legOf i) (fun l => { l with lastSpeakerTick := some s.tick })) s) s

/-- The featured source at a boundary, as leg index + 1. -/
def State.featuredNow (s : State) (room : Nat) (r : Room) (c : Canvas) : Nat :=
  let hold := s.setFld (r.tf 4 1) 12 2
  if c.current ≠ 0 ∧ 2 * hold ≤ 5 * (s.tick - c.currentSince) then c.current
  else if (s.speakerSet room r).any (fun i => s.legOf i + 1 == c.featured) then c.featured else 0

/-- Decode targets of a room, by key. -/
def State.roomTargets (s : State) (room : Nat) : List (Nat × Target) := s.media.targets.filter (fun kv => kv.2.room == room)

/-- A place later in the ranking: last spoke earlier, or equally long ago with a higher leg. -/
def rankAfter (x y : Option Nat × Nat) : Bool :=
  match x.1, y.1 with
  | some a, some b => decide (a < b) || (decide (a = b) && decide (y.2 < x.2))
  | none, some _ => true
  | some _, none => false
  | none, none => decide (y.2 < x.2)

/-- Inserts a target into the ranking of those outside the speaker set. -/
def rankInsert (k : Nat) (x : Option Nat × Nat) : List (Nat × (Option Nat × Nat)) → List (Nat × (Option Nat × Nat))
  | [] => [(k, x)]
  | (j, y) :: rest => if rankAfter x y then (j, y) :: rankInsert k x rest else (k, x) :: (j, y) :: rest

/-- Decode targets by rank. -/
def State.ranks (s : State) (room : Nat) (r : Room) (featured : Nat) : List Nat :=
  let all := s.roomTargets room
  let first := ((all.filter (fun kv => kv.2.leg + 1 == featured)).map (·.1)).take 1
  let legs := (s.speakerSet room r).map s.legOf
  let speak := legs.foldl (fun acc g => acc ++ ((all.filter (fun kv => kv.2.leg == g && !acc.contains kv.1)).map (·.1))) first
  let rest := (all.filter (fun kv => !speak.contains kv.1)).foldl (fun acc (k, t) =>
    rankInsert k ((look s.objs.legs t.leg).bind (·.lastSpeakerTick), t.leg) acc) []
  speak ++ rest.map (·.1)

/-! ### Layouts and tiles (R376-R378, R382) -/

/-- A field of layout k of a layout set (R407). -/
def State.layFld (s : State) (set k off n : Nat) : Nat := s.setFld set (64 + 1040 * k + off) n

/-- Among some layouts, the one with the largest MIN_SRC that does not exceed the number of decode targets. -/
def State.layoutBySources (s : State) (set n : Nat) (among : List Nat) : Option Nat :=
  (among.filter (fun k => decide (s.layFld set k 1 1 ≤ n))).foldl (fun (b : Option Nat) k =>
    match b with
    | none => some k
    | some j => if s.layFld set j 1 1 < s.layFld set k 1 1 then some k else some j) none

/-- The layout of a composed picture (R382). When MODE 2 has no other layout that fits, LAYOUT_SEL stays (notes/assumptions/21.md). -/
def State.layoutNow (s : State) (room : Nat) (r : Room) (featured : Nat) : Nat :=
  let set := r.tf 4 1
  let sel := s.setFld set 7 1
  let all := List.range (s.setFld set 6 1)
  let n := (s.roomTargets room).length
  match bits (s.setFld set 5 1) 3 2 with
  | 0 => sel
  | 1 => (s.layoutBySources set n all).getD 0
  | _ => if featured ≠ 0 then sel else (s.layoutBySources set n (all.filter (· != sel))).getD sel

/-- The last picture in output order among those that satisfy a test. -/
def newestPic (l : List Picture) (ok : Picture → Bool) : Option Picture :=
  (l.filter ok).foldl (fun (b : Option Picture) p =>
    match b with
    | none => some p
    | some q => if q.info.order < p.info.order ∨ (q.info.order = p.info.order ∧ q.num < p.num) then some p else some q) none

/-- Was the picture decoded, so that it can be shown? -/
def Picture.shown (p : Picture) : Bool := p.state == .confirmed || p.state == .pending || p.state == .concealed

/-- The held picture among those given, else FILL (R377). -/
def heldAmong (hold1 : Bool) (past : List Picture) : Shown :=
  match newestPic past (fun q => if hold1 then q.shown else q.state == .confirmed) with
  | none => .fill
  | some q => .held q.num (q.state != .confirmed)

/-- What a tile of a decode target shows at a boundary (R376, R377): the newest picture whose decode ended before it, else the held
picture, else FILL. -/
def Target.shows (t : Target) (boundary : Nat) (hold1 : Bool) : Shown :=
  let past := t.pics.filter (fun p => decide (p.endAt < boundary) && (p.shown || p.state == .void || p.state == .skipped))
  match newestPic past (fun _ => true) with
  | none => .fill
  | some p => if p.shown then .picture p.num (p.state != .confirmed) else heldAmong hold1 past

/-- A tile whose picture is lost to poison shows the held picture, as for a void one (13 R556). -/
def Target.showsWithout (t : Target) (boundary : Nat) (hold1 : Bool) (num : Nat) : Shown :=
  heldAmong hold1 (t.pics.filter (fun p => decide (p.endAt < boundary) && p.num != num))

/-- Does it make the canvas concealed (R378)? -/
def Shown.concealed : Shown → Bool
  | .picture _ c => c
  | .held _ c => c
  | .fill => false

/-- Is it the held picture? -/
def Shown.isHeld : Shown → Bool
  | .held _ _ => true
  | _ => false

/-- What a composed picture shows as a whole. -/
def CanvasPic.concealed (p : CanvasPic) : Bool := p.tiles.any (fun x => x.shown.concealed)
def CanvasPic.held (p : CanvasPic) : Nat := (p.tiles.filter (fun x => x.shown.isHeld)).length
def CanvasPic.fill (p : CanvasPic) : Nat := (p.tiles.filter (fun x => x.shown == .fill)).length

/-- The picture that a tile draws. -/
def Target.image (t : Target) (sh : Shown) : Option Image :=
  let of_ (n : Nat) : Option Image := (t.pic n).map (fun p => { frame := p.frame, win := p.info.hdr.window, d10 := p.info.hdr.depth == 10 })
  match sh with
  | .picture n _ => of_ n
  | .held n _ => of_ n
  | .fill => none

/-! ### Drawing (R380, R387) -/

/-- The bitmap of an overlay cache entry that is drawn. -/
def State.ovlBitmap (s : State) (key : Nat) : Option Bitmap :=
  (look s.media.overlays key).bind (fun o => if o.drawn then o.bitmap else none)

/-- How tile t of a layout is drawn (R407). -/
def State.tileGeom (s : State) (set lay t : Nat) : TileGeom :=
  let f (off n : Nat) : Nat := s.layFld set lay (16 + 16 * t + off) n
  { rect := { x := f 0 2, y := f 2 2, w := f 4 2, h := f 6 2 }, fit1 := bit (f 9 1) 0, label := bits (f 9 1) 3 1, margin := f 10 1 }

/-- Settings by which a canvas is drawn under a layout. -/
def State.drawCtx (s : State) (set lay : Nat) (d10 : Bool) : DrawCtx :=
  { d10, fill := (s.setFld set 8 1, s.setFld set 9 1, s.setFld set 10 1), borderW := s.layFld set lay 2 1
    border := (s.layFld set lay 3 1, s.layFld set lay 4 1, s.layFld set lay 5 1) }

/-- The samples of a composed picture. -/
def State.composed (s : State) (r : Room) (c : Canvas) (p : CanvasPic) : Frame :=
  let set := r.tf 4 1
  drawCanvas (s.drawCtx set p.layout c.d10) c.cw c.ch
    ((List.range (s.layFld set p.layout 0 1)).map (fun t => (s.tileGeom set p.layout t, p.tiles.find? (fun x => x.tile == t)))) p.overlays

/-! ### Rungs (R390, R391) -/

/-- Is a rung active: does an egress stream carry it? -/
def State.rungActive (s : State) (room r : Nat) : Bool :=
  (s.streamsIn room).any (fun (_, z) => z.egress && z.outKind == 1 && z.index == r)

/-- The primary leader of a canvas. -/
def Canvas.primary (c : Canvas) : Nat := primaryOf (c.rungs.map (fun g => (g.codec, g.profile, g.strct, g.w, g.h)))

/-- Is a rung encoded: is it active, or do active rungs depend on it? Every other rung depends on the primary leader. -/
def State.rungNeeded (s : State) (room : Nat) (c : Canvas) (r : Nat) : Bool :=
  s.rungActive room r ||
    c.rungs.zipIdx.any (fun (g, k) => (g.leader == some r || r == c.primary) && s.rungActive room k)

/-- Rungs whose encode becomes ready when that of a rung completes: of the primary leader, the other leaders and its followers; of another
leader its followers. -/
def Canvas.dependents (c : Canvas) (r : Nat) : List Nat :=
  (c.rungs.zipIdx.filter (fun (g, k) => k != r && (g.leader == some r || (r == c.primary && g.leader == none)))).map (·.2)

/-- Temporal layer at a place of the pattern (R395). -/
def tidAt (strct pos : Nat) : Nat := match strct with
  | 0 => 0
  | 1 => pos % 2
  | _ => match pos % 4 with
    | 0 => 0
    | 2 => 1
    | _ => 2

/-- Does throttling omit a picture (14 R595)? -/
def omits (level strct tid : Nat) : Bool :=
  (decide (1 ≤ level) && decide (2 ≤ strct) && tid == 2) || (decide (2 ≤ level) && decide (1 ≤ strct) && decide (1 ≤ tid))

/-- Cycle budget of an encode (R393). -/
def State.encodeBudget (s : State) (g : Rung) : Nat :=
  cdiv (3 * g.w * g.h * (if g.strct = 3 then 21 else 16) * (if g.leader.isSome then 3 else 5) * s.fld 0x0B 10 1) 320 + 90000

/-- Codes a key picture here (R396)? -/
def State.keyNow (s : State) (g : Rung) : Bool :=
  g.wantKey || (g.requests != 0 && (match g.lastReqKey with
    | some t => decide (t + s.fld 0x0B 4 2 * 1000 * us ≤ s.now)
    | none => true))

/-- The hints of a leader other than the primary: the primary leader's vectors of the picture, scaled to its size (R390, R392). -/
def State.hintsOf (s : State) (room n r : Nat) (g : Rung) : List BlockVec :=
  match s.canvas room with
  | none => []
  | some c =>
    if r = c.primary ∨ g.leader.isSome then []
    else
      match c.rungs[c.primary]?, c.pics.find? (fun p => p.num == n) with
      | some q, some p => if p.vectors = [] then [] else hintsFrom p.vectors q.w q.h g.w g.h
      | _, _ => []

/-- The encode of one rung becomes ready; false when the rung leaves the picture out. -/
def State.openEncode (s : State) (room : Nat) (rm : Room) (n r : Nat) (g : Rung) : State × Bool :=
  let key := s.keyNow g
  let pos := if key then 0 else g.pos
  let tid := tidAt g.strct pos
  if omits s.power.level g.strct tid then ((s.modRung room r (fun g => { g with pos := pos + 1 })).bump (ctr 0x0D 0 72), false)
  else
    let lad := rm.tf 5 1
    let e : RungPic := {
      num := n, key, tid, requests := if key then g.requests else 0, rate := g.rate, weight := s.rungFld lad r 3 1
      minQp := s.rungFld lad r 8 1, maxQp := s.rungFld lad r 9 1, hints := s.hintsOf room n r g }
    let s1 := s.modRung room r (fun g => { g with
      pos := pos + 1, enc := g.enc ++ [e], wantKey := g.wantKey && !key, requests := if key then 0 else g.requests
      lastKey := if key then some s.now else g.lastKey
      lastReqKey := if key && g.requests != 0 then some s.now else g.lastReqKey })
    (s1.addOp (.encode room r n) g.yard 0 (s.nodePrio room 1) (s.encodeBudget g), true)

/-- Encodes become ready; a rung that leaves a picture out holds none of its dependents up. -/
def encodeReady (room n : Nat) : Nat → List Nat → State → State
  | 0, _, s => s
  | fuel + 1, rs, s => forEach rs (fun r s =>
      match s.canvas room, look s.objs.rooms room with
      | some c, some rm =>
        (match c.rungs[r]? with
         | some g =>
           if s.rungNeeded room c r = false then s
           else
             let (s1, coded) := s.openEncode room rm n r g
             if coded then s1 else encodeReady room n fuel (c.dependents r) s1
         | none => s)
      | _, _ => s) s

/-- Composed pictures that no operation works on any more are forgotten. -/
def State.dropCanvasPics (s : State) (room : Nat) : State :=
  let used (n : Nat) : Bool := (s.media.ops ++ s.media.noSlot).any (fun o => match o.kind with
    | .compose k m => k == room && m == n
    | .encode k _ m => k == room && m == n
    | _ => false)
  s.modCanvas room (fun c => { c with pics := c.pics.filter (fun p => used p.num) })

/-! ### Composed pictures (R375, R379, R384) -/

/-- The number of the composed picture that becomes ready at a tick, if one does. -/
def Canvas.dueAt (c : Canvas) (tick : Nat) : Option Nat :=
  if tick < c.c0 then none
  else
    let n := cdiv ((tick - c.c0) * c.fps) 400
    if c.fps ≠ 0 ∧ c.next ≤ n ∧ n * 400 / c.fps = tick - c.c0 then some n else none

/-- COMPOSED_PICTURE_READY: layout, featured source and tile sources are decided, and the compose operation becomes ready when some
rung is active (R376-R379, R382-R384, R391). -/
def composedReady (room : Nat) (s : State) : State :=
  match s.canvas room, look s.objs.rooms room with
  | some c, some r =>
    (match c.dueAt s.tick with
     | none => s
     | some n =>
       if s.mediaOn = false then s
       else
         let set := r.tf 4 1
         let feat := s.featuredNow room r c
         let lay := s.layoutNow room r feat
         let ranks := s.ranks room r feat
         let hold1 := bit (s.setFld set 5 1) 1
         let tiles := (List.range (s.layFld set lay 0 1)).map (fun t =>
           let slot := s.layFld set lay (16 + 16 * t + 8) 1
           if slot = 0xFF then none
           else (ranks[slot]?).bind (fun k => (s.target k).map (fun x =>
             let sh := x.shows s.tickAt hold1
             (s.targetHandle k x, ({ tile := t, target := k, shown := sh, pic := x.image sh, label := s.ovlBitmap (ovlKey r.owner 0 x.leg) } : TileShow)))))
         let p : CanvasPic := {
           num := n, layout := lay, boundary := s.tickAt, timeNs := s.timeNs, tiles := tiles.filterMap (fun x => x.map (·.2))
           overlays := (List.range 4).filterMap (fun j => s.ovlBitmap (ovlKey r.owner 1 (4 * room + j))) }
         let s := if lay ≠ c.layout ∧ c.next ≠ 0 then s.bump (cpCtr r.home 32) else s
         let s := s.modCanvas room (fun c => { c with
           next := n + 1, layout := lay, featured := feat
           tiles := tiles.map (fun x => match x with
             | some (h, t) => if t.shown = .fill then 0 else h
             | none => 0) })
         if (List.range c.rungs.length).any (fun k => s.rungActive room k) then
           (s.modCanvas room (fun c => { c with pics := c.pics ++ [p] })).addOp (.compose room n) r.home 2 (s.nodePrio room 2)
             (cdiv (3 * c.cw * c.ch) 4 + 30000)
         else s)
  | _, _ => s

/-- COMPOSE_COMPLETE: the picture is drawn and counted, and the encode of the primary leader becomes ready (R380, R391). -/
def composeComplete (id cycles : Nat) (s : State) : State :=
  match s.runningOp id with
  | none => s
  | some o => s.underOp o (fun s =>
    match o.kind with
    | .compose room n =>
      let s := (s.endOp o cycles).addCnt (cpCtr o.yard 64) (cycles - o.charged)
      (match s.canvas room, look s.objs.rooms room with
       | some c, some r =>
         (match c.pics.find? (fun p => p.num == n) with
         | none => s
         | some p =>
           let s := s.modCanvasPic room n (fun q => { q with frame := s.composed r c q })
           let s := s.bump (cpCtr o.yard 0)
           let s := if p.concealed then s.bump (cpCtr o.yard 8) else s
           let s := (s.addCnt (cpCtr o.yard 16) p.held).addCnt (cpCtr o.yard 24) p.fill
           let s := s.modCanvas room (fun c => { c with lastPic := n, lastConcealed := p.concealed })
           (encodeReady room n (c.rungs.length + 1) [c.primary] s).dropCanvasPics room)
       | _, _ => s)
    | _ => s)

/-! ### Bit budgets and bands (R400-R402) -/

/-- Weight of a temporal layer in tenths. -/
def layerWeight (strct tid : Nat) : Nat := match strct, tid with
  | 0, _ => 10
  | 1, 0 => 13
  | 1, _ => 7
  | _, 0 => 16
  | _, 1 => 10
  | _, _ => 7

/-- Debt with which a picture is coded, its nominal size and its budget in bits. -/
def bitBudget (rateKbps fps weight10 keyWeight : Nat) (key : Bool) (debt : Nat) : Nat × Nat × Nat :=
  let nominal := rateKbps * 1000 * weight10 / (fps * 10)
  let nk := nominal * keyWeight / 4
  let nom := if key then nk else nominal
  let d := if key then debt + nk - nominal else debt
  (d, nom, max (nom / 4) (nom - d / 8))

/-- round(k × log2(a / b)) brought within -4 … 4; `free` when both are 0 (notes/assumptions/22.md). -/
def qpStep (k a b : Nat) (free : Int) : Int :=
  if a = 0 ∧ b = 0 then free
  else
    (([4, 3, 2, 1, 0, -1, -2, -3] : List Int).find? (fun q =>
      let e : Int := 2 * q - 1
      if 0 ≤ e then decide (2 ^ e.toNat * b ^ (2 * k) ≤ a ^ (2 * k)) else decide (b ^ (2 * k) ≤ a ^ (2 * k) * 2 ^ (-e).toNat))).getD (-4)

/-- A band as it is coded: bits, costs, pixels, quantiser, and whether it is forced. -/
structure Band where
  bits : Nat
  intra : Nat
  inter : Nat
  pixels : Nat
  qp : Nat
  forced : Bool
  deriving DecidableEq, Repr

/-- What the quantisers of a picture's bands depend on: k, budget, sum of the weights, quantiser of the picture, limits, key. -/
structure BandCtx where
  k : Nat
  budget : Nat
  total : Nat
  qp : Int
  lo : Int
  hi : Int
  key : Bool
  free : Int
  deriving DecidableEq, Repr

/-- Codes the bands after those that spent `spent` bits and hold weight `cum`. -/
def codeBands (x : BandCtx) : Nat → Nat → Bool → List (Nat × Nat × Nat × Nat) → List Nat → List Band
  | _, _, _, [], _ => []
  | spent, cum, first, (b, intra, inter, px) :: rest, ws =>
    let forced := !first && decide (x.budget ≤ spent)
    let qp := if first then x.qp else clampI (x.qp - 4) (x.qp + 4) (x.qp + qpStep x.k (spent * x.total) (x.budget * cum) x.free)
    let qp := if forced && x.key then x.hi else clampI x.lo x.hi qp
    { bits := b, intra, inter, pixels := px, qp := qp.toNat, forced } :: codeBands x (spent + b) (cum + ws.headD 0) false rest (ws.drop 1)

/-- Weights of the bands: costs of the previous picture, equal for the first picture and when every cost is 0. -/
def bandWeights (prev : List (Nat × Nat)) (key : Bool) (n : Nat) : List Nat :=
  let w := prev.map (fun (a, b) => if key then a else b)
  if w.length ≠ n ∨ w.sum = 0 then List.replicate n 1 else w

/-- The bands of a picture as they are coded. Those of L3T3 stand in order of spatial layer, and the layers divide the budget 15, 30 and
55 in a hundred (R400; notes/assumptions/31.md). -/
def codePicture (x : BandCtx) (strct h : Nat) (bands : List (Nat × Nat × Nat × Nat)) (prev : List (Nat × Nat)) : List Band :=
  let code (budget : Nat) (b : List (Nat × Nat × Nat × Nat)) (p : List (Nat × Nat)) : List Band :=
    let ws := bandWeights p x.key b.length
    codeBands { x with budget, total := ws.sum } 0 0 true b ws
  if strct = 3 then
    let i := cdiv (h / 4) 64
    let j := i + cdiv (h / 2) 64
    let b0 := x.budget * 15 / 100
    let b1 := x.budget * 30 / 100
    code b0 (bands.take i) (prev.take i) ++ code b1 ((bands.drop i).take (j - i)) ((prev.drop i).take (j - i)) ++
      code (x.budget - b0 - b1) (bands.drop j) (prev.drop j)
  else code x.budget bands prev

/-- Bands that the analysis record holds: of L3T3 those of S2. -/
def recordBands (strct h : Nat) (bands : List Band) : List Band :=
  if strct = 3 then bands.drop (cdiv (h / 4) 64 + cdiv (h / 2) 64) else bands

/-! ### Analysis records (R403, R404) -/

/-- Writes bytes into a room's ring at a running position. -/
def State.ringWrite (s : State) (room kib pos : Nat) (b : Bytes) : State :=
  let base := (s.region 8).1 * 1048576 + room * kib * 1024
  s.dramWrite (base + 64 + pos % (kib * 1024 - 64)) b

/-- Appends a record, after a PAD record when it would straddle the end of the ring; WRITE_POS follows. `mk` makes the record at its
position. -/
def State.ringAppend (s : State) (room yardStall len : Nat) (mk : Nat → Bytes) : State :=
  let kib := s.fld 0x0B 0 4
  let ring := kib * 1024 - 64
  match s.canvas room with
  | none => s
  | some c =>
    if kib = 0 ∨ (s.region 8).2.1 = 0 ∨ ring < len then s
    else
      let p := c.ringPos
      let room_ := ring - p % ring
      let pad := room_ < len
      let s := if pad then s.ringWrite room kib p ((layout 16 [(0, 4, room_), (4, 1, 3), (8, 8, p)]).take room_) else s
      let at_ := if pad then p + room_ else p
      let s := s.ringWrite room kib at_ (padTo len (mk at_))
      let base := (s.region 8).1 * 1048576 + room * kib * 1024
      let s := s.dramWrite base (leBytes 8 (at_ + len))
      (s.modCanvas room (fun c => { c with ringPos := at_ + len })).bump (enCtr yardStall 80)

/-- The analysis record of an encoded picture. -/
def analysisRecord (g : Rung) (r : Nat) (e : RungPic) (p : CanvasPic) (overshoot : Bool) (bands : List Band) (budget actual debt : Nat)
    (mvs : List BlockVec) (len blocks pos : Nat) : Bytes :=
  let n := bands.length
  let flags := b2n e.key + 2 * b2n overshoot + 4 * b2n p.concealed + 8 * b2n g.leader.isNone
  layout 64 [(0, 4, len), (4, 1, 1), (5, 1, r), (6, 1, flags), (7, 1, e.tid + (if g.strct = 3 then 8 else 0)), (8, 8, pos), (16, 8, e.num),
    (24, 8, p.timeNs), (32, 2, g.w), (34, 2, g.h), (36, 2, n),
    (38, 1, if n = 0 then 0 else (2 * (bands.map (·.qp)).sum + n) / (2 * n)), (40, 4, satU 32 budget), (44, 4, satU 32 actual),
    (48, 4, satU 32 debt), (52, 4, blocks)] ++
    bands.flatMap (fun b => layout 16 [(0, 4, b.bits), (4, 4, b.intra), (8, 4, b.inter), (12, 1, b.qp), (13, 1, b2n b.forced),
      (14, 2, min 65535 (b.inter * 16 / b.pixels))]) ++
    ((mvs ++ List.replicate blocks ({} : BlockVec)).take blocks).flatMap (fun (v : BlockVec) =>
      leBytes 4 (unsgn 13 v.x + unsgn 13 v.y * 2 ^ 13 + b2n v.intra * 2 ^ 26 + b2n v.skip * 2 ^ 27))

/-! ### Packets of a rung (R397, R398) -/

/-- A packet of an encoded picture: its spatial layer, the dependency descriptor of an AV1 packet, and its payload. -/
structure EncPacket where
  s : Nat := 0
  dd : Bytes := []
  payload : Bytes := []
  deriving DecidableEq, Repr

/-- A byte string in fragments of at most n bytes; the first number bounds their count. -/
def fragments (n : Nat) : Nat → Bytes → List Bytes
  | 0, _ => []
  | fuel + 1, b => if b = [] then [] else b.take n :: fragments n fuel (b.drop n)

/-- Numbers the members of a list as first and last. -/
def ends {α : Type} (l : List α) : List (α × Bool × Bool) := l.zipIdx.map (fun (x, i) => (x, i == 0, i + 1 == l.length))

/-- A byte of a number. -/
def byteOf (n : Nat) : Byte := BitVec.ofNat 8 n

/-- A NAL unit of H.264 by itself, or in FU-A fragments (RFC 6184). -/
def avcUnit (mtu : Nat) (b : Bytes) : List Bytes :=
  if b.length ≤ mtu then [b]
  else
    let h := byteAt b 0
    (ends (fragments (mtu - 2) b.length (b.drop 1))).map (fun (x, first, last) =>
      byteOf (bits h 7 5 * 32 + 28) :: byteOf (128 * b2n first + 64 * b2n last + bits h 4 0) :: x)

/-- A NAL unit of H.265 by itself, or in fragmentation units (RFC 7798). -/
def hevcUnit (mtu : Nat) (b : Bytes) : List Bytes :=
  if b.length ≤ mtu then [b]
  else
    let h := byteAt b 0
    (ends (fragments (mtu - 3) b.length (b.drop 2))).map (fun (x, first, last) =>
      byteOf (h / 128 * 128 + 49 * 2 + h % 2) :: byteOf (byteAt b 1) :: byteOf (128 * b2n first + 64 * b2n last + bits h 6 1) :: x)

/-- NAL units with their lengths, as aggregation packets hold them. -/
def withLengths (l : List Bytes) : Bytes := l.flatMap (fun b => beBytes 2 b.length ++ b)

/-- The parameter sets of a key picture in one STAP-A or aggregation packet when they are several and it holds them, else each by
itself (R397; notes/assumptions/112.md). -/
def paramPackets (codec mtu : Nat) (l : List Bytes) : List Bytes :=
  let one := withLengths l
  if codec = 8 then
    if 2 ≤ l.length ∧ 1 + one.length ≤ mtu then [byteOf ((l.map (fun b => bits (byteAt b 0) 6 5)).foldl max 0 * 32 + 24) :: one]
    else l.flatMap (avcUnit mtu)
  else if 2 ≤ l.length ∧ 2 + one.length ≤ mtu then [byteOf (48 * 2) :: byteOf 1 :: one]
  else l.flatMap (hevcUnit mtu)

/-- An OBU of AV1 in packets of one OBU element each; N marks the first packet of a key picture. -/
def av1Unit (mtu : Nat) (newSeq : Bool) (b : Bytes) : List Bytes :=
  (ends (fragments (mtu - 1) b.length b)).map (fun (x, first, last) =>
    byteOf (128 * b2n (!first) + 64 * b2n (!last) + 16 + 8 * b2n (newSeq && first)) :: x)

/-- The packets of a picture under the RTP payload format of its codec, none with a payload above RTP_MTU (R397). -/
def packetise (codec mtu : Nat) (key : Bool) (units : List EncUnit) : List EncPacket :=
  if codec = 0x0A then
    units.zipIdx.flatMap (fun (u, i) => (av1Unit mtu (key && i == 0) u.data).map (fun b => { s := u.s, dd := u.dd, payload := b }))
  else
    let one (b : Bytes) : List Bytes := if codec = 8 then avcUnit mtu b else hevcUnit mtu b
    (paramPackets codec mtu ((units.filter (·.params)).map (·.data)) ++ (units.filter (fun u => !u.params)).flatMap (fun u => one u.data)).map
      (fun b => { payload := b })

/-- Egress streams that carry a rung, ascending. -/
def State.rungStreams (s : State) (room r : Nat) : List Nat :=
  ((s.streamsIn room).filter (fun (_, z) => z.egress && z.outKind == 1 && z.index == r)).map (·.1)

/-- Sends one packet of a picture, which has packets of the layers `tops`: history, layer rate, and a copy for each egress stream of the
rung. -/
def State.sendRungPacket (s : State) (room r : Nat) (e : RungPic) (ts : Nat) (tops : List (Nat × Nat)) (q : EncPacket)
    (lastOfLayer last : Bool) : State :=
  match (s.canvas room).bind (fun c => c.rungs[r]?) with
  | none => s
  | some g =>
    let cls := bits (s.fld 0x0B 11 1) 1 0
    let ms := s.histMs cls
    let rtp : Rtp := { marker := last, pt := 0, seq := g.seq, ts, ssrc := 0, exts := if q.dd = [] then [] else [(1, q.dd)], body := q.payload }
    let pkt := buildRtp rtp
    let kept := decide (ms ≠ 0) && decide (s.objs.shedLevel ≤ cls)
    let s := if kept then
        ((s.histEvict pkt.length ((s.region 5).2.1 * 1048576) 4096).modObjs (fun o => { o with
          histBytes := o.histBytes + pkt.length })).addCnt (fwCtr g.yard 176) (cdiv pkt.length 256)
      else if ms ≠ 0 then s.bump (fwCtr g.yard 184) else s
    let h : HistEntry := { ext := g.seq, until_ := s.now + ms * 1000 * us, len := pkt.length, layerS := q.s, layerT := e.tid, payload := pkt }
    let s := s.modRung room r (fun g => { g with
      seq := g.seq + 1, rates := addRate g.rates s.tick q.s e.tid pkt.length
      hist := if kept then h :: g.hist.filter (fun x => decide (s.now ≤ x.until_)) else g.hist })
    let p : SrcPkt := {
      src := 2 ^ 32 + r, ext := g.seq, rtp, layer := some (q.s, e.tid), histMs := ms, rung := true, ddId := if q.dd = [] then 0 else 1
      info := { key := e.key, ends := lastOfLayer }, pic := e.num, tops }
    forEach (s.rungStreams room r) (fun k s => s.forwardCopy k p) s

/-- Sends the packets of a picture in order. -/
def sendRungPackets (room r : Nat) (e : RungPic) (ts : Nat) (tops : List (Nat × Nat)) : List EncPacket → State → State
  | [], s => s
  | q :: rest, s =>
    let lastOfLayer := match rest with
      | [] => true
      | z :: _ => z.s != q.s
    sendRungPackets room r e ts tops rest (s.sendRungPacket room r e ts tops q lastOfLayer rest.isEmpty)

/-! ### ENCODE_COMPLETE -/

/-- Takes an encode under way out of its rung. -/
def State.takeEnc (s : State) (room r n : Nat) : State :=
  s.modRung room r (fun g => { g with enc := g.enc.filter (fun e => e.num != n) })

/-- A picture of a rung is lost: it is not sent, the rungs that depend on it skip the picture, and their next pictures are key
pictures (R393). -/
def encodeLost (room n : Nat) : Nat → List Nat → State → State
  | 0, _, s => s
  | fuel + 1, rs, s => forEach rs (fun r s =>
      let s := (s.takeEnc room r n).modRung room r (fun g => { g with wantKey := true })
      match s.canvas room with
      | some c => encodeLost room n fuel (c.dependents r) s
      | none => s) s

/-- ENCODE_COMPLETE: counters, debt, analysis record, packets, and the encodes that waited for it (R391, R396-R404). -/
def encodeComplete (id : Nat) (z : EncodeResult) (s : State) : State :=
  match s.endingOp id z.cycles with
  | none => s
  | some o => s.underOp o (fun s =>
    match o.kind with
    | .encode room r n =>
      let stall := 6 * o.yard + o.unit.getD 0
      let s := (s.endOp o z.cycles).addCnt (enCtr stall 64) (z.cycles - o.charged)
      (match s.canvas room, look s.objs.rooms room with
       | some c, some rm =>
         (match c.rungs[r]?, (c.rungs[r]?).bind (fun g => g.enc.find? (fun e => e.num == n)), c.pics.find? (fun p => p.num == n) with
          | some g, some e, some p =>
            let lad := rm.tf 5 1
            let level := rungLevel g.codec g.profile g.w g.h c.fps (s.rungFld lad r 16 4)
            if z.poisoned ∨ o.poisoned ∨ encodeFits z g.codec g.profile level e.key = false then (encodeLost room n (c.rungs.length + 1) [r] s).dropCanvasPics room
            else
              let (debt, nominal, budget) := bitBudget e.rate c.fps (layerWeight g.strct e.tid) e.weight e.key g.debt
              let (f, s) := s.draw 9
              let x : BandCtx := {
                k := if g.codec = 0x0A then 24 else 6, budget, total := 0, lo := e.minQp, hi := e.maxQp, key := e.key
                qp := clampI e.minQp e.maxQp z.qp, free := (f : Int) - 4 }
              let bands := codePicture x g.strct g.h z.bands g.prevCosts
              let forced := (bands.filter (·.forced)).length
              let after := debt + z.bits - nominal
              let s := s.bump (enCtr stall 0)
              let s := if e.key then (s.bump (enCtr stall 8)).addCnt (enCtr stall 16) e.requests else s
              let s := if g.leader.isSome then s.bump (enCtr stall 24) else s
              let s := if forced ≠ 0 then (s.bump (enCtr stall 32)).addCnt (enCtr stall 40) forced else s
              let packets := packetise g.codec (s.fld 0x0B 6 2) e.key z.units
              let s := s.addCnt (enCtr stall 56) (packets.map (fun q => q.payload.length)).sum
              let s := if r = c.primary then s.modCanvasPic room n (fun q => { q with vectors := z.mvs }) else s
              let s := (s.takeEnc room r n).modRung room r (fun g => { g with
                debt := after, prevCosts := z.bands.map (fun b => (b.2.1, b.2.2.1)) })
              let blocks := if g.leader.isSome then 0 else cdiv g.w 16 * cdiv g.h 16
              let rec_ := recordBands g.strct g.h bands
              let len := cdiv (64 + 16 * rec_.length + 4 * blocks) 8 * 8
              let s := if bit (s.fld 0x0B (64 + 272 * (lad - 1) + 1) 1) 0 then
                  s.ringAppend room stall len (analysisRecord g r e p (forced != 0) rec_ budget z.bits after z.mvs len blocks)
                else s
              let s := sendRungPackets room r e (n * 90000 / c.fps % 2 ^ 32) (packets.map (fun q => (q.s, e.tid))) packets s
              (encodeReady room n (c.rungs.length + 1) (c.dependents r) s).dropCanvasPics room
          | _, _, _ => s)
       | _, _ => s)
    | _ => s)

/-- The watchdog ends an encode (R393). -/
def State.encodeOverrun (s : State) (o : Op) (room r n : Nat) : State :=
  let stall := 6 * o.yard + o.unit.getD 0
  let s := (s.bump (enCtr stall 48)).addCnt (enCtr stall 64) (o.budget - o.charged)
  match s.canvas room with
  | some c => (encodeLost room n (c.rungs.length + 1) [r] s).dropCanvasPics room
  | none => s

/-- KEY_INTERVAL_EXPIRY: KEY_INTERVAL_S after its last key picture the rung codes another (R396). -/
def keyInterval (room r : Nat) (s : State) : State :=
  match (s.canvas room).bind (fun c => c.rungs[r]?), look s.objs.rooms room with
  | some g, some rm =>
    let secs := s.rungFld (rm.tf 5 1) r 10 2
    (match g.lastKey with
     | some t => if secs ≠ 0 ∧ t + secs * 1000000 * us ≤ s.now then s.modRung room r (fun g => { g with wantKey := true }) else s
     | none => s)
  | _, _ => s

/-! ### Rung bit rate (R399) -/

/-- The P-th percentile by nearest rank. -/
def percentile (p : Nat) (l : List Int) : Int :=
  let sorted := l.foldl (fun acc x => insertI x acc) []
  (sorted[max 1 (cdiv (p * l.length) 100) - 1]?).getD 0

/-- What a leg could take of a rung, in kbit/s. -/
def State.rungShare (s : State) (l : Leg) : Int :=
  (l.percentOf (s.fld 6 16 1) : Int) - (kbps500 (l.sentIn s.tick 200 (·.2.1)) : Nat)

/-- Sets the rate of one active rung. -/
def State.rateRung (s : State) (room lad r : Nat) (g : Rung) : State :=
  let legs := s.legsOf room |>.filter (fun (i, _) => (s.streamsOf i).any (fun (_, z) => z.egress && z.outKind == 1 && z.index == r))
  let lo := s.rungFld lad r 12 4
  let hi := s.rungFld lad r 16 4
  let q := percentile (s.rungFld lad r 20 1) (legs.map (fun kv => s.rungShare kv.2))
  let target := (clampI lo hi q).toNat
  let rate := if bit (s.rungFld lad r 2 1) 2 then hi
    else if legs = [] then lo
    else if g.rate < target then min target (g.rate * (100 + s.fld 0x0B 12 1) / 100)
    else target
  s.modRung room r (fun g => { g with rate, q := if legs = [] then 0 else q.toNat, receivers := legs.length })

/-- RUNG_RATE_UPDATE: at every RATE_PERIOD_TICKS-th tick the rate of each active rung is set. -/
def rungRates (room : Nat) (s : State) : State :=
  let period := s.fld 0x0B 8 2
  match s.canvas room, look s.objs.rooms room with
  | some c, some rm =>
    if period = 0 ∨ s.tick % period ≠ 0 then s
    else forEach c.rungs.zipIdx (fun (g, r) s =>
        if s.rungActive room r ∧ (g.rateTick ≠ s.tick ∨ s.tick = 0) then
          (s.rateRung room (rm.tf 5 1) r g).modRung room r (fun g => { g with rateTick := s.tick })
        else s) s
  | _, _ => s

/-! ### Overlays (R385, R386) -/

/-- The address of an entry; none when the port has no such table. -/
def State.ovlAddr (s : State) (host table index : Nat) : Option Nat :=
  let base := s.fld 0x0A (32 * table + 8 * host) 8
  if base = 0 then none else some (base + 64 * index)

/-- The room of an entry that is polled, and its owner: a leg whose source is in a tile of a canvas, or a room that has a canvas. -/
def State.ovlRoom (s : State) (table index : Nat) : Option (Nat × Nat) :=
  if table = 0 then
    (look s.objs.legs index).bind (fun l =>
      match s.canvas l.room, look s.objs.rooms l.room with
      | some c, some r =>
        if c.tiles.any (fun h => h != 0 && (match s.streamAt h with
          | some (_, x) => x.leg == index
          | none => false)) then some (l.room, r.owner) else none
      | _, _ => none)
  else
    match s.canvas (index / 4), look s.objs.rooms (index / 4) with
    | some _, some r => some (index / 4, r.owner)
    | _, _ => none

/-- Bytes a pixel of a FORMAT. -/
def ovlBpp (format : Nat) : Nat := if format = 2 then 4 else 1

/-- Does an entry keep to the table of R385? -/
def ovlOk (table : Nat) (b : Bytes) : Bool :=
  let f := le b 4 1
  let w := le b 16 2
  let h := le b 18 2
  let st := le b 20 2
  decide (f ≤ 2) && zeroIn b 26 28 && zeroIn b 36 64 &&
    (f == 0 ||
      (le b 8 8 % 64 == 0 && decide (2 ≤ w) && decide (w ≤ 3840) && w % 2 == 0 && decide (2 ≤ h) && decide (h ≤ 512) && h % 2 == 0 &&
        st % 64 == 0 && decide (w * ovlBpp f ≤ st) && (table == 0 || (le b 22 2 % 2 == 0 && le b 24 2 % 2 == 0))))

/-- The bitmap of an entry, but for its bytes. -/
def bitmapOf (b : Bytes) : Bitmap :=
  { format := le b 4 1, colour := (le b 5 1, le b 6 1, le b 7 1), w := le b 16 2, h := le b 18 2, stride := le b 20 2, x := le b 22 2, y := le b 24 2 }

/-- An entry or its copy fails: it is not drawn, the failure is counted, and the event is posted once for each SEQ. -/
def State.ovlError (s : State) (key room owner table index seq : Nat) : State :=
  let y := ((look s.objs.rooms room).map (·.home)).getD 0
  let o := lookD s.media.overlays key {}
  let s := s.bump (cpCtr y 48)
  let s := s.modMedia (fun m => { m with overlays := put m.overlays key { o with drawn := false, copying := none, errSeq := some seq } })
  if o.errSeq = some seq then s else s.event (yardSrc y 16) (seq + index * 2 ^ 32 + table * 2 ^ 54) owner

/-- Bytes of the overlay cache in use, bitmaps on their way included. -/
def State.ovlUsed (s : State) : Nat := s.media.overlays.foldl (fun n kv => n + kv.2.bytes + (if kv.2.copying.isSome then kv.2.newBytes else 0)) 0

/-- One entry as a poll reads it. -/
def State.ovlEntry (s : State) (e : OverlayRead) : State :=
  match s.ovlRoom e.table e.index, s.ovlAddr e.host e.table e.index with
  | some (room, owner), some _ =>
    if owner ≠ e.host ∨ s.running e.host = false then s
    else
      let key := ovlKey e.host e.table e.index
      let y := ((look s.objs.rooms room).map (·.home)).getD 0
      let o := lookD s.media.overlays key {}
      let seq := le e.data 0 4
      if e.ok = false then (s.hostFailed e.host e.status).ovlError key room owner e.table e.index seq
      else if seq ≠ le e.data 28 4 ∨ o.seq = some seq ∨ o.copying = some seq then s
      else if ovlOk e.table e.data = false then s.ovlError key room owner e.table e.index seq
      else
        let bytes := if le e.data 4 1 = 0 then 0 else le e.data 20 2 * le e.data 18 2
        if s.fld 0x0A 66 2 * 1048576 < s.ovlUsed + bytes then s.bump (cpCtr y 56)
        else (s.bump (cpCtr y 40)).modMedia (fun m => { m with
          overlays := put m.overlays key { o with
            copying := some seq, newBytes := bytes, newDrawn := le e.data 4 1 != 0, newBitmap := some (bitmapOf e.data) } })
  | _, _ => s

/-- OVERLAY_POLL: every OVL_POLL_TICKS ticks. -/
def overlayPoll (entries : List OverlayRead) (s : State) : State :=
  let n := s.fld 0x0A 64 2
  if n = 0 ∨ s.tick % n ≠ 0 then s else forEach entries (fun e s => s.ovlEntry e) s

/-- OVERLAY_COPY_DONE: the new bitmap is drawn from the next composed picture, and ACK is written. -/
def overlayCopied (host table index : Nat) (res : DmaResult) (s : State) : State :=
  let key := ovlKey host table index
  match look s.media.overlays key with
  | none => s
  | some o =>
    match o.copying with
    | none => s
    | some seq =>
      match res with
      | .ok data =>
        let s := s.modMedia (fun m => { m with
          overlays := put m.overlays key { o with
            seq := some seq, copying := none, bytes := o.newBytes, drawn := o.newDrawn, ack := seq
            bitmap := o.newBitmap.map (fun b => { b with data }), newBitmap := none } })
        match s.ovlAddr host table index with
        | some a => if s.running host then s.hostWrite host (a + 32) (leBytes 4 seq) else s
        | none => s
      | .fail status =>
        let s := s.hostFailed host status
        match s.ovlRoom table index with
        | some (room, owner) => s.ovlError key room owner table index seq
        | none => s.modMedia (fun m => { m with overlays := put m.overlays key { o with copying := none, drawn := false } })

/-! ### The commands of this file -/

/-- COMPOSED_PICTURE_READY (R375). -/
def execComposedPictureReady (t room : Nat) (s : State) : Host.Outcome State Fault Refusal := .next (composedReady room (s.at t))

/-- COMPOSE_COMPLETE (R391). -/
def execComposeComplete (t op cycles : Nat) (s : State) : Host.Outcome State Fault Refusal := .next (composeComplete op cycles (s.at t))

/-- ENCODE_COMPLETE (R391). -/
def execEncodeComplete (t op : Nat) (res : EncodeResult) (s : State) : Host.Outcome State Fault Refusal :=
  .next (encodeComplete op res (s.at t))

/-- KEY_INTERVAL_EXPIRY (R396). -/
def execKeyIntervalExpiry (t room rung : Nat) (s : State) : Host.Outcome State Fault Refusal := .next (keyInterval room rung (s.at t))

/-- RUNG_RATE_UPDATE (R399). -/
def execRungRateUpdate (t room : Nat) (s : State) : Host.Outcome State Fault Refusal := .next (rungRates room (s.at t))

/-- OVERLAY_POLL (R386). -/
def execOverlayPoll (t : Nat) (entries : List OverlayRead) (s : State) : Host.Outcome State Fault Refusal :=
  .next (overlayPoll entries (s.at t))

/-- OVERLAY_COPY_DONE (R386). -/
def execOverlayCopyDone (t host table index : Nat) (res : DmaResult) (s : State) : Host.Outcome State Fault Refusal :=
  .next (overlayCopied host table index res (s.at t))

end Sys2Proof.Machine
end

