-- ==== Sys2Proof/Machine/MixEngine.lean ====
section
/-! DEFINITION. What the mix engine makes of samples (10 R433, stages 4 to 11): gains along their ramps (R437, R438), the compressors
(R442, R443), the crosspoint (R440) and the limiter (R444). A sample is an integer in units of 2^-23 of full scale; between two stages of
an output it is held in units of 2^-43. The precision of the arithmetic is the model's own (notes/assumptions/121.md). -/
namespace Sys2Proof.Machine

/-! ### Numbers -/

/-- A sample of 24 bits, as a word of a thyme core holds it in its upper bits (R420). -/
def sampleOf (w : Word) : Int := w.toInt / 256

/-- The word of a sample. -/
def wordOf (x : Int) : Word := BitVec.ofInt 32 (256 * x)

/-- The largest sample (R440). -/
def fullScale : Int := 8388607

/-- A value brought to full scale. -/
def saturate (x : Int) : Int := max (-fullScale) (min fullScale x)

/-- Terms of the power series of exp(-y) from the n-th on, y in 2^-64. -/
def expTerms (y : Nat) : Nat → Nat → Int → Int
  | 0, _, _ => 0
  | fuel + 1, n, term => term + expTerms y fuel (n + 1) (-(term * y) / (2 ^ 64 * n))

/-- A number in 2^-64 squared n times. -/
def squared : Nat → Nat → Nat
  | 0, e => e
  | n + 1, e => squared n (e * e / 2 ^ 64)

/-- exp(-p / q) in 2^-64. -/
def expNeg (p q : Nat) : Nat := squared 8 (expTerms (p * 2 ^ 64 / (256 * q)) 14 1 (2 ^ 64)).toNat

/-- Bits of the logarithm to base 2 of a mantissa in [1, 2), in 2^-40. -/
def logBits : Nat → Nat → Nat
  | 0, _ => 0
  | n + 1, m =>
    let q := m * m / 2 ^ 40
    if 2 ^ 41 ≤ q then 2 ^ n + logBits n (q / 2) else logBits n q

/-- 10 × log10 of a power in 2^-86, in 2^-24 dB; 300 dB below full scale for none. -/
def dbOfPower (p : Nat) : Int :=
  if p = 0 then -(300 * 2 ^ 24)
  else
    let e := Nat.log2 p
    let l : Int := ((e * 2 ^ 24 + logBits 24 (p * 2 ^ 40 / 2 ^ e) : Nat) : Int) - 86 * 2 ^ 24
    l * 30102999566398119521 / 10 ^ 19

/-- The linear factor of a gain in 2^-24 dB, in 2^-32. -/
def factorOf (g : Int) : Nat :=
  let e := expNeg (g.natAbs * 115129254649702284) (2 ^ 24 * 10 ^ 18)
  if g ≤ 0 then e / 2 ^ 32 else 2 ^ 96 / e

/-! ### Ramps (R438) -/

/-- The gain at the next sample of a ramp. -/
def Ramp.now (r : Ramp) : Int :=
  if r.left = 0 then r.dest else (r.from_ : Int) + ((r.dest : Int) - r.from_) * (r.len - r.left : Nat) / r.len

/-- A ramp turned towards another gain from where it stands (R438). -/
def Ramp.turn (r : Ramp) (dest len : Nat) : Ramp :=
  if r.dest = dest then r
  else if len = 0 then { r with from_ := dest, dest, left := 0, len := 0 }
  else { r with from_ := r.now.toNat, dest, left := len, len }

/-- The gain at sample k of a block. -/
def Ramp.nth (r : Ramp) (k : Nat) : Int := Ramp.now { r with left := r.left - k }

/-- A block under a gain: in 2^-43. -/
def Ramp.along (r : Ramp) (xs : List Int) : List Int := xs.zipIdx.map (fun (x, k) => x * r.nth k)

/-! ### Compressor (R442, R443) -/

/-- Parameters of a dynamics block (R454): T, W and MAKEUP in 2^-24 dB, ten times R, and the factors of attack and release for each
sample in 2^-48. -/
structure Dynamics where
  thresh : Int
  ratio : Nat
  knee : Int
  makeup : Int
  attack : Nat
  release : Nat
  deriving DecidableEq, Repr

/-- 2^-24 dB of a field in 0.01 dB. -/
def centi (x : Int) : Int := x * 2 ^ 24 / 100

/-- The dynamics block in some bytes. -/
def dynamicsOf (b : Bytes) : Dynamics :=
  { thresh := centi (sgn 16 (le b 0 2)), ratio := le b 2 2, knee := centi (le b 4 2 : Nat), makeup := centi (le b 6 2 : Nat)
    attack := expNeg 1000000 (48000 * le b 8 4) / 2 ^ 16, release := expNeg 1 (48 * le b 12 4) / 2 ^ 16 }

/-- Target gain at a detector level (R442). -/
def Dynamics.target (d : Dynamics) (x : Int) : Int :=
  let above := x - d.thresh
  let slope : Int := 10 - d.ratio
  let cut : Int :=
    if 2 * above < -d.knee then 0
    else if 2 * above ≤ d.knee ∧ 0 < d.knee then slope * (2 * above + d.knee) ^ 2 / (8 * d.knee * d.ratio)
    else slope * above / d.ratio
  cut + d.makeup

/-- One sample, in 2^-43: the detector's power follows with 1 ms, the gain its target with attack or release (R443). -/
def Comp.step (d : Dynamics) (c : Comp) (v : Int) : Comp × Int :=
  let a := expNeg 1 48 / 2 ^ 16
  let det := (c.det * a + v.natAbs * v.natAbs * (2 ^ 48 - a)) / 2 ^ 48
  let target := d.target (dbOfPower det)
  let k := if target < c.gain then d.attack else d.release
  let gain := target + ((c.gain - target) * k).tdiv (2 ^ 48)
  ({ det, gain }, (v * factorOf gain).tdiv (2 ^ 32))

/-- A block through a compressor; one that is not enabled passes it and rests. -/
def Comp.block (d : Option Dynamics) (c : Comp) (vs : List Int) : Comp × List Int :=
  match d with
  | none => ({}, vs)
  | some d =>
    let (c, out) := vs.foldl (fun (st : Comp × List Int) v => let (c, y) := st.1.step d v; (c, y :: st.2)) (c, [])
    (c, out.reverse)

/-! ### Limiter (R444) -/

/-- A limiter: its ceiling in 2^-43, below which saturation never comes, and the factor of its recovery for each sample in 2^-48. -/
structure Limiter where
  ceil : Nat
  release : Nat
  deriving DecidableEq, Repr

/-- The limiter of LIM_CEIL_CDB and LIM_RELEASE_MS. -/
def limiterOf (ceilCdb : Int) (releaseMs : Nat) : Limiter :=
  { ceil := min (fullScale.toNat * 2 ^ 20) (factorOf (centi ceilCdb) * 2 ^ 11), release := expNeg 1 (48 * releaseMs) / 2 ^ 16 }

/-- One sample: the gain, in 2^-32, recovers towards 1 and falls at once where the sample asks for less. -/
def Limiter.step (z : Limiter) (g : Nat) (v : Int) : Nat × Int :=
  let back := 2 ^ 32 - (2 ^ 32 - g) * z.release / 2 ^ 48
  let gain := min back (if v = 0 then 2 ^ 32 else min (2 ^ 32) (z.ceil * 2 ^ 32 / v.natAbs))
  (gain, (v * gain).tdiv (2 ^ 32))

/-- A block through a limiter. -/
def limitBlock (z : Option Limiter) (g : Nat) (vs : List Int) : Nat × List Int :=
  match z with
  | none => (2 ^ 32, vs)
  | some z =>
    let (g, out) := vs.foldl (fun (st : Nat × List Int) v => let (g, y) := z.step st.1 v; (g, y :: st.2)) (g, [])
    (g, out.reverse)

/-! ### Crosspoint (R440) -/

/-- Two blocks added. -/
def addBlocks (a b : List Int) : List Int := List.zipWith (· + ·) a b

/-- The accumulator of 48 bits holds its bounds. -/
def accumulate (x : Int) : Int := max (-(2 ^ 47)) (min (2 ^ 47 - 1) x)

/-- The sum of the sources of a row under their node gains, times OUT_GAIN: in 2^-43. -/
def crosspoint (nodes : List (Ramp × List Int)) (outGain : Ramp) : List Int :=
  let sum := nodes.foldl (fun acc n => addBlocks acc (n.1.along n.2)) (List.replicate 120 0)
  sum.zipIdx.map (fun (v, k) => (accumulate v * outGain.nth k).tdiv (2 ^ 20))

/-! ### Blocks -/

/-- The dynamics of a profile, as far as they are enabled. -/
structure MixParams where
  inDyn : Option Dynamics := none
  outDyn : Option Dynamics := none
  lim : Option Limiter := none
  deriving DecidableEq, Repr

/-- Sum of the squares and largest magnitude of a block. -/
def powerOf (xs : List Int) : Nat := (xs.map (fun x => x.natAbs * x.natAbs)).sum
def peakOf (xs : List Int) : Nat := xs.foldl (fun m x => max m x.natAbs) 0

/-- A source after IN_GAIN and input dynamics (stages 4 and 5): a sample of 24 bits again. -/
def inputBlock (p : MixParams) (gain : Ramp) (c : Comp) (xs : List Int) : Comp × List Int :=
  let (c, ys) := c.block p.inDyn (gain.along xs)
  (c, ys.map (fun v => saturate (v.tdiv (2 ^ 20))))

/-- A physical output after the crosspoint (stages 9 to 11): its dynamics, its samples, and how many of them saturated. -/
def outputBlock (p : MixParams) (d : OutDyn) (vs : List Int) : OutDyn × List Int × Nat :=
  let (comp, ys) := d.comp.block p.outDyn vs
  let (lim, zs) := limitBlock p.lim d.lim ys
  let ws := zs.map (fun v => v.tdiv (2 ^ 20))
  ({ comp, lim }, ws.map saturate, (ws.filter (fun w => decide (w ≠ saturate w))).length)

end Sys2Proof.Machine
end

