-- ==== Sys2Proof/Machine/Audio.lean ====
section
/-! DEFINITION. Audio mixing (10): the operations of a block on the thyme cores, jitter buffers, the mix cycle with its set, places, gains
and meters, mix control, and the packets of mix outputs. -/
namespace Sys2Proof.Machine

/-- A counter of an engine record of block 0x09 (R458). -/
def mxCtr (y off : Nat) : Nat := ctr 9 y off

/-- A counter of a core record of block 0x0A (11 R505). -/
def thCtr (core off : Nat) : Nat := ctr 0x0A core off

/-- The mix of a room, and updates of it. -/
def State.mixOf (s : State) (room : Nat) : Option MixRoom := look s.media.mixes room
def State.modMix (s : State) (room : Nat) (f : MixRoom → MixRoom) : State :=
  s.modMedia (fun m => { m with mixes := adj m.mixes room f })

/-- A field of the audio profile of a room, and a signed one. -/
def State.prof (s : State) (r : Room) (off n : Nat) : Nat := s.audFld (r.tf 6 1) off n
def State.sprof (s : State) (r : Room) (off n : Nat) : Int := sgn (8 * n) (s.prof r off n)

/-- Mix sources of a room: streams and their legs, ascending (R421). -/
def State.candidates (s : State) (room : Nat) : List (Nat × Nat) :=
  ((s.streamsIn room).filter (fun (_, x) => !x.egress && !x.video)).map (fun (i, x) => (i, x.leg))

/-- Mix outputs of a room: streams and their legs, ascending. -/
def State.outputsOf (s : State) (room : Nat) : List (Nat × Nat) :=
  ((s.streamsIn room).filter (fun (_, x) => x.egress && x.outKind == 2)).map (fun (i, x) => (i, x.leg))

/-! ### Gains and levels (R437, R441) -/

/-- Q4.20 of 10^(G / 2,000), rounded to nearest: is n not above it? -/
def gainAtLeast (g : Int) (n : Nat) : Bool :=
  let k := 2000
  n == 0 || decide ((2 * n - 1) ^ k * 10 ^ (-g).toNat ≤ 2 ^ (21 * k) * 10 ^ g.toNat)

/-- The largest number below 2^k above `base` that satisfies a test that holds up to it. -/
def largest (test : Nat → Bool) : Nat → Nat → Nat
  | 0, base => base
  | k + 1, base => largest test k (if test (base + 2 ^ k) then base + 2 ^ k else base)

/-- The linear factor of a gain in 0.01 dB (R437); -32,768 is mute. -/
def linearGain (g : Int) : Nat := if g = -32768 then 0 else if g = 0 then 1048576 else largest (gainAtLeast g) 25 0

/-- A gain field: from -9,600 to +2,400, or mute. -/
def gainOk (g : Int) : Bool := g == -32768 || (decide (-9600 ≤ g) && decide (g ≤ 2400))

/-- 10 × log10 of a ratio in 0.01 dB, rounded to nearest, with a floor of -9,600 (R435, R441). -/
def centiBel (p q : Nat) : Int :=
  if p = 0 ∨ q = 0 then -9600
  else
    let test (n : Nat) : Bool :=
      let e : Int := 2 * ((n : Int) - 9600) - 1
      if 0 ≤ e then decide (10 ^ e.toNat * q ^ 2000 ≤ p ^ 2000) else decide (q ^ 2000 ≤ p ^ 2000 * 10 ^ (-e).toNat)
    (largest test 14 0 : Nat) - 9600

/-- RMS of a sum of squares over blocks of 120 samples of 24 bits. -/
def rmsOf (power blocks : Nat) : Int := centiBel power (blocks * 120 * 2 ^ 46)

/-- A meter after a block (R441): HOLD rises at once, stays for METER_HOLD_MS, then falls, never below PEAK. -/
def InMeter.block (m : InMeter) (block holdMs decay power peak : Nat) : InMeter :=
  let p := centiBel (peak * peak) (2 ^ 46)
  let rms := rmsOf power 1
  if m.hold < 4 * p then { rms, peak := p, hold := 4 * p, holdBlock := block }
  else
    let fall : Int := if 2 * holdMs < 5 * (block - m.holdBlock) then decay else 0
    { m with rms, peak := p, hold := max (4 * p) (max (-38400) (m.hold - fall)) }

/-! ### Mix control settings (R439, R446) -/

/-- Settings that the mix of a block takes for a leg. -/
def MixRoom.leg (m : MixRoom) (leg : Nat) : LegMix := lookD m.ctl leg {}

/-- Gain from the source of leg y to the output of leg x, in 0.01 dB; -32,768 is mute (R439). -/
def State.nodeGain (s : State) (c : LegMix) (x y : Nat) : Int :=
  if x = y ∧ c.hearSelf = false then -32768
  else match c.nodes.find? (fun n => n.1 == s.legH y) with
    | some (_, g) => g
    | none => 0

/-! ### Physical outputs (R424, R425) -/

/-- What a leg's row depends on: OUT_GAIN and its node gains over the legs of the mix set. -/
def State.rowSig (s : State) (c : LegMix) (x : Nat) (set : List Nat) : Int × List Int := (c.outGain, set.map (s.nodeGain c x))

/-- Gives each output leg a physical output: legs with one signature share one; a leg keeps its own while it can. -/
def assignRows (prev : Tab Nat) : List (Nat × (Int × List Int)) → List ((Int × List Int) × Nat) → Tab Nat → Tab Nat
  | [], _, acc => acc
  | (leg, sig) :: rest, used, acc =>
    match used.find? (fun u => u.1 == sig) with
    | some (_, o) => assignRows prev rest used (put acc leg o)
    | none =>
      let free (o : Nat) : Bool := used.all (fun u => u.2 != o)
      let o := match look prev leg with
        | some p => if free p then p else ((List.range (used.length + 1)).find? free).getD 0
        | none => ((List.range (used.length + 1)).find? free).getD 0
      assignRows prev rest (used ++ [(sig, o)]) (put acc leg o)

/-- Rows of a room over a mix set, given the settings of each leg. -/
def State.rowsFor (s : State) (room : Nat) (m : MixRoom) (ctl : Nat → LegMix) (set : List Nat) : Tab Nat :=
  assignRows m.rows ((s.outputsOf room).map (fun o => (o.2, s.rowSig (ctl o.2) o.2 set))) [] []

/-- Physical outputs of some rows. -/
def outputsIn (rows : Tab Nat) : List Nat := (rows.map (·.2)).eraseDups

/-- Legs of the sources that hold places. -/
def State.setLegs (s : State) (m : MixRoom) : List Nat := (m.places.filter (fun kv => kv.2 != 0)).map (fun kv => s.legOf (kv.2 - 1))

/-- Takes or returns unreserved outputs, with their charge (R425, R426). -/
def State.setUnique (s : State) (room n : Nat) : State :=
  match s.mixOf room with
  | none => s
  | some m =>
    if m.unique = n then s
    else
      (s.modMix room (fun m => { m with unique := n })).modObjs (fun o => { o with adms := o.adms.map (fun a =>
        if a.room = room ∧ a.cls = 4 then { a with rate := roomMixCharge m.mixN m.reserved n } else a) })

/-! ### Operations of a block (R430-R433, R445) -/

/-- Yard of a thyme charge. -/
def State.thymeYard (s : State) (room key home : Nat) : Nat := (yardOfAdm s.objs.adms room 3 key).getD home

/-- A codec or buffer operation of a stream becomes ready: 0 decode, 1 jitter buffer, 2 up-bridge, 3 down-bridge, 4 encode of some
blocks. Its budget is four times its charge (R430). -/
def State.startCodec (s : State) (i block kind blocks : Nat) : State :=
  match look s.objs.streams i with
  | none => s
  | some x =>
    match look s.objs.rooms x.room, s.mixOf x.room with
    | some r, some m =>
      let (key, charge) := match kind with
        | 0 => (1, decCycles x.codec)
        | 1 => (0, 1250)
        | 2 => (2, bridgeCycles x.codec)
        | 3 => (4, downCycles x.codec m.opusBw)
        | _ => (5, encCycles x.codec m.opusBw)
      s.addOp (.codec i block kind) (s.thymeYard x.room (thymeKey i key) r.home) 1 (s.nodePrio x.room 3) (4 * charge * blocks)
    | _, _ => s

/-- An input of a block is complete, with its samples. -/
def State.inputDone (s : State) (room i block : Nat) (samples : List Word) : State :=
  s.modMix room (fun m => { m with inDone := { stream := i, block, samples } :: m.inDone.filter (fun p => decide (block < p.block + 4)) })

/-- Number of an output insert (11 R497). -/
def outInst (room output : Nat) : Nat := 2 * (2048 * room + output) + 1

/-- The insert kernel of a point becomes ready, or the block passes through when it is not loaded; `after` goes on without one. -/
def State.insertAt (s : State) (room inst kernel budget key block : Nat) (samples : List Word) (after : State → State) : State :=
  match look s.objs.rooms room with
  | none => s
  | some r =>
    if kernel = 0 then after s
    else
      match look s.thyme.kernels kernel with
      | none => after (s.bump (mxCtr r.home 96))
      | some k =>
        (s.modThyme (fun t => { t with blocks := put t.blocks inst (samples.map (fun w => w &&& ~~~0xFF#32)) })).addOp
          (.kernel kernel k.base inst block) (s.thymeYard room key r.home) 1 (s.nodePrio room 3) budget

/-- After the up-bridge of a source: its input insert, then the input is complete. -/
def State.afterSource (s : State) (i block : Nat) (samples : List Word) : State :=
  match look s.objs.streams i with
  | none => s
  | some x =>
    match s.mixOf x.room with
    | none => s
    | some m => s.insertAt x.room (2 * i) m.inKernel m.inBudget (thymeKey i 3) block samples (fun s => s.inputDone x.room i block samples)

/-- A block of a mix output is ready to be encoded; the last of its frame makes the encode ready (R449). -/
def State.frameBlock (s : State) (i block : Nat) : State :=
  match look s.media.mixOuts i with
  | none => s
  | some o =>
    if block + 1 < o.start + o.blocks then s
    else
      let prof := ((look s.objs.streams i).bind (fun x => look s.objs.rooms x.room)).map (fun r => r.tf 6 1)
      let next := s.newMixOut (prof.getD 0)
      let o2 : MixOut := { next with
        start := block + 1, framePower := o.power, frameBlocks := o.blocks, seq := o.seq, ts := o.ts, begun := o.begun }
      (s.modMedia (fun m => { m with mixOuts := put m.mixOuts i { o2 with ptime := o.ptime } })).startCodec i block 4 o.blocks

/-- After the output insert of a physical output: down-bridges, then frames, of every mix output that shares it. -/
def State.afterOutput (s : State) (room output block : Nat) : State :=
  match s.mixOf room with
  | none => s
  | some m => forEach (s.outputsOf room) (fun (i, leg) s =>
      if look m.rows leg = some output then
        (match look s.objs.streams i with
         | some x => if downCycles x.codec m.opusBw = 0 then s.frameBlock i block else s.startCodec i block 3 1
         | none => s)
      else s) s

/-- What follows the kernel of an insert point. -/
def State.afterInsert (s : State) (inst block : Nat) : State :=
  if inst % 2 = 0 then
    match look s.objs.streams (inst / 2) with
    | some x => s.inputDone x.room (inst / 2) block (lookD s.thyme.blocks inst [])
    | none => s
  else s.afterOutput (inst / 4096) (inst / 2 % 2048) block

/-! ### Jitter buffer (R427-R429) -/

/-- Is there a frame at the read position? -/
def Jitter.covers (j : Jitter) (pos : Nat) : Bool :=
  j.pkts.any (fun p => decide (p.1 * 1000000000 ≤ pos) && decide (pos < (p.1 + p.2) * 1000000000))

/-- A decode of a source has ended: its block is concealed when its frame is missing, or when the decode overran. -/
def State.decodedBlock (s : State) (i : Nat) (x : Stream) (home : Nat) (fec overrun : Bool) : State :=
  match look s.media.jitter i with
  | none => s
  | some j =>
    let missing := match j.readPos with
      | some p => !j.covers p
      | none => false
    let fecd := fec && x.codec == 1 && (match j.readPos with
      | some p => j.pkts.any (fun q => decide (p < q.1 * 1000000000))
      | none => false)
    let conceal := j.readPos.isSome && (overrun || (missing && !fecd))
    let s := if conceal then s.bump (mxCtr home 24) else s
    s.modMedia (fun m => { m with jitter := put m.jitter i { j with
      missing, concealRun := if conceal then j.concealRun + 1 else 0, concealed := j.concealed + b2n conceal } })

/-- The read of one block: the target, the depth, the ratio, and adjustments of a whole block in silence (R428). -/
def Jitter.read (j : Jitter) (clock minMs maxMs rsMax block : Nat) (silent : Bool) : Jitter × Bool :=
  let us_ (ticks : Nat) : Int := (ticks * 1000000 / clock : Nat)
  let d := clampI (minMs * 1000) (maxMs * 1000) (us_ j.newest + 3 * (j.jit16 * 1000000 / (16 * clock) : Nat))
  let n := clock / 400
  match j.readPos with
  | none =>
    let first := j.pkts.foldl (fun (b : Option Nat) p => some (match b with
      | none => p.1
      | some m => min m p.1)) none
    (match first, j.endTs with
     | some f, some e =>
       let depth := us_ (e - f)
       ({ j with targetUs := d, depthUs := depth, readPos := if d ≤ depth then some (f * 1000000000) else none }, false)
     | _, _ => ({ j with targetUs := d }, false))
  | some pos =>
    let depth : Int := (((j.endTs.getD 0 * 1000000000 : Nat) : Int) - pos) / (clock * 1000 : Nat)
    let e := depth - d
    let want := clampI (-(rsMax * 1000 : Nat)) (rsMax * 1000 : Nat) (e * 100)
    let rho := j.rho + clampI (-10000) 10000 (want - j.rho)
    let step := (((n : Nat) : Int) * (1000000000 + rho)).toNat
    let adjust := decide (20000 < e.natAbs) && silent && (match j.lastAdjust with
      | some b => decide (b + 16 < block)
      | none => true)
    let pos2 := if adjust then (if 0 < e then pos + step + n * 1000000000 else pos) else pos + step
    ({ j with
       rho, targetUs := d, depthUs := depth, readPos := some pos2, lastAdjust := if adjust then some block else j.lastAdjust
       pkts := j.pkts.filter (fun p => decide (pos2 < (p.1 + p.2) * 1000000000)) }, adjust)

/-- The jitter buffer operation of a block has ended. -/
def State.jitterBlock (s : State) (i block : Nat) (x : Stream) (r : Room) : State :=
  match look s.media.jitter i with
  | none => s
  | some j =>
    let rms := match (s.mixOf x.room).bind (fun m => look m.inMeter i) with
      | some m => m.rms
      | none => -9600
    let clock := if x.codec = 1 then 48000 else 8000
    let (j2, adjusted) := j.read clock (s.prof r 8 2) (s.prof r 10 2) (s.prof r 12 2) block (decide (rms < s.sprof r 4 2))
    let s := if adjusted then s.bump (mxCtr r.home 32) else s
    s.modMedia (fun m => { m with jitter := put m.jitter i j2 })

/-! ### Packets of a mix output (R449, R450) -/

/-- RFC 6464 level of a frame. -/
def frameLevel (cb : Int) : Nat := min 127 ((-cb + 50) / 100).toNat

/-- Sends the frame that an encode has made; a frame that was lost only advances the timestamp. -/
def State.sendFrame (s : State) (i : Nat) (payload : Option Bytes) : State :=
  match look s.objs.streams i, look s.media.mixOuts i with
  | some z, some o =>
    match look s.objs.legs z.leg, look s.objs.rooms z.room with
    | some l, some r =>
      let (r1, s) := s.draw 65536
      let (r2, s) := s.draw (2 ^ 32)
      let seq := if o.begun then o.seq else z.roc * 65536 + r1
      let ts := if o.begun then o.ts else r2
      let step := o.frameBlocks * z.clock / 400
      let put_ (s : State) (next : Nat) : State := s.modMedia (fun m => { m with
        mixOuts := put m.mixOuts i { o with seq := next, ts := (ts + step) % 2 ^ 32, begun := true } })
      (match payload with
       | none => put_ s seq
       | some body =>
         if z.exhausted then put_ s seq
         else if 2 ^ 48 ≤ seq then s.exhaust i
         else
           let cb := rmsOf o.framePower o.frameBlocks
           let level := frameLevel cb + (if s.sprof r 4 2 ≤ cb then 128 else 0)
           let exts := (if z.ext 1 = 0 then [] else [(z.ext 1, beBytes 1 level)]) ++
             (if l.fbMode = 1 ∧ z.ext 2 ≠ 0 then [(z.ext 2, zeros 2)] else []) ++ (if z.ext 3 ≠ 0 then [(z.ext 3, zeros 3)] else [])
           let pkt := buildRtp { marker := z.packets == 0 && !o.begun, pt := z.f 18 1, seq, ts, ssrc := z.ssrc, exts, body }
           let s := put_ s (seq + 1)
           let s := s.modStream i (fun z => { z with extTs := some (z.newestTs ts), lastOut := max z.lastOut seq, lastOutTs := ts, lastOutAt := s.now })
           let s := s.report i none
           let s := s.logPacket i z seq pkt
           s.enqueue l.lport l.audioClass {
             bare := l.bareLen (pkt.length + tagLen z.key), enter := s.now, leg := z.leg + 1, stream := i + 1, key := z.key, kind := 6
             out := seq, src := none, data := pkt })
    | _, _ => s
  | _, _ => s

/-! ### THYME_OPERATION_COMPLETE -/

/-- What follows a codec or buffer operation. -/
def State.codecDone (s : State) (i block kind : Nat) (z : ThymeResult) (overrun : Bool) : State :=
  match look s.objs.streams i with
  | none => s
  | some x =>
    match look s.objs.rooms x.room with
    | none => s
    | some r =>
      match kind with
      | 0 => (s.decodedBlock i x r.home z.fecUsed overrun).startCodec i block 1 1
      | 1 =>
        let s := s.jitterBlock i block x r
        if bridgeCycles x.codec = 0 then s.afterSource i block z.samples else s.startCodec i block 2 1
      | 2 => s.afterSource i block z.samples
      | 3 => s.frameBlock i block
      | _ => s.sendFrame i (if overrun then none else some z.payload)

/-- THYME_OPERATION_COMPLETE: an operation of the codec firmware that runs on a core ends (R432, R433). -/
def thymeComplete (id : Nat) (z : ThymeResult) (s : State) : State :=
  match s.endingOp id z.cycles with
  | none => s
  | some o => s.underOp o (fun s =>
    match o.kind with
    | .codec i block kind =>
      let core := 8 * o.yard + o.unit.getD 0
      let s := ((s.endOp o z.cycles).bump (thCtr core 40)).addCnt (thCtr core 48) (z.cycles - o.charged)
      s.codecDone i block kind z false
    | _ => s)

/-- The watchdog ends a codec operation (R430). -/
def State.codecOverrun (s : State) (o : Op) (i block kind : Nat) : State :=
  let core := 8 * o.yard + o.unit.getD 0
  let home := (((look s.objs.streams i).bind (fun x => look s.objs.rooms x.room)).map (·.home)).getD o.yard
  let s := (s.bump (thCtr core 40)).addCnt (thCtr core 48) (o.budget - o.charged)
  let s := if kind = 0 ∨ kind = 4 then s.bump (mxCtr home 48) else s
  s.codecDone i block kind {} true

/-! ### The mix set (R434, R435) -/

/-- The member with the lowest S; ties go to the later entry. -/
def lowestS (level : Tab Int) : List Nat → Option Nat
  | [] => none
  | i :: rest => match lowestS level rest with
    | none => some i
    | some j => if lookD level i (-9600) < lookD level j (-9600) then some i else some j

/-- Removes members until at most n are left. -/
def trimActive (level : Tab Int) (n : Nat) : Nat → List Nat → List Nat
  | 0, a => a
  | fuel + 1, a => if a.length ≤ n then a
    else match lowestS level a with
      | some i => trimActive level n fuel (a.filter (· != i))
      | none => a

/-- Inserts a stream by descending S, ties to the lower index; those before it in the list have lower indices. -/
def insertS (level : Tab Int) (i : Nat) : List Nat → List Nat
  | [] => [i]
  | j :: rest => if lookD level j (-9600) < lookD level i (-9600) then i :: j :: rest else j :: insertS level i rest

/-- The active set of a block. -/
def activeSet (level : Tab Int) (speakNow : Nat → Bool) (recent : Nat → Bool) (pinned cands prev : List Nat) (places swapDb : Nat) :
    List Nat :=
  let kept := prev.filter (fun i => cands.contains i && !pinned.contains i && recent i)
  let kept := trimActive level places kept.length kept
  let speaking := (cands.filter (fun i => !pinned.contains i && !kept.contains i && speakNow i)).foldl (fun l i => insertS level i l) []
  let act := kept ++ speaking.take (places - kept.length)
  match speaking.drop (places - kept.length), lowestS level act with
  | c :: _, some m =>
    if lookD level m (-9600) + 100 * swapDb ≤ lookD level c (-9600) then act.filter (· != m) ++ [c] else act
  | _, _ => act

/-- Places: members keep theirs, those that enter take the lowest free ones. -/
def assignPlaces (members : List Nat) (fading : Tab Nat) (prev : Tab Nat) : Tab Nat :=
  let kept := prev.filter (fun kv => kv.2 != 0 && (members.contains (kv.2 - 1) || has fading kv.1))
  members.foldl (fun t i =>
    if t.any (fun kv => kv.2 == i + 1 && !has fading kv.1) then t
    else match (List.range 64).find? (fun p => !has t p) with
      | some p => put t p (i + 1)
      | none => t) kept

/-- Turns every gain of a room towards what it is to be (R438, R439). -/
def State.turnGains (s : State) (room : Nat) (m : MixRoom) (len : Nat) : List Ramp :=
  let set := (m.active ++ m.pinnedIn).map s.legOf
  let outs := (s.outputsOf room).map (·.2)
  let srcs := (s.candidates room).map (·.2)
  let target (r : Ramp) : Nat :=
    if r.hears = 2 ^ 32 then linearGain (m.leg r.heard).inGain
    else if r.heard = 2 ^ 32 then linearGain (m.leg r.hears).outGain
    else if outs.contains r.hears ∧ set.contains r.heard then linearGain (s.nodeGain (m.leg r.hears) r.hears r.heard) else 0
  let keep (r : Ramp) : Bool :=
    if r.hears = 2 ^ 32 then srcs.contains r.heard else if r.heard = 2 ^ 32 then outs.contains r.hears
    else outs.contains r.hears && (set.contains r.heard || r.left != 0 || r.dest != 0)
  let old := (m.ramps.filter keep).map (fun r => r.turn (target r) len)
  let isIn (a b : Nat) : Bool := m.ramps.any (fun r => keep r && r.hears == a && r.heard == b)
  let ins := (srcs.filter (fun y => !isIn (2 ^ 32) y)).map (fun y =>
    let g := linearGain (m.leg y).inGain
    ({ hears := 2 ^ 32, heard := y, from_ := g, dest := g } : Ramp))
  let os := (outs.filter (fun x => !isIn x (2 ^ 32))).map (fun x =>
    let g := linearGain (m.leg x).outGain
    ({ hears := x, heard := 2 ^ 32, from_ := g, dest := g } : Ramp))
  let nodes := outs.flatMap (fun x => (set.filter (fun y => !isIn x y)).map (fun y =>
    ({ hears := x, heard := y, from_ := 0, dest := 0 } : Ramp).turn (linearGain (s.nodeGain (m.leg x) x y)) len))
  old ++ ins ++ os ++ nodes

/-- Cycle budget of a mix (R431). -/
def mixBudget (places outs : Nat) : Nat := 4000 + 15 * (places * outs + 4 * (places + outs))

/-- MIX_SET_DECISION: at the start of the mix of a block the set, the places, the rows and the gains are decided (R434, R435, R438). -/
def State.mixDecide (s : State) (opId room block : Nat) : State :=
  match s.mixOf room, look s.objs.rooms room with
  | some m, some r =>
    let cands := s.candidates room
    let ids := cands.map (·.1)
    let level : Tab Int := ids.map (fun i =>
      let p := lookD m.power i []
      (i, if p = [] then (-9600 : Int) else rmsOf p.sum p.length))
    let gate := s.sprof r 4 2
    let speak := ids.foldl (fun t i => if gate ≤ lookD level i (-9600) then put t i block else t) (m.lastSpeak.filter (fun kv => ids.contains kv.1))
    let pins := cands.filter (fun (i, leg) => r.audioPin.contains (s.streamH i) || (m.leg leg).pin)
    let pinned := (pins.map (·.1)).take m.mixN
    let excess := pins.length - m.mixN
    let hang := s.prof r 2 2
    let recent (i : Nat) : Bool := match look speak i with
      | some b => decide (5 * (block - b) ≤ 2 * hang)
      | none => false
    let act := activeSet level (fun i => look speak i == some block) recent pinned ids m.active (m.mixN - pinned.length) (s.prof r 6 1)
    let before := m.active ++ m.pinnedIn
    let members := pinned ++ act
    let changed := before.any (fun i => !members.contains i) || members.any (fun i => !before.contains i)
    let places := assignPlaces members m.fading m.places
    let m1 : MixRoom := { m with level, lastSpeak := speak, active := act, pinnedIn := pinned, pinExcess := excess, places }
    let rows := s.rowsFor room m1 m1.leg (members.map s.legOf)
    let gone := (outputsIn m.rows).filter (fun o => !(outputsIn rows).contains o)
    let ramps := s.turnGains room m1 (s.prof r 7 1 * 48)
    let s := s.modMix room (fun _ => { m1 with rows, ramps })
    let s := s.modThyme (fun t => { t with instances := t.instances.filter (fun kv => !gone.any (fun o => kv.1 == outInst room o)) })
    let s := s.setUnique room ((outputsIn rows).length - m.reserved)
    let s := if changed then s.bump (mxCtr r.home 56) else s
    let s := s.addCnt (mxCtr r.home 64) excess
    let s := if excess ≠ 0 ∧ m.pinExcess = 0 then s.event (yardSrc r.home 17) (s.roomH room + (min 255 excess) * 2 ^ 32) r.owner else s
    s.modOp opId (fun o => { o with budget := mixBudget places.length (outputsIn rows).length })
  | _, _ => s

/-! ### The mix cycle -/

/-- Has a source an operation of a block that has not ended? -/
def State.inputOpen (s : State) (i block : Nat) : Bool :=
  (s.media.ops ++ s.media.noSlot).any (fun o => match o.kind with
    | .codec k b kind => k == i && b == block && decide (kind ≤ 2)
    | .kernel _ _ inst b => inst == 2 * i && b == block
    | _ => false)

/-- At a tick boundary the mix of the last block and the thyme operations of the new one become ready (R431, R432, R447). -/
def State.mixTick (s : State) : State :=
  if s.mediaOn = false then s
  else
    let s := forEach s.media.mixes (fun (room, m) s =>
      match look s.objs.rooms room with
      | none => s
      | some r =>
        let t := s.tick - 1
        let cands := s.candidates room
        let s :=
          if s.tick = 0 ∨ s.tick ≤ r.createdTick then s
          else
            let late := (cands.filter (fun c => s.inputOpen c.1 t)).length
            let ctl : Tab LegMix := (s.legsOf room).map (fun (i, l) => (i, l.mix))
            ((s.addCnt (mxCtr r.home 8) late).modMix room (fun m => { m with
              ctl, taken := m.taken.filter (fun p => decide (t < p.block + 4)) ++ m.inDone.filter (fun p => p.block == t) })).addOp
              (.mix room t) r.home 3 (s.nodePrio room 4) (mixBudget m.places.length (outputsIn m.rows).length)
        forEach cands (fun c s => s.startCodec c.1 s.tick 0 1) s) s
    s.modMedia (fun m => { m with outUsed := (List.range 8).map (fun y => (y, s.outsUsed y (2 ^ 32))) })

/-- The dynamics that a room's profile enables (R443, R444). -/
def State.mixParams (s : State) (r : Room) : MixParams :=
  let on (i : Nat) : Bool := bit (s.prof r 1 1) i
  let dyn (off : Nat) : Dynamics := dynamicsOf (leBytes 16 (s.prof r off 16))
  { inDyn := if on 1 then some (dyn 20) else none, outDyn := if on 2 then some (dyn 36) else none
    lim := if on 3 then some (limiterOf (s.sprof r 52 2) (s.prof r 54 2)) else none }

/-- A gain of a room that has not been set up stands at 0 dB. -/
def MixRoom.gainOf (m : MixRoom) (hears heard : Nat) : Ramp :=
  (m.ramps.find? (fun r => r.hears == hears && r.heard == heard)).getD { hears, heard, from_ := 1048576, dest := 1048576 }

/-- Samples of a source in a block; one that was not complete in time is silent (R432). -/
def MixRoom.samples (m : MixRoom) (i block : Nat) : List Int :=
  let ws := ((m.taken.find? (fun v => v.stream == i && v.block == block)).map (·.samples)).getD []
  ((ws ++ List.replicate 120 0#32).take 120).map sampleOf

/-- Stages 4 to 6 of one source: its samples for the crosspoint, compressor, meter and power. -/
def MixRoom.input (m : MixRoom) (p : MixParams) (i leg block holdMs decay : Nat) : List Int × MixRoom :=
  let (c, ys) := inputBlock p (m.gainOf (2 ^ 32) leg) (lookD m.inComp i {}) (m.samples i block)
  (ys, { m with
    power := put m.power i ((powerOf ys :: lookD m.power i []).take 8), inComp := put m.inComp i c
    inMeter := put m.inMeter i ((lookD m.inMeter i {}).block block holdMs decay (powerOf ys) (peakOf ys)) })

/-- Stages 4 to 6 of every source: samples by leg. -/
def mixInputs (p : MixParams) (block holdMs decay : Nat) : List (Nat × Nat) → MixRoom → Tab (List Int) × MixRoom
  | [], m => ([], m)
  | (i, leg) :: rest, m =>
    let (ys, m) := m.input p i leg block holdMs decay
    let (t, m) := mixInputs p block holdMs decay rest m
    (put t leg ys, m)

/-- Stages 7 to 11 of a physical output, by the gains of the first leg that has it. -/
def MixRoom.output (m : MixRoom) (p : MixParams) (blocks : Tab (List Int)) (o : Nat) : OutDyn × List Int × Nat :=
  let x := ((m.rows.find? (fun kv => kv.2 == o)).map (·.1)).getD 0
  let nodes := (m.ramps.filter (fun r => r.hears == x && r.heard != 2 ^ 32)).map (fun r => (r, lookD blocks r.heard (List.replicate 120 0)))
  outputBlock p (lookD m.outDyn o {}) (crosspoint nodes (m.gainOf x (2 ^ 32)))

/-- Gains of the dynamics of an output in 0.01 dB, as its record gives them (R459). -/
def Comp.centi (c : Comp) : Int := c.gain * 100 / 2 ^ 24
def OutDyn.limCenti (d : OutDyn) : Int := centiBel (d.lim * d.lim) (2 ^ 64)

/-- The mix of a block (R433, stages 4 to 11): the room after it, and each physical output with its samples and saturated samples. -/
def State.mixBlock (s : State) (room : Nat) (r : Room) (m : MixRoom) (block : Nat) (fades : List (Nat × List Word)) :
    MixRoom × List (Nat × List Int × Nat) :=
  let p := s.mixParams r
  let hold := s.prof r 14 2
  let decay := s.prof r 16 1
  let (heard, m) := mixInputs p block hold decay (s.candidates room) m
  let blocks := fades.foldl (fun t f => if has t f.1 then t else put t f.1 (f.2.map sampleOf)) heard
  let outs := (outputsIn m.rows).map (fun o => (o, m.output p blocks o))
  let m : MixRoom := { m with
    outDyn := outs.foldl (fun t x => put t x.1 x.2.1) []
    outMeter := (s.outputsOf room).foldl (fun t (_, leg) =>
      match (look m.rows leg).bind (fun o => outs.find? (fun x => x.1 == o)) with
      | some (_, d, ys, n) =>
        let old := lookD m.outMeter leg {}
        put t leg { meter := old.meter.block block hold decay (powerOf ys) (peakOf ys), comp := d.comp.centi, lim := d.limCenti, clipped := old.clipped + n }
      | none => t) []
    ramps := m.ramps.map (fun r => { r with left := r.left - 120 })
    places := m.places.filter (fun kv => lookD m.fading kv.1 2 != 1)
    fading := (m.fading.filter (fun kv => decide (1 < kv.2))).map (fun (p, n) => (p, n - 1))
    taken := m.taken.filter (fun p => p.block != block) }
  (m, outs.map (fun x => (x.1, x.2.2)))

/-- MIX_COMPLETE: counters, the mix of the block, and the inserts, bridges and frames of the outputs (R433, R436, R438-R445). -/
def mixComplete (id : Nat) (z : MixResult) (s : State) : State :=
  match s.runningOp id with
  | none => s
  | some o => s.underOp o (fun s =>
    match o.kind with
    | .mix room block =>
      let s := ((s.endOp o z.cycles).bump (mxCtr o.yard 0)).addCnt (mxCtr o.yard 104) (z.cycles - o.charged)
      (match s.mixOf room, look s.objs.rooms room with
       | some m, some r =>
         let (m, outs) := s.mixBlock room r m block z.fades
         let s := s.modMix room (fun _ => m)
         let s := s.addCnt (mxCtr r.home 72) (outs.map (fun x => x.2.2)).sum
         let s := forEach (s.outputsOf room) (fun (i, leg) s =>
           match (look m.rows leg).bind (fun o => outs.find? (fun x => x.1 == o)) with
           | some (_, ys, _) => s.modMedia (fun x => { x with mixOuts := adj x.mixOuts i (fun q => { q with power := q.power + powerOf ys }) })
           | none => s) s
         forEach outs (fun (p, ys, _) s =>
           s.insertAt room (outInst room p) m.outKernel m.outBudget (2 ^ 40 + p) block (ys.map wordOf) (fun s => s.afterOutput room p block)) s
       | _, _ => s)
    | _ => s)

/-! ### Mix control (R446-R448) -/

/-- Reads the overrides of an entry. -/
def ctlNodes (b : Bytes) (n : Nat) : List (Nat × Int) := (List.range n).map (fun k => (le b (16 + 8 * k) 4, sgn 16 (le b (20 + 8 * k) 2)))

/-- STATUS of an entry of a leg. -/
def State.ctlStatus (s : State) (leg : Nat) (l : Leg) (b : Bytes) : Nat :=
  let n := le b 9 1
  let nodes := ctlNodes b (min n 12)
  let inRoom (h : Nat) : Bool := match s.legAt h with
    | some (_, x) => x.room == l.room
    | none => false
  if gainOk (sgn 16 (le b 4 2)) = false ∨ gainOk (sgn 16 (le b 6 2)) = false ∨ 4 ≤ le b 8 1 ∨ 12 < n ∨ zeroIn b 10 16 = false ∨
      nodes.any (fun x => !gainOk x.2) ∨ (List.range n).any (fun k => le b (22 + 8 * k) 2 != 0) ∨ zeroIn b (16 + 8 * n) 112 = false ∨
      zeroIn b 117 120 = false ∨ zeroIn b 124 128 = false then 1
  else if nodes.any (fun x => !inRoom x.1) ∨ (nodes.map (·.1)).eraseDups.length ≠ n then 2
  else
    match s.mixOf l.room, look s.objs.rooms l.room with
    | some m, some r =>
      let new : LegMix := {
        inGain := sgn 16 (le b 4 2), outGain := sgn 16 (le b 6 2), pin := bit (le b 8 1) 0, hearSelf := bit (le b 8 1) 1, nodes }
      let ctl (x : Nat) : LegMix := if x = leg then new else ((look s.objs.legs x).map (·.mix)).getD {}
      let need := (outputsIn (s.rowsFor l.room m ctl (s.setLegs m))).length - m.reserved
      let a := s.objs.adms.filter (fun x => !(x.room == l.room && x.cls == 4))
      if m.unique < need ∧ s.mixFits a r.home (roomMixCharge m.mixN m.reserved need) (m.reserved + need) (s.outsUsed r.home l.room) = false then 3
      else 0
    | _, _ => 0

/-- One entry as a poll reads it; a read that fails changes nothing (02 R122). -/
def State.ctlEntry (s : State) (e : MixCtlRead) : State :=
  match look s.objs.legs e.leg with
  | none => s
  | some l =>
    match look s.objs.rooms l.room, s.mixOf l.room with
    | some r, some m =>
      let base := s.fld 0x0C (8 * r.owner) 8
      let seq := le e.data 0 4
      if base = 0 ∨ s.running r.owner = false then s
      else if e.ok = false then s.hostFailed r.owner e.status
      else if seq = 0 ∨ seq ≠ le e.data 120 4 ∨ seq = l.mixSeq then s
      else
        let st := s.ctlStatus e.leg l e.data
        let s := s.hostWrite r.owner (base + 128 * e.leg + 112) (leBytes 4 seq ++ leBytes 1 st)
        if st = 0 then
          let new : LegMix := {
            inGain := sgn 16 (le e.data 4 2), outGain := sgn 16 (le e.data 6 2), pin := bit (le e.data 8 1) 0
            hearSelf := bit (le e.data 8 1) 1, nodes := ctlNodes e.data (le e.data 9 1) }
          let s := (s.bump (mxCtr r.home 80)).modLeg e.leg (fun l => { l with mixSeq := seq, mix := new })
          let ctl (x : Nat) : LegMix := ((look s.objs.legs x).map (·.mix)).getD {}
          s.setUnique l.room (max m.unique ((outputsIn (s.rowsFor l.room m ctl (s.setLegs m))).length - m.reserved))
        else
          let s := s.bump (mxCtr r.home 88)
          if l.ctlRefusedSeq = some seq then s
          else (s.modLeg e.leg (fun l => { l with ctlRefusedSeq := some seq })).event (yardSrc r.home 18)
              (e.leg + st * 2 ^ 20 + seq * 2 ^ 32) r.owner
    | _, _ => s

/-- MIX_CONTROL_POLL: every MIX_POLL_TICKS ticks. -/
def mixControlPoll (entries : List MixCtlRead) (s : State) : State :=
  let n := s.fld 0x0C 32 2
  if n = 0 ∨ s.tick % n ≠ 0 then s else forEach entries (fun e s => s.ctlEntry e) s

/-! ### The commands of this file -/

/-- THYME_OPERATION_COMPLETE (R432). -/
def execThymeOperationComplete (t op : Nat) (res : ThymeResult) (s : State) : Host.Outcome State Fault Refusal :=
  .next (thymeComplete op res (s.at t))

/-- MIX_COMPLETE (R431). -/
def execMixComplete (t op : Nat) (res : MixResult) (s : State) : Host.Outcome State Fault Refusal := .next (mixComplete op res (s.at t))

/-- MIX_CONTROL_POLL (R447). -/
def execMixControlPoll (t : Nat) (entries : List MixCtlRead) (s : State) : Host.Outcome State Fault Refusal :=
  .next (mixControlPoll entries (s.at t))

end Sys2Proof.Machine
end

