-- ==== Sys2Proof/Machine/Flags.lean ====
section
/-! DEFINITION. Flags of a thyme core: SR and its fields (11 R465, R466), what every ALU function computes with its carry and overflow
(R489), the saturation of accumulators (R467) and of STA results (R490), and the branch conditions (R491). -/
namespace Sys2Proof.Machine

/-! ### Fields of SR (R465) -/

def srZ (sr : Word) : Bool := sr.getLsbD 0
def srN (sr : Word) : Bool := sr.getLsbD 1
def srC (sr : Word) : Bool := sr.getLsbD 2
def srV (sr : Word) : Bool := sr.getLsbD 3
def srIE (sr : Word) : Bool := sr.getLsbD 8
def srBANK (sr : Word) : Bool := sr.getLsbD 9
def srKM (sr : Word) : Bool := sr.getLsbD 10

/-- The bits SR holds; the others are reserved and 0. -/
def srMask : Word := 0x73F#32

/-- Sets or clears one bit. -/
def setBit (w : Word) (i : Nat) (v : Bool) : Word := if v then w ||| (1#32 <<< i) else w &&& ~~~(1#32 <<< i)

/-- SR after an ALU instruction: Z and N of the result, C and V as its function gives them. -/
def srAlu (sr result : Word) (c v : Bool) : Word :=
  setBit (setBit (setBit (setBit sr 0 (result == 0#32)) 1 (result.getLsbD 31)) 2 c) 3 v

/-- SR after a MOVE of a word to it: a kernel changes bits [5:0] only (R466). -/
def srMoved (sr w : Word) : Word := if srKM sr then (sr &&& ~~~0x3F#32) ||| (w &&& 0x3F#32) else w &&& srMask

/-! ### ALU functions: result, C and V (R489) -/

/-- Saturation of a signed sum to 32 bits. -/
def satWord (v : Int) : Word := BitVec.ofInt 32 (satS 32 v)

/-- Is a signed result outside 32 bits? -/
def outside32 (v : Int) : Bool := decide (v < -2147483648) || decide (2147483647 < v)

def aluAdd (a b : Word) : Word × Bool × Bool := (a + b, decide (2 ^ 32 ≤ a.toNat + b.toNat), outside32 (a.toInt + b.toInt))
def aluSub (a b : Word) : Word × Bool × Bool := (a - b, decide (b.toNat ≤ a.toNat), outside32 (a.toInt - b.toInt))
def aluAnd (a b : Word) : Word × Bool × Bool := (a &&& b, false, false)
def aluOr (a b : Word) : Word × Bool × Bool := (a ||| b, false, false)
def aluXor (a b : Word) : Word × Bool × Bool := (a ^^^ b, false, false)
def aluShl (a b : Word) : Word × Bool × Bool := (a <<< (b.toNat % 32), false, false)
def aluShr (a b : Word) : Word × Bool × Bool := (a >>> (b.toNat % 32), false, false)
def aluSar (a b : Word) : Word × Bool × Bool := (a.sshiftRight (b.toNat % 32), false, false)
def aluMul (a b : Word) : Word × Bool × Bool := (a * b, false, false)
def aluMulh (a b : Word) : Word × Bool × Bool := (BitVec.ofInt 32 (a.toInt * b.toInt / 2 ^ 32), false, false)
def aluMin (a b : Word) : Word × Bool × Bool := (if a.toInt ≤ b.toInt then a else b, false, false)
def aluMax (a b : Word) : Word × Bool × Bool := (if a.toInt ≤ b.toInt then b else a, false, false)
def aluAdds (a b : Word) : Word × Bool × Bool :=
  (satWord (a.toInt + b.toInt), decide (2 ^ 32 ≤ a.toNat + b.toNat), outside32 (a.toInt + b.toInt))
def aluSubs (a b : Word) : Word × Bool × Bool :=
  (satWord (a.toInt - b.toInt), decide (b.toNat ≤ a.toNat), outside32 (a.toInt - b.toInt))

/-! ### Accumulators (R467, R468) -/

/-- An exact accumulator result saturated once, and whether that changed it. -/
def accSat (v : Int) : Acc × Bool := (BitVec.ofInt 40 (satS 40 v), decide (satS 40 v ≠ v))

/-- The 32 × 32 product as it is accumulated. -/
def p32 (a b : Word) : Int := a.toInt * b.toInt / 2 ^ 31

/-- The dual product of the halves. -/
def p16 (a b : Word) : Int :=
  2 * ((a.extractLsb' 16 16).toInt * (b.extractLsb' 16 16).toInt + (a.extractLsb' 0 16).toInt * (b.extractLsb' 0 16).toInt)

/-! ### STA (R490): the word, and whether it was saturated -/

def staSat (a : Acc) : Word × Bool := (satWord a.toInt, outside32 a.toInt)

/-- Rounded half away from zero to the 16 bits that GD[31:16] holds, that is at bit 16 of the accumulator
(notes/assumptions/23.md). -/
def staSat16 (a : Acc) : Word × Bool :=
  let v := a.toInt
  let r : Int := if 0 ≤ v then (v + 32768) / 65536 else -((-v + 32768) / 65536)
  ((BitVec.ofInt 16 (satS 16 r)) ++ 0#16, decide (satS 16 r ≠ r))

def staRaw (a : Acc) : Word := a.setWidth 32
def staGuard (a : Acc) : Word := (a.extractLsb' 32 8).signExtend 32

/-- Bits below the sign bit of 40 that repeat it, from bit 38 down, among the n lowest. -/
def signRun (a : Acc) : Nat → Nat
  | 0 => 0
  | n + 1 => if a.getLsbD n == a.getLsbD 39 then 1 + signRun a n else 0

/-- Redundant sign bits minus 8; +31 for 0. -/
def staNorm (a : Acc) : Word := BitVec.ofInt 32 ((signRun a 39 : Nat) - 8)

/-! ### Conditions (R491) -/

def condHolds (c : Cond) (sr : Word) : Bool :=
  match c with
  | .al => true
  | .eq => srZ sr
  | .ne => !srZ sr
  | .lt => srN sr != srV sr
  | .ge => srN sr == srV sr
  | .le => srZ sr || srN sr != srV sr
  | .gt => !srZ sr && srN sr == srV sr
  | .cs => srC sr
  | .cc => !srC sr
  | .vs => srV sr
  | .vc => !srV sr
  | .mi => srN sr
  | .pl => !srN sr

end Sys2Proof.Machine
end

