-- ==== Sys2Proof/Machine/ThymeCore.lean ====
section
/-! DEFINITION. A thyme core (11 R461-R476): registers and banks, pointers, what a kernel may access, parallel and direct moves, and
how one instruction advances the core. -/
namespace Sys2Proof.Machine

/-! ### Registers (R464, R465) -/

/-- The bank in use. -/
def Core.bank (c : Core) : Bank := if srBANK c.sr then c.shadow else c.main

/-- Updates the bank in use. -/
def Core.modBank (c : Core) (f : Bank → Bank) : Core :=
  if srBANK c.sr then { c with shadow := f c.shadow } else { c with main := f c.main }

/-- G registers, accumulators, pointers and modifiers. -/
def Core.gReg (c : Core) (i : Nat) : Word := memRead 0#32 c.bank.g i
def Core.setG (c : Core) (i : Nat) (w : Word) : Core := c.modBank (fun b => { b with g := memWrite 0#32 b.g i w })
def Core.acc (c : Core) (i : Nat) : Acc := memRead 0#40 c.bank.a i
def Core.setAcc (c : Core) (i : Nat) (a : Acc) : Core := c.modBank (fun b => { b with a := memWrite 0#40 b.a i a })
def Core.ptr (c : Core) (i : Nat) : Ptr := memRead 0#14 c.bank.p i
def Core.setPtr (c : Core) (i : Nat) (a : Ptr) : Core := c.modBank (fun b => { b with p := memWrite 0#14 b.p i a })
def Core.mod (c : Core) (i : Nat) : Word := memRead 0#32 c.m i

/-- Bits [15:14] of a modifier read as 0, and writes to them are ignored (R469). -/
def Core.setMod (c : Core) (i : Nat) (w : Word) : Core := { c with m := memWrite 0#32 c.m i (w &&& ~~~0xC000#32) }

/-- Does a kernel run (KM)? -/
def Core.km (c : Core) : Bool := srKM c.sr

/-! ### Data memories (R461-R463) -/

/-- May a kernel read an address of X or Y? -/
def kernelReads (a : Nat) : Bool := decide (0x2000 ≤ a)

/-- May a kernel write it? -/
def kernelWrites (y : Bool) (a : Nat) : Bool :=
  if y then decide (0x2010 ≤ a) else decide (0x2000 ≤ a) && !(decide (0x2078 ≤ a) && decide (a ≤ 0x207F))

/-- Is an address scratch of the running kernel (R463)? -/
def KernelRun.scratch (k : KernelRun) (y : Bool) (a : Nat) : Bool :=
  if y then decide (0x2010 + k.ystate ≤ a) && decide (a < 0x4000 - k.yconst)
  else decide (0x2080 + k.xstate ≤ a) && decide (a < 0x4000 - k.xconst)

/-- Reads a data word: the fault code, 0 for none, and the word.  Guard words read 0; a scratch word the block has not written is a
free value. -/
def Core.load (c : Core) (y : Bool) (a : Nat) : Nat × Word :=
  if c.km = false then (0, memRead 0#32 (if y then c.y else c.x) a)
  else if kernelReads a = false then (1, 0#32)
  else if y = false ∧ 0x2078 ≤ a ∧ a ≤ 0x207F then (0, 0#32)
  else
    match c.run with
    | some k =>
      if k.scratch y a ∧ ¬(if y then c.wroteY else c.wroteX).contains a then
        (0, BitVec.ofNat 32 (Config.freeNat (c.seed + (if y then 16384 else 0) + a)))
      else (0, memRead 0#32 (if y then c.y else c.x) a)
    | none => (0, memRead 0#32 (if y then c.y else c.x) a)

/-- Writes a data word: the fault code and the core. -/
def Core.store (c : Core) (y : Bool) (a : Nat) (w : Word) : Nat × Core :=
  if c.km ∧ kernelWrites y a = false then (2, c)
  else
    let wrote := match c.run with
      | some k => c.km && k.scratch y a
      | none => false
    (0, if y then { c with y := memWrite 0#32 c.y a w, wroteY := if wrote then a :: c.wroteY else c.wroteY }
        else { c with x := memWrite 0#32 c.x a w, wroteX := if wrote then a :: c.wroteX else c.wroteX })

/-! ### Addressing (R469-R472) -/

/-- Least k from `k` on with 2^k at least L. -/
def log2Up (l : Nat) : Nat → Nat → Nat
  | 0, k => k
  | fuel + 1, k => if l ≤ 2 ^ k then k else log2Up l fuel (k + 1)

/-- The k lowest bits in reverse order. -/
def revBits : Nat → Nat → Nat
  | 0, _ => 0
  | k + 1, v => v % 2 * 2 ^ k + revBits k (v / 2)

/-- The step of an update. -/
def updStep (upd : Nat) (m : Word) : Int :=
  match upd with
  | 1 => 1
  | 2 => (m.extractLsb' 0 14).toInt
  | 3 => -1
  | _ => 0

/-- The pointer after an access (R470, R471). -/
def updatePtr (upd : Nat) (p : Ptr) (m : Word) : Ptr :=
  let d := updStep upd m
  let mode := (m.extractLsb' 30 2).toNat
  let len := (m.extractLsb' 16 14).toNat + 1
  if upd = 0 then p
  else if mode = 1 then
    let b := 2 ^ log2Up len 14 0
    BitVec.ofNat 14 (p.toNat - p.toNat % b + ((((p.toNat % b : Nat) : Int) + d) % (len : Int)).toNat)
  else if mode = 2 ∧ upd = 2 then
    let k := Nat.log2 len
    let b := 2 ^ k
    BitVec.ofNat 14 (p.toNat - p.toNat % b + revBits k ((revBits k (p.toNat % b) + revBits k (d % (b : Nat)).toNat) % b))
  else p + BitVec.ofInt 14 d

/-- Pointer and modifier as address generation sees them: just after a MOVE to one of them, its old value (R474). -/
def Core.agPtr (c : Core) (i : Nat) : Ptr :=
  match c.stale with
  | some (false, k, w) => if k = i then w.setWidth 14 else c.ptr i
  | _ => c.ptr i
def Core.agMod (c : Core) (i : Nat) : Word :=
  match c.stale with
  | some (true, k, w) => if k = i then w else c.mod i
  | _ => c.mod i

/-- A pointer after its post-update; one that the instruction before has moved keeps what was moved (notes/assumptions/24.md). -/
def Core.postUpdate (c : Core) (i upd : Nat) : Core :=
  match c.stale with
  | some (false, k, _) => if k = i then c else c.setPtr i (updatePtr upd (c.agPtr i) (c.agMod i))
  | _ => if upd = 0 then c else c.setPtr i (updatePtr upd (c.agPtr i) (c.agMod i))

/-! ### Parallel moves (R474, R488) -/

/-- The load of a move: fault and the word, none when it loads nothing. -/
def Core.moveLoad (c : Core) (y : Bool) (m : PMove) : Nat × Option Word :=
  if m.en ∧ m.st = false then
    let (f, w) := c.load y (c.agPtr (m.ptr.toNat + if y then 4 else 0)).toNat
    (f, some w)
  else (0, none)

/-- The store of a move, of the register as `c0` holds it. -/
def Core.moveStore (c0 c : Core) (y : Bool) (m : PMove) : Nat × Core :=
  if m.en ∧ m.st then c.store y (c0.agPtr (m.ptr.toNat + if y then 4 else 0)).toNat (c0.gReg m.reg.toNat) else (0, c)

/-- The pointer update of a move. -/
def Core.moveUpdate (c : Core) (y : Bool) (m : PMove) : Core :=
  if m.en then c.postUpdate (m.ptr.toNat + if y then 4 else 0) m.upd.toNat else c

/-- The load of a move into its register. -/
def Core.setLoaded (c : Core) (m : PMove) (w : Option Word) : Core :=
  match w with
  | some v => c.setG m.reg.toNat v
  | none => c

/-- Both moves of an instruction: sources are read first, stores before loads, and the Y load wins over the X load. -/
def Core.moves (c : Core) (xm ym : PMove) : Nat × Core :=
  let (fx, wx) := c.moveLoad false xm
  let (fy, wy) := c.moveLoad true ym
  let (sx, c1) := c.moveStore c false xm
  let (sy, c2) := c.moveStore c1 true ym
  let c3 := (c2.moveUpdate false xm).moveUpdate true ym
  ([fx, sx, fy, sy].find? (· != 0) |>.getD 0, (c3.setLoaded xm wx).setLoaded ym wy)

/-! ### Execution (R473-R476) -/

/-- What an instruction does: the core after its effect, a fault code, the pointer or modifier value that stays in use for one more
instruction, a branch (target after its delay slots), an immediate jump, a repetition, whether the block ends, and how many free values
it drew. -/
structure ThymeEffect where
  core : Core
  fault : Nat := 0
  stale : Option (Bool × Nat × Word) := none
  branch : Option Ptr := none
  jump : Option Ptr := none
  rep : Option Nat := none
  ends : Bool := false
  draws : Nat := 0
  deriving DecidableEq, Repr

/-- Where execution goes after an instruction, with delay slots and repetitions. -/
def ThymeEffect.advance (e : ThymeEffect) (before : Core) : Core :=
  let c := { e.core with stale := e.stale }
  match e.jump with
  | some t => { c with pc := t, delay := none, rep := none }
  | none =>
    match e.branch with
    | some t => { c with pc := before.pc + 1, delay := some (2, t), rep := none }
    | none =>
      match e.rep with
      | some 0 => { c with pc := before.pc + 2, rep := none }
      | some n => { c with pc := before.pc + 1, rep := some n }
      | none =>
        match before.rep with
        | some (n + 2) => { c with rep := some (n + 1) }
        | _ =>
          match before.delay with
          | some (n + 2, t) => { c with pc := before.pc + 1, delay := some (n + 1, t), rep := none }
          | some (_, t) => { c with pc := t, delay := none, rep := none }
          | none => { c with pc := before.pc + 1, rep := none }

/-- Charged cycles of a kernel go on in CYC. -/
def Core.charge (c : Core) (before : Core) (cost : Nat) : Core :=
  { c with cyc := if before.km then before.cyc + BitVec.ofNat 32 cost else c.cyc, waits := c.waits.map (· + cost) }

/-- Is the boundary before the next instruction clean (R478)? -/
def Core.clean (c : Core) : Bool := c.delay.isNone && c.rep.isNone && c.stale.isNone

/-- May the instruction be the next of the core? A kernel executes what its program memory holds at PC; of firmware the manual gives no
code (notes/assumptions/25.md). -/
def Core.fetches (c : Core) (core : Nat) (i : Instr) : Bool :=
  if c.km ∧ c.run.isSome then decide (decodeThyme core (memRead 0#32 c.pm c.pc.toNat) = some i) else true

/-- An accumulator operation with its two moves (R486, R487): the exact result is saturated once; AOV is sticky. -/
def Core.accOp (c : Core) (ad : BitVec 2) (v : Int) (xm ym : PMove) : ThymeEffect :=
  let (a, sat) := accSat v
  let (f, c1) := c.moves xm ym
  { core := { (c1.setAcc ad.toNat a) with sr := if sat then setBit c1.sr 4 true else c1.sr }, fault := f }

/-- The second operand of an ALU instruction. -/
def Core.aluSrc (c : Core) : AluSrc → Word
  | .reg gs2 => c.gReg gs2.toNat
  | .imm v => v.signExtend 32

/-- An ALU instruction that writes GD (R489). -/
def Core.aluOp (c : Core) (gd gs1 : BitVec 4) (b : AluSrc) (f : Word → Word → Word × Bool × Bool) : ThymeEffect :=
  let (r, cy, v) := f (c.gReg gs1.toNat) (c.aluSrc b)
  let c1 := c.setG gd.toNat r
  { core := { c1 with sr := srAlu c1.sr r cy v } }

/-- An STA that may saturate (R490). -/
def Core.staOp (c : Core) (gd : BitVec 4) (r : Word × Bool) : ThymeEffect :=
  let c1 := c.setG gd.toNat r.1
  { core := { c1 with sr := if r.2 then setBit c1.sr 5 true else c1.sr } }

/-- The value a MOVE reads (R490). -/
def Core.moveRead (c : Core) : MoveReg → Word
  | .g i => c.gReg i.toNat
  | .p i => (c.ptr i.toNat).setWidth 32
  | .m i => c.mod i.toNat
  | .al i => (c.acc i.toNat).setWidth 32
  | .ag i => ((c.acc i.toNat).extractLsb' 32 8).signExtend 32
  | .sr => c.sr
  | .ira => c.ira.setWidth 32
  | .isr => c.isr
  | .imask => c.imask.setWidth 32
  | .ipend => c.ipend.setWidth 32
  | .cyc => c.cyc
  | .budget => c.budget
  | .sp => BitVec.ofNat 32 c.stack.length

/-- The core after a MOVE writes a register; none where the encoding is reserved. -/
def Core.moveWrite (c : Core) (w : Word) : MoveReg → Option Core
  | .g i => some (c.setG i.toNat w)
  | .p i => some (c.setPtr i.toNat (w.setWidth 14))
  | .m i => some (c.setMod i.toNat w)
  | .al i => some (c.setAcc i.toNat (w.signExtend 40))
  | .ag i => some (c.setAcc i.toNat ((w.setWidth 8) ++ (c.acc i.toNat).extractLsb' 0 32))
  | .sr => some { c with sr := srMoved c.sr w }
  | .ira => some { c with ira := w.setWidth 14 }
  | .isr => some { c with isr := w }
  | .imask => some { c with imask := w.setWidth 3 }
  | _ => none

/-- The old value of a pointer or modifier that a MOVE writes. -/
def Core.staleOf (c : Core) : MoveReg → Option (Bool × Nat × Word)
  | .p i => some (false, i.toNat, (c.ptr i.toNat).setWidth 32)
  | .m i => some (true, i.toNat, c.mod i.toNat)
  | _ => none

/-- Pushes the return address: fault code and core. A kernel may push 6; firmware pushes on a full stack of 8 with an outcome the manual
does not give, free values (R481, R496). -/
def Core.push (c : Core) (fr : Nat → Nat) : Nat × Core :=
  if c.km ∧ 6 ≤ c.stack.length then (4, c)
  else if 8 ≤ c.stack.length then (0, { c with stack := (List.range 8).map (fun k => BitVec.ofNat 14 (fr k)) })
  else (0, { c with stack := (c.pc + 3) :: c.stack })

/-- A branch taken or not: either way execution goes on after the delay slots. -/
def Core.branchTo (c : Core) (taken : Bool) (t : Ptr) : Ptr := if taken then t else c.pc + 3

end Sys2Proof.Machine
end

