-- ==== Sys2Proof/Machine/Kernels.lean ====
section
/-! DEFINITION. Kernels on the thyme cores (11): images and their checks, KERNEL_LOAD and KERNEL_UNLOAD, the block of a kernel from entry
to end, overrun or fault, and the interrupts of a core. -/
namespace Sys2Proof.Machine

/-! ### Image checks (R477, R499-R501) -/

/-- A branch-class instruction with delay slots. -/
def delayed : Instr → Bool
  | .thBra _ _ _ => true
  | .thCall _ _ _ => true
  | .thJmp _ _ => true
  | .thCallg _ _ => true
  | .thRet _ => true
  | _ => false

/-- A branch-class instruction (R475). -/
def branchClass (i : Instr) : Bool := delayed i || (match i with
  | .thReti _ => true
  | _ => false)

def isRep : Instr → Bool
  | .thRep _ _ => true
  | _ => false
def isEnd : Instr → Bool
  | .thEnd _ => true
  | _ => false
def isEiDi : Instr → Bool
  | .thEi _ => true
  | .thDi _ => true
  | _ => false

/-- A MOVE to Pn or Mn. -/
def movesPointer : Instr → Bool
  | .thMove _ (.p _) _ => true
  | .thMove _ (.m _) _ => true
  | _ => false

/-- Is a register one that a kernel may not name (reason 0x07)? -/
def firmwareReg : MoveReg → Bool
  | .ira => true
  | .isr => true
  | .imask => true
  | _ => false

/-- Instructions that a kernel may not hold (reason 0x07). -/
def firmwareOnly : Instr → Bool
  | .thEi _ => true
  | .thDi _ => true
  | .thReti _ => true
  | .thMove _ d s => firmwareReg d || firmwareReg s
  | _ => false

/-- Target of a BRA, CALL or LDI form 2 at an index, relative to the image and modulo 2^14. -/
def relTarget (idx : Nat) : Instr → Option Nat
  | .thBra _ _ d => some (((idx : Int) + d.toInt) % 16384).toNat
  | .thCall _ _ d => some (((idx : Int) + d.toInt) % 16384).toNat
  | .thLdiRelative _ _ d => some (((idx : Int) + d.toInt) % 16384).toNat
  | _ => none

/-- Does an instruction break a placement rule, given the two before it (R477)? -/
def misplaced (before2 before1 : Option Instr) (i : Instr) : Bool :=
  let inSlot := before1.any delayed || before2.any delayed
  (inSlot && (branchClass i || isRep i || isEnd i || movesPointer i)) ||
    (before1.any isRep && (branchClass i || isRep i || isEnd i || isEiDi i || movesPointer i)) ||
    (before1.any movesPointer && (movesPointer i || isRep i || branchClass i))

/-- The first misplaced instruction from an index on. -/
def firstMisplaced : Option Instr → Option Instr → Nat → List Instr → Option Nat
  | _, _, _, [] => none
  | b2, b1, n, i :: rest => if misplaced b2 b1 i then some n else firstMisplaced b1 (some i) (n + 1) rest

/-- An unconditional BRA or a JMP. -/
def leaves : Instr → Bool
  | .thBra _ .al _ => true
  | .thJmp _ _ => true
  | _ => false

/-- Can the last instruction fall through? -/
def fallsThrough (l : List Instr) : Bool :=
  !(l.getLast?.any isEnd || (decide (3 ≤ l.length) && (l[l.length - 3]?).any leaves))

/-- The offending reason and index of a code, if any (reasons 0x06-0x09). -/
def codeReason (words : List Word) : Option (Nat × Nat) :=
  let decoded := words.map (decodeThyme 0)
  match decoded.findIdx? (fun i => i.isNone) with
  | some n => some (6, n)
  | none =>
    let l := decoded.filterMap id
    match l.findIdx? firmwareOnly with
    | some n => some (7, n)
    | none =>
      match l.zipIdx.find? (fun (i, n) => (relTarget n i).any (fun t => decide (words.length ≤ t))) with
      | some (_, n) => some (8, n)
      | none =>
        match firstMisplaced none none 0 l with
        | some n => some (9, n)
        | none => if fallsThrough l then some (9, l.length - 1) else none

/-- Words of an image at a byte offset. -/
def imageWords (b : Bytes) (off n : Nat) : List Word := (List.range n).map (fun k => BitVec.ofNat 32 (le b (off + 4 * k) 4))

/-- The kernel of an image, or the RESULT of the first failing check (R499, R501). -/
def readImage (owner len : Nat) (b : Bytes) : Except Nat Kernel :=
  let code := le b 8 4
  let entry := le b 12 4
  let xs := le b 16 2
  let xc := le b 18 2
  let ys := le b 20 2
  let yc := le b 22 2
  if le b 0 4 ≠ 0x4D594854 ∨ le b 4 2 ≠ 1 ∨ zeroIn b 6 8 = false ∨ zeroIn b 28 32 = false ∨ zeroIn b 40 64 = false then .error 2
  else if len ≠ 64 + 4 * (code + xc + yc) then .error 3
  else if crc32c (splice b 24 (zeros 4)) ≠ le b 24 4 then .error 4
  else if code = 0 ∨ 8192 < code ∨ code ≤ entry ∨ 8064 < xs + xc ∨ 8176 < ys + yc then .error 5
  else
    let words := imageWords b 64 code
    match codeReason words with
    | some (r, n) => .error (r + n * 65536)
    | none => .ok {
        owner, base := 0, code := words, entry, xstate := xs, xconst := imageWords b (64 + 4 * code) xc, ystate := ys
        yconst := imageWords b (64 + 4 * (code + xc)) yc, buildId := le b 32 8, loadTick := 0 }

/-! ### The kernel code area (R502-R504) -/

/-- Code in the area: base and words, of loaded kernels and of those that wait for their blocks. -/
def Thyme.areas (t : Thyme) : List (Nat × Nat) :=
  t.kernels.map (fun kv => (kv.2.base, kv.2.code.length)) ++ t.old.map (fun k => (k.2.base, k.2.code.length))

/-- Words in use. -/
def Thyme.used (t : Thyme) : Nat := (t.areas.map (·.2)).sum

/-- The lowest base at which n words fit (notes/assumptions/26.md). -/
def Thyme.place (t : Thyme) (n : Nat) : Option Nat :=
  let starts := 0x2000 :: t.areas.map (fun a => a.1 + a.2)
  let ok (b : Nat) : Bool := decide (b + n ≤ 0x4000) && t.areas.all (fun a => decide (b + n ≤ a.1) || decide (a.1 + a.2 ≤ b))
  (starts.filter ok).foldl (fun (m : Option Nat) b => some (match m with
    | none => b
    | some x => min x b)) none

/-- Does an operation still need the code at a base? -/
def State.codeNeeded (s : State) (base : Nat) : Bool :=
  (s.media.ops ++ s.media.noSlot).any (fun o => match o.kind with
    | .kernel _ b _ _ => b == base
    | _ => false)

/-- Frees old code whose blocks have ended. -/
def State.freeOld (s : State) : State :=
  s.modThyme (fun t => { t with old := t.old.filter (fun k => s.codeNeeded k.2.base) })

/-- Insert points that run a kernel. -/
def State.runsKernel (s : State) (id inst : Nat) : Bool :=
  if inst % 2 = 0 then ((look s.objs.streams (inst / 2)).bind (fun x => s.mixOf x.room)).any (fun m => m.inKernel == id)
  else (s.mixOf (inst / 4096)).any (fun m => m.outKernel == id)

/-- A kernel leaves its identifier: instances begin anew, and its code waits for the blocks that became ready earlier. -/
def State.retireKernel (s : State) (id : Nat) : State :=
  match look s.thyme.kernels id with
  | none => s
  | some k =>
    (s.modThyme (fun t => { t with
      kernels := del t.kernels id, old := t.old ++ [(id, k)], instances := t.instances.filter (fun kv => !s.runsKernel id kv.1) })).freeOld

/-- Thyme cores in service. -/
def State.coresIn (s : State) : List Nat := (List.range 64).filter (fun n => bit (s.ydStatus (n / 8)) (6 + n % 8))

/-- KERNEL_LOAD at its effect tick (R500-R503). -/
def applyKernelLoad (p : Nat) (d : Desc) (image : Bytes) (s : State) : Out :=
  let id := dfld d 24 1
  if id = 0 ∨ dfld d 16 8 % 64 ≠ 0 then failOut s stBadParam 1
  else
    match readImage p d.length image with
    | .error e => failOut s stBadParam e
    | .ok k =>
      match look s.thyme.kernels id with
      | some old =>
        if old.owner ≠ p then failOut s stNotOwner
        else
          (match s.thyme.place k.code.length with
           | none => failOut s stNoCapacity
           | some base =>
             let s := s.retireKernel id
             let s := s.modThyme (fun t => { t with
               kernels := put t.kernels id { k with base, loadTick := s.tick }
               cores := s.coresIn.foldl (fun c n => adjD c n {} (fun x => { x with pm := memWriteAll 0#32 x.pm base k.code })) t.cores })
             okOut s (base + k.code.length * 65536))
      | none =>
        if 32 ≤ s.thyme.kernels.length then failOut s stNoCapacity
        else
          match s.thyme.place k.code.length with
          | none => failOut s stNoCapacity
          | some base =>
            let s := s.modThyme (fun t => { t with
              kernels := put t.kernels id { k with base, loadTick := s.tick }
              cores := s.coresIn.foldl (fun c n => adjD c n {} (fun x => { x with pm := memWriteAll 0#32 x.pm base k.code })) t.cores })
            okOut s (base + k.code.length * 65536)

/-- KERNEL_UNLOAD at its effect tick. -/
def applyKernelUnload (p : Nat) (d : Desc) (s : State) : Out :=
  let id := dfld d 24 1
  if id = 0 ∨ dfld d 16 8 % 64 ≠ 0 then failOut s stBadParam 1
  else
    match look s.thyme.kernels id with
    | none => failOut s stBadParam 0x0A
    | some k => if k.owner ≠ p then failOut s stNotOwner else okOut (s.retireKernel id)

/-! ### The block of a kernel (R492-R498) -/

/-- The kernel whose code stands at a base. -/
def Thyme.kernelAt (t : Thyme) (base : Nat) : Option (Nat × Kernel) := (t.kernels ++ t.old).find? (fun k => k.2.base == base)

/-- Room of an insert point. -/
def State.instRoom (s : State) (inst : Nat) : Nat :=
  if inst % 2 = 0 then ((look s.objs.streams (inst / 2)).map (·.room)).getD 0 else inst / 4096

/-- Block information words (R492). -/
def State.blockInfo (s : State) (k : KernelRun) (block budget : Nat) (i : Instance) : List Word :=
  let point := k.inst % 2
  let obj := if point = 0 then s.streamH (k.inst / 2) else s.roomH (k.inst / 4096)
  [point + k.id * 256, obj, if point = 0 then 0 else k.inst / 2 % 2048, b2n i.fresh + 2 * b2n i.overrunPrev + 4 * b2n i.faultPrev, block,
    block / 2 ^ 32, budget, 0].map (BitVec.ofNat 32)

/-- Entries of a memory below a limit. -/
def below (n : Nat) (m : List (Nat × Word)) : List (Nat × Word) := m.filter (fun kv => decide (kv.1 < n))

/-- A kernel block starts on a core with the state of R492. -/
def State.enterKernel (s : State) (core : Nat) (o : Op) (id : Nat) (k : Kernel) (inst block : Nat) : State :=
  let c := s.core core
  let i := lookD s.thyme.instances inst {}
  let run : KernelRun := {
    op := o.id, id, base := k.base, words := k.code.length, inst, xstate := k.xstate, xconst := k.xconst.length, ystate := k.ystate
    yconst := k.yconst.length }
  let samples := lookD s.thyme.blocks inst []
  let m := s.mixOf (s.instRoom inst)
  let param := padTo 32 ((m.map (fun m => if inst % 2 = 0 then m.inParam else m.outParam)).getD [])
  let x := memWriteAll 0#32 (below 0x2000 c.x) 0x2000 (samples.take 120)
  let x := if i.fresh then x else memWriteAll 0#32 x 0x2080 i.xstate
  let x := memWriteAll 0#32 x (0x4000 - k.xconst.length) k.xconst
  let y := memWriteAll 0#32 (below 0x2000 c.y) 0x2000 (imageWords param 0 8)
  let y := memWriteAll 0#32 y 0x2008 (s.blockInfo run block o.budget i)
  let y := if i.fresh then y else memWriteAll 0#32 y 0x2010 i.ystate
  let y := memWriteAll 0#32 y (0x4000 - k.yconst.length) k.yconst
  let main : Bank := { p := [(0, 0x2000), (1, 0x2000), (2, 0x2080), (3, 0x2080), (4, 0x2000), (5, 0x2008), (6, 0x2010), (7, 0x2010)] }
  let n : Core := { c with
    main, m := [], sr := 0x500#32, cyc := 0#32, budget := BitVec.ofNat 32 o.budget, stack := [], pc := BitVec.ofNat 14 (k.base + k.entry)
    delay := none, rep := none, stale := none, imask := c.imask ||| 1#3, x, y, run := some run
    entry := (samples ++ List.replicate 120 0#32).take 120, seed := s.free, wroteX := [], wroteY := [] }
  { s.setCore core n with free := s.free + 32768 }

/-- A pre-empted kernel block goes on, on this core (R484). -/
def State.resumeKernel (s : State) (core : Nat) (o : Op) (w : Core) : State :=
  let c := s.core core
  let hi (m : List (Nat × Word)) : List (Nat × Word) := m.filter (fun kv => decide (0x2000 ≤ kv.1))
  let n : Core := { c with
    main := w.main, m := w.m, sr := w.sr, cyc := w.cyc, budget := w.budget, stack := w.stack, pc := w.pc, delay := none, rep := none
    stale := none, imask := c.imask ||| 1#3, x := below 0x2000 c.x ++ hi w.x, y := below 0x2000 c.y ++ hi w.y, run := w.run
    entry := w.entry, seed := w.seed, wroteX := w.wroteX, wroteY := w.wroteY }
  (s.setCore core n).modThyme (fun t => { t with saved := del t.saved o.id })

/-- A kernel operation is dispatched to a core. -/
def State.startKernel (s : State) (core : Nat) (o : Op) (base inst block : Nat) : State :=
  match look s.thyme.saved o.id with
  | some w => s.resumeKernel core o w
  | none =>
    match s.thyme.kernelAt base with
    | some (id, k) => s.enterKernel core o id k inst block
    | none => s

/-- Registers of a kernel that firmware takes over are discarded: their values are free. -/
def discarded (f : Nat) : Bank :=
  { g := (List.range 16).foldl (fun t i => memWrite 0#32 t i (BitVec.ofNat 32 (Config.freeNat (f + i)))) []
    a := (List.range 4).foldl (fun t i => memWrite 0#40 t i (BitVec.ofNat 40 (Config.freeNat (f + 16 + i)))) []
    p := (List.range 8).foldl (fun t i => memWrite 0#14 t i (BitVec.ofNat 14 (Config.freeNat (f + 20 + i)))) [] }

/-- How a block ends: by END, by its budget, or by a fault code. -/
inductive KernelEnd where
  | done | overrun
  | fault (code : Nat)
  deriving DecidableEq, Repr

/-- The core after the block: firmware goes on, after an END at an address the manual does not give. -/
def State.leaveKernel (s : State) (core : Nat) (how : KernelEnd) : State :=
  let c := s.core core
  let c1 := { c with sr := setBit c.sr 10 false, run := none, entry := [], wroteX := [], wroteY := [], delay := none, rep := none, stale := none }
  let n : Core := match how with
    | .done => { c1 with pc := BitVec.ofNat 14 (Config.freeNat s.free) }
    | _ => { c1 with
        main := discarded (s.free + 1), stack := []
        m := (List.range 8).foldl (fun t i => memWrite 0#32 t i (BitVec.ofNat 32 (Config.freeNat (s.free + 29 + i)) &&& ~~~0xC000#32)) []
        pc := 0x18#14 }
  { s.setCore core n with free := s.free + 40 }

/-- The instance after a block (R494-R496). -/
def Instance.after (i : Instance) (c : Core) (k : KernelRun) (how : KernelEnd) : Instance :=
  match how with
  | .done => { xstate := memReadAll 0#32 c.x 0x2080 k.xstate, ystate := memReadAll 0#32 c.y 0x2010 k.ystate, fresh := false }
  | .overrun =>
    { xstate := if i.fresh then [] else i.xstate, ystate := if i.fresh then [] else i.ystate, fresh := false, overrunPrev := true }
  | .fault _ =>
    { xstate := if i.fresh then [] else i.xstate, ystate := if i.fresh then [] else i.ystate, fresh := false, faultPrev := true }

/-- Counters of a kernel after a block. -/
def Kernel.count (k : Kernel) (cycles tick : Nat) (how : KernelEnd) : Kernel :=
  let k := { k with blocks := k.blocks + 1, cycles := k.cycles + cycles }
  match how with
  | .done => { k with maxima := (tick, cycles) :: k.maxima.filter (fun m => decide (tick < m.1 + 400)) }
  | .overrun => { k with overruns := k.overruns + 1 }
  | .fault _ => { k with faults := k.faults + 1 }

/-- TH_KERNEL_FAULT: for the first fault of a kernel, then at most once per 400 ticks (R496). -/
def State.faultEvent (s : State) (core : Nat) (k : KernelRun) (code pc : Nat) : State :=
  let note (q : Kernel) : Kernel := { q with faultTick := some s.tick }
  let say (q : Kernel) (s : State) : State :=
    s.event (yardSrc (core / 8) 20) (k.id + core * 2 ^ 8 + code * 2 ^ 16 + ((pc + 16384 - k.base) % 8192) * 2 ^ 32) q.owner
  let said (q : Kernel) : Bool := q.faultTick.any (fun t => decide (s.tick < t + 400))
  match look s.thyme.kernels k.id, s.thyme.old.find? (fun q => q.1 == k.id) with
  | some q, _ => if said q then s else say q (s.modThyme (fun t => { t with kernels := adj t.kernels k.id note }))
  | none, some (_, q) =>
    if said q then s
    else say q (s.modThyme (fun t => { t with old := t.old.map (fun (i, x) => (i, if i = k.id then note x else x)) }))
  | none, none => s

/-- A kernel block ends on a core. -/
def State.endKernel (s : State) (core : Nat) (how : KernelEnd) : State :=
  let c := s.core core
  match c.run with
  | none => s
  | some k =>
    match s.opAt k.op with
    | none => s.leaveKernel core how
    | some o =>
      let block := match o.kind with
        | .kernel _ _ _ b => b
        | _ => 0
      let cycles := c.cyc.toNat
      let out := match how with
        | .done => (memReadAll 0#32 c.x 0x2000 120).map (fun w => w &&& ~~~0xFF#32)
        | _ => c.entry
      let inst := (lookD s.thyme.instances k.inst {}).after c k how
      let s := s.modThyme (fun t => { t with
        instances := put t.instances k.inst inst, blocks := put t.blocks k.inst out
        kernels := match look t.kernels k.id with
          | some q => if q.base = k.base then put t.kernels k.id (q.count cycles s.tick how) else t.kernels
          | none => t.kernels })
      let s := ((s.bump (thCtr core 0)).addCnt (thCtr core 8) cycles).addCnt (thCtr core 48) cycles
      let s := match how with
        | .done => s
        | .overrun => (s.bump (thCtr core 16)).bump (ostCtr (core / 8) 1 16)
        | .fault code => (s.bump (thCtr core 24)).faultEvent core k code c.pc.toNat
      (((s.leaveKernel core how).endOp { o with charged := 0 } cycles).underOp o (fun s => s.afterInsert k.inst block)).freeOld

/-! ### Interrupts (R478-R484) -/

/-- The waiting source of highest priority that the mask lets through. -/
def Core.takes (c : Core) : Option Nat := [0, 1, 2].find? (fun i => c.ipend.getLsbD i && c.imask.getLsbD i)

/-- Takes an interrupt at a clean boundary (R480). -/
def Core.interrupt (c : Core) (src tick : Nat) : Core :=
  let p := c.ipend &&& ~~~(1#3 <<< src)
  { c with
    ira := c.pc, isr := c.sr, sr := setBit (setBit (setBit c.sr 9 true) 8 false) 10 false, ipend := p, pc := BitVec.ofNat 14 (8 * src)
    waits := if p = 0#3 then none else some 0
    holdoffs := (tick, c.waits.getD 0 + 6) :: c.holdoffs.filter (fun h => decide (tick < h.1 + 400)) }

/-- The kernel or firmware operation that a core runs is given up to the Ostler when it is marked (R42, R484). -/
def State.yieldCore (s : State) (core : Nat) : State :=
  match s.media.ops.find? (fun o => o.cls == 1 && o.yard == core / 8 && o.unit == some (core % 8) && o.marked) with
  | none => s
  | some o =>
    match o.kind with
    | .kernel _ _ _ _ =>
      let c := s.core core
      ((((s.modThyme (fun t => { t with saved := put t.saved o.id c })).setCore core { c with run := none }).bump (thCtr core 32)).bump (ostCtr o.yard 1 8)).modOp o.id
        (fun x => { x with unit := none, marked := false })
    | _ => s.yieldOp o (thCtr core 48)

/-- At a clean boundary with interrupts enabled the core enters the handler of the pending source of highest priority that the mask lets
through; for DISPATCH a marked operation is given up (R479, R480, R484). -/
def takeInterrupt (core : Nat) (s : State) : State :=
  let c := s.core core
  if c.clean = false ∨ srIE c.sr = false then s
  else
    match c.takes with
    | none => s
    | some k =>
      let s := if k = 0 then s.yieldCore core else s
      s.setCore core ((s.core core).interrupt k s.tick)

/-- INTERRUPT_ENTRY: a source is raised, and the core enters a handler as soon as it may (R479, R480, R483). -/
def interruptEntry (core src : Nat) (s : State) : State :=
  if 64 ≤ core ∨ 3 ≤ src then s
  else
    let c := s.core core
    let c := { c with ipend := c.ipend ||| (1#3 <<< src), waits := some (c.waits.getD 0) }
    let s := s.setCore core c
    if src = 0 ∧ (c.clean = false ∨ srIE c.sr = false) ∧ (c.km && c.run.isSome) = false then s.yieldCore core
    else takeInterrupt core s

/-! ### One instruction -/

/-- An instruction on a core: its effect, its cycles, the end of the kernel block by END, budget, fault or a PC outside the kernel's
code, and then an interrupt that waits (R473-R476, R479, R493-R496). -/
def thymeRun (core : Nat) (i : Instr) (cost : Nat) (f : (Nat → Nat) → Core → ThymeEffect) (s : State) : State :=
  let c := s.core core
  if 64 ≤ core ∨ c.fetches core i = false then s
  else
    let e := f (fun k => Config.freeNat (s.free + k)) c
    let n := (e.advance c).charge c cost
    let s := { s.setCore core n with free := s.free + e.draws }
    takeInterrupt core
      (match c.km, c.run with
       | true, some k =>
         if e.fault ≠ 0 then (s.setCore core { n with pc := c.pc }).endKernel core (.fault e.fault)
         else if e.ends ∧ n.cyc.toNat ≤ n.budget.toNat then s.endKernel core .done
         else if n.budget.toNat ≤ n.cyc.toNat then s.endKernel core .overrun
         else if n.pc.toNat < k.base ∨ k.base + k.words ≤ n.pc.toNat then s.endKernel core (.fault 3)
         else s
       | _, _ => s)

/-! ### The commands of this file -/

/-- The fetch of a KERNEL_LOAD: UNLOAD is 0, and the bridge reads the image (R501). -/
def fetchKernelLoad (p r : Nat) (d : Desc) (s : State) : State :=
  let d := { d with body := splice (padTo 48 d.body) 9 (leBytes 1 (dfld d 25 1 / 2 * 2)) }
  fetchDesc 0x14 p r d (fun seq s => (s.await p r 0x14 seq d none).startDma p r seq .command) s

/-- The fetch of a KERNEL_UNLOAD: UNLOAD is 1, no image is read. -/
def fetchKernelUnload (p r : Nat) (d : Desc) (s : State) : State :=
  fetchTick 0x14 p r { d with body := splice (padTo 48 d.body) 9 (leBytes 1 (dfld d 25 1 / 2 * 2 + 1)) } s

/-- KERNEL_LOAD (R501). -/
def execKernelLoad (t p r : Nat) (d : Desc) (s : State) : Host.Outcome State Fault Refusal := .next (fetchKernelLoad p r d (s.at t))

/-- KERNEL_UNLOAD (R503). -/
def execKernelUnload (t p r : Nat) (d : Desc) (s : State) : Host.Outcome State Fault Refusal := .next (fetchKernelUnload p r d (s.at t))

/-- INTERRUPT_ENTRY (R480). -/
def execInterruptEntry (core src : Nat) (s : State) : Host.Outcome State Fault Refusal := .next (interruptEntry core src s)

end Sys2Proof.Machine
end

