-- ==== Sys2Proof/Machine/Dispatching.lean ====
section
/-! DEFINITION. The Ostler at work (01 R41-R48): which operation a unit takes, which running operation gives way, how a stall yields, and
how the watchdog ends an operation. -/
namespace Sys2Proof.Machine

/-- Does an operation come before another: priority, then ready time, then number (R41)? -/
def Op.ahead (a b : Op) : Bool :=
  decide (b.prio < a.prio) || (a.prio == b.prio && (decide (a.readyAt < b.readyAt) || (a.readyAt == b.readyAt && decide (a.id < b.id))))

/-- Inserts an operation in its place in a ready list. -/
def readyInsert (o : Op) : List Op → List Op
  | [] => [o]
  | x :: rest => if o.ahead x then o :: x :: rest else x :: readyInsert o rest

/-- The ready list of a class of a yard: no operation that still waits for an input stands in it (R37). -/
def State.readyList (s : State) (y cls : Nat) : List Op :=
  (s.media.ops.filter (fun o => o.yard == y && o.cls == cls && o.unit.isNone && !s.media.blocked o)).foldl (fun l o => readyInsert o l) []

/-- The running operations of a class of a yard. -/
def State.runningOps (s : State) (y cls : Nat) : List Op :=
  s.media.ops.filter (fun o => o.yard == y && o.cls == cls && o.unit.isSome)

/-- Does a running operation give way before another: lower priority, then the later start (R42)? -/
def Op.yieldsBefore (a b : Op) : Bool :=
  decide (a.prio < b.prio) || (a.prio == b.prio && (decide (b.startAt < a.startAt) || (a.startAt == b.startAt && decide (b.id < a.id))))

/-- The running operation that an operation of a priority pre-empts, if any (R42, R43). -/
def victim (running : List Op) (prio : Nat) : Option Op :=
  (running.filter (fun o => !o.marked && decide (o.prio < prio))).foldl (fun (m : Option Op) o => match m with
    | none => some o
    | some b => if o.yieldsBefore b then some o else some b) none

/-- An operation starts on a unit of its yard. -/
def State.dispatch (s : State) (o : Op) (u : Nat) : State :=
  let s := s.modOp o.id (fun x => { x with unit := some u, startAt := s.now, startClk := s.clkRead, dispatched := true })
  let s := if o.dispatched then s else s.bump (ostCtr o.yard o.cls 0)
  match o.kind with
  | .decode k n share again =>
    if share = 0 ∧ again = false ∧ o.dispatched = false then s.modPic k n (fun p => { p with stall := 6 * o.yard + u }) else s
  | .mix room block => s.underOp o (fun s => s.mixDecide o.id room block)
  | .kernel _ base inst block => s.startKernel (8 * o.yard + u) o base inst block
  | _ => s

/-- An operation is marked for pre-emption; on a thyme core that raises DISPATCH (11 R479). -/
def State.mark (s : State) (o : Op) : State :=
  let s := s.modOp o.id (fun x => { x with marked := true })
  if o.cls = 1 then
    let core := 8 * o.yard + o.unit.getD 0
    let c := s.core core
    s.setCore core { c with ipend := c.ipend ||| 1#3, waits := some (c.waits.getD 0) }
  else s

/-- OPERATION_DISPATCH: the first ready operation takes the lowest idle unit (notes/assumptions/13.md); without an idle unit the first
one that no marked operation makes room for pre-empts one of lower priority.  A dip hold stops both (14 R592). -/
def operationDispatch (y cls : Nat) (s : State) : State :=
  if 8 ≤ y ∨ 4 ≤ cls ∨ s.power.hold.isSome ∨ s.mediaOn = false then s
  else
    let ready := s.readyList y cls
    let running := s.runningOps y cls
    match (s.unitsOf y cls).find? (fun u => !running.any (fun o => o.unit == some u)) with
    | some u =>
      (match ready with
       | o :: _ => s.dispatch o u
       | [] => s)
    | none =>
      if 2 ≤ cls then s
      else
        match ready.drop (running.filter (·.marked)).length with
        | o :: _ =>
          (match victim running o.prio with
           | some v => s.mark v
           | none => s)
        | [] => s

/-- STALL_YIELD: the marked operation of a stall has reached a row boundary, and its context is saved. -/
def stallYield (stall moved : Nat) (s : State) : State :=
  match s.media.ops.find? (fun o => o.cls == 0 && o.yard == stall / 6 && o.unit == some (stall % 6) && o.marked) with
  | none => s
  | some o =>
    match o.kind with
    | .encode _ _ _ => (s.bump (enCtr stall 72)).yieldOp o (enCtr stall 64) moved
    | _ => (s.bump (stCtr stall 152)).yieldOp o (stCtr stall 144) moved

/-- An operation is ended as one whose budget has run out (R47). -/
def State.overrunOp (s : State) (o : Op) (made : Recon) : State :=
  s.underOp o (fun s =>
    let ended := (s.bump (ostCtr o.yard o.cls 16)).endOp o o.budget
    match o.kind with
    | .decode k n _ again => ended.decodeOverrun o k n again made
    | .encode room r n => ended.encodeOverrun o room r n
    | .codec i block kind => ended.codecOverrun o i block kind
    | _ => s)

/-- WATCHDOG_OVERRUN: a running decode, encode or codec operation has reached its budget.  The block of a kernel ends so within
`thymeRun`; compose and mix operations complete within their budgets (R45). -/
def watchdogOverrun (id : Nat) (made : Recon) (s : State) : State :=
  match s.runningOp id with
  | none => s
  | some o => if o.charged + s.cyclesOf o < o.budget then s else s.overrunOp o made

/-- OPERATION_DISPATCH (01 R41). -/
def execOperationDispatch (t yard cls : Nat) (s : State) : Host.Outcome State Fault Refusal := .next (operationDispatch yard cls (s.at t))

/-- STALL_YIELD (01 R44). -/
def execStallYield (t : Nat) (x : StallAt) (s : State) : Host.Outcome State Fault Refusal := .next (stallYield x.stall x.moved (s.at t))

/-- WATCHDOG_OVERRUN (01 R47). -/
def execWatchdogOverrun (t : Nat) (x : Overrun) (s : State) : Host.Outcome State Fault Refusal := .next (watchdogOverrun x.op x.made (s.at t))

end Sys2Proof.Machine
end

