-- ==== Sys2Proof/Machine/Validate.lean ====
section
/-! DEFINITION. Validation of a tack (03 R136): the header, the directory, and the rules each chapter gives for its section, in
the order the chapter states.  A check answers the detail of R136 [31:16] when it fails. -/
namespace Sys2Proof.Machine

/-- The first failing check of a list. -/
def firstBad (l : List (Bool × Nat)) : Option Nat := (l.find? (·.1)).map (·.2)

/-- One check for each reserved byte from `lo` up to but not including `hi`, its offset the detail. -/
def resBytes (b : Bytes) (lo hi : Nat) : List (Bool × Nat) := (List.range (hi - lo)).map (fun i => (byteAt b (lo + i) != 0, lo + i))

/-- A row of a table of checks applied to n records: the lowest record that breaks it. -/
def row (n : Nat) (bad : Nat → Bool) (detail : Nat → Nat) : Option Nat := ((List.range n).find? bad).map detail

/-- Is a value outside a range? -/
def outside (v lo hi : Nat) : Bool := decide (v < lo ∨ hi < v)

/-- A signed value outside a range. -/
def outsideI (v lo hi : Int) : Bool := decide (v < lo ∨ hi < v)

/-- Bits of a byte that a mask names. -/
def mbits (b : Bytes) (off mask : Nat) : Bool := byteAt b off &&& mask != 0

/-- Kind 0x01 (03 R152). -/
def checkLifecycle (b : Bytes) : Option Nat :=
  firstBad (
    [(outside (le b 0 4) 0 3600, 0), (mbits b 4 0xFE, 4), (mbits b 5 0x80, 5)] ++ resBytes b 6 8 ++
    [(outside (le b 8 4) 40 40000, 8), (outside (le b 20 4) 0 1000000, 20), (outside (le b 24 4) 0 1000000, 24),
     (mbits b 28 0xF0, 28)] ++ resBytes b 29 32 ++ [(outside (le b 32 4) 0 60000, 32)] ++ resBytes b 40 48 ++
    [(decide (le b 0 4 ≠ 0 ∧ le b 0 4 * 400 < le b 8 4), 0x0100), (mbits b 5 0x10 && !mbits b 28 0x0F, 0x0101)])

/-- Kind 0x02 (02 R120). -/
def checkHostPort (b : Bytes) : Option Nat :=
  firstBad (
    [(mbits b 0 0xFC, 0), (mbits b 1 0xFC, 1)] ++ resBytes b 2 4 ++
    [4, 8, 12, 16].map (fun o => (outside (le b o 4) 0 3600000, o)) ++ [(outside (le b 20 4) 0 100000, 20)] ++ resBytes b 24 32)

/-- Kind 0x03 under the peak found at BOOT in MB/s (01 R63). -/
def checkBudget (peak : Nat) (b : Bytes) : Option Nat :=
  firstBad (resBytes b 88 96 ++
    [(decide (85 * peak < le b 0 4 * 100), 0x0100),
     (decide (le b 0 4 < ((List.range 9).map (fun i => le b (4 + 4 * i) 4)).sum), 0x0101)] ++
    [0, 1, 2].map (fun k => (decide (1000 < ((List.range 8).map (fun y => le b (40 + 6 * y + 2 * k) 2)).sum), 0x0200 + k)))

/-- Is a 4-byte address in wire order multicast, broadcast or loopback (05 R232)? -/
def badIpv4 (b : Bytes) (o : Nat) : Bool :=
  !outside (byteAt b o) 224 239 || be b o 4 == 0xFFFFFFFF || byteAt b o == 127

/-- Is a 16-byte address multicast or loopback (05 R232)? -/
def badIpv6 (b : Bytes) (o : Nat) : Bool := byteAt b o == 0xFF || be b o 16 == 1

/-- The gate list of a logical-port record: does it break R230 or R231? -/
def badGateList (b : Bytes) (e o : Nat) (others : List (Nat × Nat)) : Bool :=
  let en := bit (byteAt b (o + 38)) 0
  let count := le b (o + 40) 2
  let first := le b (o + 42) 2
  let cycle := le b (o + 56) 4
  let idx := (List.range count).map (first + ·)
  if en then
    outside count 1 256 || decide (e < first + count) || outside cycle 1000 1000000000 ||
    outside (le b (o + 52) 4) 0 999999999 ||
    idx.any (fun i => le b (12544 + 8 * i) 4 == 0 || !zeroIn b (12544 + 8 * i + 5) (12544 + 8 * i + 8)) ||
    (idx.map (fun i => le b (12544 + 8 * i) 4)).sum != cycle ||
    others.any (fun (f, n) => decide (first < f + n ∧ f < first + count))
  else
    count != 0 || first != 0 || mbits b (o + 38) 6 || le b (o + 44) 6 != 0 || le b (o + 52) 4 != 0 || cycle != 0

/-- Kind 0x04 (05 R232). -/
def checkNetwork (b : Bytes) : Option Nat :=
  let o (l : Nat) : Nat := 256 + 192 * l
  let mode (n : Nat) : Nat := bits (byteAt b (16 * n)) 1 0
  let prov (l : Nat) : Bool := modeProvides (mode (l / 4)) (l % 4)
  let e := (b.length - 12544) / 8
  let list (l : Nat) : Nat × Nat := if bit (byteAt b (o l + 38)) 0 then (le b (o l + 42) 2, le b (o l + 40) 2) else (0, 0)
  let lists := (List.range 64).map (fun l => (l, list l))
  if b.length < 12544 ∨ (b.length - 12544) % 8 ≠ 0 ∨ 4096 < e then some 0x0B00
  else
    row 16 (fun n => mbits b (16 * n) 0x0C && decide (mode n < 2) || mbits b (16 * n) 8 && !mbits b (16 * n) 4) (0x0100 + ·)
    <|> row 64 (fun l => !prov l && !zeroIn b (o l) (o l + 192)) (0x0200 + ·)
    <|> row 64 (fun l => prov l && ([0, 6, 12, 18].any (fun j => mbits b (o l + j) 1) ||
          be b (o l) 6 == 0 && !zeroIn b (o l + 6) (o l + 24))) (0x0300 + ·)
    <|> row 64 (fun l => prov l && outside (le b (o l + 24) 2) 1518 9216) (0x0400 + ·)
    <|> row 64 (fun l => prov l && (le b (o l + 26) 2 % 64 != 0 || decide (2048 < le b (o l + 26) 2))) (0x0500 + ·)
    <|> row 64 (fun l => prov l && (bits (byteAt b (o l + 29)) 1 0 == 3 || decide (le b (o l + 30) 2 < 2))) (0x0600 + ·)
    <|> row 64 (fun l => prov l && mbits b (o l + 35) 1 && outside (le b (o l + 36) 2 % 4096) 1 4094) (0x0700 + ·)
    <|> row 64 (fun l => [64, 68, 72, 76].any (fun j => badIpv4 b (o l + j)) ||
          [80, 96, 112, 128].any (fun j => badIpv6 b (o l + j))) (0x0800 + ·)
    <|> row 64 (fun l => badGateList b e (o l) ((lists.filter (fun x => x.1 != l && x.2.2 != 0)).map (·.2))) (0x0900 + ·)
    <|> row e (fun i => !lists.any (fun x => decide (x.2.1 ≤ i ∧ i < x.2.1 + x.2.2)) && !zeroIn b (12544 + 8 * i) (12552 + 8 * i))
          (fun _ => 0x09FF)
    <|> row 16 (fun n => mbits b (16 * n) 0xF0 || byteAt b (16 * n + 3) != 0 || !zeroIn b (16 * n + 8) (16 * n + 16)) (0x0A00 + ·)
    <|> row 64 (fun l => decide (60000 < le b (o l + 60) 2) || mbits b (o l + 29) 0xFC || mbits b (o l + 35) 0xF0 ||
          mbits b (o l + 37) 0xF0 || mbits b (o l + 38) 0xF8 || byteAt b (o l + 39) != 0 || !zeroIn b (o l + 50) (o l + 52) ||
          !zeroIn b (o l + 62) (o l + 64) || !zeroIn b (o l + 144) (o l + 192)) (0x0A00 + ·)

/-- Does the tack define a layout set, a ladder, an audio profile (06 R290)? -/
def hasLayoutSet (t : Option Tack) (n : Nat) : Bool := 1 ≤ n && n ≤ 16 && tfld t 0x0A (128 + 8384 * (n - 1)) 2 != 0
def hasLadder (t : Option Tack) (n : Nat) : Bool := 1 ≤ n && n ≤ 16 && tfld t 0x0B (64 + 272 * (n - 1)) 1 != 0
def hasAudioProfile (t : Option Tack) (n : Nat) : Bool := 1 ≤ n && n ≤ 16 && tfld t 0x0C (64 + 160 * (n - 1)) 1 != 0

/-- Kind 0x05 (06 R290). -/
def checkRooms (t : Option Tack) (b : Bytes) : Option Nat :=
  row 8 (fun y => decide (1000 < le b (2 * y) 2)) (0x0100 + ·)
  <|> row 64 (fun i =>
    let o := 16 + 64 * i
    let f := byteAt b o
    let n := bits (byteAt b (o + 7)) 4 0
    (if bit f 2 then outside n 1 16 else n != 0) ||
    decide (5000 < le b (o + 8) 2) || decide (5000 < le b (o + 10) 2) ||
    !bit f 3 && (byteAt b (o + 4) != 0 || byteAt b (o + 5) != 0) || !bit f 4 && byteAt b (o + 6) != 0 ||
    mbits b o 0xE0 || mbits b (o + 3) 0xF0 || mbits b (o + 7) 0xE0 || !zeroIn b (o + 12) (o + 64) ||
    bit f 0 && (bit f 3 && (!hasLayoutSet t (byteAt b (o + 4)) || !hasLadder t (byteAt b (o + 5))) ||
      bit f 4 && !hasAudioProfile t (byteAt b (o + 6)))) (fun i => i)

/-- Kind 0x06 (06 R291, R292). -/
def checkForwarding (b : Bytes) : Option Nat :=
  firstBad (
    [(outside (le b 0 4) 0 60000, 0), (! [64, 128, 256, 512, 1024].contains (le b 4 2), 4), (outside (le b 6 2) 100 50000, 6),
     (outside (le b 8 4) 8 (le b 12 4), 8), (outside (le b 12 4) (le b 8 4) 400000000, 12), (outside (le b 16 1) 50 100, 16),
     (outside (le b 17 1) 1 50, 17), (outside (le b 18 2) 0 10000, 18), (outside (le b 20 2) 0 5000, 20),
     (outside (le b 22 2) 0 100, 22), (outside (le b 24 1) 0 10, 24), (outside (le b 25 1) 0 1, 25),
     (outside (le b 26 2) 0 1000, 26), (outside (le b 28 2) 100 5000, 28), (outside (le b 30 2) 10 200, 30),
     (outside (le b 32 2) 0 10000, 32), (outside (le b 34 2) 0 10000, 34), (outside (le b 36 2) 0 10000, 36),
     (outside (le b 38 2) 0 10000, 38)] ++ resBytes b 40 64)

/-- Kind 0x07 (07 R327). -/
def checkShaper (t : Option Tack) (b : Bytes) : Option Nat :=
  let prov (i : Nat) : Bool := provides t (i / 8)
  let shaped (i : Nat) : Bool := bit (byteAt b (32 * i)) 0
  let rate (i : Nat) : Nat := le b (32 * i + 4) 4
  let burst (i : Nat) : Nat := le b (32 * i + 8) 4
  row 512 (fun i => prov i && !shaped i && (rate i != 0 || burst i != 0)) (0x1000 + ·)
  <|> row 512 (fun i => prov i && shaped i && (rate i != 0 && outside (rate i) 8 400000000 || decide (16777216 < burst i))) (0x2000 + ·)
  <|> row 512 (fun i => prov i && outsideI (sgn 16 (le b (32 * i + 2) 2)) (-64) 255) (0x3000 + ·)
  <|> row 512 (fun i => prov i && decide (bits (byteAt b (32 * i + 1)) 3 0 < 3)) (0x4000 + ·)
  <|> row 512 (fun i => prov i && (decide (10000 < le b (32 * i + 12) 2) || decide (1000 < le b (32 * i + 14) 2) ||
        outside (le b (32 * i + 16) 4) 16384 67108864)) (0x5000 + ·)
  <|> row 512 (fun i => !prov i && !zeroIn b (32 * i) (32 * i + 32) || mbits b (32 * i) 0xFC || mbits b (32 * i + 1) 0xF0 ||
        !zeroIn b (32 * i + 20) (32 * i + 32)) (0x6000 + ·)

/-- Kind 0x08 (07 R331). -/
def checkPools (t : Option Tack) (b : Bytes) : Option Nat :=
  let f (k o : Nat) : Nat := le b (48 * k + o) 4
  let sum (k : Nat) : Nat := ((List.range (k + 1)).map (fun j => f j 0)).sum
  let lim (k : Nat) : Nat := f k 4
  let named (k : Nat) : Bool :=
    (List.range 512).any (fun i => provides t (i / 8) && bits (tfld t 7 (32 * i + 1) 1) 3 0 == k)
  row 16 (fun k => decide (786432 < sum k ∨ lim k < f k 0 ∨ 786432 < lim k)) (0x0100 + ·)
  <|> row 3 (fun k => lim k == 0) (0x0200 + ·)
  <|> row 16 (fun k => decide (k < 2 ∧ f k 8 ≠ 0) || decide (lim k < f k 8)) (0x0300 + ·)
  <|> row 16 (fun k => f k 12 != 0 && decide (f k 12 ≤ f k 16 ∨ lim k < f k 12)) (0x0400 + ·)
  <|> row 16 (fun k => mbits b (48 * k + 20) 1 && (k == 1 || k == 2 || f k 24 == 0 || decide (lim k < f k 24) ||
        le b (48 * k + 32) 8 == 0)) (0x0500 + ·)
  <|> row 16 (fun k => lim k == 0 && named k) (0x0600 + ·)
  <|> row 16 (fun k => mbits b (48 * k + 20) 0xFE || !zeroIn b (48 * k + 22) (48 * k + 24) ||
        !zeroIn b (48 * k + 28) (48 * k + 32) || !zeroIn b (48 * k + 40) (48 * k + 48) ||
        lim k == 0 && !zeroIn b (48 * k) (48 * k + 48)) (0x0700 + ·)

/-- Kind 0x09 (08 R369). -/
def checkDecode (t : Option Tack) (b : Bytes) : Option Nat :=
  let o (j : Nat) : Nat := 64 + 16 * j
  let used (j : Nat) : Bool := le b (o j) 2 != 0
  let w (j : Nat) : Nat := le b (o j) 2
  let h (j : Nat) : Nat := le b (o j + 2) 2
  let fps (j : Nat) : Nat := byteAt b (o j + 4)
  (firstBad (
    [(outside (le b 0 2) 0 400, 0), (outside (le b 2 2) 0 100, 2), (bits (byteAt b 4) 1 0 == 3 || mbits b 4 0xF0, 4),
     (outside (le b 5 1) 10 100, 5), (outside (le b 6 1) 1 64, 6), (outside (le b 7 1) 8 64, 7), (outside (le b 8 2) 100 10000, 8),
     (byteAt b 11 != 0, 11), (outside (le b 12 4) 500 100000, 12)] ++ resBytes b 16 64)).map (0x0100 + ·)
  <|> row 16 (fun j => if used j then
        outside (w j) 16 8192 || outside (h j) 16 4352 || outside (fps j) 1 120 || mbits b (o j + 5) 0xFC ||
        outside (byteAt b (o j + 6)) 1 16 || !zeroIn b (o j + 7) (o j + 16)
      else !zeroIn b (o j) (o j + 16)) (0x0200 + ·)
  <|> row 16 (fun j => used j && (mbits b (o j + 5) 1 && (decide (8912896 < w j * h j) || decide (534773760 < w j * h j * fps j)) ||
        decide (1000000000 < w j * h j * fps j))) (0x0300 + ·)
  <|> row 64 (fun i =>
    let r := 320 + 4 * i
    mbits b r 0xF0 || bits (byteAt b (r + 1)) 1 0 == 3 || bits (byteAt b (r + 1)) 3 2 == 3 || mbits b (r + 1) 0xF0 ||
    bits (byteAt b (r + 2)) 1 0 == 3 || mbits b (r + 2) 0xFC || byteAt b (r + 3) != 0 ||
    bit (tpfld t i 0 1) 3 && !used (bits (byteAt b r) 3 0)) (0x0400 + ·)

/-- Does a layout of a set break its ranges or leave the canvas (09 R407, R408)? -/
def badLayout (b : Bytes) (o cw ch : Nat) : Bool :=
  outside (byteAt b o) 1 64 || decide (64 < byteAt b (o + 1)) || decide (16 < byteAt b (o + 2)) ||
  (List.range (min 64 (byteAt b o))).any (fun t =>
    let r := o + 16 + 16 * t
    let x := le b r 2
    let y := le b (r + 2) 2
    let w := le b (r + 4) 2
    let h := le b (r + 6) 2
    x % 2 != 0 || y % 2 != 0 || w % 2 != 0 || h % 2 != 0 || decide (w < 16 ∨ h < 16 ∨ cw < x + w ∨ ch < y + h) ||
    decide (63 < byteAt b (r + 8) ∧ byteAt b (r + 8) ≠ 0xFF) || decide (4 < bits (byteAt b (r + 9)) 3 1) ||
    decide (64 < byteAt b (r + 10)))

/-- Is something not zero that must be in a used set (09 R408 code 0x05)? -/
def setReserved (b : Bytes) (o n : Nat) : Bool :=
  mbits b (o + 5) 0xF0 || byteAt b (o + 11) != 0 || !zeroIn b (o + 14) (o + 64) ||
  (List.range 8).any (fun k =>
    let l := o + 64 + 1040 * k
    if k < n then
      !zeroIn b (l + 6) (l + 16) ||
      (List.range 64).any (fun t =>
        let r := l + 16 + 16 * t
        if t < byteAt b l then mbits b (r + 9) 0xF0 || !zeroIn b (r + 11) (r + 16) else !zeroIn b r (r + 16))
    else !zeroIn b l (l + 1040))

/-- Are the MIN_SRC values MODE 1 chooses among strictly ascending, layout 0 first with 0? -/
def badMinSrc (b : Bytes) (o n : Nat) : Bool :=
  byteAt b (o + 64 + 1) != 0 ||
  (List.range (n - 1)).any (fun k => decide (byteAt b (o + 64 + 1040 * (k + 1) + 1) ≤ byteAt b (o + 64 + 1040 * k + 1)))

/-- Kind 0x0A (09 R408). -/
def checkLayouts (b : Bytes) : Option Nat :=
  let o (s : Nat) : Nat := 128 + 8384 * s
  let cw (s : Nat) : Nat := le b (o s) 2
  let ch (s : Nat) : Nat := le b (o s + 2) 2
  let used (s : Nat) : Bool := cw s != 0 && ch s != 0
  let mode (s : Nat) : Nat := bits (byteAt b (o s + 5)) 3 2
  let sel (s : Nat) : Nat := byteAt b (o s + 7)
  let n (s : Nat) : Nat := byteAt b (o s + 6)
  (firstBad ((List.range 8).map (fun i => (le b (8 * i) 8 % 4096 != 0, 8 * i)) ++
    [(outside (le b 64 2) 4 4000, 64), (outside (le b 66 2) 0 4096, 66)] ++ resBytes b 68 128)).map (0x0100 + ·)
  <|> row 16 (fun s => used s && (outside (cw s) 64 3840 || cw s % 8 != 0 || outside (ch s) 64 2160 || ch s % 8 != 0 ||
        outside (byteAt b (o s + 4)) 1 60 || mode s == 3 || outside (n s) 1 8 || decide (10000 < le b (o s + 12) 2)))
        (fun s => 0x0201 + s)
  <|> row 16 (fun s => used s && (List.range (min 8 (n s))).any (fun k => badLayout b (o s + 64 + 1040 * k) (cw s) (ch s)))
        (fun s => 0x0301 + s)
  <|> row 16 (fun s => used s && (if mode s = 1 then sel s != 0 || badMinSrc b (o s) (n s) else decide (n s ≤ sel s)))
        (fun s => 0x0401 + s)
  <|> row 16 (fun s => if used s then setReserved b (o s) (n s) else !zeroIn b (o s) (o s + 8384)) (fun s => 0x0501 + s)

/-- Does a used rung break its ranges (09 R411, R412 code 0x02)? -/
def badRung (b : Bytes) (o : Nat) : Bool :=
  let codec := byteAt b o
  let st := bits (byteAt b (o + 2)) 1 0
  let w := le b (o + 4) 2
  let h := le b (o + 6) 2
  let qlo := if codec = 0x0A then 1 else 0
  let qhi := if codec = 0x0A then 255 else 51
  outside codec 8 10 || decide ((if codec = 8 then 2 else 1) < byteAt b (o + 1)) || st == 3 && codec != 0x0A ||
  outside (byteAt b (o + 3)) 4 64 || decide (w < 64 ∨ h < 64) || w % 2 != 0 || h % 2 != 0 ||
  st == 3 && (w % 8 != 0 || h % 8 != 0) ||
  outside (byteAt b (o + 8)) qlo qhi || outside (byteAt b (o + 9)) (byteAt b (o + 8)) qhi || decide (3600 < le b (o + 10) 2) ||
  outside (le b (o + 12) 4) 50 (le b (o + 16) 4) || outside (le b (o + 16) 4) (le b (o + 12) 4) 100000 ||
  decide (100 < byteAt b (o + 20))

/-- Kind 0x0B (09 R412). -/
def checkLadders (t : Option Tack) (b : Bytes) : Option Nat :=
  let o (l : Nat) : Nat := 64 + 272 * l
  let n (l : Nat) : Nat := byteAt b (o l)
  (firstBad (
    [(le b 0 4 != 0 && outside (le b 0 4) 256 65536, 0), (outside (le b 4 2) 0 10000, 4), (outside (le b 6 2) 512 8900, 6),
     (outside (le b 8 2) 4 400, 8), (outside (le b 10 1) 8 64, 10), (mbits b 11 0xFC, 11), (outside (le b 12 1) 1 50, 12)] ++
    resBytes b 13 64)).map (0x0100 + ·)
  <|> row 16 (fun l => (List.range (min 8 (n l))).any (fun r => badRung b (o l + 16 + 32 * r))) (fun l => 0x0201 + l)
  <|> row 16 (fun l => decide (8 < n l)) (fun l => 0x0301 + l)
  <|> row 16 (fun l => if n l = 0 then !zeroIn b (o l) (o l + 272)
      else mbits b (o l + 1) 0xFE || !zeroIn b (o l + 2) (o l + 16) ||
        (List.range 8).any (fun r =>
          let g := o l + 16 + 32 * r
          if r < n l then mbits b (g + 2) 0xF8 || !zeroIn b (g + 21) (g + 32) else !zeroIn b g (g + 32))) (fun l => 0x0401 + l)
  <|> row 64 (fun i =>
    let set := tpfld t i 4 1
    let l := tpfld t i 5 1 - 1
    tpValid t i && bit (tpfld t i 0 1) 3 && (List.range (min 8 (n l))).any (fun r =>
      let g := o l + 16 + 32 * r
      decide (tfld t 0x0A (128 + 8384 * (set - 1)) 2 < le b (g + 4) 2 ∨ tfld t 0x0A (130 + 8384 * (set - 1)) 2 < le b (g + 6) 2)))
    (0x0500 + ·)

/-- Does a dynamics block leave its ranges (10 R454)? -/
def badDynamics (b : Bytes) (o : Nat) : Bool :=
  outsideI (sgn 16 (le b o 2)) (-6000) 0 || outside (le b (o + 2) 2) 10 1000 || decide (2400 < le b (o + 4) 2) ||
  decide (2400 < le b (o + 6) 2) || outside (le b (o + 8) 4) 100 100000 || outside (le b (o + 12) 4) 10 2000

/-- Kind 0x0C (10 R455). -/
def checkAudio (b : Bytes) : Option Nat :=
  let o (p : Nat) : Nat := 64 + 160 * p
  let used (p : Nat) : Bool := byteAt b (o p) != 0
  (firstBad ([0, 8, 16, 24].map (fun i => (le b i 8 % 4096 != 0, i)) ++
    [(outside (le b 32 2) 4 4000, 32), (outside (le b 34 1) 50 100, 34)] ++ resBytes b 35 64)).map (0x0100 + ·)
  <|> row 16 (fun p => used p && (
        decide (64 < byteAt b (o p)) || bits (byteAt b (o p + 1)) 5 4 == 3 || decide (5000 < le b (o p + 2) 2) ||
        outsideI (sgn 16 (le b (o p + 4) 2)) (-9600) 0 || decide (24 < byteAt b (o p + 6)) || decide (100 < byteAt b (o p + 7)) ||
        outside (le b (o p + 8) 2) 10 500 || outside (le b (o p + 10) 2) (le b (o p + 8) 2) 1000 ||
        outside (le b (o p + 12) 2) 100 2000 || decide (10000 < le b (o p + 14) 2) || outside (byteAt b (o p + 16)) 1 200 ||
        ! [10, 20, 40, 60].contains (byteAt b (o p + 17)) || outside (le b (o p + 18) 2) 6 510 ||
        badDynamics b (o p + 20) || badDynamics b (o p + 36) || outsideI (sgn 16 (le b (o p + 52) 2)) (-1200) 0 ||
        outside (le b (o p + 54) 2) 1 1000 ||
        [(56, 60), (57, 64)].any (fun (k, u) => byteAt b (o p + k) != 0 && le b (o p + u) 4 != 0 &&
          outside (le b (o p + u) 4) 100 200000))) (fun p => 0x0201 + p)
  <|> row 16 (fun p => used p && [(56, 60, 68), (57, 64, 100)].any (fun (k, u, a) =>
        if byteAt b (o p + k) = 0 then le b (o p + u) 4 != 0 || !zeroIn b (o p + a) (o p + a + 32) else le b (o p + u) 4 == 0))
        (fun p => 0x0301 + p)
  <|> row 16 (fun p => if used p then mbits b (o p + 1) 0xC0 || !zeroIn b (o p + 58) (o p + 60) || !zeroIn b (o p + 132) (o p + 160)
      else !zeroIn b (o p) (o p + 160)) (fun p => 0x0401 + p)

/-- Kind 0x0D (12 R530). -/
def checkTimeBase (t : Option Tack) (b : Bytes) : Option Nat :=
  let o (n : Nat) : Nat := 128 * n
  let role (n : Nat) : Nat := bits (byteAt b (o n)) 1 0
  let lp (n : Nat) : Nat := bits (byteAt b (o n + 1)) 5 0
  let ptp (n : Nat) : Bool := role n == 1 || role n == 2
  let set (n : Nat) : Nat := bits (byteAt b (o n + 11)) 1 0
  row 4 (fun n =>
    mbits b (o n) 0xC0 || mbits b (o n + 1) 0xC0 || decide (127 < byteAt b (o n + 2)) || mbits b (o n + 3) 0xF8 ||
    outsideI (sgn 8 (byteAt b (o n + 4))) (-7) 4 || outsideI (sgn 8 (byteAt b (o n + 5))) (-3) 4 ||
    outsideI (sgn 8 (byteAt b (o n + 6))) (-7) 5 || outside (byteAt b (o n + 7)) 2 10 || decide (byteAt b (o n + 10) < 6) ||
    mbits b (o n + 11) 0xF0 || outside (le b (o n + 12) 4) 1 500000 || outside (le b (o n + 16) 2) 100 60000 ||
    byteAt b (o n + 18) == 0 || byteAt b (o n + 19) == 0 || outside (le b (o n + 20) 4) 1 1000000 ||
    outside (le b (o n + 24) 4) (le b (o n + 20) 4) 1000000000 || decide (3600000 < le b (o n + 28) 4) ||
    set n == 1 && decide (2 ^ 48 ≤ le b (o n + 32) 8) || outsideI (sgn 32 (le b (o n + 40) 4)) (-1000000) 1000000 ||
    outsideI (sgn 32 (le b (o n + 44) 4)) (-500000000) 500000000 || decide (500 < le b (o n + 48) 2) ||
    !zeroIn b (o n + 50) (o n + 52) || outsideI (sgn 32 (le b (o n + 52) 4)) (-500000000) 500000000 ||
    !zeroIn b (o n + 56) (o n + 64)) (0x0100 + ·)
  <|> row 4 (fun n => ptp n && !provides t (lp n)) (0x0200 + ·)
  <|> row 4 (fun n => ptp n && (List.range 4).any (fun m => m != n && ptp m && lp m == lp n && byteAt b (o m + 2) == byteAt b (o n + 2)))
        (0x0300 + ·)
  <|> row 4 (fun n => (bits (byteAt b (o n)) 5 4 == 1 || bits (byteAt b (o n)) 5 4 == 3) && zeroIn b (o n + 96) (o n + 128)) (0x0400 + ·)
  <|> row 4 (fun n => role n == 3 && !mbits b (o n + 11) 4) (0x0500 + ·)
  <|> row 4 (fun n => set n == 2 && (role n == 0 || role n == 3) || (set n == 0 || set n == 2) && le b (o n + 32) 8 != 0) (0x0600 + ·)

/-- Kind 0x0E under the sum of set capacities formed at BOOT in MiB (13 R573). -/
def checkDram (t : Option Tack) (capMib : Nat) (b : Bytes) : Option Nat :=
  let o (j : Nat) : Nat := 96 + 16 * j
  let kind (j : Nat) : Nat := byteAt b (o j)
  let base (j : Nat) : Nat := le b (o j + 4) 4
  let size (j : Nat) : Nat := le b (o j + 8) 4
  let kib := tfld t 0x0B 0 4
  (firstBad (
    [(outside (le b 0 4) 16 3072, 0), (outside (le b 4 4) 0 1000000, 4), (outside (le b 8 2) 1 1000, 8), (outside (le b 10 2) 1 720, 10),
     (outside (le b 12 2) 1000 16000, 12), (mbits b 14 0xFE, 14), (byteAt b 15 != 0, 15)] ++
    (List.range 32).map (fun i => (outside (le b (16 + 2 * i) 2) 100 60000, 16 + 2 * i)) ++ resBytes b 80 96)).map (0x0100 + ·)
  <|> row 16 (fun j => decide (8 < kind j) ||
        (if kind j = 0 then !zeroIn b (o j) (o j + 16)
         else size j == 0 || (List.range j).any (fun i => kind i == kind j) || mbits b (o j + 1) 0xFE ||
           !zeroIn b (o j + 2) (o j + 4) || !zeroIn b (o j + 12) (o j + 16))) (0x0200 + ·)
  <|> row 16 (fun j => kind j != 0 && (decide (base j < 8192) || decide (capMib < base j + size j) ||
        (List.range 16).any (fun i => i != j && kind i != 0 && decide (base i < base j + size j ∧ base j < base i + size i)))) (0x0300 + ·)
  <|> (match (List.range 16).find? (fun j => kind j == 1) with
       | none => some 0x0400
       | some j => if size j < 8192 ∨ mbits b (o j + 1) 1 = false then some (0x0400 + j) else none)
  <|> (if kib = 0 then none
       else match (List.range 16).find? (fun j => kind j == 8) with
         | none => some 0x0500
         | some j => if size j < 64 * kib then some (0x0500 + j) else none)

/-- Kind 0x0F (14 R599). -/
def checkPower (b : Bytes) : Option Nat :=
  firstBad (
    [(mbits b 0 0xFE, 0), (outside (byteAt b 1) 85 105, 1), (outside (byteAt b 2) 2 10, 2), (byteAt b 3 != 0, 3),
     (outside (le b 4 2) 700 730, 4), (outside (le b 6 2) 795 830, 6), (outside (le b 8 4) 0 86400, 8),
     (outside (le b 12 2) 1 1000, 12)] ++ resBytes b 14 32)

/-- Kind 0x10 (15 R613). -/
def checkRouting (b : Bytes) : Option Nat :=
  let en (s : Nat) : Bool := mbits b (4 * s) 1
  let ports (s : Nat) : Nat := bits (byteAt b (4 * s + 1)) 3 0
  let cls (s : Nat) : Nat := ((srcInfo s).map (·.2)).getD 5
  let sev (s : Nat) : Nat := ((srcInfo s).map (·.1)).getD 0
  row 256 (fun s => mbits b (4 * s) 0xF8 || mbits b (4 * s + 1) 0xF0 || (cls s == 5 || s == 0) && !zeroIn b (4 * s) (4 * s + 4)) (0x0100 + ·)
  <|> row 256 (fun s => cls s != 3 && ports s != 0 || cls s == 3 && en s && ports s == 0) (0x0200 + ·)
  <|> row 256 (fun s => (cls s == 2 || cls s == 0 || sev s == 4 || s == 44) && (!en s || le b (4 * s + 2) 2 != 0)) (0x0300 + ·)

/-- What validation takes from the device: HIGH_GEN, the generation in force, the tack key (none: no signature needed), the peak
at BOOT in MB/s and the sum of set capacities in MiB. -/
structure VCtx where
  high : Option Nat
  inForce : Option Nat
  key : Option (Nat × Nat)
  peak : Nat
  capMib : Nat
  deriving DecidableEq, Repr

/-- Detail of the first rule of its chapter that a section breaks (03 R136 reason 0x0D). -/
def checkSection (v : VCtx) (t : Tack) (kind : Nat) (b : Bytes) : Option Nat :=
  match kind with
  | 0x01 => checkLifecycle b
  | 0x02 => checkHostPort b
  | 0x03 => checkBudget v.peak b
  | 0x04 => checkNetwork b
  | 0x05 => checkRooms (some t) b
  | 0x06 => checkForwarding b
  | 0x07 => checkShaper (some t) b
  | 0x08 => checkPools (some t) b
  | 0x09 => checkDecode (some t) b
  | 0x0A => checkLayouts b
  | 0x0B => checkLadders (some t) b
  | 0x0C => checkAudio b
  | 0x0D => checkTimeBase (some t) b
  | 0x0E => checkDram (some t) v.capMib b
  | 0x0F => checkPower b
  | 0x10 => checkRouting b
  | _ => none

/-- Body length a chapter defines for its section; none for kind 0x04, whose rule is check 0x0B of R232 (03 R128). -/
def bodyLen (kind : Nat) : Option Nat :=
  match kind with
  | 0x01 => some 48 | 0x02 => some 32 | 0x03 => some 96 | 0x05 => some 4112 | 0x06 => some 64 | 0x07 => some 16384
  | 0x08 => some 768 | 0x09 => some 576 | 0x0A => some 134272 | 0x0B => some 4416 | 0x0C => some 2624 | 0x0D => some 512
  | 0x0E => some 352 | 0x0F => some 32 | 0x10 => some 1024 | _ => none

/-- A directory entry: KIND, SVER, OFFSET, LENGTH (03 R126). -/
structure DirEntry where
  kind : Nat
  sver : Nat
  off : Nat
  len : Nat
  deriving DecidableEq, Repr

/-- Directory entry i. -/
def dirEntry (b : Bytes) (i : Nat) : DirEntry :=
  let o := 256 + 16 * i
  ⟨byteAt b o, byteAt b (o + 1), le b (o + 4) 4, le b (o + 8) 4⟩

/-- Reason 0x0A of one entry with the end of the section before it: the KIND to report, 0 for the start of the first section
(03 R128, R136). -/
def badEntry (b : Bytes) (i start prevKind : Nat) : Option Nat :=
  let e := dirEntry b i
  let o := 256 + 16 * i
  let blen := le b (e.off + 4) 4
  if i = 0 ∧ e.off ≠ start then some 0
  else if e.off ≠ start ∨ e.kind < prevKind ∨ zeroIn b (o + 2) (o + 4) = false ∨ zeroIn b (o + 12) (o + 16) = false then some e.kind
  else if zeroIn b (e.off + 2) (e.off + 4) = false ∨ zeroIn b (e.off + 8) (e.off + 16) = false then some e.kind
  else if e.len ≠ (16 + blen + 15) / 16 * 16 ∨ zeroIn b (e.off + 16 + blen) (e.off + e.len) = false then some e.kind
  else match bodyLen e.kind with
    | some n => if n = blen then none else some e.kind
    | none => none

/-- Reason 0x0A over the entries from i on. -/
def badDirectory (b : Bytes) (total : Nat) : Nat → Nat → Nat → Nat → Option Nat
  | 0, _, start, _ => if start = total then none else some 0
  | n + 1, i, start, prev =>
    match badEntry b i start prev with
    | some k => some k
    | none => badDirectory b total n (i + 1) (start + (dirEntry b i).len) (dirEntry b i).kind

/-- The sections of a tack whose directory is well formed. -/
def sectionsOf (b : Bytes) (n : Nat) : Tab Bytes :=
  (List.range n).foldl (fun t i =>
    let e := dirEntry b i
    put t e.kind ((b.drop (e.off + 16)).take (le b (e.off + 4) 4))) []

/-- A tack as a plain record, from an image (03 R124). -/
def readTack (b : Bytes) : Tack :=
  { gen := le b 8 4, parent := le b 12 4, buildId := le b 32 8, secs := sectionsOf b (min 16 (le b 20 2)), image := b }

/-- What the signature covers: bytes 0-127 and from 256 on, bytes 24-27 taken as 0 (03 R125). -/
def signedPart (b : Bytes) : Bytes := splice (b.take 128) 24 (zeros 4) ++ b.drop 256

/-- Reason 0x06 (03 R136). -/
def badSignature (v : VCtx) (b : Bytes) : Bool :=
  let kind := byteAt b 128
  decide (1 < kind) || kind == 0 && (!zeroIn b 160 256 || v.key.isSome) ||
  (match v.key with
   | some (x, y) => kind == 1 && !ecdsaVerify x y (sha384 (signedPart b)) (be b 160 48) (be b 208 48)
   | none => false)

/-- Header checks 0x02, 0x03, 0x05-0x07 of R136: the first reason that fails. -/
def badHeader (b : Bytes) : Option Nat :=
  if le b 0 4 ≠ 0x5441434B then some 2
  else if le b 4 2 ≠ 1 ∨ zeroIn b 6 8 = false ∨ zeroIn b 22 24 = false ∨ zeroIn b 30 32 = false ∨ zeroIn b 40 128 = false ∨
    zeroIn b 129 160 = false then some 3
  else none

/-- Checks 0x05-0x07 of R136. -/
def badSeal (v : VCtx) (b : Bytes) : Option Nat :=
  if crc32c (splice b 24 (zeros 4)) ≠ le b 24 4 then some 5
  else if badSignature v b then some 6
  else if le b 28 2 ≠ 0x6448 then some 7
  else none

/-- Checks 0x0A-0x0D of R136: RESULT of the first that fails. -/
def badBody (v : VCtx) (b : Bytes) : Option Nat :=
  let n := le b 20 2
  if 16 < n then some 0x0A
  else
    match badDirectory b (le b 16 4) n 0 (256 + 16 * n) 0 with
    | some k => some (0x0A + k * 256)
    | none =>
      let es := (List.range n).map (dirEntry b)
      match (List.range n).find? (fun i =>
        let e := dirEntry b i
        e.kind == 0 || decide (0x10 < e.kind) || byteAt b e.off != e.kind || (es.take i).any (fun x => x.kind == e.kind)) with
      | some i => some (0x0B + (dirEntry b i).kind * 256)
      | none =>
        match es.find? (fun e => e.sver != 1 || byteAt b (e.off + 1) != e.sver) with
        | some e => some (0x0C + e.kind * 256)
        | none =>
          let t := readTack b
          (t.secs.findSome? (fun (k, body) => (checkSection v t k body).map (fun d => 0x0D + k * 256 + d * 65536)))

/-- Validation of a submitted tack of LENGTH bytes (03 R136): RESULT of the first check that fails, none when all pass. -/
def validateTack (v : VCtx) (len : Nat) (b : Bytes) : Option Nat :=
  if len < 256 ∨ 16777216 < len then some 1
  else
    badHeader b
    <|> (if le b 16 4 = len then none else some 4)
    <|> badSeal v b
    <|> (match v.high with
         | some h => if newer (le b 8 4) h then none else some 8
         | none => none)
    <|> (match v.inForce with
         | some g => if le b 12 4 = g then none else some 9
         | none => none)
    <|> badBody v b

/-- validate of R161 on the tack at the start of a slot of `room` bytes, the generation requirement left out: FALLBACK 1 or 2
when it fails. -/
def validateSlot (v : VCtx) (room : Nat) (b : Bytes) : Option Nat :=
  let total := le b 16 4
  match badHeader b with
  | some _ => some 1
  | none =>
    if total < 256 ∨ 16777216 < total ∨ room < total then some 1
    else
      let b := b.take total
      match badSeal v b with
      | some _ => some 1
      | none =>
        match badBody v b with
        | some r => if r % 256 = 0x0A then some 1 else some 2
        | none => none

end Sys2Proof.Machine
end

