-- ==== Sys2Proof/Machine/Flash.lean ====
section
/-! DEFINITION. The serial flash (03): the Jureys image, state records, the operations in their order, FLASH_READ, FLASH_WRITE and SF_CFG,
and how BOOT chooses its slot. -/
namespace Sys2Proof.Machine

/-- Counters of block 0x01 (03 R167). -/
def genCtr (off : Nat) : Nat := ctr 1 0 off

/-- Contents of the flash; a byte nothing has written reads 0xFF (notes/assumptions/7.md). -/
def Flash.bytes (f : Flash) (off n : Nat) : Bytes := memReadAll (0xFF : Byte) f.mem off n

/-- Writes contents. -/
def Flash.store (f : Flash) (off : Nat) (b : Bytes) : Flash := { f with mem := memWriteAll (0xFF : Byte) f.mem off b }

/-! ### SF_CFG (R162, R163) -/

/-- Bits of SF_CFG that a write changes. -/
def sfCfgMask : Word := 0x0003FF03#32

/-- MODE_MAX as it acts, and CLK_MHZ as it acts. -/
def Flash.modeMax (f : Flash) : Nat := let m := (f.cfg.extractLsb' 0 2).toNat; if m = 3 then 0 else m
def Flash.clkMax (f : Flash) : Nat := max 25 (min 200 (f.cfg.extractLsb' 8 8).toNat)

/-- Mode and clock in use: the fastest that SFDP advertises and SF_CFG allows (R154, R161). -/
def Flash.select (f : Flash) : Flash :=
  if f.sizeMib = 0 then f
  else
    let mode := min f.modeMax f.sfdpMode
    { f with mode, clk := min (min f.clkMax f.sfdpClk) (match mode with
      | 0 => 25
      | 1 => 100
      | _ => 200) }

/-- Is an erase, program or read in progress (BUSY)?  A FLASH_WRITE that still waits for its data has not begun. -/
def Flash.busy (f : Flash) : Bool :=
  !f.held && (match f.ops with
    | [] => false
    | .write _ _ _ _ _ none :: _ => false
    | _ => true)

/-- A write to SF_CFG by a host port: only the owner's takes effect, once no operation is in progress. -/
def sfCfgWrite (p v : Nat) (s : State) : State :=
  if s.barOpen p = false ∨ s.isOwner p = false then s
  else
    let w := (s.flash.cfg &&& ~~~sfCfgMask) ||| (BitVec.ofNat 32 v &&& sfCfgMask)
    s.modFlash (fun f => if f.busy then { f with cfgHeld := some w } else { f with cfg := w, cfgHeld := none }.select)

/-! ### State records (R158, R159) -/

/-- Offset of a copy. -/
def recOff (copy : Nat) : Nat := 0x1000 + 0x1000 * (copy % 2)

/-- The 64 bytes of a record. -/
def Record.bytes (r : Record) : Bytes :=
  let b := leBytes 4 0x4A535452 ++ leBytes 4 r.seq ++ leBytes 1 r.current ++ leBytes 1 r.lastGood ++ leBytes 1 r.attempts ++
    leBytes 1 r.lastReason ++ leBytes 4 r.genA ++ leBytes 4 r.genB ++ leBytes 4 r.highGen ++ leBytes 1 (b2n r.probFail) ++ zeros 35
  b ++ leBytes 4 (crc32c b)

/-- The record of a copy, when it is valid. -/
def readRecord (b : Bytes) : Option Record :=
  if le b 0 4 = 0x4A535452 ∧ le b 60 4 = crc32c (b.take 60) then
    some { seq := le b 4 4, current := byteAt b 8, lastGood := byteAt b 9, attempts := byteAt b 10, lastReason := byteAt b 11
           genA := le b 12 4, genB := le b 16 4, highGen := le b 20 4, probFail := bit (byteAt b 24) 0 }
  else none

/-- The newest valid record and its copy. -/
def Flash.newest (f : Flash) : Option (Nat × Record) :=
  match readRecord (f.bytes (recOff 0) 64), readRecord (f.bytes (recOff 1) 64) with
  | some a, some b => if newer b.seq a.seq then some (1, b) else some (0, a)
  | some a, none => some (0, a)
  | none, some b => some (1, b)
  | none, none => none

/-- A record after a change. -/
def Record.change (r : Record) (c : RecordChange) : Record :=
  { r with
    seq := (r.seq + 1) % 2 ^ 32, current := c.current.getD r.current, lastGood := c.lastGood.getD r.lastGood
    attempts := c.attempts.getD r.attempts, genA := c.genA.getD r.genA, genB := c.genB.getD r.genB
    highGen := c.highGen.getD r.highGen, probFail := c.probFail.getD r.probFail }

/-- Writes a record into the copy that is not in use; it is then the record in use. -/
def Flash.putRecord (f : Flash) (r : Record) : Flash :=
  let copy := 1 - f.recCopy
  { f.store (recOff copy) (r.bytes ++ List.replicate 4032 0xFF) with recCopy := copy, rec? := some r }

/-- The record in use; with none, that of R159. -/
def Flash.record (f : Flash) : Record := f.rec?.getD {}

/-! ### The order of operations (R153, R166) -/

/-- The bridge decides to rewrite the state record; without a flash it has none. -/
def State.changeRecord (s : State) (c : RecordChange) (said : Option (Nat × Nat) := none) : State :=
  if s.flash.sizeMib = 0 then s else s.modFlash (fun f => { f with ops := f.ops ++ [.record c said] })

/-- Is an operation the write of a kept tack? -/
def FlashOp.isSlot : FlashOp → Bool
  | .slot _ _ => true
  | _ => false

/-- Is an operation part of a write under R153: the tack, or the record that ends it? -/
def FlashOp.keeps : FlashOp → Bool
  | .slot _ _ => true
  | .record _ (some _) => true
  | _ => false

/-- The write of a kept tack joins the order at its end; an older one that waits is dropped (R153, R166).  Nothing is in progress while
KEEP holds the operations. -/
def joinSlot (op : FlashOp) (held : Bool) : List FlashOp → List FlashOp
  | [] => [op]
  | h :: rest => (if held && h.isSlot then [] else [h]) ++ rest.filter (fun o => !o.isSlot) ++ [op]

/-- A kept tack is to be written. -/
def State.writeSlot (s : State) (gen : Nat) (image : Bytes) : State :=
  if s.flash.sizeMib = 0 then s else s.modFlash (fun f => { f with ops := joinSlot (.slot gen image) f.held f.ops })

/-! ### FLASH_READ and FLASH_WRITE (R164, R165) -/

/-- FLASH_READ, once fetched. -/
def flashRead (p r seq : Nat) (d : Desc) (s : State) : State :=
  if s.flash.sizeMib * 1048576 < dfld d 24 4 + d.length then s.complete p r seq stBadParam
  else s.modFlash (fun f => { f with ops := f.ops ++ [.read p r seq (dfld d 16 8) (dfld d 24 4) d.length] })

/-- FLASH_WRITE, once fetched: its place in the order is taken, and the data is read from the host. -/
def flashWrite (p r seq : Nat) (d : Desc) (s : State) : State :=
  let off := dfld d 24 4
  if s.isOwner p = false then s.complete p r seq stNotOwner
  else if off % 4096 ≠ 0 ∨ d.length % 4096 ≠ 0 ∨ s.flash.sizeMib * 1048576 < off + d.length then s.complete p r seq stBadParam
  else (s.modFlash (fun f => { f with ops := f.ops ++ [.write p r seq off d.length none] })).startDma p r seq .flashData

/-- The data of a FLASH_WRITE has been read. -/
def State.flashData (s : State) (p r seq : Nat) (b : Bytes) : State :=
  s.modFlash (fun f => { f with ops := f.ops.map (fun o => match o with
    | .write p' r' q off len none => if p' = p ∧ r' = r ∧ q = seq then .write p r q off len (some b) else o
    | _ => o) })

/-- Its read has failed: the write leaves the order. -/
def State.flashDrop (s : State) (p r seq : Nat) : State :=
  s.modFlash (fun f => { f with ops := f.ops.filter (fun o => match o with
    | .write p' r' q _ _ none => !(p' == p && r' == r && q == seq)
    | _ => true) })

/-- Why a sector refuses FLASH_WRITE: reason 1 or 2, else 0. -/
def Flash.refuses (f : Flash) (sector : Nat) : Nat :=
  let lo := sector * 4096
  let touches (o n : Nat) : Bool := decide (lo < o + n ∧ o < lo + 4096)
  if f.cfg.getLsbD 16 ∧ (touches 0 4096 ∨ f.dir.any (fun c => decide (1 ≤ c.1 ∧ c.1 ≤ 4) && touches c.2.2.1 c.2.2.2)) then 1
  else if f.cfg.getLsbD 17 ∧ touches 0x1000 0x2000 then 1
  else if f.dir.any (fun c => c.1 == 5 && touches c.2.2.1 c.2.2.2 && (c.2.1 == f.record.current || f.ops.any FlashOp.keeps)) then 2
  else 0

/-- Writes n sectors; a failing one is left with what the failure makes of it, free values. -/
def State.writeSectors (s : State) (off n : Nat) (b : Bytes) (failed : Bool) : State :=
  let s := s.modFlash (fun f => f.store off (b.take (4096 * n)))
  if failed then
    { s.modFlash (fun f => f.store (off + 4096 * n) ((List.range 4096).map (fun i => BitVec.ofNat 8 (Config.freeNat (s.free + i))))) with
      free := s.free + 4096 }
  else s

/-- The first sector of a write that refuses it or fails, with the reason; reasons from 3 on come from the flash. -/
def Flash.firstFailure (f : Flash) (off len : Nat) (z : FlashResult) : Option (Nat × Nat) :=
  ((List.range (len / 4096)).map (fun k =>
    let r := f.refuses (off / 4096 + k)
    (k, if r ≠ 0 then r else if z.reason ≠ 0 ∧ z.sector = k then z.reason else 0))).find? (fun x => x.2 != 0)

/-- The operation that has ended leaves the order; a held write to SF_CFG takes effect, and in KEEP no other begins (14 R583). -/
def State.endFlashOp (s : State) : State :=
  s.modFlash (fun f => { f with
    ops := f.ops.drop 1, cfg := f.cfgHeld.getD f.cfg, cfgHeld := none, held := s.power.mode == Mode.keep }.select)

/-- Offset of a tack slot. -/
def Flash.slotDir (f : Flash) (slot : Nat) : Option (Nat × Nat) :=
  (f.dir.find? (fun c => c.1 == 5 && c.2.1 == slot)).map (fun c => (c.2.2.1, c.2.2.2))

/-! ### The training table (13 R540-R542) -/

/-- A copy of the table: valid, and newer than another. -/
def tableValid (b : Bytes) : Bool := le b 0 4 == 0x4E415254 && le b 4 2 == 1 && crc32c (splice b 60 (zeros 4)) == le b 60 4

/-- Where the training component lies. -/
def Flash.tableOff (f : Flash) : Option Nat := (f.dir.find? (fun c => c.1 == 4)).map (fun c => c.2.2.1)

/-- The valid copy with the newer SEQ: its number and bytes. -/
def Flash.table (f : Flash) : Option (Nat × Bytes) :=
  match f.tableOff with
  | none => none
  | some off =>
    let a := f.bytes off 16384
    let b := f.bytes (off + 16384) 16384
    match tableValid a, tableValid b with
    | true, true => if newer (le b 8 4) (le a 8 4) then some (1, b) else some (0, a)
    | true, false => some (0, a)
    | false, true => some (1, b)
    | false, false => none

/-- The 176 bytes of a rank record as words, and back. -/
def trainWords (b : Bytes) : Tab Word := (List.range 44).foldl (fun t i => memWrite 0#32 t i (BitVec.ofNat 32 (le b (4 * i) 4))) []
def trainBytes (t : Tab Word) : Bytes := (List.range 44).flatMap (fun i => leBytes 4 (memRead 0#32 t i).toNat)

/-- What a sweep finds: delays that the manual does not give, free values in the fields of a rank record. -/
def sweptWords (f : Nat) : Tab Word :=
  (List.range 44).foldl (fun t i =>
    let v := BitVec.ofNat 32 (Config.freeNat (f + i))
    memWrite 0#32 t i (if i = 2 ∨ i = 3 then 0#32 else if 5 ≤ i ∧ i % 2 = 1 then v &&& 0xFFFF#32 else v)) []

/-- The slot record of a DIMM with the delays of its ranks. -/
def State.slotRecord (s : State) (slot : Nat) (old : Bytes) (serial : Nat) : Bytes :=
  let d := lookD s.dram.dimms slot {}
  let head := leBytes 1 1 ++ leBytes 1 d.ranks ++ leBytes 1 (b2n s.dram.mrdimm) ++ zeros 1 ++ leBytes 2 d.mfr ++ leBytes 4 serial ++
    leBytes 2 s.dram.rate ++ zeros 20
  let rank (q : Nat) : Bytes :=
    if (s.rank (4 * (slot / 2) + 2 * (slot % 2) + q)).train = [] then (old.drop (32 + 176 * q)).take 176
    else trainBytes (s.rank (4 * (slot / 2) + 2 * (slot % 2) + q)).train
  padTo 512 (head ++ rank 0 ++ rank 1)

/-- The new copy of the table, with the records of the slots that changed. -/
def State.newTable (s : State) (slots : List Nat) : Bytes :=
  let old := ((s.flash.table).map (·.2)).getD (zeros 16384)
  let seq := (match s.flash.table with
    | some (_, b) => (le b 8 4 + 1) % 2 ^ 32
    | none => 1)
  let b := splice (splice old 0 (leBytes 4 0x4E415254 ++ leBytes 2 1 ++ zeros 2)) 8 (leBytes 4 seq)
  let b := slots.foldl (fun b n =>
    splice b (64 + 512 * n) (s.slotRecord n ((old.drop (64 + 512 * n)).take 512) (lookD s.dram.dimms n {}).serial)) b
  let b := splice b 60 (zeros 4)
  splice b 60 (leBytes 4 (crc32c b))

/-- Where the next copy of the table goes: the place of the other one. -/
def Flash.nextTable (f : Flash) : Option Nat :=
  f.tableOff.map (fun off => off + 16384 * (match f.table with
    | some (n, _) => 1 - n
    | none => 0))

/-- Writes the new copy of the table; it counts as an internal write (03 R167). -/
def State.putTable (s : State) (slots : List Nat) : State :=
  match s.flash.nextTable with
  | none => s
  | some off => (s.modFlash (fun f => f.store off (s.newTable slots))).bump (genCtr 136)

/-- A write of the table fails (13 R542; 03 R167). -/
def State.tableFailed (s : State) : State := ((s.bump (genCtr 136)).bump (genCtr 144)).event 24 256

/-! ### The end of an operation -/

/-- FLASH_OPERATION_DONE: the first operation of the order ends. -/
def flashDone (z : FlashResult) (s : State) : State :=
  if s.flash.held then s
  else
    match s.flash.ops with
    | [] => s
    | .read p r seq addr off len :: _ =>
      let s := s.endFlashOp
      if z.reason ≠ 0 then s.complete p r seq stFlashError (z.reason + (off / 4096 + z.sector) * 256)
      else (s.hostWrite p addr (s.flash.bytes off len)).startDma p r seq (.write len)
    | .write _ _ _ _ _ none :: _ => s
    | .write p r seq off len (some b) :: _ =>
      let s := s.bump (genCtr 136)
      (match s.flash.firstFailure off len z with
       | none => ((s.writeSectors off (len / 4096) b false).endFlashOp).complete p r seq stOk len
       | some (k, why) =>
         (((s.writeSectors off k b (3 ≤ why)).bump (genCtr 144)).endFlashOp).complete p r seq stFlashError
           (why + (off / 4096 + k) * 256))
    | .slot gen image :: _ =>
      let cur := s.flash.record.current
      let slot := if cur = 0 then 1 else 0
      (match s.flash.slotDir slot with
       | none => s.endFlashOp
       | some (off, _) =>
         let s := s.bump (genCtr 136)
         if z.reason ≠ 0 then
           (((s.writeSectors off z.sector image true).bump (genCtr 144)).endFlashOp).event 12 (gen + slot * 2 ^ 32 + z.reason * 2 ^ 40)
         else
           let s := s.writeSectors off (cdiv image.length 4096) (image ++ List.replicate (cdiv image.length 4096 * 4096 - image.length) 0xFF) false
           let c : RecordChange := {
             current := some slot, lastGood := some cur, attempts := some 0, probFail := some false
             genA := if slot = 0 then some gen else none, genB := if slot = 1 then some gen else none }
           s.endFlashOp.modFlash (fun f => { f with ops := .record c (some (slot, gen)) :: f.ops }))
    | .record c said :: _ =>
      let s := if z.reason = 0 then s.modFlash (fun f => f.putRecord (f.record.change c))
        else (s.writeSectors (recOff (1 - s.flash.recCopy)) 0 [] true).bump (genCtr 144)
      let s := (s.bump (genCtr 136)).endFlashOp
      (match said with
       | some (slot, gen) => s.event 12 (gen + slot * 2 ^ 32 + z.reason * 2 ^ 40)
       | none => s)
    | .table slots p r seq result :: _ =>
      let s := if z.reason = 0 then s.putTable slots
        else (match s.flash.nextTable with
          | some off => s.writeSectors off 0 [] true
          | none => s).tableFailed
      s.endFlashOp.complete p r seq stOk (result + b2n (z.reason == 0) * 512)

/-! ### BOOT: the header and the directory (R156, R157, R160, R161) -/

/-- A component entry: TYPE, INDEX, OFFSET, LENGTH. -/
def compAt (hdr : Bytes) (i : Nat) : Nat × Nat × Nat × Nat :=
  let o := 128 + 64 * i
  (le hdr o 2, le hdr (o + 2) 2, le hdr (o + 8) 4, le hdr (o + 12) 4)

/-- Does an entry among the first COMP_COUNT keep to R157 by itself? -/
def compOk (hdr : Bytes) (size i : Nat) : Bool :=
  let o := 128 + 64 * i
  let (ty, ix, off, len) := compAt hdr i
  let known := decide (1 ≤ ty ∧ ty ≤ 5)
  ty != 0 && off % 65536 == 0 && decide (65536 ≤ off) && decide (off + len ≤ size) &&
    (!known ||
      ((ix == 0 || (ty == 5 && ix == 1)) && zeroIn hdr (o + 4) (o + 8) && (ty != 5 || decide (16777216 ≤ len)) &&
        (decide (ty ≤ 3) || zeroIn hdr (o + 16) (o + 64))))

/-- Does the directory keep to R157? -/
def dirOk (hdr : Bytes) (size : Nat) : Bool :=
  let n := le hdr 6 2
  let es := (List.range n).map (compAt hdr)
  decide (6 ≤ n ∧ n ≤ 16) && (List.range n).all (compOk hdr size) && zeroIn hdr (128 + 64 * n) 1152 &&
    [(1, 0), (2, 0), (3, 0), (4, 0), (5, 0), (5, 1)].all (fun (ty, ix) => (es.filter (fun e => e.1 == ty && e.2.1 == ix)).length == 1) &&
    (List.range n).all (fun i => (List.range n).all (fun j =>
      i == j ||
        (let a := (compAt hdr i).2.2
         let b := (compAt hdr j).2.2
         decide (a.1 + a.2 ≤ b.1 ∨ b.1 + b.2 ≤ a.1))))

/-- STAGE_ERR of the header and the components, 0 when every stage passes. -/
def bootStage (f : Flash) (facts : BootFacts) : Nat :=
  let hdr := f.bytes 0 4096
  let size := facts.flashMib * 1048576
  if facts.flashMib = 0 then 1
  else if le hdr 0 4 ≠ 0x4A555259 ∨ le hdr 4 2 ≠ 1 then 2
  else if f.keyHash.getD 0 ≠ 0 ∧ sha384 ((hdr.drop 32).take 96) ≠ f.keyHash.getD 0 then 3
  else if ecdsaVerify (be hdr 32 48) (be hdr 80 48) (sha384 (hdr.take 4000)) (be hdr 4000 48) (be hdr 4048 48) = false then 4
  else if le hdr 8 4 < f.fuseRb then 5
  else if dirOk hdr size = false ∨
      (List.range (le hdr 6 2)).any (fun i =>
        let (ty, _, off, len) := compAt hdr i
        decide (1 ≤ ty ∧ ty ≤ 3) && sha384 (f.bytes off len) != be hdr (128 + 64 * i + 16) 48) then 6
  else 0

/-- The flash as BOOT finds it: what the board has programmed, its size and clock, and, when every stage passes, the directory.  What the
fuses hold when BOOT first reads them stays, but for the advance of R160; a ROLLBACK above 64, which no check refuses, advances FUSE_RB
to 64 (DESIGN CHOICE, notes/assumptions/106.md). -/
def Flash.start (f : Flash) (facts : BootFacts) : Flash :=
  let f := { f with
    mem := facts.flash.getD f.mem, keyHash := some (f.keyHash.getD facts.keyHash)
    fuseRb := if f.keyHash.isSome then f.fuseRb else min 64 facts.fuseRb, highZ := false
    sizeMib := facts.flashMib, sfdpMode := facts.modeSfdp, sfdpClk := facts.clkMhz }.select
  let f := { f with anyKey := f.keyHash == some 0, stageErr := bootStage f facts }
  if f.stageErr ≠ 0 then f
  else
    let hdr := f.bytes 0 4096
    { f with
      dir := (List.range (le hdr 6 2)).map (compAt hdr)
      tackKey := if zeroIn hdr 1152 1248 then none else some (be hdr 1152 48, be hdr 1200 48)
      advance := if bit (byteAt hdr 12) 0 ∧ f.fuseRb < le hdr 8 4 then some (min 64 (le hdr 8 4)) else none }

/-! ### BOOT: the choice of a slot (R161, R641) -/

/-- What validation takes from the device. -/
def State.vctx (s : State) : VCtx :=
  { high := s.gens.high, inForce := s.gens.cur.map (·.gen), key := s.flash.tackKey, peak := s.dram.peakBoot, capMib := s.capGib * 1024 }

/-- The tack that stands in a slot, as far as its TOTAL_LEN reaches, and the room of the slot. -/
def Flash.slotImage (f : Flash) (slot : Nat) : Option (Nat × Bytes) :=
  (f.slotDir slot).map (fun (off, room) =>
    let total := le (f.bytes (off + 16) 4) 0 4
    (room, f.bytes off (if 256 ≤ total ∧ total ≤ min room 16777216 then total else 256)))

/-- FALLBACK of a slot whose tack does not validate, 0 when it does, the generation requirement left out. -/
def State.slotReason (s : State) (slot : Nat) : Nat :=
  match s.flash.slotImage slot with
  | none => 1
  | some (room, b) => (validateSlot s.vctx room b).getD 0

/-- Generation of the tack in a slot. -/
def Flash.slotGen (f : Flash) (slot : Nat) : Nat := ((f.slotImage slot).map (fun x => le x.2 8 4)).getD 0

/-- The same with the generation requirement. -/
def State.slotFails (s : State) (rec_ : Option Record) (high : Option Nat) (slot : Nat) : Nat :=
  let r := s.slotReason slot
  let g := s.flash.slotGen slot
  if r ≠ 0 then r
  else if high.any (fun h => newer g h) ∨ rec_.any (fun x => g != (if slot = 0 then x.genA else x.genB)) then 1
  else 0

/-- The newer of two generations, of those that are known. -/
def newestGen : List Nat → Option Nat
  | [] => none
  | g :: rest => some (rest.foldl (fun a b => if newer b a then b else a) g)

/-- The slot that BOOT tries first, and the reason so far. A record whose CURRENT names no slot starts with slot A, as without a record
(notes/assumptions/28.md). -/
def firstSlot (rec_ : Option Record) (valid : Nat → Bool) (gen : Nat → Nat) : Nat × Nat :=
  match rec_ with
  | none => (if valid 1 ∧ (valid 0 = false ∨ newer (gen 1) (gen 0)) then 1 else 0, 0)
  | some r =>
    if 2 ≤ r.attempts then
      (if r.lastGood < 2 then r.lastGood else if r.current < 2 then 1 - r.current else 0, 3)
    else (if r.current < 2 then r.current else 0, if r.probFail then 4 else 0)

/-- Reads the record, tries the slots, writes the record of R641 and readies the chosen tack and its parent.  Without memory the record is
read, and no slot is put in force (13 R543; notes/assumptions/107.md). -/
def State.bootSlot (s : State) : State :=
  let found := s.flash.newest
  let rec_ := found.map (·.2)
  let valid (n : Nat) : Bool := s.slotReason n == 0
  let gens := ([0, 1].filter valid).map s.flash.slotGen
  let high := match rec_ with
    | some r => some r.highGen
    | none => newestGen gens
  let (first, reason) := firstSlot rec_ valid s.flash.slotGen
  let fails := s.slotFails rec_ high first
  let reason := if fails ≠ 0 then fails else reason
  let slot := if s.capGib = 0 then none else if fails = 0 then some first else if s.slotFails rec_ high (1 - first) = 0 then some (1 - first) else none
  let tack (n : Nat) : Option Tack := (s.flash.slotImage n).map (fun x => readTack x.2)
  let s := s.modFlash (fun f => { f with
    fallback := reason, bootAttempts := (rec_.map (·.attempts)).getD 0, slot := slot.getD 3, rec? := rec_, recCopy := (found.map (·.1)).getD 1 })
  match slot with
  | none => s.modGens (fun g => { g with high })
  | some n =>
    let other := s.slotFails rec_ high (1 - n) == 0
    let old := rec_.getD { genA := if valid 0 then s.flash.slotGen 0 else 0, genB := if valid 1 then s.flash.slotGen 1 else 0, highGen := high.getD 0 }
    let new : Record := { old with
      seq := (old.seq + 1) % 2 ^ 32, current := n, lastGood := if other then 1 - n else 0xFF
      attempts := if n = old.current then min 255 (old.attempts + 1) else 1, lastReason := reason, probFail := false }
    ((s.modFlash (fun f => f.putRecord new)).bump (genCtr 136)).modGens (fun g => { g with
      chosen := tack n, chosenParent := if other then tack (1 - n) else none, high, atBoot := true, noFlash := false })

/-! ### The commands of this file -/

/-- FLASH_READ (R164). -/
def execFlashRead (t p r : Nat) (d : Desc) (s : State) : Host.Outcome State Fault Refusal :=
  .next (fetchDesc 0x1E p r d (fun seq s => flashRead p r seq d s) (s.at t))

/-- FLASH_WRITE (R165). -/
def execFlashWrite (t p r : Nat) (d : Desc) (s : State) : Host.Outcome State Fault Refusal :=
  .next (fetchDesc 0x1F p r d (fun seq s => flashWrite p r seq d s) (s.at t))

/-- FLASH_OPERATION_DONE (R165). -/
def execFlashOperationDone (t : Nat) (res : FlashResult) (s : State) : Host.Outcome State Fault Refusal := .next (flashDone res (s.at t))

/-- SF_CFG_WRITE (R163). -/
def execSfCfgWrite (t p value : Nat) (s : State) : Host.Outcome State Fault Refusal := .next (sfCfgWrite p value (s.at t))

end Sys2Proof.Machine
end

