-- ==== Sys2Proof/Machine/Power.lean ====
section
/-! DEFINITION. A change of the operating mode as such (14 R577, R579) and the entry into SAFE (14 R585). -/
namespace Sys2Proof.Machine

/-- Counters of block 0x0D (14 R600). -/
def pwrCtr (off : Nat) : Nat := ctr 0x0D 0 off

/-- The code of a mode (R577). -/
def Mode.code (m : Mode) : Nat :=
  match m with
  | .reset => 0 | .boot => 1 | .standby => 2 | .run => 3 | .drain => 4 | .keep => 5 | .service => 6 | .safe => 7

/-- The mode of a code. -/
def modeOfCode (n : Nat) : Mode :=
  match n with
  | 1 => .boot | 2 => .standby | 3 => .run | 4 => .drain | 5 => .keep | 6 => .service | 7 => .safe | _ => .reset

/-- Every network port goes down. -/
def State.portsDown (s : State) : State := forEach (List.range 64) (fun l s => s.linkDown l {}) s

/-- LOOP returns to 0 on every physical port (05 R228). -/
def State.loopsOff (s : State) : State := s.modNet (fun n => { n with phys := n.phys.map (fun (i, x) => (i, { x with loop := 0 })) })

/-- Notes the ports that are in the reception of a frame now, for those that go down (05 R205). -/
def State.receiving (s : State) (cut : List Nat) : State := s.modNet (fun n => { n with inRx := (s.now, cut) })

/-- Host ports whose link is up leave OFF once BOOT is over (02 R73). -/
def State.portsSetup (s : State) : State :=
  { s with hosts := s.hosts.map (fun (p, h) => (p, if h.link ∧ h.state = .off then { h with state := .setup } else h)) }

/-- The device changes mode and says so to every port in RUN (R579).  What arises on the way into KEEP is written before it, what has
arisen in KEEP on the way out (R583, R601). -/
def State.setMode (s : State) (m : Mode) : State :=
  let old := s.power.mode
  let s := s.bump (pwrCtr 80)
  let payload := m.code + old.code * 16
  let moved (p : Power) : Power := { p with
    mode := m, prev := old, pend := none, movedTick := if s.now = s.tickAt ∧ old ≠ .boot ∧ m ≠ .safe then some s.tick else p.movedTick }
  if m = .keep then (s.event 32 payload).modPower moved
  else ((s.modPower moved).releaseKeep).event 32 payload

/-- Entry into SAFE with a reason; LOOP returns to 0 (05 R228), a pending change is discarded, and SMB_ALERT_N is asserted (R581, R585; 16 R633).  From BOOT it ends
BOOT, so PWR_RESET_REPORT waits for the first port in RUN (R589). -/
def State.enterSafe (s : State) (reason : Nat) : State :=
  if s.power.mode = .reset ∨ s.power.mode = .safe then s
  else
    let s := if s.power.mode = .boot then s.event 34 s.power.rstCause.toNat else s
    let s := (s.portsDown.loopsOff.setMode .safe).portsSetup
    let s := (s.modPower (fun p => { p with safeReason := reason })).modFlash (fun f => { f with highZ := true, held := false })
    (s.modPins (fun p => { p with alert := true })).event 33 reason

end Sys2Proof.Machine
end

