-- ==== Sys2Proof/Machine/Dram.lean ====
section
/-! DEFINITION. External memory and the Farrier (13): rank sets, training, refresh, errors and poison, retirement and migration, patrol
scrub, and DRAM_SERVICE. -/
namespace Sys2Proof.Machine

/-- Counters of a channel record and of the Farrier record of block 0x0C (R575). -/
def mcCtr (c off : Nat) : Nat := ctr 0x0C c off
def faCtr (off : Nat) : Nat := ctr 0x0C 12 off

/-- Updates a rank. -/
def State.modRank (s : State) (k : Nat) (f : Rank → Rank) : State := s.modDram (fun d => { d with ranks := adjD d.ranks k {} f })

/-- Bytes and 64-byte lines of a GiB count. -/
def gibBytes (g : Nat) : Nat := g * 2 ^ 30
def gibLines (g : Nat) : Nat := g * 2 ^ 24

/-! ### Sets and addresses (R537, R538) -/

/-- The set, and the byte offset within it, of a device address. -/
def inSets (a : Nat) : List (Nat × Nat) → Option (Nat × Nat)
  | [] => none
  | (k, gib) :: rest => if a < gibBytes gib then some (k, a) else inSets (a - gibBytes gib) rest

/-- The member of a set that holds a 64-byte line, and the byte offset within the rank (R538). -/
def State.locate (s : State) (line : Nat) : Option (Nat × Nat) :=
  match inSets (64 * line) s.dram.setGib with
  | none => none
  | some (k, off) =>
    let m := lookD s.dram.sets k []
    (m[off / 256 % m.length]?).map (fun r => (r, off / 256 / m.length * 256 + off % 256))

/-- Base of a set in GiB. -/
def State.setBase (s : State) (k : Nat) : Nat := ((s.dram.setGib.filter (fun x => decide (x.1 < k))).map (·.2)).sum

/-- The device line at a place of a rank; none for a rank that is in no set. -/
def State.lineAt (s : State) (rank off : Nat) : Option Nat :=
  s.dram.sets.findSome? (fun (k, m) =>
    (m.findIdx? (fun r => r == rank)).map (fun i => ((s.setBase k) * 2 ^ 30 + (off / 256 * m.length + i) * 256 + off % 256) / 64))

/-- Bytes that the copy has passed (R559). -/
def State.watermark (s : State) : Nat :=
  match s.dram.migration with
  | none => 0
  | some m => min (gibBytes (s.rank m.src).gib) (m.done + m.mbps * (s.now - m.startAt) / 1000000)

/-- The rank that serves a line. -/
def State.servedBy (s : State) (line : Nat) : Option Nat :=
  (s.locate line).map (fun (r, off) =>
    match s.dram.migration with
    | some m => if m.src = r ∧ off < s.watermark then m.dst else r
    | none => r)

/-! ### Retirement and migration (R557-R561) -/

/-- The copy rate in MB/s: MIG_MBPS, or half of the Farrier's budget when that is lower. -/
def State.migRate (s : State) : Nat := min (s.fld 0x0E 12 2) (s.clientBps 8 / 2000000)

/-- Is a rank a free spare? -/
def State.freeSpare (s : State) (k : Nat) : Bool :=
  (s.rank k).state == .spare && !(s.dram.migration.any (fun m => m.dst == k)) && !(s.dram.services.any (fun v => v.left.contains k))

/-- The lowest free spare that is large enough for a rank. -/
def State.spareFor (s : State) (k : Nat) : Option Nat :=
  (List.range 48).find? (fun j => s.freeSpare j && decide ((s.rank k).gib ≤ (s.rank j).gib))

/-- Channel and rank as events name them. -/
def rankBits (k : Nat) : Nat := k / 4 + k % 4 * 16

/-- Does a rank hold contents: a set member or a spare in use? -/
def Rank.holds (r : Rank) : Bool :=
  match r.state with
  | .member => true
  | .spareInUse => true
  | .migrating => true
  | .degraded => true
  | _ => false

/-- The copy into a spare that is retired starts anew on another spare, or its source waits DEGRADED (R561). -/
def State.restartCopy (s : State) (m : Migration) : State :=
  let s := (s.addCnt (faCtr 8) (s.watermark / 64)).modDram (fun d => { d with migration := none })
  match s.spareFor m.src with
  | some j => s.modDram (fun d => { d with migration := some { src := m.src, dst := j, startAt := s.now, mbps := s.migRate } })
  | none =>
    ((s.modRank m.src (fun r => { r with state := .degraded })).modDram (fun d => { d with queue := m.src :: d.queue })).event 30
      (rankBits m.src)

/-- A rank meets a criterion of R557. One that waits or migrates already is not retired a second time. -/
def State.retire (s : State) (k reason : Nat) : State :=
  let said := rankBits k + reason * 256
  match (s.rank k).state with
  | .member | .spareInUse =>
    let s := (s.modRank k (fun r => { r with reason })).event 29 said
    let at_once := s.dram.migration.isNone && s.dram.queue.isEmpty && (s.spareFor k).isSome
    let s := s.modDram (fun d => { d with queue := d.queue ++ [k] })
    if at_once then s.modRank k (fun r => { r with state := .migrating })
    else (s.modRank k (fun r => { r with state := .degraded })).event 30 (rankBits k)
  | .spare =>
    let s := ((s.modRank k (fun r => { r with state := .retired, reason })).event 29 said).bump (faCtr 40)
    let s := match s.dram.migration with
      | some m => if m.dst = k then s.restartCopy m else s
      | none => s
    forEach s.dram.queue (fun q s => if (s.rank q).state = .migrating ∧ (s.spareFor q).isNone then
      (s.modRank q (fun r => { r with state := .degraded })).event 30 (rankBits q) else s) s
  | _ => s

/-- MIGRATION_START: the rank that has waited longest among those that find a free spare. -/
def migrationStart (s : State) : State :=
  if s.dram.migration.isSome ∨ s.power.mode = .keep then s
  else
    match s.dram.queue.find? (fun k => (s.spareFor k).isSome) with
    | none => s
    | some k =>
      match s.spareFor k with
      | none => s
      | some j =>
        (s.modRank k (fun r => { r with state := .migrating })).modDram (fun d => { d with
          queue := d.queue.filter (· != k), migration := some { src := k, dst := j, startAt := s.now, mbps := s.migRate } })

/-- The copy has ended: the spare takes the place of the retired rank. -/
def State.migrated (s : State) (m : Migration) : State :=
  let set := (s.rank m.src).set
  let bad := (s.dram.poison.filter (fun l => (s.locate l).any (fun x => x.1 == m.src))).length
  let s := ((s.bump (faCtr 0)).addCnt (faCtr 8) (gibLines (s.rank m.src).gib)).addCnt (mcCtr (m.dst / 4) 88) bad
  let s := s.modDram (fun d => { d with
    migration := none, sets := d.sets.map (fun (k, l) => (k, l.map (fun r => if r = m.src then m.dst else r)))
    poisonRanks := d.poisonRanks.map (fun r => if r = m.src then m.dst else r) })
  let s := (s.modRank m.dst (fun r => { r with state := .spareInUse, set })).modRank m.src (fun r => { r with state := .retired, set := 0xFF })
  s.event 31 (rankBits m.src + (m.dst / 4) * 2 ^ 8 + (m.dst % 4) * 2 ^ 12)

/-- MIGRATION_COMPLETE, once the watermark has reached the end of the rank. -/
def migrationComplete (s : State) : State :=
  match s.dram.migration with
  | none => s
  | some m => if gibBytes (s.rank m.src).gib ≤ s.watermark then s.migrated m else s

/-! ### Errors and poison (R553-R556) -/

/-- Is a line poisoned? -/
def State.lineBad (s : State) (line : Nat) : Bool :=
  s.dram.poison.contains line ||
    (!s.dram.cleared.contains line && (s.locate line).any (fun x => s.dram.poisonRanks.contains x.1))

/-- Poison is written to a line. -/
def State.poisonLine (s : State) (c line : Nat) : State :=
  (s.modDram (fun d => { d with poison := if d.poison.contains line then d.poison else line :: d.poison })).bump (mcCtr c 88)

/-- Entries of the last 400 ticks. -/
def recent (tick : Nat) (l : List Nat) : List Nat := l.filter (fun t => decide (tick < t + 400))

/-- A corrected error on a rank: counted, the line rewritten, and CE_LIMIT judged (R553, R557). -/
def State.corrected (s : State) (k : Nat) : State :=
  let s := ((s.bump (mcCtr (k / 4) 56)).bump (mcCtr (k / 4) (128 + 8 * (k % 4)))).bump (faCtr 24)
  let s := s.modRank k (fun r => { r with ceTicks := s.tick :: recent s.tick r.ceTicks })
  let limit := s.fld 0x0E 4 4
  if limit ≠ 0 ∧ limit ≤ (s.rank k).ceTicks.length then s.retire k 2 else s

/-- An uncorrectable read on a rank: the line is poisoned, said once a tick for the rank, and the rank is retired (R555, R557). `addr` is
the line's device address / 64. -/
def State.uncorrectable (s : State) (k addr : Nat) : State :=
  let c := k / 4
  let s := s.bump (mcCtr c 64)
  let s := if (s.rank k).poisonTick = some s.tick then s
    else (s.modRank k (fun r => { r with poisonTick := some s.tick })).event 27 (rankBits k + addr % 2 ^ 40 * 256)
  s.retire k 1

/-- The consumer group of R556 that a client reads for; composition reads pictures from the decode region, its cache from its own. -/
def State.consumer (s : State) (client line : Nat) : Option Nat :=
  if client < 8 then some 0
  else if client < 16 then some 1
  else if client < 24 then
    (let (base, size, _) := s.region 4
     if base * 16384 ≤ line ∧ line < (base + size) * 16384 then some 3 else some 2)
  else if client = 24 then some 4
  else if client = 25 then some 5
  else if client = 26 then some 8
  else if client = 27 then some 6
  else if client = 30 then some 9
  else none

/-- A spilled frame at a place of a queue is discarded; 13 R556 names no counter of its own but that of its group, which a frame of a
pending source advances when that source is confirmed. -/
def State.spillLost (s : State) (q item : Nat) : State :=
  let l := q / 8
  let c := q % 8
  let queue := if q < 512 then s.direct l c else s.legq (q - 512)
  match queue[item]? with
  | none => s
  | some f =>
    if f.spilled = false then s
    else
      let rest := queue.take item ++ queue.drop (item + 1)
      let y := if q < 512 then yardOf l else ((look s.objs.legs (q - 512)).map (fun x => yardOf x.lport)).getD 0
      let s := (s.release f).dropQ f (faCtr 88) y
      if q < 512 then s.setDirect l c rest else s.setLegq (q - 512) rest

/-- An operation whose saved context is lost ends as if its budget had run out (R556). -/
def State.contextLost (s : State) (op : Nat) : State :=
  match s.runningOp op with
  | none => s
  | some o =>
    match o.kind with
    | .kernel _ _ _ _ => s.endKernel (8 * o.yard + o.unit.getD 0) .overrun
    | _ => s.overrunOp o {}

/-- What a consumer makes of a poisoned line (R556). `obj` and `item` name what was read: an operation (0, 1, 9); an operation and a tile
(2); an overlay cache entry (3); a stream and a packet (4); a queue and a place in it (5); a room and a position (6); an index and its
kind (8). -/
def State.consumed (s : State) (g obj item : Nat) : State :=
  let s := if g = 5 then s else s.bump (faCtr (48 + 8 * g))
  match g with
  | 0 => s.modOp obj (fun o => { o with poisoned := true })
  | 1 => s.modOp obj (fun o => { o with poisoned := true })
  | 2 =>
    (match (s.opAt obj).map Op.kind with
     | some (OpKind.compose room n) =>
       let hold1 := match look s.objs.rooms room with
         | some r => bit (s.setFld (r.tf 4 1) 5 1) 1
         | none => false
       s.modCanvas room (fun c => { c with pics := c.pics.map (fun p => if p.num = n then
         { p with tiles := p.tiles.map (fun x =>
             let without (t : Target) (num : Nat) : TileShow :=
               let sh := t.showsWithout p.boundary hold1 num
               { x with shown := sh, pic := t.image sh }
             if x.tile = item then
               match x.shown, s.target x.target with
               | .picture num _, some t => without t num
               | .held num _, some t => without t num
               | _, _ => x
             else x) } else p) })
     | _ => s)
  | 3 => s.modMedia (fun m => { m with overlays := adj m.overlays obj (fun o => { o with drawn := false }) })
  | 4 => s.modStream obj (fun x => { x with hist := x.hist.filter (fun h => h.ext != item) })
  | 5 => s.spillLost obj item
  | 6 =>
    let (t, s) := s.draw (2 ^ 64)
    s.modRoom obj (fun r => { r with logBad := if r.logBad.any (fun x => x.1 == item) then r.logBad else (item, t) :: r.logBad })
  | 8 => s.modObjs (fun o => { o with poisonDue := if o.poisonDue.contains (item, obj) then o.poisonDue else o.poisonDue ++ [(item, obj)] })
  | _ => s.contextLost obj

/-- The budget of a client in bytes/s (R547); none for clients 30 and 31. -/
def State.clientBudget (s : State) (client : Nat) : Option Nat :=
  if client < 24 then some (s.yardShare (client / 8) (client % 8))
  else if client < 30 then some (s.clientBps (client - 21))
  else none

/-- Urgency of a request by its age against LAT_NS, one lower while its client has gone beyond its budget in this tick (R548). -/
def State.urgency (s : State) (client : Nat) (a : DramAccess) : Nat :=
  let lat := s.fld 0x0E (16 + 2 * client) 2 * 1000
  let u := if 2 * a.age < lat then 0 else if 4 * a.age < 3 * lat then 1 else if a.age < lat then 2 else 3
  if (s.clientBudget client).any (fun b => decide (b * 2500 < a.used * 1000000)) then u - 1 else u

/-- A read that a channel has issued: line, row and urgency are counted (R575). -/
def State.issued (s : State) (c client : Nat) (a : DramAccess) : State :=
  let row := match a.row with
    | .hit => 16
    | .miss => 24
    | .conflict => 32
  ((s.bump (mcCtr c 0)).bump (mcCtr c row)).bump (mcCtr c (96 + 8 * s.urgency client a))

/-- A line that reads clean has been written in full since its poison (R555). -/
def State.unpoison (s : State) (line : Nat) : State :=
  if s.lineBad line then s.modDram (fun d => { d with
    poison := d.poison.filter (· != line), cleared := if d.poisonRanks = [] then d.cleared else line :: d.cleared })
  else s

/-- What a consumer makes of a poisoned line that it has read. -/
def State.given (s : State) (u : DramUse) : State :=
  match s.consumer u.client u.line with
  | some g => s.consumed g u.obj u.item
  | none => s

/-- A read on rank k finds its line uncorrectable.  The first 8 GiB are kept twice: there `item` 1 says that the other copy cannot be read
either, which ends in SAFE, with `cut` the ports in the reception of a frame; else the other copy is used and the first rewritten (R539). -/
def State.readFails (s : State) (k : Nat) (u : DramUse) (cut : List Nat) : State :=
  let s := s.uncorrectable k u.line
  if u.line < 2 ^ 27 then
    (if u.item = 1 then ((s.poisonLine (k / 4) u.line).receiving cut).enterSafe 2 else s.bump (mcCtr (k / 4) 88))
  else (s.poisonLine (k / 4) u.line).given u

/-- DRAM_READ: a read is issued; what it finds of its line, and what its consumer makes of it. -/
def dramRead (u : DramUse) (a : DramAccess) (res : ReadResult) (cut : List Nat) (s : State) : State :=
  match s.servedBy u.line with
  | none => s
  | some k =>
    let s := s.issued (k / 4) u.client a
    match res with
    | .clean => s.unpoison u.line
    | .corrected => s.corrected k
    | .uncorrectable => s.readFails k u cut
    | .poisoned => if u.line < 2 ^ 27 ∧ u.client ≠ 30 then s else s.given u

/-- CONTEXT_POISON_DELETE: at the tick boundary after it, an object whose context is poisoned is deleted, its children with it. -/
def contextPoisonDelete (s : State) : State :=
  if s.now ≠ s.tickAt then s
  else
    let due := s.objs.poisonDue
    let s := s.modObjs (fun o => { o with poisonDue := [] })
    forEach due (fun (kind, i) s =>
      match kind with
      | 0 => (match look s.objs.rooms i with
        | some r => (s.deleteRoom i).event 28 (roomHandle i r.inc) r.owner
        | none => s)
      | 1 => (match look s.objs.legs i with
        | some l => (s.deleteLeg i).event 28 (legHandle i l.inc + 2 ^ 32) l.owner
        | none => s)
      | _ => (match look s.objs.streams i with
        | some x => (s.deleteStream i).event 28 (streamHandle i x.inc + 2 * 2 ^ 32) x.owner
        | none => s)) s

/-- CA_PARITY_ERROR: the commands are retried; when that fails, the reads are uncorrectable, and the lines of the writes are poisoned
(R554). -/
def caParityError (c r : Nat) (retryOk : Bool) (reads : List DramUse) (writes : List Nat) (s : State) : State :=
  let k := 4 * c + r
  if 12 ≤ c ∨ 4 ≤ r ∨ (s.rank k).inService = false then s
  else
    let s := s.modRank k (fun x => { x with parityTicks := s.tick :: recent s.tick x.parityTicks })
    let s := if retryOk then s.bump (mcCtr c 72)
      else
        let s := s.bump (mcCtr c 80)
        let s := forEach reads (fun u s => s.readFails k u []) s
        forEach writes (fun l s => s.poisonLine c l) s
    if s.fld 0x0E 8 2 ≤ (s.rank k).parityTicks.length then s.retire k 3 else s

/-! ### Patrol scrub (R562) -/

/-- The rank and byte offset at a place of the patrol, over the ranks in service in order. -/
def patrolAt (pos : Nat) : List (Nat × Nat) → Option (Nat × Nat)
  | [] => none
  | (k, gib) :: rest => if pos < gibLines gib then some (k, pos * 64) else patrolAt (pos - gibLines gib) rest

/-- Ranks in service with their sizes. -/
def State.patrolRanks (s : State) : List (Nat × Nat) :=
  s.dram.ranks.filterMap (fun (k, r) => if r.inService then some (k, r.gib) else none)

/-- PATROL_SCRUB: the next line is read, corrected or poisoned, and the patrol goes on. A line of an idle spare has no device address;
what MC_POISON gives for it is a free value. -/
def patrolScrub (res : ReadResult) (s : State) : State :=
  let ranks := s.patrolRanks
  let total := (ranks.map (fun x => gibLines x.2)).sum
  if total = 0 ∨ s.power.mode = .keep then s
  else
    match patrolAt (s.dram.scrubPos % total) ranks with
    | none => s
    | some (k, off) =>
      let s := (s.bump (faCtr 16)).modDram (fun d => { d with scrubPos := (d.scrubPos % total + 1) % total })
      match res with
      | .corrected => s.corrected k
      | .uncorrectable =>
        (match s.lineAt k off with
         | some line => (s.uncorrectable k line).poisonLine (k / 4) line
         | none =>
           let (a, s) := s.draw (2 ^ 40)
           (s.uncorrectable k a).bump (mcCtr (k / 4) 88))
      | _ => s

/-! ### Refresh and temperature (R550-R552) -/

/-- The most refreshes a rank may owe. -/
def State.oweLimit (s : State) (r : Rank) : Nat := if bit (s.fld 0x0E 14 1) 0 = false then 0 else if r.mode2x then 2 else 4

/-- Notes the largest owed of a tick. -/
def Rank.noteOwed (r : Rank) (tick : Nat) : Rank :=
  { r with maxOwed := match r.maxOwed with
      | (t, n) :: rest => if t = tick then (t, max n r.owed) :: rest else (tick, r.owed) :: (r.maxOwed.filter (fun x => decide (tick < x.1 + 400)))
      | [] => [(tick, r.owed)] }

/-- A rank beyond its limit issues what is over at top urgency. -/
def State.clipOwed (s : State) (k : Nat) : State :=
  let r := s.rank k
  let above := r.owed - s.oweLimit r
  ((s.addCnt (mcCtr (k / 4) 40) above).addCnt (mcCtr (k / 4) 48) above).modRank k (fun r => { r with owed := r.owed - above })

/-- tREFI of a rank in ps. -/
def Rank.tRefi (r : Rank) : Nat := if r.mode2x then 1950000 else 3900000

/-- REFRESH_DUE: one tREFI after the one before, one more is owed, or at the limit one is issued at top urgency.  No refresh falls due in
KEEP (R563); when the first one does is not stated. -/
def refreshDue (c r : Nat) (s : State) : State :=
  let k := 4 * c + r
  if 12 ≤ c ∨ 4 ≤ r ∨ (s.rank k).inService = false ∨ s.power.mode = .keep ∨ (s.rank k).due.any (fun d => decide (s.now < d)) then s
  else (s.modRank k (fun x => { x with owed := x.owed + 1, due := some (x.due.getD s.now + x.tRefi) })).clipOwed k
    |>.modRank k (fun x => x.noteOwed s.tick)

/-- REFRESH_BATCH: the owed refreshes are issued back to back. -/
def refreshBatch (c r : Nat) (s : State) : State :=
  let k := 4 * c + r
  if 12 ≤ c ∨ 4 ≤ r ∨ (s.rank k).inService = false then s
  else (s.addCnt (mcCtr c 40) (s.rank k).owed).modRank k (fun x => { x with owed := 0 })

/-- Sensor of the DIMM a rank lies on. -/
def State.sensorOf (s : State) (k : Nat) : Int := (lookD s.dram.dimms (2 * (k / 4) + k % 4 / 2) {}).sensor

/-- A rank enters 2x mode: the next refresh falls due one new tREFI later. -/
def State.enter2x (s : State) (k : Nat) : State :=
  if (s.rank k).mode2x then s.modRank k (fun r => { r with cleanMr4 := 0 })
  else (s.modRank k (fun r => { r with mode2x := true, cleanMr4 := 0, due := some (s.now + 1950000) })).clipOwed k

/-- MR4_READ. -/
def mr4Read (c r : Nat) (doubled : Bool) (s : State) : State :=
  let k := 4 * c + r
  if 12 ≤ c ∨ 4 ≤ r ∨ (s.rank k).inService = false then s
  else if doubled then s.enter2x k
  else s.modRank k (fun x => { x with cleanMr4 := if s.sensorOf k < 85 then x.cleanMr4 + 1 else 0 })

/-- REFRESH_MODE_RETURN: after 64 reads without the request, the sensor below 85 °C. -/
def refreshModeReturn (c r : Nat) (s : State) : State :=
  let k := 4 * c + r
  if 12 ≤ c ∨ 4 ≤ r then s
  else if (s.rank k).mode2x ∧ 64 ≤ (s.rank k).cleanMr4 ∧ s.sensorOf k < 85 then
    s.modRank k (fun x => { x with mode2x := false, cleanMr4 := 0 })
  else s

/-- DIMM_SENSOR_READ. -/
def dimmSensorRead (c d : Nat) (temp : Int) (s : State) : State :=
  if 12 ≤ c ∨ 2 ≤ d ∨ (lookD s.dram.dimms (2 * c + d) {}).state ≠ 1 then s
  else
    let x := lookD s.dram.dimms (2 * c + d) {}
    let hot := decide (90 ≤ temp)
    let s := s.modDram (fun m => { m with
      dimms := put m.dimms (2 * c + d) { x with sensor := temp, hotSaid := if hot then true else x.hotSaid && decide (85 ≤ temp) } })
    let s := if hot ∧ x.hotSaid = false then (s.event 26 (c + d * 16 + unsgn 8 temp * 256)).modPins (fun p => { p with alert := true }) else s
    if 85 ≤ temp then
      forEach [2 * d, 2 * d + 1] (fun r s => if (s.rank (4 * c + r)).inService then s.enter2x (4 * c + r) else s) s
    else s

/-! ### BOOT: population, training and sets (R534-R537, R542) -/

/-- State of a DIMM slot, its type and the type in force apart (R534, R535, R568). -/
def dimmState (all : List DimmInfo) (d : DimmInfo) : Nat :=
  if d.spdOk = false then 4
  else if d.x4 = false ∨ d.ranks = 0 ∨ 2 < d.ranks ∨ d.gb < 16 ∨ 128 < d.gb ∨ (d.slot = 1 ∧ all.any (fun x => x.ch == d.ch && x.slot == 0) = false) then 3
  else 1

/-- DIMMs in the order A slot 0, A slot 1, B slot 0 and onwards. -/
def inOrder (l : List DimmInfo) : List DimmInfo :=
  (List.range 24).filterMap (fun n => l.find? (fun d => d.ch == n / 2 && d.slot == n % 2))

/-- Trains one rank: from its record, or by a sweep. Answers the rank and whether the table changes. -/
def State.trainRank (s : State) (table : Option Bytes) (d : DimmInfo) (q : Nat) : State × Bool :=
  let k := 4 * d.ch + 2 * d.slot + q
  let slot := 2 * d.ch + d.slot
  let rec_ := table.map (fun b => (b.drop (64 + 512 * slot)).take 512)
  let match_ := rec_.any (fun r => bit (byteAt r 0) 0 && le r 4 2 == d.mfr && le r 6 4 == d.serial && le r 10 2 == s.dram.rate)
  let outcome := d.training.getD q 0
  let gib := d.gb / d.ranks
  if match_ ∧ outcome = 0 then
    (s.modRank k (fun r => { r with state := .member, gib, train := trainWords ((((rec_.getD []).drop (32 + 176 * q))).take 176) }), false)
  else if outcome = 2 then ((s.modRank k (fun r => { r with state := .failed, reason := 5, gib })).event 24 (rankBits k), false)
  else
    let f := s.free
    ({ s.modRank k (fun r => { r with state := .member, gib, train := sweptWords f }) with free := f + 44 }, true)

/-- The members of set k among the trained ranks that are no spares; ranks of another size are excluded. -/
def State.formSet (s : State) (k : Nat) : State :=
  let cand := (List.range 12).filterMap (fun c => if (s.rank (4 * c + k)).state = .member then some (4 * c + k) else none)
  match cand with
  | [] => s
  | first :: _ =>
    let gib := (s.rank first).gib
    let members := cand.filter (fun r => (s.rank r).gib == gib)
    let s := forEach cand (fun r s => if (s.rank r).gib = gib then s.modRank r (fun x => { x with set := k })
      else s.modRank r (fun x => { x with state := .excluded, reason := 6 })) s
    s.modDram (fun d => { d with sets := put d.sets k members, setGib := put d.setGib k (members.length * gib) })

/-- Population, training and sets in BOOT. -/
def State.bootDram (s : State) (facts : BootFacts) : State :=
  let all := inOrder facts.dimms
  let usable0 := all.filter (fun d => dimmState all d == 1)
  let mr := (usable0.head?.map (·.mrdimm)).getD false
  let usable := usable0.filter (fun d => d.mrdimm == mr)
  let table := (s.flash.table).map (·.2)
  let cap := (table.map (fun b => le b 12 2)).getD 0
  let rate := usable.foldl (fun r d => min r d.maxRate) (if mr then 8800 else 6400)
  let rate := if cap = 0 then rate else min rate cap
  let spare := (table.map (fun b => le b 16 6)).getD 0
  let s := s.modDram (fun d => { d with
    mrdimm := mr, rate := if usable = [] then 0 else rate, spareMask := spare
    trained := (usable.map (·.ch)).eraseDups
    dimms := all.foldl (fun t x => put t (2 * x.ch + x.slot) {
      state := if dimmState all x = 1 ∧ x.mrdimm ≠ mr then 2 else dimmState all x, gb := x.gb, ranks := x.ranks, mfr := x.mfr
      serial := x.serial }) [] })
  let s := forEach (all.filter (fun d => d.spdOk && !usable.contains d)) (fun d s =>
    forEach (List.range (min 2 d.ranks)) (fun q s => s.modRank (4 * d.ch + 2 * d.slot + q) (fun r => { r with state := .excluded })) s) s
  let (s, changed) := usable.foldl (fun (acc : State × List Nat) d =>
    (List.range d.ranks).foldl (fun (acc : State × List Nat) q =>
      let (s, c) := acc.1.trainRank table d q
      (s, if c then acc.2 ++ [2 * d.ch + d.slot] else acc.2)) acc) (s, [])
  let s := forEach (List.range 48) (fun k s => if (s.rank k).state = .member ∧ bit spare k then s.modRank k (fun r => { r with state := .spare }) else s) s
  let s := forEach [0, 1, 2, 3] (fun k s => s.formSet k) s
  let s := if changed = [] then s
    else if facts.tableWriteOk then s.putTable changed.eraseDups else s.tableFailed
  s.modDram (fun d => { d with peakBoot := s.peakNow })

/-! ### KEEP (R563, R564) -/

/-- Does a range of MiB overlap a set? -/
def State.overlapsSet (s : State) (base size k : Nat) : Bool :=
  let lo := s.setBase k * 1024
  let hi := lo + lookD s.dram.setGib k 0 * 1024
  decide (base < hi ∧ lo < base + size)

/-- Is a set kept? -/
def State.setKept (s : State) (k : Nat) : Bool :=
  k == 0 || [1, 2, 3, 4, 5, 6, 7, 8].any (fun r => let (b, n, keep) := s.region r; keep && s.overlapsSet b n k)

/-- Is a region kept: does every set that it overlaps survive? -/
def State.regionKept (s : State) (kind : Nat) : Bool :=
  let (b, n, _) := s.region kind
  [0, 1, 2, 3].all (fun k => !s.overlapsSet b n k || s.setKept k)

/-- The ranks whose contents KEEP loses: those of sets that are not kept, and the spares. -/
def State.lostRanks (s : State) : List Nat :=
  s.dram.ranks.filterMap (fun (k, r) => if r.inService ∧ (r.set = 0xFF ∨ s.setKept r.set = false) then some k else none)

/-- Pictures in regions that were not kept hold zeros: of the decode region, of composition, and the overlay cache. -/
def Media.zeroPictures (m : Media) (dec comp : Bool) : Media :=
  let zero : Frame := .flat 0 0 0
  let bitmap (b : Bitmap) : Bitmap := if comp then b else { b with data := zeros b.data.length }
  let tile (x : TileShow) : TileShow := { x with
    pic := x.pic.map (fun i => if dec then i else { i with frame := zero }), label := x.label.map bitmap }
  let pic (p : CanvasPic) : CanvasPic := { p with
    tiles := p.tiles.map tile, overlays := p.overlays.map bitmap, frame := if comp then p.frame else zero }
  { m with
    targets := m.targets.map (fun (i, t) => (i, { t with pics := t.pics.map (fun p =>
      if dec then p else { p with frame := zero, work := zero, against := p.against.map (fun _ => zero) }) }))
    canvases := m.canvases.map (fun (i, c) => (i, { c with pics := c.pics.map pic }))
    overlays := m.overlays.map (fun (i, o) => (i, { o with bitmap := o.bitmap.map bitmap, newBitmap := o.newBitmap.map bitmap })) }

/-- Zeros are written over every rank whose contents were lost; regions that were not kept hold zeros.  Refresh begins anew. -/
def State.clearLost (s : State) : State :=
  let lost := s.lostRanks
  let gone (line : Nat) : Bool := (s.locate line).any (fun x => lost.contains x.1)
  let n := (lost.map (fun k => gibLines (s.rank k).gib)).sum
  let hist := s.regionKept 5
  let log := s.regionKept 7
  let ring := s.regionKept 8
  let (dec, comp) := (s.regionKept 2, s.regionKept 4)
  let s := ((s.addCnt (faCtr 32) n).modMedia (fun m => m.zeroPictures dec comp)).modDram (fun d => { d with
    ranks := d.ranks.map (fun (i, r) => (i, { r with due := none }))
    poison := d.poison.filter (fun l => !gone l), poisonRanks := d.poisonRanks.filter (fun k => !lost.contains k)
    analysis := d.analysis.filter (fun kv => !gone (kv.1 / 64)), moved := if ring then d.moved else none })
  let s := if hist then s else
    (s.modObjs (fun o => { o with streams := o.streams.map (fun (i, x) => (i, { x with hist := [] })) })).modMedia (fun m => { m with
      canvases := m.canvases.map (fun (i, c) => (i, { c with rungs := c.rungs.map (fun g => { g with hist := [] }) })) })
  if log then s else s.modObjs (fun o => { o with rooms := o.rooms.map (fun (i, r) => (i, { r with logRecs := [], logBad := [] })) })

/-! ### DRAM_SERVICE (R565-R567) -/

/-- RESULT of a RETRAIN or RESTORE whose last sweep was on a channel; bit 9, the table written, is added when it is. -/
def State.sweepResult (s : State) (v : Service) (c : Nat) : Nat :=
  let on := [0, 1, 2, 3].filter (fun r => (s.rank (4 * c + r)).inService)
  let failed := [0, 1, 2, 3].filter (fun r => v.bad.contains (4 * c + r))
  (on.map (2 ^ ·)).sum + (failed.map (2 ^ ·)).sum * 16 + b2n (on == []) * 256

/-- A rank that is to be swept and holds contents is migrated first, unless FORCE gives them up; one that finds no free spare any more
is left alone. -/
def readySweep : Nat → State → State
  | 0, s => s
  | n + 1, s =>
    match s.dram.services with
    | v :: rest =>
      (match v.left with
       | k :: more =>
         if (s.rank k).holds = false ∨ v.force then s
         else if s.dram.migration.any (fun m => m.src == k) ∨ s.dram.queue.contains k then s
         else if (s.spareFor k).isSome then
           (s.modRank k (fun r => { r with state := .migrating })).modDram (fun d => { d with queue := k :: d.queue })
         else readySweep n (s.modDram (fun d => { d with services := { v with left := more } :: rest }))
       | [] => s)
    | [] => s

/-- A DRAM_SERVICE sweep ends: the write of the table joins the flash operations (03 R166) and the command completes with it, or at
once when there is none. -/
def State.endSweep (s : State) (v : Service) (last : Nat) : State :=
  let result := s.sweepResult v last
  let s := s.modDram (fun d => { d with services := d.services.drop 1 })
  let slots := (v.good.map (fun k => 2 * (k / 4) + k % 4 / 2)).eraseDups
  readySweep 48 (if v.noTable = false ∧ v.good ≠ [] ∧ s.flash.tableOff.isSome then
      s.modFlash (fun f => { f with ops := f.ops ++ [.table slots v.port v.ring v.seq result] })
    else s.complete v.port v.ring v.seq stOk result)

/-- RANK_SWEEP_DONE: the sweep of the first rank that is left ends. -/
def rankSweepDone (c r : Nat) (ok : Bool) (s : State) : State :=
  let k := 4 * c + r
  match s.dram.services with
  | [] => s
  | v :: rest =>
    if v.left.head? ≠ some k ∨ ((s.rank k).holds ∧ v.force = false) then s
    else
      let held := (s.rank k).holds
      let f := s.free
      let s := if ok then
          { s.modRank k (fun x => { x with
              state := if held then x.state else .spare, reason := if held then x.reason else 0, set := if held then x.set else 0xFF
              train := sweptWords f }) with free := f + 44 }
        else s.modRank k (fun x => { x with state := .failed, reason := 5 })
      let s := if held ∧ ok then s.modDram (fun d => { d with
          poisonRanks := if d.poisonRanks.contains k then d.poisonRanks else k :: d.poisonRanks
          cleared := d.cleared.filter (fun l => !(s.locate l).any (fun x => x.1 == k)) }) else s
      let s := if held ∧ ok then s.addCnt (mcCtr c 88) (gibLines (s.rank k).gib) else s
      let v := { v with
        left := v.left.drop 1, good := if ok then v.good ++ [k] else v.good, bad := if ok then v.bad else v.bad ++ [k] }
      let s := s.modDram (fun d => { d with services := v :: rest, queue := d.queue.filter (fun q => ok || q != k) })
      let s := readySweep 48 s
      match s.dram.services with
      | w :: _ => if w.left = [] then s.endSweep w c else s
      | [] => s

/-- The ranks that a RETRAIN names; none when one of them is absent, retired or excluded, or no rank is. -/
def State.namedRanks (s : State) (ch rk : Nat) : Option (List Nat) :=
  let chs := if ch = 0xFF then List.range 12 else [ch]
  let usable (k : Nat) : Bool := match (s.rank k).state with
    | .absent => false
    | .retired => false
    | .excluded => false
    | _ => true
  let l := chs.flatMap (fun c => if rk = 0xFF then ([0, 1, 2, 3].map (4 * c + ·)).filter usable else [4 * c + rk])
  if (ch ≠ 0xFF ∧ 12 ≤ ch) ∨ (rk ≠ 0xFF ∧ 4 ≤ rk) ∨ l = [] ∨ l.any (fun k => !usable k) then none else some l

/-- A sweep joins those that wait; the first of them begins. -/
def State.addSweep (s : State) (v : Service) : State :=
  let s := s.modDram (fun d => { d with services := d.services ++ [v] })
  if s.dram.services.length = 1 then readySweep 48 s else s

/-- A byte of the analysis region: a byte that nothing has written reads 0 (notes/assumptions/35.md), or, once a switch has moved the
region, an undefined value unless it lies in the ring of a live room, which its clearing has written (R574). -/
def State.analysisByte (s : State) (a : Nat) : Byte :=
  let base := (s.region 8).1 * 1048576
  let kib := s.fld 0x0B 0 4
  let ring : Bool := s.media.canvases.any (fun kv => decide (base + kv.1 * kib * 1024 ≤ a ∧ a < base + (kv.1 + 1) * kib * 1024))
  match look s.dram.analysis a, s.dram.moved with
  | none, some f => if ring then 0 else BitVec.ofNat 8 (Config.freeNat (f + (a - base)))
  | _, _ => memRead (0 : Byte) s.dram.analysis a

/-- READ: the range is copied, a poisoned line as 0xFF. -/
def serviceRead (p r seq : Nat) (d : Desc) (s : State) : State :=
  let a := dfld d 32 8
  let (base, size, _) := s.region 8
  if d.length % 64 ≠ 0 ∨ 8388608 < d.length ∨ dfld d 24 8 % 64 ≠ 0 ∨ a % 64 ≠ 0 ∨ a < base * 1048576 ∨ (base + size) * 1048576 < a + d.length then
    s.complete p r seq stBadParam
  else
    let lines := (List.range (d.length / 64)).map (fun i => a / 64 + i)
    let bad := (lines.filter s.lineBad).length
    let data := lines.flatMap (fun l => if s.lineBad l then List.replicate 64 0xFF else (List.range 64).map (fun i => s.analysisByte (64 * l + i)))
    ((s.addCnt (faCtr 104) bad).hostWrite p (dfld d 24 8) data).startDma p r seq (.write (d.length + satU 8 bad * 2 ^ 24))

/-- RETRAIN. -/
def serviceRetrain (p r seq : Nat) (d : Desc) (s : State) : State :=
  if s.power.mode ≠ .service then s.complete p r seq stWrongMode
  else if s.isOwner p = false then s.complete p r seq stNotOwner
  else
    match s.namedRanks (dfld d 17 1) (dfld d 18 1) with
    | none => s.complete p r seq stBadParam
    | some l =>
      let force := bit (dfld d 19 1) 0
      if force = false ∧ l.any (fun k => (s.rank k).holds && (s.spareFor k).isNone) then s.complete p r seq stNoCapacity
      else s.addSweep { port := p, ring := r, seq, restore := false, force, noTable := bit (dfld d 19 1) 1, left := l }

/-- RETIRE: a member needs a free spare. -/
def serviceRetire (p r seq : Nat) (d : Desc) (s : State) : State :=
  let c := dfld d 17 1
  let k := 4 * c + dfld d 18 1
  let st := (s.rank k).state
  if s.isOwner p = false then s.complete p r seq stNotOwner
  else if 12 ≤ c ∨ 4 ≤ dfld d 18 1 ∨ ¬((st = .member ∨ st = .spareInUse ∨ st = .degraded) ∨ (st = .spare ∧ s.freeSpare k)) then
    s.complete p r seq stBadParam
  else if st ≠ .spare ∧ (s.spareFor k).isNone then s.complete p r seq stNoCapacity
  else (s.retire k 4).complete p r seq stOk

/-- RESTORE. -/
def serviceRestore (p r seq : Nat) (d : Desc) (s : State) : State :=
  let c := dfld d 17 1
  let k := 4 * c + dfld d 18 1
  if s.power.mode ≠ .service then s.complete p r seq stWrongMode
  else if s.isOwner p = false then s.complete p r seq stNotOwner
  else if 12 ≤ c ∨ 4 ≤ dfld d 18 1 ∨ ¬((s.rank k).state = .retired ∨ (s.rank k).state = .failed) then s.complete p r seq stBadParam
  else s.addSweep { port := p, ring := r, seq, restore := true, force := false, noTable := bit (dfld d 19 1) 1, left := [k] }

/-- DRAM_SERVICE, once fetched. -/
def dramService (p r seq : Nat) (d : Desc) (s : State) : State :=
  match dfld d 16 1 with
  | 0 => serviceRead p r seq d s
  | 1 => serviceRetrain p r seq d s
  | 2 => serviceRetire p r seq d s
  | 3 => serviceRestore p r seq d s
  | _ => s.complete p r seq stBadParam

/-- The descriptor of a DRAM_SERVICE row: its OP byte is the row's. -/
def withOp (op : Nat) (d : Desc) : Desc := { d with body := splice (padTo 48 d.body) 0 (leBytes 1 op) }

/-- The fetch of a DRAM_SERVICE. -/
def fetchDramService (p r : Nat) (d : Desc) (s : State) : State := fetchDesc 0x20 p r d (fun seq s => dramService p r seq d s) s

/-! ### The commands of this file -/

/-- DRAM_SERVICE_READ (R566). -/
def execDramServiceRead (t p r : Nat) (d : Desc) (s : State) : Host.Outcome State Fault Refusal := .next (fetchDramService p r (withOp 0 d) (s.at t))

/-- DRAM_SERVICE_RETRAIN (R567). -/
def execDramServiceRetrain (t p r : Nat) (d : Desc) (s : State) : Host.Outcome State Fault Refusal :=
  .next (fetchDramService p r (withOp 1 d) (s.at t))

/-- DRAM_SERVICE_RETIRE (R566). -/
def execDramServiceRetire (t p r : Nat) (d : Desc) (s : State) : Host.Outcome State Fault Refusal :=
  .next (fetchDramService p r (withOp 2 d) (s.at t))

/-- DRAM_SERVICE_RESTORE (R566). -/
def execDramServiceRestore (t p r : Nat) (d : Desc) (s : State) : Host.Outcome State Fault Refusal :=
  .next (fetchDramService p r (withOp 3 d) (s.at t))

/-- REFRESH_DUE (R550). -/
def execRefreshDue (t ch rank : Nat) (s : State) : Host.Outcome State Fault Refusal := .next (refreshDue ch rank (s.at t))

/-- REFRESH_BATCH (R550). -/
def execRefreshBatch (t ch rank : Nat) (s : State) : Host.Outcome State Fault Refusal := .next (refreshBatch ch rank (s.at t))

/-- MR4_READ (R551). -/
def execMr4Read (t ch rank : Nat) (doubled : Bool) (s : State) : Host.Outcome State Fault Refusal := .next (mr4Read ch rank doubled (s.at t))

/-- REFRESH_MODE_RETURN (R551). -/
def execRefreshModeReturn (t ch rank : Nat) (s : State) : Host.Outcome State Fault Refusal := .next (refreshModeReturn ch rank (s.at t))

/-- DIMM_SENSOR_READ (R551, R552). -/
def execDimmSensorRead (t ch slot : Nat) (temp : Int) (s : State) : Host.Outcome State Fault Refusal :=
  .next (dimmSensorRead ch slot temp (s.at t))

/-- DRAM_READ (R553). -/
def execDramRead (t client line obj item : Nat) (res : ReadEnd) (s : State) : Host.Outcome State Fault Refusal :=
  .next (dramRead { client, line, obj, item } res.acc res.found res.cut (s.at t))

/-- CONTEXT_POISON_DELETE (R556). -/
def execContextPoisonDelete (t : Nat) (s : State) : Host.Outcome State Fault Refusal := .next (contextPoisonDelete (s.at t))

/-- CA_PARITY_ERROR (R554). -/
def execCaParityError (t ch rank : Nat) (retryOk : Bool) (reads : List DramUse) (writes : List Nat) (s : State) :
    Host.Outcome State Fault Refusal :=
  .next (caParityError ch rank retryOk reads writes (s.at t))

/-- MIGRATION_START (R559). -/
def execMigrationStart (t : Nat) (s : State) : Host.Outcome State Fault Refusal := .next (migrationStart (s.at t))

/-- MIGRATION_COMPLETE (R559). -/
def execMigrationComplete (t : Nat) (s : State) : Host.Outcome State Fault Refusal := .next (migrationComplete (s.at t))

/-- PATROL_SCRUB (R562). -/
def execPatrolScrub (t : Nat) (res : ReadResult) (s : State) : Host.Outcome State Fault Refusal := .next (patrolScrub res (s.at t))

/-- RANK_SWEEP_DONE (R567). -/
def execRankSweepDone (t ch rank : Nat) (reads writes : Bool) (s : State) : Host.Outcome State Fault Refusal :=
  .next (rankSweepDone ch rank (reads && writes) (s.at t))

end Sys2Proof.Machine
end

