-- ==== Sys2Proof/Machine/Generations.lean ====
section
/-! DEFINITION. Configuration generations (03): submission and validation, the switch of a tick boundary (R138-R142), probation and
its criteria (R144-R146), keeping (R153) and returns (R147-R150). -/
namespace Sys2Proof.Machine

/-! ### The switch (R138-R142; 01 R67) -/

/-- Each shaped queue that a switch makes shaped starts with no credit; a leg queue whose class is no longer MEDIA joins the direct
queue (07 R304, R313). -/
def State.switchQueues (s : State) (old : Option Tack) : State :=
  let s := forEach (List.range 512) (fun k s =>
    if bit (tfld old 7 (32 * k) 1) 0 = false ∧ s.shaped (k / 8) (k % 8) then
      s.modShaper (k / 8) (k % 8) (fun x => { x with credit := 0, at_ := s.now }) else s) s
  forEach (s.objs.legs.map (·.1)) (fun i s => s.requeue i) s

/-- Watermarks that a switch disables are released (07 R323). -/
def State.switchPools (s : State) : State :=
  s.modNet (fun n => { n with pools := n.pools.map (fun (k, p) =>
    (k, if s.poolFld k 12 = 0 then { p with latched := false, notice := [] } else p)) })

/-- Overlay tables and mix control tables that lie elsewhere are read anew (09 R385, 10 R446). -/
def State.switchTables (s : State) (old : Option Tack) : State :=
  let moved (kind off : Nat) : Bool := tfld old kind off 8 != s.fld kind off 8
  let s := s.modMedia (fun m => { m with overlays := m.overlays.map (fun (k, e) =>
    (k, if moved 0x0A (32 * (k / 2 ^ 24 % 2) + 8 * (k / 2 ^ 25)) then { e with seq := none, errSeq := none } else e)) })
  s.modObjs (fun o => { o with legs := o.legs.map (fun (i, l) =>
    (i, if moved 0x0C (8 * l.owner) then { l with mixSeq := 0, ctlRefusedSeq := none } else l)) })

/-- The analysis region moves, and a new ANALYSIS_KIB clears every ring (09 R403, 13 R574). -/
def State.switchAnalysis (s : State) (old : Option Tack) : State :=
  let capMib := s.capGib * 1024
  let r := s.region 8
  let s := if regionOf old capMib 8 = r then s
    else { s.modDram (fun d => { d with analysis := [], moved := some s.free }) with free := s.free + r.2.1 * 1048576 }
  if tfld old 0x0B 0 4 = s.fld 0x0B 0 4 then s else forEach (s.media.canvases.map (·.1)) (fun room s => s.clearRing room) s

/-- Every unpinned decision is brought inside its bounds (01 R67). -/
def State.switchBounds (s : State) : State :=
  let s := s.modObjs (fun o => { o with legs := o.legs.map (fun (i, l) =>
    (i, if l.pinRate ≠ 0 then l
      else if l.fbMode = 2 then { l with est := s.fld 6 12 4, estFrac := 0 }
      else
        let e := max (s.fld 6 8 4 * 2 ^ 32) (min (s.fld 6 12 4 * 2 ^ 32) l.e32)
        { l with est := e / 2 ^ 32, estFrac := e % 2 ^ 32 })) })
  forEach s.objs.rooms (fun (room, r) s =>
    let lad := r.tf 5 1
    s.modCanvas room (fun c => { c with rungs := c.rungs.zipIdx.map (fun (g, k) =>
      if bit (s.rungFld lad k 2 1) 2 then g
      else { g with rate := max (s.rungFld lad k 12 4) (min (s.rungFld lad k 16 4) g.rate) }) })) s

/-- A copy goes on at the rate in force (13 R574); postponement is limited anew (13 R551). -/
def State.switchDram (s : State) (mark : Nat) : State :=
  let s := s.modDram (fun d => { d with migration := d.migration.map (fun m => { m with done := mark, startAt := s.now, mbps := s.migRate }) })
  forEach (List.range 48) (fun k s => if (s.rank k).inService then s.clipOwed k else s) s

/-- A tack goes into force at a tick boundary: GEN_SWITCH, then every setting that changes with it. -/
def State.switchTo (s : State) (t : Tack) (commit : Bool) : State :=
  let s := forEach (List.range 512) (fun k s => s.clsSettle (k / 8) (k % 8)) s
  let mark := s.watermark
  let old := s.gens.cur
  let before := s.gen
  let s := s.modGens (fun g => { g with cur := some t, old := old, switching := true, autoReturn := none })
  let s := (s.bump (genCtr 112)).event 8 (t.gen + before * 2 ^ 32)
  let s := (s.switchPorts old (some t)).tbSwitch old commit
  let s := ((s.switchQueues old).switchPools.switchTables old).switchAnalysis old
  (s.switchBounds).switchDram mark

/-- SWITCH_COMPLETE: no frame stamped with the old generation is left in a generation-bound stage (R141). -/
def State.oldInFlight (s : State) : Bool :=
  let old := (s.gens.old.map (·.gen)).getD 0
  s.net.lports.any (fun kv => kv.2.rx.any (fun x => x.gen == old)) || s.net.hostWait.any (fun x => x.2.2.2.1 == old) ||
    s.dmas.any (fun x => x.use == .hostTx && x.gen == old)

/-- The old settings are released, and HnRDY with them. -/
def State.endSwitch (s : State) : State := s.modGens (fun g => { g with old := none, switching := false })

def switchComplete (s : State) : State := if s.gens.switching ∧ s.oldInFlight = false then s.endSwitch else s

/-! ### Criteria (R146, R151, R152) -/

/-- What the criteria count, since reset: stall and thyme overruns, ingress drops and frames, egress drops and frames, corrected
errors. -/
def State.healthCounts (s : State) : List Nat :=
  let yards (f : Nat → Nat) : Nat := ((List.range 8).map f).sum
  let ports (offs : List Nat) : Nat := ((List.range 64).map (fun l => (offs.map (fun o => s.cntOf (npCtr l o))).sum)).sum
  let rx := ports [16, 24, 32, 40, 48, 56, 64] + s.cntOf pool0Ctr
  let fwd := yards (fun y => ([16, 32, 48, 64].map (fun o => s.cntOf (fwCtr y o))).sum)
  let tx := ports [128, 144] + yards (fun y => ([0, 8, 16, 24, 32].map (fun o => s.cntOf (shCtr y o))).sum)
  [yards (fun y => s.cntOf (ostCtr y 0 16)), yards (fun y => s.cntOf (ostCtr y 1 16)), rx + fwd, ports [0] + rx, tx,
    s.cntOf offeredCtr, ((List.range 12).map (fun c => s.cntOf (mcCtr c 56))).sum]

/-- Uncorrectable errors since reset. -/
def State.uncorrected (s : State) : Nat := ((List.range 12).map (fun c => s.cntOf (mcCtr c 64))).sum

/-- Events in the window that ends now, of count k. -/
def State.windowCount (s : State) (k : Nat) : Nat :=
  let h := s.gens.history
  let at_ (l : List Nat) : Nat := (l.drop k).headD 0
  at_ (h.headD []) - at_ ((h.drop (min (s.fld 1 8 4) (h.length - 1))).headD [])

/-- Is criterion k enabled? -/
def State.healthOn (s : State) (k : Nat) : Bool := bit (s.fld 1 5 1) k

/-- Events per million. -/
def perMillion (n all : Nat) : Nat := if all = 0 then 0 else n * 1000000 / all

/-- Value of criterion k, 0 when it is disabled. -/
def State.healthValue (s : State) (k : Nat) : Nat :=
  if s.healthOn k = false then 0
  else match k with
    | 0 => s.windowCount 0
    | 1 => s.windowCount 1
    | 2 => perMillion (s.windowCount 2) (s.windowCount 3)
    | 3 => perMillion (s.windowCount 4) (s.windowCount 5)
    | 4 => [0, 1, 2, 3].foldl (fun n t => if bit (s.fld 1 28 1) t then max n (s.tbUnlockedMs t) else n) 0
    | 5 => s.windowCount 6
    | _ => s.uncorrected - s.gens.ueBase

/-- Does criterion k fail at this boundary?  The continuous unlock counts in whole ms, rounded down (DESIGN CHOICE,
notes/assumptions/105.md). -/
def State.healthFails (s : State) (k : Nat) : Bool :=
  let full := decide (s.fld 1 8 4 ≤ s.tick - s.gens.switchTick)
  s.healthOn k && (match k with
    | 0 => decide (s.fld 1 12 4 < s.windowCount 0)
    | 1 => decide (s.fld 1 16 4 < s.windowCount 1)
    | 2 => full && decide (s.fld 1 20 4 * s.windowCount 3 < s.windowCount 2 * 1000000)
    | 3 => full && decide (s.fld 1 24 4 * s.windowCount 5 < s.windowCount 4 * 1000000)
    | 4 => decide (s.fld 1 32 4 < s.healthValue 4)
    | 5 => decide (s.fld 1 36 4 < s.windowCount 6)
    | _ => decide (0 < s.healthValue 6))

/-! ### Keeping and probation (R144-R146, R150, R153, R160) -/

/-- The generation in force becomes KEPT by passing its probation, by a PROBATION_S of 0 or by ACCEPT. -/
def State.becomeKept (s : State) : State :=
  let boot := s.gens.atBoot
  let first := s.gens.isFirst
  let s := (s.modGens (fun g => { g with state := .kept, probLeft := 0, atBoot := false })).event 9 s.gen
  let s := if boot then s.changeRecord { attempts := some 0 } else s
  let s := if first then s.modFlash (fun f => { f with fuseRb := f.advance.getD f.fuseRb, advance := none }) else s
  if bit (s.fld 1 4 1) 0 ∧ s.gens.noFlash = false then s.writeSlot s.gen ((s.gens.cur.map (·.image)).getD []) else s

/-- A generation that is not a return enters PROBATION at its switch tick. -/
def State.startProbation (s : State) : State :=
  let s := s.modGens (fun g => { g with
    state := .probation, switchTick := s.tick, probLeft := s.fld 1 0 4 * 400, history := [s.healthCounts], ueBase := s.uncorrected
    isFirst := !g.everForced, everForced := true })
  if s.fld 1 0 4 = 0 then s.becomeKept else s

/-- The window advances to this boundary. -/
def State.measureHealth (s : State) : State :=
  s.modGens (fun g => { g with history := (s.healthCounts :: g.history).take (s.fld 1 8 4 + 1) })

/-- A criterion fails at this boundary: the return is set for the next, or the generation is FAILED (R147). -/
def State.failProbation (s : State) (k : Nat) : State :=
  let v := s.healthValue k
  if s.gens.parent.isSome then s.modGens (fun g => { g with autoReturn := some (s.tick + 1, k, v) })
  else (s.modGens (fun g => { g with state := .failed, probLeft := 0 })).event 11 (s.gen + k * 2 ^ 32 + satU 24 v * 2 ^ 40)

/-- Evaluation at a boundary: criteria of a generation on PROBATION, then its remaining ticks, of which those in KEEP and SAFE count
nothing (14 R581). -/
def State.probationTick (s : State) : State :=
  let s := s.measureHealth
  if s.gens.state ≠ .probation ∨ s.gens.autoReturn.isSome ∨ s.power.mode = .reset ∨ s.power.mode = .boot then s
  else
    match (List.range 7).find? s.healthFails with
    | some k => s.failProbation k
    | none =>
      if s.power.mode = .keep ∨ s.power.mode = .safe then s else s.modGens (fun g => { g with probLeft := g.probLeft - 1 })

/-- Probation has just ended without a failure. -/
def State.probationOver (s : State) : Bool := s.gens.state == .probation && s.gens.probLeft == 0 && s.gens.autoReturn.isNone

/-! ### Returns (R147-R150) -/

/-- The state record after a return to a generation that one slot holds (R150); when both hold it, slot A (DESIGN CHOICE,
notes/assumptions/106.md).  PROB_FAIL says whether the return that sets CURRENT was the automatic one of R150 (R158). -/
def State.returnRecord (s : State) (gen : Nat) (probFail : Bool) : State :=
  match [0, 1].find? (fun n => s.slotReason n == 0 && s.flash.slotGen n == gen) with
  | some n => s.changeRecord { current := some n, lastGood := some (1 - n), attempts := some 0, probFail := some probFail }
  | none => s

/-- The bridge returns to the parent, which is in force as KEPT: by itself for criterion k with value v, or as commanded. -/
def State.doReturn (s : State) (auto : Option (Nat × Nat)) : State :=
  match s.gens.parent with
  | none => s
  | some t =>
    let failed := s.gen
    let prob := auto.isSome && s.gens.atBoot && s.gens.state == .probation
    let s := s.switchTo t false
    let s := s.modGens (fun g => { g with
      parent := none, state := .kept, probLeft := 0, atBoot := false, isFirst := false, noFlash := false, switchTick := s.tick
      history := [s.healthCounts], ueBase := s.uncorrected })
    let s := match auto with
      | some (k, v) => (s.bump (genCtr 120)).event 10 (failed + k * 2 ^ 32 + satU 24 v * 2 ^ 40)
      | none => (s.bump (genCtr 128)).event 10 (failed + 0xFF * 2 ^ 32)
    s.returnRecord t.gen prob

/-! ### Commit (R137, R138) -/

/-- What reason 0x0E names first: KIND and detail (R136; 05, 06, 13 R573, 15 R613). -/
def State.commitConflict (s : State) (t : Tack) : Option (Nat × Nat) :=
  let c := some t
  let cap := s.capGib * 1024
  let rooms := !s.objs.rooms.isEmpty
  let holds (kind : Nat) : Bool := match kind with
    | 1 => rooms
    | 4 => regionUsed s.objs.adms 4 + s.ovlUsed != 0
    | 5 => s.histUsed != 0
    | 6 => s.net.spillBytes != 0
    | 7 => s.objs.rooms.any (fun kv => kv.2.logMib != 0)
    | 8 => s.fld 0x0B 0 4 != 0 && !s.media.canvases.isEmpty
    | k => regionUsed s.objs.adms k != 0
  ((s.objs.legs.map (fun kv => kv.2.lport)).foldl (fun best l =>
      if provides c l then best else some (min l (best.getD l))) none |>.map (fun l => (4, 0x0100 + l)))
  <|> ((s.objs.rooms.map (fun kv => kv.2.template)).foldl (fun best i =>
      if tpValid c i then best else some (min i (best.getD i))) none |>.map (fun i => (5, 0x0200 + i)))
  <|> (([1, 2, 3, 4, 5, 6, 7, 8].find? (fun k =>
      holds k && (let a := regionOf s.gens.cur cap k
                  let b := regionOf c cap k
                  a.1 != b.1 || a.2.1 != b.2.1))).map (fun k => (0x0E, 0x0300 + k)))
  <|> (if s.capGib < tfld c 0x0E 0 4 then some (0x0E, 0x0380) else none)
  <|> (((List.range 256).find? (fun x => rooms && srcInfo x == some (3, 1) && !(routeOf c x).en)).map (fun x => (0x10, 0x0400 + x)))

/-- A tack is rejected, at a submit or at a commit: RESULT as the snapshot keeps it (R167). -/
def State.tackRejected (s : State) (result : Nat) : State := (s.bump (genCtr 104)).modGens (fun g => { g with lastReason := result })

/-- TACK_COMMIT without ACCEPT at its effect tick: its outcome.  A tack that a commit rejects stays staged (DESIGN CHOICE,
notes/assumptions/104.md). -/
def applyCommit (p : Nat) (d : Desc) (s : State) : Out :=
  let bad (result : Nat) : Out := failOut (s.tackRejected result) stTackInvalid result
  if s.isOwner p = false then failOut s stNotOwner
  else if d.genview ≠ s.gen then failOut s stStaleGen
  else
    match s.gens.staged with
    | none => bad 0x0F
    | some t =>
      if t.gen ≠ dfld d 16 4 then bad 0x0F
      else if s.gens.state = .probation then bad 0x10
      else if s.gens.cur.any (fun c => c.gen != t.parent) then bad 0x09
      else
        match s.commitConflict t with
        | some (kind, detail) => bad (0x0E + kind * 256 + detail * 65536)
        | none =>
          let old := s.gens.cur
          let first := old.isNone
          let s := s.switchTo t true
          let s := s.modGens (fun g => { g with
            staged := none, parent := old, high := some t.gen, noFlash := bit (dfld d 20 1) 1, atBoot := false })
          let s := (s.changeRecord { highGen := some t.gen }).startProbation
          let s := if first ∧ s.power.mode = .standby ∧ bit (s.fld 0x0F 0 1) 0 then
            let keep := s.power.pend.filter (fun x => x.1 == .keep)
            (s.setMode .run).modPower (fun p => { p with pend := keep })
          else s
          okOut s

/-- TACK_COMMIT with ACCEPT at its effect tick (R145, R148). -/
def applyAccept (p : Nat) (d : Desc) (s : State) : Out :=
  if s.isOwner p = false then failOut s stNotOwner
  else if d.genview ≠ s.gen then failOut s stStaleGen
  else if s.gens.state ≠ .probation ∨ s.gen ≠ dfld d 16 4 ∨ s.gens.autoReturn.isSome then
    failOut (s.tackRejected 0x11) stTackInvalid 0x11
  else okOut ((s.modGens (fun g => { g with noFlash := g.noFlash || bit (dfld d 20 1) 1 })).becomeKept)

/-- TACK_ROLLBACK at its effect tick (R149). -/
def applyRollback (p : Nat) (d : Desc) (s : State) : Out :=
  if s.isOwner p = false then failOut s stNotOwner
  else if d.genview ≠ s.gen then failOut s stStaleGen
  else
    match s.gens.parent with
    | none => failOut s stNoParent
    | some t => if t.gen ≠ dfld d 16 4 then failOut s stBadParam else okOut (s.doReturn none)

/-- Is a waiting command one that would make a switch?  R143 defers a further one; a TACK_COMMIT with ACCEPT makes none, and is not
deferred (DESIGN CHOICE, notes/assumptions/103.md). -/
def Waiting.switches (w : Waiting) : Bool := w.opcode == 0x12 || (w.opcode == 0x11 && !bit (dfld w.desc 20 1) 0)

/-- Does a waiting rollback merge with the automatic return of this boundary (R148)? -/
def State.merges (s : State) (w : Waiting) : Bool :=
  w.opcode == 0x12 && w.effect.any (fun e => decide (e ≤ s.tickAt)) && s.isOwner w.port && w.desc.genview == s.gen &&
    s.gens.parent.any (fun t => t.gen == dfld w.desc 16 4)

/-- The automatic return that is due at this boundary. -/
def State.autoReturnNow (s : State) : State :=
  match s.gens.autoReturn with
  | none => s
  | some (_, k, v) =>
    match s.waiting.find? s.merges with
    | none => s.doReturn (some (k, v))
    | some w =>
      let s := ({ s with waiting := s.waiting.filter (fun x => x.seq != w.seq) }).doReturn none
      s.complete w.port w.ring w.seq stOk 0 (some s.tick)

/-! ### Submission and validation (R133-R136) -/

/-- A switch is set or in progress. -/
def State.switchSet (s : State) : Bool :=
  s.gens.switching || s.gens.autoReturn.isSome || s.waiting.any (fun w => w.switches)

/-- TACK_SUBMIT, once fetched (R134, R135). -/
def tackSubmit (p r seq : Nat) (d : Desc) (s : State) : State :=
  if s.isOwner p = false then s.complete p r seq stNotOwner
  else if d.genview ≠ s.gen then s.complete p r seq stStaleGen
  else if dfld d 16 8 % 64 ≠ 0 then s.complete p r seq stBadParam
  else if s.gens.validating.isSome ∨ s.switchSet then s.complete p r seq stBusy
  else
    let s := s.bump (genCtr 96)
    let readable : Bool := decide (256 ≤ d.length ∧ d.length ≤ 16777216)
    let s := s.modGens (fun g => { g with validating := some {
      port := p, ring := r, seq, length := d.length, image := if readable then none else some [], at_ := s.now } })
    if readable then s.startDma p r seq .tackImage else s

/-- The image under validation has been read, or its read has failed. -/
def State.tackRead (s : State) (port ring seq : Nat) (data : Option Bytes) : State :=
  match s.gens.validating with
  | some v =>
    if v.port = port ∧ v.ring = ring ∧ v.seq = seq then
      s.modGens (fun g => { g with validating := data.map (fun b => { v with image := some b }) })
    else s
  | none => s

/-- VALIDATION_END: the checks of R136 have run on the image. -/
def validationEnd (s : State) : State :=
  match s.gens.validating with
  | some v =>
    (match v.image with
     | none => s
     | some b =>
       let s := s.modGens (fun g => { g with validating := none })
       (match validateTack s.vctx v.length b with
        | some result => (s.tackRejected result).complete v.port v.ring v.seq stTackInvalid result
        | none =>
          let t := readTack b
          (s.modGens (fun g => { g with staged := some t })).complete v.port v.ring v.seq stOk t.gen))
  | none => s

/-! ### The commands of this file -/

/-- The selector bit that tells TACK_COMMIT from TACK_ACCEPT (R137). -/
def withAccept (on : Bool) (d : Desc) : Desc :=
  let b := padTo 48 d.body
  { d with body := splice b 4 [BitVec.ofNat 8 ((byteAt b 4 / 2) * 2 + b2n on)] }

def fetchCommit (p r : Nat) (d : Desc) (s : State) : State := fetchTick 0x11 p r d s

/-- TACK_SUBMIT (R133). -/
def execTackSubmit (t p r : Nat) (d : Desc) (s : State) : Host.Outcome State Fault Refusal :=
  .next (fetchDesc 0x10 p r d (fun seq s => tackSubmit p r seq d s) (s.at t))

/-- TACK_COMMIT (R137, R138). -/
def execTackCommit (t p r : Nat) (d : Desc) (s : State) : Host.Outcome State Fault Refusal :=
  .next (fetchCommit p r (withAccept false d) (s.at t))

/-- TACK_COMMIT with ACCEPT (R137, R145). -/
def execTackAccept (t p r : Nat) (d : Desc) (s : State) : Host.Outcome State Fault Refusal :=
  .next (fetchCommit p r (withAccept true d) (s.at t))

/-- TACK_ROLLBACK (R149). -/
def execTackRollback (t p r : Nat) (d : Desc) (s : State) : Host.Outcome State Fault Refusal := .next (fetchTick 0x12 p r d (s.at t))

/-- VALIDATION_END (R136). -/
def execValidationEnd (t : Nat) (s : State) : Host.Outcome State Fault Refusal := .next (validationEnd (s.at t))

/-- SWITCH_COMPLETE (R141). -/
def execSwitchComplete (t : Nat) (s : State) : Host.Outcome State Fault Refusal := .next (switchComplete (s.at t))

end Sys2Proof.Machine
end

