-- ==== Sys2Proof/Machine/Modes.lean ====
section
/-! DEFINITION. Operating modes, reset, supplies and temperature (14 R577-R600). -/
namespace Sys2Proof.Machine

/-! ### Requests and changes (R578-R581) -/

/-- Is there a transition that a request can make (R580)?  A return from KEEP to DRAIN is asked for as RUN (notes/assumptions/36.md). -/
def State.allowed (s : State) (dest : Mode) : Bool :=
  match s.power.mode with
  | .standby => dest == .run || dest == .service || dest == .keep
  | .run => dest == .drain || dest == .keep
  | .drain => dest == .run || dest == .keep
  | .keep => dest == s.power.keepFrom || (dest == .run && s.power.keepFrom == .drain)
  | .service => dest == .standby
  | _ => false

/-- REQ_RESULT of a request, in the order of the table of R579 (notes/assumptions/37.md). -/
def State.requestResult (s : State) (dest : Mode) : Nat :=
  if s.allowed dest = false then 1
  else if dest = .run ∧ s.gens.cur.isNone then 2
  else if (dest = .standby ∨ dest = .run) ∧ s.capGib < s.fld 0x0E 0 4 then 3
  else if s.power.mode = .keep ∧ s.power.keepN = false then 4
  else if s.power.pend.isSome then 5
  else 0

/-- A mode change is requested: the bridge accepts it for the first boundary at least 100 µs later, or refuses it. -/
def State.requestMode (s : State) (dest : Mode) : State :=
  let r := s.requestResult dest
  s.modPower (fun p => { p with reqResult := r, pend := if r = 0 then some (dest, s.now + 100 * us) else p.pend })

/-- A write to PWR_MODE_REQ, which is ignored in RESET and BOOT. -/
def State.writeModeReq (s : State) (value : Nat) : State :=
  if s.power.mode = .reset ∨ s.power.mode = .boot then s else s.requestMode (modeOfCode (bits value 2 0))

def modeRequest (p value : Nat) (s : State) : State := if s.barOpen p ∧ s.isOwner p then s.writeModeReq value else s

/-- KEEP_N falls: it requests KEEP. -/
def keepNFall (s : State) : State :=
  let s := s.modPower (fun p => { p with keepN := false })
  if s.power.mode = .reset ∨ s.power.mode = .boot then s else s.requestMode .keep

/-- KEEP_N rises: in KEEP it requests return; outside KEEP it asks for nothing (notes/assumptions/36.md). -/
def keepNRise (s : State) : State :=
  let s := s.modPower (fun p => { p with keepN := true })
  if s.power.mode = .keep then s.requestMode s.power.keepFrom else s

/-- Can the mode change at this boundary: has no other change, and no switch been set for it, and is none in progress (R581)? -/
def State.modeBoundary (s : State) : Bool :=
  s.now == s.tickAt && s.power.movedTick != some s.tick && !s.gens.switching && !s.boundaryHeld && !(s.gens.cur.isSome && s.gens.switchTick == s.tick)

/-- A move that no request asked for leaves a pending change pending when it is still a transition (notes/assumptions/38.md). -/
def State.ownMove (s : State) (m : Mode) : State :=
  let pend := s.power.pend
  let s := s.setMode m
  s.modPower (fun p => { p with pend := pend.filter (fun x => s.allowed x.1) })

/-! ### KEEP (R583, R584) -/

/-- Every frame of a queue is discarded on the way into KEEP. -/
def State.keepDiscard (s : State) (q : List QFrame) : State :=
  forEach q (fun f s => ((s.release f).bump (pwrCtr 88)).notSent f) s

/-- Entry into KEEP at its boundary. -/
def State.enterKeep (s : State) : State :=
  let s := s.portsDown
  let s := (forEach (s.net.direct.map (·.2)) (fun q s => s.keepDiscard q) s).modNet (fun n => { n with direct := [] })
  let s := (forEach (s.net.legq.map (·.2)) (fun q s => s.keepDiscard q) s).modNet (fun n => { n with legq := [] })
  let s := s.modFlash (fun f => { f with held := f.ops.isEmpty })
  let s := match s.dram.migration with
    | some m => s.migrated m
    | none => s
  let from_ := s.power.mode
  (s.setMode .keep).modPower (fun p => { p with keepFrom := from_, keepAt := s.now, keepExit := none })

/-- KEEP_WAIT_EXPIRY: an operation that still runs is ended as if its budget had run out; compositors and mix engines complete within
theirs (R583; 01 R45, R47). -/
def keepWaitExpiry (s : State) : State :=
  if s.power.mode = .keep ∧ s.power.keepAt + s.fld 0x0F 12 2 * 1000 * us ≤ s.now then
    forEach (s.media.ops.filter (fun o => o.unit.isSome)) (fun o s =>
      match o.kind, o.unit with
      | .kernel .., some c => s.endKernel c .overrun
      | _, _ => match s.runningOp o.id with
        | some x => s.overrunOp x {}
        | none => s) s
  else s

/-- KEEP_EXIT: the exit that a request has asked for is due; the units are restored and the lost ranks cleared. -/
def keepExit (s : State) : State :=
  match s.power.pend with
  | some (_, eff) =>
    if s.power.mode = .keep ∧ s.power.keepExit = none ∧ eff ≤ s.tickAt then
      (s.clearLost).modPower (fun p => { p with keepExit := some s.now })
    else s
  | none => s

/-- Media restarts on the way out of KEEP (R584).  Operations that were ready stay ready. -/
def State.resumeMedia (s : State) : State :=
  let s := s.modObjs (fun o => { o with legs := o.legs.map (fun (i, l) =>
    (i, { l with est := s.estStart l, estFrac := 0, estState := 0, lastReport := none })) })
  let s := s.modMedia (fun m => { m with
    jitter := m.jitter.map (fun (i, _) => (i, {}))
    canvases := m.canvases.map (fun (i, c) => (i, { c with rungs := c.rungs.map (fun g => { g with wantKey := true }) })) })
  let s := forEach (s.media.targets.map (·.1)) (fun k s => s.keyRequest k (((s.target k).map (·.stall0)).getD 0) true) s
  forEach [0, 1, 2, 3] (fun p s => orphanExpiry p s) s

/-- The mode from which KEEP was entered is resumed. -/
def State.leaveKeep (s : State) : State :=
  let s := (s.setMode s.power.keepFrom).modFlash (fun f => { f with held := false })
  (s.modPower (fun p => { p with keepExit := none })).resumeMedia

/-! ### DRAIN and the change itself (R579, R582) -/

/-- Entry into DRAIN. -/
def State.enterDrain (s : State) : State :=
  ((s.setMode .drain).modPower (fun p => { p with drainTick := s.tick, drainEmpty := none })).noteDrained

/-- MODE_CHANGE: the pending change takes effect at this boundary. -/
def modeChange (s : State) : State :=
  match s.power.pend with
  | some (dest, eff) =>
    if s.modeBoundary = false ∨ s.tickAt < eff then s
    else if s.power.mode = .keep then
      (if s.power.keepExit.any (fun e => decide (e < s.tickAt)) then s.leaveKeep else s)
    else
      match dest with
      | .keep => s.enterKeep
      | .drain => s.enterDrain
      | _ =>
        let was := s.power.mode
        let s := s.setMode dest
        if was = .service then s.loopsOff else s
  | none => s

/-- DRAIN_TIMEOUT: the rooms that are left are deleted at this boundary. -/
def drainTimeout (s : State) : State :=
  if s.power.mode = .drain ∧ s.now = s.tickAt ∧ s.power.drainTick + s.fld 0x0F 8 4 * 400 ≤ s.tick then
    forEach (s.objs.rooms.map (·.1)) (fun i s => s.deleteRoom i) s
  else s

/-- DRAIN_END: the tick after the last room is deleted, the bridge enters STANDBY. -/
def drainEnd (s : State) : State :=
  if s.power.mode = .drain ∧ s.modeBoundary ∧ s.power.drainEmpty.any (fun e => decide (e < s.tick)) then s.ownMove .standby else s

/-- SAFE_ENTRY with its reason and the ports in the reception of a frame (R585). -/
def safeEntry (reason : Nat) (cut : List Nat) (s : State) : State :=
  let due : Bool := match reason with
    | 1 => s.power.mode == .boot && s.flash.stageErr != 0
    | 2 => true
    | 3 => decide (10 ≤ s.power.crit)
    | 4 => true
    | _ => false
  if due then (s.receiving cut).enterSafe reason else s

/-! ### Reset (R586-R589) -/

/-- A part of the flash is left with what an interrupted write makes of it. -/
def State.tear (s : State) (off n : Nat) : State :=
  { s.modFlash (fun f => f.store off ((List.range n).map (fun i => BitVec.ofNat 8 (Config.freeNat (s.free + i))))) with free := s.free + n }

/-- What a reset leaves of the flash operation in progress. -/
def State.tearFlash (s : State) : State :=
  if s.flash.held then s
  else match s.flash.ops with
    | .write _ _ _ off len (some _) :: _ => s.tear off len
    | .slot _ image :: _ =>
      (match s.flash.slotDir (if s.flash.record.current = 0 then 1 else 0) with
       | some (off, _) => s.tear off (cdiv image.length 4096 * 4096)
       | none => s)
    | .record _ _ :: _ => s.tear (recOff (1 - s.flash.recCopy)) 4096
    | .table _ _ _ _ _ :: _ =>
      (match s.flash.nextTable with
       | some off => s.tear off 16384
       | none => s)
    | _ => s

/-- A device reset for a cause, a bit pattern of PWR_RSTCAUSE; causes that meet in RESET stand side by side (notes/assumptions/39.md).
It keeps TRIP_SEEN, a warm one SF_CFG too, and what does not belong to the bridge: the flash, the fuses, the board and the hosts. -/
def State.deviceReset (s : State) (cause : BitVec 9) (cold : Bool) (asserted : List Nat) : State :=
  let s := s.tearFlash
  let kept : BitVec 9 := if s.power.mode = .reset then s.power.rstCause else s.power.rstCause &&& 0x100#9
  { State.reset with
    pending := s.pending, now := s.now, free := s.free, hostMem := s.hostMem, nextSeq := s.nextSeq, nextDma := s.nextDma
    flash := { State.reset.flash with mem := s.flash.mem, keyHash := s.flash.keyHash, fuseRb := s.flash.fuseRb, cfg := if cold then State.reset.flash.cfg else s.flash.cfg }
    power := { State.reset.power with
      rstCause := kept ||| cause, asserted, keepN := s.power.keepN, thermtrip := s.power.thermtrip, vaux := s.power.vaux }
    pins := { State.reset.pins with
      tap := s.pins.tap, ir := s.pins.ir, irShift := s.pins.irShift, dr := s.pins.dr, boundary := s.pins.boundary, tdo := s.pins.tdo
      driven := s.pins.driven } }

/-- A source that stays asserted joins those that hold RESET. -/
def State.holding (s : State) (src : Nat) : List Nat :=
  if s.power.mode = .reset then src :: s.power.asserted.filter (· != src) else [src]

/-- PWRGOOD_LOW ends the hold after a thermal trip (R594). -/
def pwrgoodLow (s : State) : State :=
  (s.deviceReset 0x001#9 true ((s.holding 0).filter (· != 2))).modPower (fun p => { p with thermtrip := false })

/-- WALKO_WATCHDOG: no firmware runs in RESET. -/
def walkoWatchdog (s : State) : State := if s.power.mode = .reset then s else s.deviceReset 0x010#9 false []

/-- VCORE_LOW and VSRAM_LOW: a reading below the reset level (R591). -/
def railLow (rail mv : Nat) (s : State) : State :=
  if rail = 0 then (if mv < 690 then s.deviceReset 0x002#9 true (s.holding 3) else s)
  else if mv < 780 then s.deviceReset 0x004#9 true (s.holding 4) else s

/-- THERMAL_TRIP: two reads in a row at 115 °C; held until PWRGOOD falls (R594). -/
def thermalTrip (s : State) : State :=
  if s.power.trip < 2 then s
  else (s.deviceReset 0x100#9 true (s.holding 2)).modPower (fun p => { p with thermtrip := true })

/-- A write to PWR_RESET by the owner port, or through the SMBus with port 0 (R588). -/
def State.softReset (s : State) (port value : Nat) : State :=
  if s.power.mode = .reset ∨ s.power.mode = .boot ∨ value / 65536 ≠ 0xB007 ∨ value % 2 = 0 then s
  else s.deviceReset (0x020#9 ||| BitVec.ofNat 9 (port % 4 * 64)) false []

def pwrResetWrite (p value : Nat) (s : State) : State :=
  if s.barOpen p ∧ s.isOwner p then s.softReset p (value % 2 ^ 32) else s

/-- TRIP_SEEN_CLEAR: a host port writes 1 to the bit (R597). -/
def tripSeenClear (p : Nat) (s : State) : State :=
  if s.barOpen p then s.modPower (fun x => { x with rstCause := x.rstCause &&& 0x0FF#9 }) else s

/-- VAUX_LOSS clears what lives in its domain (R586, R624). -/
def vauxLoss (s : State) : State :=
  s.modPower (fun x => { x with rstCause := x.rstCause &&& 0x0FF#9, vaux := false, thermtrip := false })

/-- RESET_RELEASE: the last source is released, and RESET lasts 10 ms more; a trip holds on until PWRGOOD falls (R587, R594). -/
def resetRelease (s : State) : State :=
  if s.power.mode ≠ .reset ∨ s.power.releaseAt.isSome ∨ s.power.asserted.contains 2 then s
  else s.modPower (fun p => { p with asserted := [], releaseAt := some s.now, vaux := true })

/-- At the end of device reset time bases and ticks start at 0 (12 R508, R511; notes/assumptions/78.md). -/
def State.clocksStart (s : State) : State :=
  { s with
    tick := 0, tickAt := s.now, tickVal := 0
    tbs := [0, 1, 2, 3].foldl (fun t n => put t n { lookD s.tbs n {} with val := 0, at_ := s.now }) s.tbs }

/-- STRAP_SAMPLE, 5 ms after the release (16 R623). -/
def strapSample (refsel svcBoot : Bool) (smbAddr : Nat) (s : State) : State :=
  match s.power.releaseAt with
  | some r =>
    if s.power.mode = .reset ∧ s.power.strapped = false ∧ r + 5000 * us ≤ s.now then
      s.modPower (fun p => { p with strapped := true, refsel, svcBoot, smbAddr := smbAddr % 4 })
    else s
  | none => s

/-! ### BOOT (R580, R587; 03 R161; 01 R32) -/

/-- BOOT_START, 10 ms after the release, ends device reset: the flash is read, the DIMMs are trained and a slot is chosen; readings of the
supplies come in, whatever they are. -/
def bootStart (facts : BootFacts) (s : State) : State :=
  match s.power.releaseAt with
  | some r =>
    if s.power.mode = .reset ∧ s.power.strapped ∧ r + 10000 * us ≤ s.now then
      let s := (s.clocksStart.modPower (fun p => { p with mode := .boot, prev := .reset })).modFlash (fun f => f.start facts)
      let (core, s) := s.draw 65536
      let (sram, s) := s.draw 65536
      let s := s.modPower (fun p => { p with vcoreMv := core, vsramMv := sram, vcoreMin := core, vsramMin := sram })
      if s.flash.stageErr ≠ 0 then s
      else
        let s := s.bootDram facts
        s.bootSlot
    else s
  | none => s

/-- YD_STATUS of a yard whose units in `failed` (yard, bit) have failed their self-test. -/
def unitsOk (failed : List (Nat × Nat)) (y : Nat) : Nat :=
  (List.range 17).foldl (fun v b => if failed.contains (y, b) then v else v + 2 ^ b) 0

/-- The generation that BOOT has chosen goes into force: ports, shapers, time bases and its probation. -/
def State.bootForce (s : State) : State :=
  let s := s.modGens (fun g => { g with cur := g.chosen, parent := g.chosenParent, chosen := none, chosenParent := none })
  let c := s.gens.cur
  let s := s.modNet (fun n => { n with
    phys := (List.range 16).foldl (fun t k => adjD t k {} (fun p => { p with mode := modeOf c k })) n.phys
    shapers := (List.range 512).foldl (fun t k =>
      if bit (tfld c 7 (32 * k) 1) 0 then adjD t k {} (fun x => { x with at_ := s.now }) else t) n.shapers })
  let s := s.tbSwitch none false
  let s := forEach (List.range 64) (fun l s =>
    match s.gclOf c l with
    | some g => s.modLport l (fun p => { p with gclNext := some g })
    | none => s) s
  if c.isSome then s.startProbation else s

/-- The mode in which BOOT ends. -/
def State.bootMode (s : State) : Mode :=
  if s.power.svcBoot ∨ s.capGib = 0 ∨ (s.gens.cur.isSome ∧ s.capGib < s.fld 0x0E 0 4) then .service
  else if s.gens.cur.isNone ∨ bit (s.fld 0x0F 0 1) 0 = false then .standby
  else .run

/-- BOOT_END with the units that failed and whether the reference runs. -/
def bootEnd (failed : List (Nat × Nat)) (refOk : Bool) (s : State) : State :=
  if s.power.mode ≠ .boot ∨ s.flash.stageErr ≠ 0 then s
  else
    let s := s.modPower (fun p => { p with
      ydStatus := (List.range 8).map (fun y => (y, unitsOk failed y)), booted := true, refOk })
    let s := if refOk then s.tbOnReference else s.tbFallback
    let s := forEach (List.range 8) (fun y s => if s.ydStatus y = 0x1FFFF then s else s.event (yardSrc y 0) (s.ydStatus y)) s
    let s := s.bootForce
    let need := s.fld 0x0E 0 4
    let s := if s.gens.cur.isSome ∧ s.capGib < need then s.event 25 (satU 16 s.capGib + need % 65536 * 65536) else s
    let s := if s.flash.fallback ≠ 0 then s.event 13 (s.flash.fallback + s.flash.slot * 256 + s.gen * 2 ^ 32) else s
    let s := s.event 34 s.power.rstCause.toNat
    (s.setMode s.bootMode).portsSetup

/-! ### Supplies (R591, R592) -/

/-- A reading of a rail. -/
def Power.reading (p : Power) (rail mv : Nat) : Power :=
  if rail = 0 then { p with vcoreMv := mv, vcoreMin := min p.vcoreMin mv } else { p with vsramMv := mv, vsramMin := min p.vsramMin mv }

/-- DIP_HOLD_START: a rail crosses below its warning level; a crossing during a hold extends it. -/
def dipHoldStart (rail mv : Nat) (s : State) : State :=
  let warn := if rail = 0 then s.fld 0x0F 4 2 else s.fld 0x0F 6 2
  if s.power.mode = .reset ∨ 2 ≤ rail ∨ warn ≤ mv then s
  else
    s.modPower (fun p => { p.reading rail mv with
      vcoreBelow := p.vcoreBelow || rail == 0, vsramBelow := p.vsramBelow || rail == 1
      vcoreCrossed := p.vcoreCrossed || rail == 0, vsramCrossed := p.vsramCrossed || rail == 1
      lowMv := min p.lowMv mv, hold := some (p.hold.getD s.now), returnAt := none })

/-- RETURN_LEVEL_CROSSING: a rail is back above its return level; the reading that shows it is not stated. -/
def returnLevelCrossing (rail : Nat) (s : State) : State :=
  if s.power.hold.isNone ∨ 2 ≤ rail ∨ (if rail = 0 then s.power.vcoreBelow else s.power.vsramBelow) = false then s
  else
    let (mv, s) := s.draw 65536
    let s := s.modPower (fun p => { p.reading rail mv with
      vcoreBelow := p.vcoreBelow && rail != 0, vsramBelow := p.vsramBelow && rail != 1 })
    if s.power.vcoreBelow ∨ s.power.vsramBelow then s else s.modPower (fun p => { p with returnAt := some s.now })

/-- DIP_HOLD_END, 50 µs after the last rail has come back. -/
def dipHoldEnd (s : State) : State :=
  match s.power.hold, s.power.returnAt with
  | some start, some r =>
    if s.now < r + 50 * us then s
    else
      let p := s.power
      let ns := (s.now - start) / 1000
      let s := (s.addCnt (pwrCtr 32) (b2n p.vcoreCrossed)).addCnt (pwrCtr 40) (b2n p.vsramCrossed)
      let s := (s.addCnt (pwrCtr 48) ns).modPower (fun p => { p with
        hold := none, returnAt := none, vcoreCrossed := false, vsramCrossed := false, lowMv := 0xFFFF })
      s.event 35 (b2n p.vcoreCrossed + b2n p.vsramCrossed * 2 + p.lowMv % 65536 * 65536 + satU 32 ns * 2 ^ 32)
  | _, _ => s

/-! ### Temperature (R593, R594) -/

/-- TMAX and the sensor that shows it. -/
def Power.tmax (p : Power) : Int := p.temps.foldl max (p.temps.headD 0)
def Power.hot (p : Power) : Nat := (p.temps.findIdx? (· == p.tmax)).getD 0

/-- Entry threshold of a throttle level. -/
def State.throttleAt (s : State) (level : Nat) : Int := (s.fld 0x0F 1 1 : Nat) + (if 2 ≤ level then (s.fld 0x0F 2 1 : Nat) else 0)

/-- TEMPERATURE_READ: the nine sensors. -/
def temperatureRead (temps : List Int) (s : State) : State :=
  if s.power.mode = .reset then s
  else
    let before := s.power
    let s := s.modPower (fun p => { p with temps := temps.take 9 })
    let t := s.power.tmax
    let level := before.levelNext.getD before.level
    let want := if s.throttleAt 2 ≤ t then 2 else if s.throttleAt 1 ≤ t then 1 else 0
    let cool := decide (0 < before.level ∧ t ≤ s.throttleAt before.level - 3)
    let s := s.modPower (fun p => { p with
      crit := if 110 ≤ t then p.crit + 1 else 0
      trip := if 115 ≤ t then p.trip + 1 else 0
      levelNext := if level < want then (if want = before.level then none else some want) else p.levelNext
      coolSince := if cool then some (p.coolSince.getD s.tick) else none })
    if 110 ≤ t ∧ before.crit = 0 then s.modPins (fun p => { p with alert := true }) else s

/-- THROTTLE_DECREASE: 400 whole ticks at least 3 °C below the entry threshold. -/
def throttleDecrease (s : State) : State :=
  match s.power.coolSince with
  | some c =>
    if c + 400 < s.tick ∧ 0 < s.power.level ∧ s.power.levelNext.isNone then
      s.modPower (fun p => { p with levelNext := some (p.level - 1), coolSince := none })
    else s
  | none => s

/-- THROTTLE_LEVEL_CHANGE: a new level takes effect at a boundary. -/
def throttleLevelChange (s : State) : State :=
  match s.power.levelNext with
  | some l =>
    if s.now = s.tickAt then
      let old := s.power.level
      let run := s.clkRead
      let s := s.modPower (fun p => { p with level := l, levelNext := none, coolSince := none, clkAcc := run, clkAt := s.now })
      let s := if old = 0 ∧ 0 < l then s.modPins (fun p => { p with alert := true }) else s
      s.event 36 (l + old * 4 + unsgn 8 s.power.tmax * 256)
    else s
  | none => s

/-! ### The commands of this file -/

/-- MODE_REQUEST (R578). -/
def execModeRequest (t p value : Nat) (s : State) : Host.Outcome State Fault Refusal := .next (modeRequest p value (s.at t))

/-- PWR_RESET_WRITE (R588). -/
def execPwrResetWrite (t p value : Nat) (s : State) : Host.Outcome State Fault Refusal := .next (pwrResetWrite p value (s.at t))

/-- TRIP_SEEN_CLEAR (R597). -/
def execTripSeenClear (t p : Nat) (s : State) : Host.Outcome State Fault Refusal := .next (tripSeenClear p (s.at t))

/-- PWRGOOD_LOW (R586). -/
def execPwrgoodLow (t : Nat) (s : State) : Host.Outcome State Fault Refusal := .next (pwrgoodLow (s.at t))

/-- RESET_N_LOW: a warm reset (R586). -/
def execResetNLow (t : Nat) (s : State) : Host.Outcome State Fault Refusal :=
  .next ((s.at t).deviceReset 0x008#9 false ((s.at t).holding 1))

/-- VCORE_LOW (R591). -/
def execVcoreLow (t mv : Nat) (s : State) : Host.Outcome State Fault Refusal := .next (railLow 0 mv (s.at t))

/-- VSRAM_LOW (R591). -/
def execVsramLow (t mv : Nat) (s : State) : Host.Outcome State Fault Refusal := .next (railLow 1 mv (s.at t))

/-- WALKO_WATCHDOG (R586). -/
def execWalkoWatchdog (t : Nat) (s : State) : Host.Outcome State Fault Refusal := .next (walkoWatchdog (s.at t))

/-- THERMAL_TRIP (R594). -/
def execThermalTrip (t : Nat) (s : State) : Host.Outcome State Fault Refusal := .next (thermalTrip (s.at t))

/-- RESET_RELEASE (R587). -/
def execResetRelease (t : Nat) (s : State) : Host.Outcome State Fault Refusal := .next (resetRelease (s.at t))

/-- STRAP_SAMPLE (R587). -/
def execStrapSample (t : Nat) (refsel svcBoot : Bool) (smbAddr : Nat) (s : State) : Host.Outcome State Fault Refusal :=
  .next (strapSample refsel svcBoot smbAddr (s.at t))

/-- BOOT_START (R587; 03 R161). -/
def execBootStart (t : Nat) (facts : BootFacts) (s : State) : Host.Outcome State Fault Refusal := .next (bootStart facts (s.at t))

/-- BOOT_END (R580). -/
def execBootEnd (t : Nat) (failed : List (Nat × Nat)) (refOk : Bool) (s : State) : Host.Outcome State Fault Refusal :=
  .next (bootEnd failed refOk (s.at t))

/-- MODE_CHANGE (R579). -/
def execModeChange (t : Nat) (s : State) : Host.Outcome State Fault Refusal := .next (modeChange (s.at t))

/-- KEEP_N_FALL (R578). -/
def execKeepNFall (t : Nat) (s : State) : Host.Outcome State Fault Refusal := .next (keepNFall (s.at t))

/-- KEEP_N_RISE (R578). -/
def execKeepNRise (t : Nat) (s : State) : Host.Outcome State Fault Refusal := .next (keepNRise (s.at t))

/-- KEEP_WAIT_EXPIRY (R583). -/
def execKeepWaitExpiry (t : Nat) (s : State) : Host.Outcome State Fault Refusal := .next (keepWaitExpiry (s.at t))

/-- KEEP_EXIT (R584). -/
def execKeepExit (t : Nat) (s : State) : Host.Outcome State Fault Refusal := .next (keepExit (s.at t))

/-- DRAIN_TIMEOUT (R582). -/
def execDrainTimeout (t : Nat) (s : State) : Host.Outcome State Fault Refusal := .next (drainTimeout (s.at t))

/-- DRAIN_END (R582). -/
def execDrainEnd (t : Nat) (s : State) : Host.Outcome State Fault Refusal := .next (drainEnd (s.at t))

/-- SAFE_ENTRY (R585). -/
def execSafeEntry (t : Nat) (x : SafeCause) (s : State) : Host.Outcome State Fault Refusal := .next (safeEntry x.code x.cut (s.at t))

/-- DIP_HOLD_START (R592). -/
def execDipHoldStart (t rail mv : Nat) (s : State) : Host.Outcome State Fault Refusal := .next (dipHoldStart rail mv (s.at t))

/-- DIP_HOLD_END (R592). -/
def execDipHoldEnd (t : Nat) (s : State) : Host.Outcome State Fault Refusal := .next (dipHoldEnd (s.at t))

/-- TEMPERATURE_READ (R593). -/
def execTemperatureRead (t : Nat) (temps : List Int) (s : State) : Host.Outcome State Fault Refusal := .next (temperatureRead temps (s.at t))

/-- THROTTLE_DECREASE (R593). -/
def execThrottleDecrease (t : Nat) (s : State) : Host.Outcome State Fault Refusal := .next (throttleDecrease (s.at t))

/-- THROTTLE_LEVEL_CHANGE (R593). -/
def execThrottleLevelChange (t : Nat) (s : State) : Host.Outcome State Fault Refusal := .next (throttleLevelChange (s.at t))

/-- RETURN_LEVEL_CROSSING (R592). -/
def execReturnLevelCrossing (t rail : Nat) (s : State) : Host.Outcome State Fault Refusal := .next (returnLevelCrossing rail (s.at t))

/-- VAUX_LOSS (R586). -/
def execVauxLoss (t : Nat) (s : State) : Host.Outcome State Fault Refusal := .next (vauxLoss (s.at t))

end Sys2Proof.Machine
end

