-- ==== Sys2Proof/Machine/Registers.lean ====
section
/-! DEFINITION. The registers as they read (00 R17-R24, 01 R33, 02 R76, 03 R162, 05 R227, 06 R256, R288, 07 R325, 08 R365, 09 R406,
10 R451, 11 R504, 12 R528, 13 R568, R569, 14 R597, 15 R616), their writes, the latching reads, the SMBus and the JTAG port (16). -/
namespace Sys2Proof.Machine

/-! ### Host port registers (02 R76, R77) -/

/-- Bits of an RL register that the host writes, 0 for the others; `o` counts from 0x10000. -/
def rlMask (o : Nat) : Nat :=
  let ring (lo hi cfg last : Nat) (k : Nat) : Nat := match k with
    | 0 => lo
    | 4 => hi
    | 8 => cfg
    | _ => last
  if o = 0x8 then 0xFFFFF000
  else if o = 0xC then 0xFFFFFFFF
  else if o = 0x10 then 0xFFFF
  else if o = 0x18 then 0x8000003F
  else if 0x100 ≤ o ∧ o < 0x500 then ring 0xFFFFF000 0xFFFFFFFF 0x803F001F 0 (o % 16)
  else if 0x500 ≤ o ∧ o < 0x900 then ring 0xFFFFF000 0xFFFFFFFF 0x803F001F 0xFFFFFFFF (o % 16)
  else if 0x900 ≤ o ∧ o < 0x940 then ring 0xFFFFF000 0xFFFFFFFF 0x803F001F 0xFFFFFFFF (o % 16)
  else 0

/-- A port's own registers as it reads them. -/
def State.readHp (s : State) (p o : Nat) : Nat :=
  let h := s.host p
  let run := b2n (s.running p)
  if o = 0 then run
  else if o = 4 then
    run * 16 + b2n (s.rdy p) * 32 + b2n h.atn * 64 + b2n (s.isOwner p) * 128 + h.errKind * 2 ^ 16 + h.errRing * 2 ^ 18 + h.lockErr * 2 ^ 24
  else if o = 0x14 then (if s.running p then h.sweepNow else 0)
  else if o = 0x1C then s.gen
  else if rlMask o = 0 then 0
  else h.reg (0x10000 + o)

/-- A 32-bit aligned write to an RL register of BAR0; in RUN it is counted and the register keeps its value (00 R19, R20). -/
def bar0Write (p off value width : Nat) (s : State) : State :=
  let m := if 0x10000 ≤ off then rlMask (off - 0x10000) else 0
  if s.barOpen p = false ∨ width ≠ 32 ∨ off % 4 ≠ 0 then s
  else if s.running p ∧ (m ≠ 0 ∨ off = 0x10000) then s.bump (hpCtr p 64)
  else if m = 0 then s
  else s.modHost p (fun h => { h with regs := put h.regs off (BitVec.ofNat 32 (value % 2 ^ 32 &&& m)) })

/-- A 32-bit write to the MSI-X table in BAR2, 16 bytes an entry: address, data, vector control; the pending bits above it are read
only (02 R70, R109). -/
def HostPort.bar2Write (h : HostPort) (off value : Nat) : HostPort :=
  let i := off / 16
  let e := lookD h.msixTab i {}
  if 64 ≤ i then h
  else
    let e := match off % 16 with
      | 0 => { e with addr := e.addr / 2 ^ 32 * 2 ^ 32 + value / 4 * 4 }
      | 4 => { e with addr := e.addr % 2 ^ 32 + value * 2 ^ 32 }
      | 8 => { e with data := BitVec.ofNat 32 value }
      | _ => { e with mask := bit value 0 }
    { h with msixTab := put h.msixTab i e }.msiPending

/-- A write to a register of the PCIe function, in the places PCI Express gives its fields (notes/assumptions/98.md). -/
def HostPort.functionWrite (h : HostPort) (space : RegSpace) (value : Nat) : HostPort :=
  match space with
  | .command => { h with bme := bit value 2 }.msiPending
  | .deviceControl => { h with mrrs := 128 * 2 ^ min 5 (bits value 14 12) }
  | .msixControl => { h with msix := bit value 15, msixMask := bit value 14 }.msiPending
  | .powerControl => { h with d3hot := bits value 1 0 == 3 }.msiPending
  | .aerStatus => { h with aer := h.aer &&& (h.aer ^^^ value) }
  | _ => h

/-- REGISTER_WRITE (00 R17-R20; 02 R70).  BAR2 follows the rule of BAR0 on narrow writes; the registers of the function answer while the
link is up. -/
def registerWrite (p : Nat) (space : RegSpace) (off value width : Nat) (s : State) : State :=
  match space with
  | .bar0 => bar0Write p off value width s
  | .bar2 =>
    if s.barOpen p = false ∨ width ≠ 32 ∨ off % 4 ≠ 0 then s else s.modHost p (fun h => h.bar2Write off (value % 2 ^ 32))
  | space => if 4 ≤ p ∨ (s.host p).link = false then s else s.modHost p (fun h => h.functionWrite space value)

/-! ### Registers of the yards -/

/-- Queues of a yard that spill (07 R319). -/
def State.spilling (s : State) (y : Nat) : Nat :=
  (s.net.direct.filter (fun kv => yardOf (kv.1 / 8) == y && kv.2.any (·.spilled))).length +
    (s.net.legq.filter (fun kv => s.legYard kv.1 == y && kv.2.any (·.spilled))).length +
    ([0, 1, 2, 3].filter (fun c => s.media.noSlot.any (fun o => o.yard == y && o.cls == c && o.spilled != 0))).length

/-- NP_LSTAT of a logical port; one that the mode does not provide reads no gate list and nothing else (notes/assumptions/40.md). -/
def State.readLstat (s : State) (l : Nat) : Nat :=
  let p := s.lport l
  if provides s.gens.cur l = false then 0xFF0000
  else
    b2n (s.upl l) + b2n p.localFault * 2 + b2n p.remoteFault * 4 + b2n p.fecDegraded * 8 + b2n p.amLock * 16 + b2n p.ltDone * 32 +
      b2n p.anDone * 64 + b2n p.gcl.isSome * 128 + (if p.gcl.isSome then p.gates else 0xFF) * 2 ^ 16 +
      ((List.range 8).foldl (fun v c => v + b2n (s.paused l c) * 2 ^ c) 0) * 2 ^ 24

/-- Logical port of a SerDes lane of a physical port (05 R201). -/
def laneLport (mode n lane : Nat) : Nat := 4 * n + (if mode = 1 then 0 else if mode = 2 then lane / 4 else lane / 2)

/-- A network port block; `free` stands for what the lanes of a port without lock see on the line (notes/assumptions/40.md). -/
def State.readNp (s : State) (free n o : Nat) : Nat :=
  let mode := (lookD s.net.phys n {}).mode
  if o = 0 then n
  else if o = 4 then
    let lanes := if mode = 0 then 0
      else ((List.range 16).map (fun b => if (s.lport (laneLport mode n (b % 8))).amLock || free.testBit b then 2 ^ b else 0)).sum
    mode + ([0, 1, 2, 3].foldl (fun v k => v + b2n (s.upl (4 * n + k)) * 2 ^ k) 0) * 16 + lanes * 2 ^ 16
  else if 0x10 ≤ o ∧ o < 0x20 then s.readLstat (4 * n + (o - 0x10) / 4)
  else if o = 0x20 then (lookD s.net.phys n {}).loop
  else if 0x40 ≤ o ∧ o < 0x60 then
    let mac := ownMac s.gens.cur (4 * n + (o - 0x40) / 8)
    (if o % 8 = 0 then mac % 2 ^ 32 else mac / 2 ^ 32)
  else 0

/-- A yard's range (00 R23); `o` counts from its start. -/
def State.readYard (s : State) (free y o : Nat) : Nat :=
  let st := s.ydStatus y
  let ok := b2n s.power.booted
  let unit (b : Nat) : Nat := if s.power.booted then 2 + b2n (bit st b) * 5 else 0
  let pair (b : Nat) : Nat := ok * 2 + b2n (bit st b)
  let blk := o / 0x10000
  let w := o % 0x10000
  if blk = 0 then (if w = 0 then y + 6 * y * 2 ^ 8 + 8 * y * 2 ^ 16 + 2 * y * 2 ^ 24 else if w = 4 then st else 0)
  else if blk = 1 ∨ blk = 2 then s.readNp free (2 * y + blk - 1) w
  else if blk = 3 then
    (if w = 0 then 0x20000 else if w = 4 then ok
     else if w = 0x1000 then 0x40000 else if w = 0x1004 then ok + b2n (s.spilling y != 0) * 2 else if w = 0x1008 then s.shapersIn y else 0)
  else if 4 ≤ blk ∧ blk ≤ 9 then
    let k := blk - 4
    (if w = 0 then 6 * y + k else if w = 4 then unit k else if w = 8 then ok * (Config.ucodeVersion % 2 ^ 32)
     else if w = 0xC then 0x03E801F4 else 0)
  else if blk = 0xA then
    (if w = 0 then y else if w = 4 then pair 15 else if w = 8 then 0x0FA00040 else if w = 0xC then 0x0F000870 else 0)
  else if blk = 0xB then
    (if w = 0 then y else if w = 4 then pair 14 else if w = 8 then 0x04004000 else if w = 0xC then lookD s.media.outUsed y 0 else 0)
  else if blk = 0xC ∧ w < 0x8000 then
    let c := w / 0x1000
    let v := w % 0x1000
    (if v = 0 then 8 * y + c else if v = 4 then unit (6 + c) else if v = 8 then ok * (Config.firmwareVersion % 2 ^ 32)
     else if v = 0xC then 0x40404008 else if v = 0x10 then s.thyme.used + (8192 - s.thyme.used) * 2 ^ 16 else 0)
  else 0

/-! ### Memory channels and Farrier (13 R568, R569) -/

/-- Code of a rank state. -/
def RankState.code (x : RankState) : Nat :=
  match x with
  | .absent => 0
  | .member => 1
  | .spare => 2
  | .spareInUse => 3
  | .migrating => 4
  | .degraded => 5
  | .retired => 6
  | .failed => 7
  | .excluded => 8

/-- MC_RANK. -/
def State.readRank (s : State) (c r : Nat) : Nat :=
  let x := s.rank (4 * c + r)
  x.set + x.reason * 2 ^ 16 + x.state.code * 2 ^ 28

/-- A bit for each rank of a channel. -/
def rankMask (f : Nat → Bool) : Nat := [0, 1, 2, 3].foldl (fun v r => v + b2n (f r) * 2 ^ r) 0

/-- MC_STATUS. -/
def State.readMcStatus (s : State) (c : Nat) : Nat :=
  let dimm (d : Nat) : Dimm := lookD s.dram.dimms (2 * c + d) {}
  let present : Bool := [0, 1].any (fun d => (dimm d).state != 0 && (dimm d).state != 4)
  let trained := s.dram.trained.contains c
  b2n present + b2n (s.chInService c) * 2 + b2n trained * 4 + b2n (s.dram.mrdimm && trained) * 8 +
    rankMask (fun r => (dimm (r / 2)).state == 1 && decide (r % 2 < (dimm (r / 2)).ranks)) * 16 +
    rankMask (fun r => (s.rank (4 * c + r)).inService) * 256 + (if trained then s.dram.rate / 100 else 0) * 2 ^ 16

/-- MC_TEMP. -/
def State.readMcTemp (s : State) (c : Nat) : Nat :=
  let sensor (d : Nat) : Nat := unsgn 8 (lookD s.dram.dimms (2 * c + d) {}).sensor
  rankMask (fun r => (s.rank (4 * c + r)).mode2x) + sensor 0 * 2 ^ 16 + sensor 1 * 2 ^ 24

/-- A channel's block. -/
def State.readMc (s : State) (c o : Nat) : Nat :=
  if o = 0 then c
  else if o = 4 then s.readMcStatus c
  else if o = 8 ∨ o = 0xC then
    let d := lookD s.dram.dimms (2 * c + (o - 8) / 4) {}
    d.mfr % 2 ^ 16 + d.state * 2 ^ 16 + d.ranks % 16 * 2 ^ 20 + d.gb % 256 * 2 ^ 24
  else if 0x10 ≤ o ∧ o < 0x20 then s.readRank c ((o - 0x10) / 4)
  else if o = 0x20 then s.readMcTemp c
  else if 0x100 ≤ o ∧ o < 0x3C0 then
    let w := (o - 0x100) / 4
    (memRead 0#32 (s.rank (4 * c + w / 44)).train (w % 44)).toNat
  else 0

/-- FA_STATUS; patrol scrub rests in KEEP and while no rank is in service. -/
def State.readFaStatus (s : State) : Nat :=
  let free := ((List.range 48).filter s.freeSpare).length
  let scrub : Bool := s.power.mode != .keep && (List.range 12).any s.chInService
  (match s.dram.migration with
   | some m => 1 + m.src % 4 * 2 ^ 6 + m.src / 4 * 2 ^ 8
   | none => 0) + b2n scrub * 2 + min 15 s.dram.queue.length * 2 ^ 16 + min 15 free * 2 ^ 20

/-- FA_CAP. -/
def State.readFaCap (s : State) : Nat :=
  s.capGib % 2 ^ 16 + (((List.range 48).map (fun k => if s.freeSpare k then (s.rank k).gib else 0)).sum) * 2 ^ 16

/-- FA_SET_INFO. -/
def State.readSetInfo (s : State) (k : Nat) : Nat :=
  lookD s.dram.setGib k 0 + ((List.range 12).foldl (fun v c =>
    v + b2n ((lookD s.dram.sets k []).any (fun r => r / 4 == c)) * 2 ^ c) 0) * 2 ^ 16

/-- The Farrier's registers; `hi` is the reader's latch. -/
def State.readFa (s : State) (hi o : Nat) : Nat :=
  if o = 0 then s.readFaStatus
  else if o = 4 then s.watermark % 2 ^ 32
  else if o = 8 then hi
  else if o = 0xC then s.readFaCap
  else if 0x10 ≤ o ∧ o < 0x30 then
    let k := (o - 0x10) / 8
    (if o % 8 = 0 then (if lookD s.dram.setGib k 0 = 0 then 0 else s.setBase k) else s.readSetInfo k)
  else if o = 0x30 then s.dram.spareMask % 2 ^ 32
  else if o = 0x34 then s.dram.spareMask / 2 ^ 32 % 2 ^ 16
  else if o = 0x38 then [0, 1, 2, 3].foldl (fun v k => v + b2n (k == 0 || s.setKept k) * 2 ^ k) 0
  else 0

/-! ### Device level -/

/-- The power registers (14 R597). -/
def State.readPwr (s : State) (o : Nat) : Nat :=
  let p := s.power
  if o = 0 then
    p.mode.code + p.prev.code * 16 + (match p.pend with
      | some (m, _) => m.code * 256 + 2048
      | none => 0) + p.reqResult * 2 ^ 16 + (if p.mode = .safe then p.safeReason * 2 ^ 20 else 0)
  else if o = 8 then p.rstCause.toNat
  else if o = 0x10 then p.vsramMv % 2 ^ 16 + p.vcoreMv % 2 ^ 16 * 2 ^ 16
  else if o = 0x14 then b2n p.hold.isSome + b2n p.vcoreBelow * 2 + b2n p.vsramBelow * 4
  else if o = 0x18 then b2n (decide (110 ≤ p.tmax)) * 512 + p.level * 1024 + p.hot * 4096 + unsgn 8 p.tmax * 2 ^ 16
  else if o = 0x1C then p.powerDw % 2 ^ 16
  else if o = 0x20 then b2n p.refsel + b2n p.svcBoot * 2 + b2n p.keepN * 4
  else 0

/-- The time-base registers (12 R528); `t` holds the reader's latches. -/
def State.readTb (s : State) (t : Latches) (o : Nat) : Nat :=
  let n := o / 0x20
  let v := o % 0x20
  if o < 0x80 then
    let tb := s.tb n
    let latch := lookD t.tb n (0, 0)
    (if v = 0 then s.tbNanos n
     else if v = 4 then latch.1 % 2 ^ 32
     else if v = 8 then latch.1 / 2 ^ 32 % 2 ^ 16 + latch.2 * 2 ^ 16
     else if v = 0xC then
       let seen : Bool := match tb.ppsLastAt with
         | some a => decide (s.now ≤ a + 1500000 * us)
         | none => false
       b2n tb.slewLimited + b2n seen * 2 + s.tbRole n * 4 + b2n tb.refFallback * 16 + tb.state.code * 32 + s.portStateOf n % 16 * 256
     else if v = 0x10 then unsgn 32 (tb.f / 1000)
     else if v = 0x14 then unsgn 32 (satS 32 (tb.offset.getD 0 / 65536))
     else 0)
  else if o = 0x80 then s.tick % 2 ^ 32
  else if o = 0x84 then t.tickHi
  else 0

/-- The event router's registers (15 R616). -/
def State.readEv (s : State) (o : Nat) : Nat :=
  if o = 0 then 0x01004018
  else if 0x400 ≤ o ∧ o < 0x800 then
    let x := (o - 0x400) / 4
    let r := routeOf s.gens.cur x
    let (sev, cls) := (srcInfo x).getD (0, 0)
    b2n r.en + r.queue * 2 + sev * 8 + cls % 4 * 64 + r.ports * 256 + r.max * 2 ^ 16
  else 0

/-- Registers of the device level below the host ports' (00 R22). -/
def State.readDevice (s : State) (t : Latches) (o : Nat) : Nat :=
  let f := s.flash
  let kib := o / 0x1000
  let w := o % 0x1000
  if o = 0 then 0x64481001
  else if o = 4 then 0x8304084C
  else if o = 8 then
    (List.range 4).foldl (fun v n => v + b2n (s.host n).link * 2 ^ n) 0 +
      (List.range 12).foldl (fun v c => v + b2n (s.chInService c) * 2 ^ (4 + c)) 0 +
      (List.range 16).foldl (fun v n => v + b2n ((lookD s.net.phys n {}).mode != 0) * 2 ^ (16 + n)) 0
  else if o = 0xC then b2n s.power.refOk + b2n s.power.refsel * 2
  else if kib = 2 then
    (if w = 0 then f.cfg.toNat
     else if w = 4 then b2n f.busy * 512 + f.mode * 1024 + f.clk * 4096 + f.sizeMib % 4096 * 2 ^ 20
     else if w = 8 then f.slot % 4 + b2n f.anyKey * 4 + f.bootAttempts * 256 + f.fallback * 2 ^ 16 + f.stageErr * 2 ^ 24
     else 0)
  else if kib = 3 then
    (if w % 0x40 = 0x20 ∧ w < 0x100 then b2n (s.host (w / 0x40)).kekValid else 0)
  else if kib = 4 then
    (if w = 0 then 786432 else if w = 4 then s.net.loftUsed
     else if w = 8 then (List.range 16).foldl (fun v k => v + b2n (s.pool k).latched * 2 ^ k) 0 else 0)
  else if kib = 5 then s.readTb t w
  else if kib = 6 then s.readFa t.migHi w
  else if kib = 7 then s.readPwr w
  else if kib = 8 then s.readEv w
  else 0

/-- A register as a host port, or the SMBus (none), reads it.  In BOOT only TOP_ID and the power registers read (14 R587).  What the
SMBus reads among the registers that each host port has for itself is not stated, a free value. -/
def State.readReg (s : State) (who : Option Nat) (free off : Nat) : Word :=
  let o := off / 4 * 4
  let t := match who with
    | some p => (s.host p).latches
    | none => s.pins.smbLatches
  BitVec.ofNat 32 (
    if s.power.mode = .boot then (if o = 0 then 0x64481001 else if o / 0x1000 = 7 then s.readPwr (o % 0x1000) else 0)
    else if 0x10000 ≤ o ∧ o < 0x11000 then
      (match who with
       | some p => s.readHp p (o - 0x10000)
       | none => free)
    else if o < 0x100000 then s.readDevice t o
    else if o < 0x900000 then s.readYard free ((o - 0x100000) / 0x100000) (o % 0x100000)
    else if o < 0x9C0000 then s.readMc ((o - 0x900000) / 0x10000) (o % 0x10000)
    else 0)

/-! ### Latching reads (12 R528, 13 R569) -/

/-- What a read of a register latches in its reader's latches. -/
def State.latch (s : State) (off : Nat) (t : Latches) : Latches :=
  let n := (off - 0x5000) / 0x20
  if s.power.mode = .boot then t
  else if 0x5000 ≤ off ∧ off < 0x5080 ∧ off % 0x20 = 0 then { t with tb := put t.tb n (s.tbSec n, s.tbFrac n) }
  else if off = 0x5080 then { t with tickHi := s.tick / 2 ^ 32 % 2 ^ 16 }
  else if off = 0x6004 then { t with migHi := s.watermark / 2 ^ 32 % 2 ^ 8 }
  else t

/-- The bytes of a register that a read of `width` bits from byte `at_` addresses (00 R19). -/
def narrow (w : Word) (at_ width : Nat) : Nat := w.toNat / 2 ^ (8 * at_) % 2 ^ width

/-- A host port reads a latching register: an aligned 32-bit read latches, a narrower one returns the addressed bytes and has no side
effect (00 R19). -/
def hostLatch (p off at_ width : Nat) (s : State) : State :=
  if s.barOpen p then
    let v := s.readReg (some p) 0 off
    s.modHost p (fun h => { h with
      rdData := BitVec.ofNat 32 (narrow v at_ width)
      latches := if at_ = 0 ∧ width = 32 then s.latch off h.latches else h.latches })
  else s

/-! ### SMBus (16 R631-R635) -/

/-- The packet error code of SMBus 3.1: CRC-8 by x^8 + x^2 + x + 1 (notes/assumptions/126.md). -/
def pecShift (c : Nat) : Nat := if 128 ≤ c then (c * 2 % 256) ^^^ 0x07 else c * 2
def smbPec (b : Bytes) : Nat :=
  b.foldl (fun c x => pecShift (pecShift (pecShift (pecShift (pecShift (pecShift (pecShift (pecShift (c ^^^ x.toNat))))))))) 0

/-- The target's address, shifted left by one, and a command with its byte count. -/
def State.smbHead (s : State) (command count : Nat) : Bytes := [BitVec.ofNat 8 (2 * (0x6C + s.power.smbAddr)), BitVec.ofNat 8 command, BitVec.ofNat 8 count]

/-- SMBUS_WRITE, the bytes of a transaction from the address on: one that is no Block Write of 8 bytes to this target is not acknowledged,
one with a wrong PEC is discarded, and only PWR_MODE_REQ and PWR_RESET take a write. -/
def smbusWrite (frame : Bytes) (s : State) : State :=
  let ok := decide (s.power.mode ≠ .reset) && frame.take 3 == s.smbHead 0x10 8 && (frame.length == 11 || frame.length == 12)
  let s := s.modPins (fun p => { p with smbAck := ok })
  let addr := le frame 3 4
  let value := le frame 7 4
  if ok = false ∨ (frame.length = 12 ∧ byteAt frame 11 ≠ smbPec (frame.take 11)) then s
  else if addr / 4 * 4 = 0x7004 then s.writeModeReq value
  else if addr / 4 * 4 = 0x700C then s.softReset 0 value
  else s

/-- SMBUS_READ, the bytes that the controller sends before those that the target returns: a process call with 4 bytes of address. -/
def smbusRead (frame : Bytes) (s : State) : State :=
  let ok := decide (s.power.mode ≠ .reset) && frame.take 3 == s.smbHead 0x12 4 && frame.length == 8 &&
    byteAt frame 7 == 2 * (0x6C + s.power.smbAddr) + 1
  let s := s.modPins (fun p => { p with smbAck := ok })
  if ok = false then s
  else
    let off := le frame 3 4 / 4 * 4
    let (free, s) := s.draw (2 ^ 32)
    let v := s.readReg none free off
    s.modPins (fun p => { p with smbData := v, smbPec := smbPec (frame ++ [4] ++ leBytes 4 v.toNat), smbLatches := s.latch off p.smbLatches })

/-- ALERT_RESPONSE: the target answers with its address, and the pin is released. -/
def alertResponse (s : State) : State :=
  if s.power.mode ≠ .reset ∧ s.pins.alert then
    s.modPins (fun p => { p with alert := false, smbData := BitVec.ofNat 32 (0x6C + s.power.smbAddr) })
  else s

/-! ### JTAG (16 R638) -/

/-- The TAP controller of IEEE 1149.1 after an edge with TMS, states in the standard's encoding (notes/assumptions/9.md). -/
def tapNext (state : Nat) (tms : Bool) : Nat :=
  let pick (t f : Nat) : Nat := if tms then t else f
  match state with
  | 0xF => pick 0xF 0xC
  | 0xC => pick 0x7 0xC
  | 0x7 => pick 0x4 0x6
  | 0x6 => pick 0x1 0x2
  | 0x2 => pick 0x1 0x2
  | 0x1 => pick 0x5 0x3
  | 0x3 => pick 0x0 0x3
  | 0x0 => pick 0x5 0x2
  | 0x5 => pick 0x7 0xC
  | 0x4 => pick 0xF 0xE
  | 0xE => pick 0x9 0xA
  | 0xA => pick 0x9 0xA
  | 0x9 => pick 0xD 0xB
  | 0xB => pick 0x8 0xB
  | 0x8 => pick 0xD 0xA
  | 0xD => pick 0x7 0xC
  | _ => 0xF

/-- The data register that an instruction captures, least significant bit first: IDCODE, the boundary chain, or the bypass bit. -/
def tapCapture (ir : BitVec 4) (pins : List Bool) : List Bool :=
  if ir = 1#4 then (List.range 32).map (fun i => bit 0x16448B47 i)
  else if ir = 2#4 ∨ ir = 0#4 then pins
  else [false]

/-- TCK_EDGE: the state that the edge leaves acts, then the one it enters.  The bits above the two fixed ones that Capture-IR loads
are free values. -/
def tckEdge (tms tdi trstN : Bool) (pins : List Bool) (s : State) : State :=
  let p := s.pins
  if trstN = false then { s with pins := { p with tap := 0xF, ir := 1, tdo := false, driven := none } }
  else
    let (hi, s) := s.draw 4
    let next := tapNext p.tap tms
    let p := match p.tap with
      | 0x6 => { p with dr := tapCapture p.ir pins }
      | 0x2 => { p with dr := p.dr.drop 1 ++ [tdi] }
      | 0xE => { p with irShift := BitVec.ofNat 4 (1 + hi * 4) }
      | 0xA => { p with irShift := (p.irShift >>> 1) ||| (if tdi then 8#4 else 0#4) }
      | _ => p
    let p := match next with
      | 0x5 => if p.ir = 2#4 ∨ p.ir = 0#4 then { p with boundary := p.dr } else p
      | 0xD => { p with ir := p.irShift }
      | 0xF => { p with ir := 1 }
      | _ => p
    let tdo := match next with
      | 0x2 => p.dr.headD false
      | 0xA => p.irShift.getLsbD 0
      | _ => false
    { s with pins := { p with tap := next, tdo, driven := if p.ir = 0#4 then some p.boundary else none } }

/-! ### The commands of this file -/

/-- REGISTER_WRITE (00 R20). -/
def execRegisterWrite (t p : Nat) (r : RegAt) (value width : Nat) (s : State) : Host.Outcome State Fault Refusal :=
  .next (registerWrite p r.space r.off value width (s.at t))

/-- TB_NOW_READ of a time base (12 R528). -/
def execTbNowRead (t p : Nat) (r : LatchRead) (s : State) : Host.Outcome State Fault Refusal :=
  .next (if r.n < 4 then hostLatch p (0x5000 + 0x20 * r.n) r.at_ r.width (s.at t) else s.at t)

/-- TB_TICK_READ (12 R528). -/
def execTbTickRead (t : Nat) (r : LatchRead) (s : State) : Host.Outcome State Fault Refusal :=
  .next (hostLatch r.n 0x5080 r.at_ r.width (s.at t))

/-- FA_MIG_READ (13 R569). -/
def execFaMigRead (t : Nat) (r : LatchRead) (s : State) : Host.Outcome State Fault Refusal :=
  .next (hostLatch r.n 0x6004 r.at_ r.width (s.at t))

/-- SMBUS_WRITE (16 R631). -/
def execSmbusWrite (t : Nat) (head data pec : List Byte) (s : State) : Host.Outcome State Fault Refusal :=
  .next (smbusWrite (head ++ data ++ pec) (s.at t))

/-- SMBUS_READ (16 R631). -/
def execSmbusRead (t : Nat) (frame : List Byte) (s : State) : Host.Outcome State Fault Refusal := .next (smbusRead frame (s.at t))

/-- ALERT_RESPONSE (16 R633). -/
def execAlertResponse (t : Nat) (s : State) : Host.Outcome State Fault Refusal := .next (alertResponse (s.at t))

/-- SMBUS_TIMEOUT abandons a transaction, which then has no effect (16 R635). -/
def execSmbusTimeout (t : Nat) (s : State) : Host.Outcome State Fault Refusal := .next (s.at t)

/-- TCK_EDGE (16 R638). -/
def execTckEdge (tms tdi trstN : Bool) (pins : List Bool) (s : State) : Host.Outcome State Fault Refusal :=
  .next (tckEdge tms tdi trstN pins s)

end Sys2Proof.Machine
end

