-- ==== Sys2Proof/Machine/Snapshots.lean ====
section
/-! DEFINITION. Statistics snapshots: the blocks (01 R69, 02 R121, 03 R167, 05 R235, 06 R293-R296, 07 R334-R335, 08 R372, 09 R415-R416,
10 R458-R459, 11 R505-R506, 12 R532, 13 R575, 14 R600, 15 R617), the capture and its writing (04 R172-R181). -/
namespace Sys2Proof.Machine

/-- Counters of a record at 8-byte steps from `first` to `last`. -/
def State.steps (s : State) (blk inst base first last : Nat) : List (Nat × Nat × Nat) :=
  (List.range ((last - first) / 8 + 1)).map (fun k => (first + 8 * k, 8, s.cntOf (ctr blk inst (base + first + 8 * k))))

/-- Bytes a second as MB/s. -/
def mbps (bytes : Nat) : Nat := bytes / 1000000

/-! ### Device and yards (01 R69) -/

/-- A yard record of block 0x03. -/
def State.yardRecord (s : State) (y : Nat) : Bytes :=
  let a := s.objs.adms
  layout 256 (s.steps 3 y 0 0 152 ++ [
    (160, 8, admSum a 0 y (·.rate)), (168, 8, admSum a 1 y (·.rate) / 5), (176, 8, admSum a 2 y (·.rate)),
    (184, 4, stallLoad5 a y / 5000000), (188, 4, s.ydStatus y),
    (192, 4, mbps (admSum a 0 y (·.dram))), (196, 4, mbps (admSum a 1 y (·.dram))), (200, 4, mbps (admSum a 2 y (·.dram))),
    (204, 4, mbps (s.yardShare 0 y)), (208, 4, mbps (s.yardShare 1 y)), (212, 4, mbps (s.yardShare 2 y)),
    (216, 8, (a.map (fun x => if x.region = 2 ∧ x.yard = y then x.bytes else 0)).sum),
    (224, 4, (s.objs.rooms.filter (fun kv => kv.2.home == y)).length), (228, 4, admSum a 4 y (·.rate))])

/-- The device record of block 0x03. -/
def State.deviceRecord (s : State) : Bytes :=
  layout 256 ([(0, 4, s.sustained), (4, 4, s.dram.peakBoot), (8, 4, s.peakNow), (12, 1, b2n s.overcommit + b2n (tackHas s.gens.cur 3) * 2)]
    ++ (List.range 9).map (fun i => (16 + 4 * i, 4, mbps (s.clientBps i)))
    ++ (List.range 9).map (fun i => (52 + 4 * i, 4, (s.clientMbps.drop i).headD 0)))

/-! ### Generations, host port, network ports, forwarding (03 R167, 02 R121, 05 R235, 06 R293) -/

/-- Code of a generation state. -/
def GenState.code (x : GenState) : Nat :=
  match x with
  | .none => 0
  | .probation => 1
  | .kept => 2
  | .failed => 3

/-- Block 0x01. -/
def State.genRecord (s : State) : Bytes :=
  let g := s.gens
  let r := s.flash.record
  layout 192 ([(0, 4, s.gen), (4, 4, (g.parent.map (·.gen)).getD 0), (8, 4, g.high.getD 0), (12, 1, g.state.code),
      (13, 1, b2n g.parent.isSome), (16, 4, if g.state = .probation then g.probLeft else 0), (20, 4, g.lastReason),
      (24, 8, (g.cur.map (·.buildId)).getD 0)]
    ++ (List.range 7).map (fun k => (32 + 8 * k, 8, s.healthValue k)) ++ s.steps 1 0 0 96 144
    ++ [(152, 1, r.current), (153, 1, r.lastGood), (154, 1, r.attempts), (155, 1, r.lastReason)])

/-- A bit for each index below n. -/
def maskOf (n : Nat) (f : Nat → Bool) : Nat := (List.range n).foldl (fun v i => v + b2n (f i) * 2 ^ i) 0

/-- Block 0x02. -/
def State.portRecord (s : State) (p : Nat) : Bytes :=
  let h := s.host p
  layout 192 (s.steps 2 p 0 0 112 ++ [
    (120, 2, if s.running p then h.sweepNow else 0), (122, 1, p),
    (123, 1, b2n (s.isOwner p) + b2n (s.rdy p) * 2 + b2n h.atn * 4),
    (128, 8, maskOf 64 (fun i => (h.sqAt i).halted)), (136, 8, maskOf 64 (fun j => (h.cqAt j).halted)),
    (144, 1, maskOf 4 (fun q => (h.eqAt q).halted))])

/-- Rate code of a logical port: 0 not provided, 1 100, 2 200, 3 400 Gbit/s. -/
def State.rateCode (s : State) (l : Nat) : Nat :=
  if provides s.gens.cur l = false then 0
  else match modeGbit (modeOf s.gens.cur (l / 4)) with
    | 100 => 1
    | 200 => 2
    | _ => 3

/-- A record of block 0x04; a pause that lasts counts up to now. -/
def State.lportRecord (s : State) (l : Nat) : Bytes :=
  let since (c : Nat) : Nat := match look (s.lport l).pausedSince c with
    | some t => s.now / 1000 - t / 1000
    | none => 0
  layout 448 (s.steps 4 l 0 0 200
    ++ (List.range 8).map (fun c => (256 + 8 * c, 8, s.cntOf (npCtr l (256 + 8 * c)) + since c))
    ++ s.steps 4 l 0 320 376 ++ [(384, 8, s.readLstat l + s.rateCode l * 2 ^ 32)])

/-- A record of block 0x05. -/
def State.fwRecord (s : State) (y : Nat) : Bytes := layout 256 (s.steps 5 y 0 0 200)

/-! ### Shapers and loft (07 R334, R335) -/

def State.shRecord (s : State) (y : Nat) : Bytes :=
  let recent := s.net.samples.filter (fun x => x.1 == y && decide (s.tick < x.2.1 + 8))
  layout 256 (s.steps 6 y 0 0 104 ++ [
    (112, 4, recent.foldl (fun n x => max n x.2.2.1) 0), (116, 4, recent.foldl (fun n x => max n x.2.2.2) 0),
    (120, 4, s.shapersIn y), (124, 4, s.spilling y)])

/-- Does a frame of a pool, or an input of pool 2, lie in the spill region? -/
def State.poolSpills (s : State) (k : Nat) : Bool :=
  (k == 2 && s.media.noSlot.any (fun o => o.spilled != 0)) || (s.net.direct ++ s.net.legq).any (fun kv => kv.2.any (fun f => f.spilled && f.pool == k))

def State.poolRecord (s : State) (k : Nat) : Bytes :=
  let p := s.pool k
  layout 48 [(0, 4, p.level), (4, 4, p.peak), (8, 6, p.crossTick),
    (14, 1, b2n p.latched + b2n (s.poolSpills k) * 2 + b2n p.pausing * 4), (16, 4, p.crossNs),
    (24, 8, s.cntOf (poolCtr k 24)), (32, 8, s.cntOf (poolCtr k 32))]

def State.loftRecord (s : State) : Bytes :=
  (List.range 16).flatMap s.poolRecord ++ layout 64 [(0, 8, s.net.spillBytes), (8, 8, s.cntOf (ctr 6 8 776))]

/-! ### Stalls, compositors, mix engines, thyme cores (08 R372, 09 R415, 10 R458, 11 R505) -/

def State.stallRecord (s : State) (n : Nat) : Bytes :=
  let y := n / 6
  layout 256 (s.steps 7 n 0 0 152 ++ [(160, 4, s.stallUtil y), (164, 1, lookD s.media.lastDecision y 0), (165, 1, b2n (bit (s.ydStatus y) (n % 6)))])

def State.cpRecord (s : State) (y : Nat) : Bytes := layout 128 (s.steps 8 y 0 0 64 ++ [(72, 8, admSum s.objs.adms 2 y (·.rate))])

def State.enRecord (s : State) (n : Nat) : Bytes := layout 128 (s.steps 8 (8 + n) 0 0 80)

/-- The room record of block 0x08 (09 R416). -/
def State.canvasRecord (s : State) (room : Nat) (r : Room) (c : Canvas) : Bytes :=
  let lad := r.tf 5 1
  let g (k : Nat) : Rung := (c.rungs.drop k).headD { codec := 0, profile := 0, strct := 0, w := 0, h := 0, yard := 0, leader := none }
  let n := c.rungs.length
  layout 384 ([(0, 4, s.roomH room), (4, 1, c.layout + b2n (bits (s.setFld (r.tf 4 1) 5 1) 3 2 == 0) * 8),
      (5, 1, b2n (c.featured != 0) + b2n c.lastConcealed * 2), (8, 4, if c.featured = 0 then 0 else s.legH (c.featured - 1)),
      (12, 4, (s.roomTargets room).length)]
    ++ (List.range 64).map (fun k => (16 + 4 * k, 4, (c.tiles.drop k).headD 0))
    ++ (List.range 8).map (fun k => (272 + 4 * k, 4, (g k).rate))
    ++ (List.range 8).map (fun k => (304 + 4 * k, 4, (g k).q))
    ++ (List.range 8).map (fun k => (336 + k, 1, min 255 (g k).receivers))
    ++ [(344, 1, maskOf n (fun k => (g k).leader == none)), (345, 1, maskOf n (s.rungActive room)),
      (346, 1, maskOf n (fun k => bit (s.rungFld lad k 2 1) 2)), (352, 8, c.lastPic)])

def State.mxRecord (s : State) (y : Nat) : Bytes :=
  layout 128 (s.steps 9 y 0 0 104 ++ [(112, 4, lookD s.media.outUsed y 0), (116, 4, admSum s.objs.adms 3 y (·.rate))])

/-- The room record of block 0x09, its inputs and its outputs (10 R459). -/
def State.mixRecords (s : State) (room : Nat) (m : MixRoom) : List Bytes :=
  let cands := s.candidates room
  let outs := s.outputsOf room
  let head := layout 64 [(0, 4, s.roomH room), (4, 1, m.mixN), (5, 1, m.pinnedIn.length), (6, 1, m.active.length), (8, 4, cands.length),
    (12, 4, outs.length), (16, 2, (outputsIn m.rows).length)]
  let input (i : Nat) : Bytes :=
    let v := lookD m.inMeter i {}
    let j := lookD s.media.jitter i {}
    let place := (m.places.find? (fun kv => kv.2 == i + 1)).map (·.1)
    let pinned := m.pinnedIn.contains i
    let act := m.active.contains i
    layout 32 [(0, 4, s.streamH i),
      (4, 1, b2n (pinned || act) + b2n pinned * 2 + b2n (s.tick != 0 && look m.lastSpeak i == some (s.tick - 1)) * 4 + b2n act * 8),
      (5, 1, place.getD 0xFF), (6, 2, if act then (m.active.findIdx (· == i)) + 1 else 0),
      (8, 2, unsgn 16 v.rms), (10, 2, unsgn 16 v.peak), (12, 2, unsgn 16 (v.hold / 4)), (14, 2, unsgn 16 (lookD m.level i (-9600))),
      (16, 2, unsgn 16 (j.targetUs / 1000)), (18, 2, unsgn 16 (j.depthUs / 1000)), (20, 2, unsgn 16 (j.rho / 1000)),
      (22, 2, unsgn 16 (lookD m.inComp i {}).centi), (24, 8, j.concealed)]
  let output (leg : Nat) : Bytes :=
    let v := lookD m.outMeter leg {}
    layout 32 [(0, 4, s.legH leg), (4, 2, lookD m.rows leg 0), (8, 2, unsgn 16 v.meter.rms), (10, 2, unsgn 16 v.meter.peak),
      (12, 2, unsgn 16 (v.meter.hold / 4)), (14, 2, unsgn 16 v.comp), (16, 2, unsgn 16 v.lim), (24, 8, v.clipped)]
  head :: cands.map (fun c => input c.1) ++ outs.map (fun c => output c.2)

def State.coreRecord (s : State) (n : Nat) : Bytes :=
  let worst := (s.core n).holdoffs.foldl (fun v h => if s.tick ≤ h.1 + 400 then max v h.2 else v) 0
  layout 128 (s.steps 0x0A n 0 0 48 ++ [(56, 4, worst), (60, 1, b2n (bit (s.ydStatus (n / 8)) (6 + n % 8)))])

/-- The kernel table (11 R506). -/
def State.kernelTable (s : State) : Bytes :=
  padTo 2048 (s.thyme.kernels.flatMap (fun (id, k) =>
    let worst := k.maxima.foldl (fun v h => if s.tick ≤ h.1 + 400 then max v h.2 else v) 0
    layout 64 [(0, 1, id), (1, 1, k.owner), (2, 2, k.code.length), (4, 2, k.base), (8, 6, k.loadTick), (16, 8, k.blocks), (24, 8, k.cycles),
      (32, 8, k.overruns), (40, 8, k.faults), (48, 4, worst), (56, 8, k.buildId)]))

/-! ### Time bases, memory, power, events (12 R532, 13 R575, 14 R600, 15 R617) -/

def State.tbRecord (s : State) (n : Nat) : Bytes :=
  let tb := s.tb n
  let v := tb.ppsLast.getD 0
  layout 192 ([(0, 1, s.tbStatusByte n), (1, 1, s.portStateOf n), (2, 2, tb.steps), (4, 2, unsgn 16 tb.utc), (8, 8, tb.gm),
      (16, 8, unsgn 64 (tb.offset.getD 0)), (24, 8, unsgn 64 tb.pathDelay), (32, 4, unsgn 32 (tb.f / 1000)), (36, 4, unsgn 32 (tb.fInt / 1000)),
      (40, 4, s.tbUnlockedMs n), (48, 6, v / 2 ^ 32 / 1000000000), (54, 4, v / 2 ^ 32 % 1000000000), (58, 2, v / 2 ^ 16 % 2 ^ 16)]
    ++ s.steps 0x0B n 0 64 168)

/-- A channel record. -/
def State.mcRecord (s : State) (c : Nat) : Bytes :=
  let owed := [0, 1, 2, 3].foldl (fun v r =>
    (s.rank (4 * c + r)).maxOwed.foldl (fun v x => if s.tick ≤ x.1 + 400 then max v x.2 else v) (max v (s.rank (4 * c + r)).owed)) 0
  layout 256 (s.steps 0x0C c 0 0 120 ++ s.steps 0x0C c 0 128 152
    ++ [(160, 4, s.readMcStatus c), (164, 4, s.readMcTemp c)] ++ [0, 1, 2, 3].map (fun r => (168 + 4 * r, 4, s.readRank c r)) ++ [(184, 1, owed)])

/-- The Farrier record; lines of a running migration count as they are copied. -/
def State.farrierRecord (s : State) : Bytes :=
  layout 256 ([(0, 8, s.cntOf (faCtr 0)), (8, 8, s.cntOf (faCtr 8) + s.watermark / 64)] ++ s.steps 0x0C 12 0 16 120
    ++ [(128, 4, s.readFaStatus), (132, 4, s.readFaCap), (136, 8, s.watermark)]
    ++ [0, 1, 2, 3].map (fun k => (144 + 4 * k, 4, s.readSetInfo k)))

def State.powerRecord (s : State) : Bytes :=
  let p := s.power
  layout 128 ([(0, 1, p.mode.code + p.prev.code * 16), (1, 1, p.level + b2n p.hold.isSome * 4 + b2n (decide (110 ≤ p.tmax)) * 8),
      (2, 1, unsgn 8 p.tmax)] ++ (List.range 9).map (fun i => (4 + i, 1, unsgn 8 ((p.temps.drop i).headD 0)))
    ++ [(16, 2, p.vcoreLast), (18, 2, p.vsramLast), (20, 2, p.powerDw), (24, 4, p.rstCause.toNat)] ++ s.steps 0x0D 0 0 32 104)

def State.eventRecord (s : State) : Bytes := layout 4160 (s.steps 0x0E 0 0 0 4112)

/-! ### Room, legs, streams (06 R294-R296) -/

def State.roomRecord (s : State) (i : Nat) (r : Room) : Bytes :=
  let set (k : Nat) : Option Nat := (r.audioSet.drop k).head?
  let level (n : Nat) : Nat := ((look s.objs.streams n).map (fun x => x.smooth * 2 / 840)).getD 0
  layout 160 ([(0, 4, roomHandle i r.inc), (4, 1, r.template), (5, 1, r.home + b2n r.homePin * 8), (8, 4, (s.legsOf i).length),
      (12, 4, (s.streamsIn i).length)]
    ++ (List.range 16).map (fun k => (16 + 4 * k, 4, ((set k).map s.streamH).getD 0))
    ++ (List.range 16).map (fun k => (80 + k, 1, ((set k).map level).getD 0))
    ++ [(96, 8, r.logWrite), (104, 8, r.oldest)] ++ (List.range 4).map (fun k => (112 + 8 * k, 8, (r.marks.drop k).headD 0)))

/-- The record of a leg. -/
def legRecord (i : Nat) (l : Leg) : Bytes :=
  layout 64 [(0, 4, legHandle i l.inc), (4, 4, l.est), (8, 4, l.rRecv), (12, 4, l.lossPpm), (16, 4, unsgn 32 l.gradUs), (20, 4, l.rttUs),
    (24, 4, l.videoBudget), (28, 1, l.estState + b2n (l.pinRate != 0) * 4), (32, 8, l.fbReports)]

/-- Retention in force of a stream (06 R296). -/
def State.retention (s : State) (x : Stream) : Nat :=
  if x.egress ∨ x.histClass < s.objs.shedLevel then 0 else s.histMs x.histClass

/-- What a stream reports of itself (06 R261, R296): an egress stream what confirmed packets have left (04 R191). -/
def Stream.reported (x : Stream) : Reported :=
  if x.egress then x.shown else { out := x.extSeq.getD 0, ts := x.extTs, actualS := x.actualS, actualT := x.actualT, paused := x.actualPaused }

def State.streamRecord (s : State) (i : Nat) (x : Stream) : Bytes :=
  let layer (a b : Nat) (p : Bool) : Nat := a + b * 4 + b2n p * 16
  let v := x.reported
  layout 96 [(0, 4, streamHandle i x.inc), (4, 4, x.ssrc), (8, 6, v.out), (14, 1, layer v.actualS v.actualT v.paused),
    (15, 1, layer x.targetS x.targetT x.targetPaused + b2n x.pinned * 32), (16, 8, v.ts.getD 0), (24, 4, x.share), (28, 4, s.retention x),
    (32, 8, x.packets), (40, 8, x.bytes), (48, 8, x.nackServed), (56, 8, x.nackExpired), (64, 8, x.lost + x.gaps.length), (72, 8, x.switches)]

/-! ### The whole snapshot (R179-R181) -/

/-- A block: kind, instances and bytes. -/
def State.block (s : State) (p : Nat) (room : Option (Nat × Room)) (kind : Nat) : Nat × Bytes :=
  let each (n : Nat) (f : Nat → Bytes) : Bytes := (List.range n).flatMap f
  match kind with
  | 0x01 => (1, s.genRecord)
  | 0x02 => (1, s.portRecord p)
  | 0x03 => (9, each 8 s.yardRecord ++ s.deviceRecord)
  | 0x04 => (64, each 64 s.lportRecord)
  | 0x05 => (8, each 8 s.fwRecord)
  | 0x06 => (9, each 8 s.shRecord ++ s.loftRecord)
  | 0x07 => (48, each 48 s.stallRecord)
  | 0x08 =>
    let b := each 8 s.cpRecord ++ each 48 s.enRecord
    (match room.bind (fun r => (s.canvas r.1).map (fun c => s.canvasRecord r.1 r.2 c)) with
     | some x => (57, b ++ x)
     | none => (56, b))
  | 0x09 =>
    let x := ((room.bind (fun r => (s.mixOf r.1).map (fun m => s.mixRecords r.1 m))).getD [])
    (8 + x.length, each 8 s.mxRecord ++ x.flatten)
  | 0x0A => (64, each 64 s.coreRecord ++ s.kernelTable)
  | 0x0B => (4, each 4 s.tbRecord)
  | 0x0C => (12, each 12 s.mcRecord ++ s.farrierRecord)
  | 0x0D => (1, s.powerRecord)
  | 0x0E => (1, s.eventRecord)
  | 0x10 => (match room with
    | some r => (1, s.roomRecord r.1 r.2)
    | none => (0, []))
  | 0x11 => (match room with
    | some r => ((s.legsOf r.1).length, (s.legsOf r.1).flatMap (fun kv => legRecord kv.1 kv.2))
    | none => (0, []))
  | 0x12 => (match room with
    | some r => ((s.streamsIn r.1).length, (s.streamsIn r.1).flatMap (fun kv => s.streamRecord kv.1 kv.2))
    | none => (0, []))
  | _ => (0, [])

/-- The next multiple of 64. -/
def up64 (n : Nat) : Nat := cdiv n 64 * 64

/-- Directory and blocks of a snapshot, from byte `at_` on: entries, then the bytes of the blocks with their gaps. -/
def blocksFrom : Nat → List (Nat × Nat × Bytes) → Bytes × Bytes
  | _, [] => ([], [])
  | at_, (kind, count, b) :: rest =>
    let here := up64 at_
    let (dir, body) := blocksFrom (here + b.length) rest
    (layout 16 [(0, 1, kind), (1, 1, 1), (4, 4, here), (8, 4, b.length), (12, 4, count)] ++ dir, zeros (here - at_) ++ b ++ body)

/-- The decisions that the commands of this boundary which are still to come make for composed pictures and rung rates (R174; 09 R382, R399). -/
def State.decided (s : State) : State :=
  forEach (s.media.canvases.map (·.1)) (fun room s => rungRates room (composedReady room s)) s

/-- The counts that stand in objects and units, as the last tick left them; those made since have counted nothing (R174, R182, R185). -/
def State.counted (s : State) : State :=
  let stream (i : Nat) (x : Stream) : Stream :=
    let y := ((look s.objsBefore.streams i).bind (fun y => if y.inc = x.inc then some y else none)).getD { x with
      packets := 0, bytes := 0, nackServed := 0, nackExpired := 0, lost := 0, gaps := [], switches := 0 }
    { x with packets := y.packets, bytes := y.bytes, nackServed := y.nackServed, nackExpired := y.nackExpired, lost := y.lost, gaps := y.gaps
             switches := y.switches }
  let leg (i : Nat) (x : Leg) : Leg :=
    { x with fbReports := ((look s.objsBefore.legs i).bind (fun y => if y.inc = x.inc then some y.fbReports else none)).getD 0 }
  let kernel (id : Nat) (k : Kernel) : Kernel :=
    let c := lookD s.unitsTick.kernels (256 * k.loadTick + id) (0, 0, 0, 0)
    { k with blocks := c.1, cycles := c.2.1, overruns := c.2.2.1, faults := c.2.2.2 }
  { s with
    cnt := s.cntTick
    objs := { s.objs with
      streams := s.objs.streams.map (fun (i, x) => (i, stream i x)), legs := s.objs.legs.map (fun (i, x) => (i, leg i x)) }
    thyme := { s.thyme with kernels := s.thyme.kernels.map (fun (id, k) => (id, kernel id k)) }
    media := { s.media with
      jitter := s.media.jitter.map (fun (i, j) => (i, { j with concealed := lookD s.unitsTick.concealed i 0 }))
      mixes := s.media.mixes.map (fun (r, m) => (r, { m with outMeter := m.outMeter.map (fun (l, v) =>
        (l, { v with clipped := lookD (lookD s.unitsTick.clipped r []) l 0 })) })) } }

/-- The counts of units as a tick leaves them. -/
def State.unitCounts (s : State) : UnitCounts :=
  { kernels := s.thyme.kernels.foldl (fun t (id, k) => put t (256 * k.loadTick + id) (k.blocks, k.cycles, k.overruns, k.faults)) []
    concealed := s.media.jitter.map (fun (i, j) => (i, j.concealed))
    clipped := s.media.mixes.map (fun (r, m) => (r, m.outMeter.map (fun (l, v) => (l, v.clipped)))) }

/-- The snapshot of a request, its EPOCH aside: the decisions in force at this boundary, the counts of the ticks before it (R174, R185). -/
def State.snapshot (s : State) (p : Nat) (q : SnapReq) : Bytes :=
  let s := s.decided.counted
  let room := s.roomAt q.room
  let kinds := (List.range 19).filter (fun k => bit q.mask k)
  let blocks := kinds.map (fun k => (k, s.block p room k))
  let start := 64 + 16 * kinds.length
  let (dir, body) := blocksFrom start blocks
  let len := start + body.length
  let conceal := s.media.targets.any (fun kv => !kv.2.chains.isEmpty)
  layout 64 [(8, 4, 0x53544154), (12, 2, 1), (14, 2, kinds.length), (16, 6, s.tick), (24, 4, s.gen), (28, 4, len), (32, 6, s.tbSec 0),
    (40, 4, s.tbNanos 0), (44, 1, b2n s.overcommit + b2n conceal * 2), (48, 4, q.room), (52, 1, p)] ++ dir ++ body

/-! ### Capture and writing (R174-R177) -/

/-- Removes or changes a request of a port. -/
def State.modSnap (s : State) (p addr : Nat) (f : SnapReq → Option SnapReq) : State :=
  s.modHost p (fun h => { h with snaps := h.snaps.filterMap (fun q => if q.addr = addr then f q else some q) })

/-- A capture at this boundary: too long for its buffer, it fails or ends the request; else it is written, EPOCH odd. -/
def State.capture (s : State) (p : Nat) (q : SnapReq) : State :=
  let b := s.snapshot p q
  let q := { q with snapLen := b.length }
  if q.length < b.length then
    if q.capture = 0 then
      ((s.modHost p (fun h => { h with snaps := h.snaps.filter (fun x => x.seq != q.seq) })).complete p q.ring q.seq stBadParam b.length (some s.tick))
    else (s.modSnap p q.addr (fun x => if x.seq = q.seq then none else some x)).event 5 (q.cancelPayload 0) p
  else
    let n := q.capture + 1
    let s := s.hostWrite p q.addr (leBytes 8 (2 * n - 1) ++ b.drop 8)
    (s.modSnap p q.addr (fun x => if x.seq = q.seq then some { q with
      capture := n, writing := true, captureTick := s.tick, nextTick := s.tick + q.period } else some x)).startDma p q.ring q.seq (.snapshot q.addr)

/-- The captures of the requests that took effect at this boundary, after every other command (R174). -/
def State.firstCaptures (s : State) : State :=
  forEach [0, 1, 2, 3] (fun p s =>
    forEach ((s.host p).snaps.filter (fun q => q.capture == 0)) (fun q s => s.capture p q) s) s

/-- STATS_SNAPSHOT at its effect tick: the request stands (none), or its outcome. -/
def applySnapshot (p ring seq : Nat) (d : Desc) (s : State) : State × Option (Nat × Nat) :=
  let addr := dfld d 16 8
  let period := dfld d 24 4
  let periodic := bit (dfld d 28 1) 0
  let room := dfld d 32 4
  let mask := dfld d 40 8
  let mine := (s.host p).snaps.filter (fun q => q.period != 0 && !q.cancelled)
  if s.running p = false then (s, some (stOk, 0))
  else if bit (dfld d 28 1) 1 then
    (if addr % 64 ≠ 0 ∨ period ≠ 0 ∨ periodic ∨ room ≠ 0 ∨ mask ≠ 0 ∨ mine.all (fun q => q.addr != addr) then (s, some (stBadParam, 0))
     else (s.snapCancel p (fun q => q.addr == addr && !q.cancelled), some (stOk, 0)))
  else
    match if room = 0 then none else s.handleCheck p 1 room with
    | some st => (s, some (st, 0))
    | none =>
      if addr % 64 ≠ 0 ∨ (if periodic then period = 0 ∨ 400000 < period else period ≠ 0) ∨ bit mask 0 ∨ bit mask 15 ∨ 2 ^ 19 ≤ mask ∨
          (periodic ∧ mine.any (fun q => q.addr == addr)) then (s, some (stBadParam, 0))
      else if periodic ∧ 4 ≤ mine.length then (s, some (stNoCapacity, 0))
      else
        (s.modHost p (fun h => { h with snaps := h.snaps ++ [{
          addr, length := d.length, period, room, mask, ring, seq }] }), none)

/-- PERIODIC_CAPTURE: a capture falls due at this boundary; one whose predecessor is still written is skipped and counted, in a counter
that no block shows (notes/assumptions/41.md).  KEEP suspends them (14 R583); one comes after the commands of its boundary (R174). -/
def periodicCapture (p addr : Nat) (s : State) : State :=
  if s.now ≠ s.tickAt ∨ s.boundaryHeld ∨ s.power.mode = .keep ∨ 4 ≤ p then s
  else
    match (s.host p).snaps.find? (fun q => q.addr == addr && q.period != 0 && q.capture != 0 && !q.cancelled) with
    | none => s
    | some q =>
      if s.tick < q.nextTick ∨ (s.tick - q.nextTick) % q.period ≠ 0 then s
      else if q.writing then (s.modSnap p addr (fun x => some { x with nextTick := s.tick + x.period })).bump (hpCtr p 192)
      else s.capture p q

/-- SNAPSHOT_WRITE_END: EPOCH becomes even; a one-shot or first capture completes. -/
def snapshotWriteEnd (p addr : Nat) (s : State) : State :=
  if 4 ≤ p then s
  else
    match (s.host p).snaps.find? (fun q => q.addr == addr && q.writing) with
    | none => s
    | some q =>
      let s := s.hostWrite p addr (leBytes 8 (2 * q.capture))
      let s := { s with dmas := s.dmas.filter (fun x => !(x.port == p && x.use == DmaUse.snapshot addr && x.seq == q.seq)) }
      let s := s.modSnap p addr (fun x =>
        if x.seq ≠ q.seq then some x else if q.period = 0 ∨ q.cancelled then none else some { x with writing := false })
      if q.capture = 1 then s.complete p q.ring q.seq stOk q.snapLen (some q.captureTick) else s

/-- The writing of a capture has failed: a first one completes with DMA-ERROR, a later one is skipped (02 R122). -/
def State.snapshotFailed (s : State) (p addr seq : Nat) : State :=
  match (s.host p).snaps.find? (fun q => q.addr == addr && q.writing && q.seq == seq) with
  | none => s
  | some q =>
    let s := s.modSnap p addr (fun x =>
      if x.seq ≠ seq then some x else if q.capture = 1 ∨ q.cancelled then none else some { x with writing := false })
    if q.capture = 1 then s.complete p q.ring seq stDmaError else s

/-! ### The commands of this file -/

/-- The selector bit that tells STATS_SNAPSHOT from its CANCEL (R172). -/
def withCancel (on : Bool) (d : Desc) : Desc :=
  let b := padTo 48 d.body
  { d with body := splice b 12 [BitVec.ofNat 8 (byteAt b 12 - (byteAt b 12 / 2 % 2) * 2 + b2n on * 2)] }

def fetchSnapshot (p r : Nat) (d : Desc) (s : State) : State := fetchTick 0x18 p r d s

/-- STATS_SNAPSHOT (R172). -/
def execStatsSnapshot (t p r : Nat) (d : Desc) (s : State) : Host.Outcome State Fault Refusal :=
  .next (fetchSnapshot p r (withCancel false d) (s.at t))

/-- STATS_SNAPSHOT with CANCEL (R177). -/
def execStatsSnapshotCancel (t p r : Nat) (d : Desc) (s : State) : Host.Outcome State Fault Refusal :=
  .next (fetchSnapshot p r (withCancel true d) (s.at t))

/-- PERIODIC_CAPTURE (R177). -/
def execPeriodicCapture (t p addr : Nat) (s : State) : Host.Outcome State Fault Refusal := .next (periodicCapture p addr (s.at t))

/-- SNAPSHOT_WRITE_END (R175). -/
def execSnapshotWriteEnd (t p addr : Nat) (s : State) : Host.Outcome State Fault Refusal := .next (snapshotWriteEnd p addr (s.at t))

end Sys2Proof.Machine
end

