-- ==== Sys2Proof/Machine/Tick.lean ====
section
/-! DEFINITION. Tick boundaries (12 R511): the commands that take effect there, in the admission order of 01 R60, with checks 6-10 of
02 R92, alone and in batches (02 R98-R100); what the tick that ends has measured; and the decisions the bridge makes there (01 R66). -/
namespace Sys2Proof.Machine

/-! ### One command (02 R92) -/

/-- A handle whose incarnation bits are 0 and whose index is not (02 R100): kind 1 room, 2 leg, 3 stream. -/
def unborn (kind h : Nat) : Bool := h != 0 && decide (h < (match kind with
  | 1 => 65536
  | 2 => 1048576
  | _ => 4194304))

/-- Checks 6-8 on a command that names an object: ownership, incarnation, generation. -/
def State.judge (s : State) (k : Kind) (p : Nat) (d : Desc) : Option Nat :=
  match if k.handle = 0 then none else s.handleCheck p k.handle d.handle with
  | some st => some st
  | none => if k.gen ∧ d.genview ≠ s.gen then some stStaleGen else none

/-- The effect of a command at its tick, checks 9 and 10 included. TACK_COMMIT and TACK_ROLLBACK make checks 6 and 8 themselves. -/
def State.effectOf (s : State) (op p : Nat) (d : Desc) (data : Bytes) : Out :=
  match op with
  | 0x01 => applyRoomCreate p d s
  | 0x02 => applyRoomModify d s
  | 0x03 => applyRoomDelete d s
  | 0x04 => applyLegCreate p d s
  | 0x05 => applyLegModify d s
  | 0x06 => applyLegDelete d s
  | 0x07 => applyStreamCreate p d s
  | 0x08 => applyStreamModify d s
  | 0x09 => applyStreamDelete d s
  | 0x0D => applyKeyInstall p d data s
  | 0x11 => if bit (dfld d 20 1) 0 then applyAccept p d s else applyCommit p d s
  | 0x12 => applyRollback p d s
  | 0x14 => if bit (dfld d 25 1) 0 then applyKernelUnload p d s else applyKernelLoad p d data s
  | _ => okOut s

/-- A command at its effect tick: state, status, RESULT, and the handle its completion bears. -/
def State.applyCommand (s : State) (op p : Nat) (d : Desc) (data : Bytes) : Out :=
  match kindOf op with
  | none => failOut s stBadOpcode
  | some k =>
    if k.len ∧ d.length = 0 then failOut s stEmpty
    else if op = 0x11 ∨ op = 0x12 then s.effectOf op p d data
    else
      match s.judge k p d with
      | some st => failOut s st
      | none => s.effectOf op p d data

/-- A waiting command outside a batch takes effect. -/
def State.runCommand (s : State) (w : Waiting) : State :=
  let s := { s with waiting := s.waiting.filter (fun x => x.seq != w.seq) }
  let k := (kindOf w.opcode).getD {}
  if k.handle ≠ 0 ∧ unborn k.handle w.desc.handle then s.complete w.port w.ring w.seq stBadParam
  else if w.opcode = 0x18 then
    match applySnapshot w.port w.ring w.seq w.desc s with
    | (s, some (st, res)) => s.complete w.port w.ring w.seq st res (if st = stOk then some s.tick else none)
    | (s, none) => s
  else
    let (s, st, res, obj) := s.applyCommand w.opcode w.port w.desc (w.data.getD [])
    s.complete w.port w.ring w.seq st res (if st = stOk then some s.tick else none) obj

/-! ### Batches (02 R98-R100) -/

/-- A member with its HANDLE resolved against the objects made by the members before it; none when it names none of the kind it
needs. -/
def memberDesc (made : List (Nat × Nat)) (kind : Nat) (d : Desc) : Option Desc :=
  if kind = 0 ∨ unborn kind d.handle = false then some d
  else
    match made[d.handle - 1]? with
    | some (k, h) => if k = kind then some { d with handle := h } else none
    | none => none

/-- What a batch comes to: the state with every member applied and the outcome of each (number, status, RESULT, handle), or the
member that failed with its status and RESULT. -/
inductive BatchOut where
  | all (s : State) (outs : List (Nat × Nat × Nat × Nat))
  | fails (seq status result : Nat)

/-- The descriptor of a member once it has come to check 5: one whose length is zero has completed before, under check 2 (02 R89, R92). -/
def memberAt (made : List (Nat × Nat)) (op : Nat) (d : Desc) : Option Desc :=
  let k := (kindOf op).getD {}
  if k.len ∧ d.length = 0 then some d else memberDesc made k.handle d

/-- Applies the members in submission order to a trial state. -/
def runMembers : List Waiting → List (Nat × Nat) → List (Nat × Nat × Nat × Nat) → State → BatchOut
  | [], _, outs, s => .all s outs
  | w :: rest, made, outs, s =>
    match memberAt made w.opcode w.desc with
    | none => .fails w.seq stBadParam 0
    | some d =>
      match s.applyCommand w.opcode w.port d (w.data.getD []) with
      | (t, st, res, obj) =>
        if st = stOk ∨ st = stEmpty then
          runMembers rest (made ++ [(createKind w.opcode, res)]) (outs ++ [(w.seq, st, res, if obj = 0 then d.handle else obj)]) t
        else .fails w.seq st res

/-- Members of the batch that an end closes, in submission order. -/
def State.membersOf (s : State) (e : Waiting) : List Waiting :=
  s.waiting.filter (fun w => w.batch == e.batch && w.opcode != 0x0B)

/-- A closed batch fails by one of its members: that member has its own status, the others, its begin and its end BATCH-ABORTED. -/
def State.failBatch (s : State) (e : Waiting) (bad status result : Nat) : State :=
  let ms := s.membersOf e
  let s := { s with waiting := s.waiting.filter (fun w => w.batch != e.batch) }
  let s := s.complete e.port e.ring (e.batch.getD 0) stBatchAborted
  let s := forEach ms (fun w s =>
    if w.seq = bad then s.complete e.port e.ring bad status result else s.complete e.port e.ring w.seq stBatchAborted) s
  s.complete e.port e.ring e.seq stBatchAborted

/-- A closed batch takes effect, or none of it does. -/
def State.runBatch (s : State) (e : Waiting) : State :=
  match runMembers (s.membersOf e) [] [] { s with waiting := s.waiting.filter (fun w => w.batch != e.batch) } with
  | .all s outs =>
    let s := s.complete e.port e.ring (e.batch.getD 0) stOk 0 (some s.tick)
    let s := forEach outs (fun (q, st, res, obj) s =>
      s.complete e.port e.ring q st res (if st = stOk then some s.tick else none) obj) s
    s.complete e.port e.ring e.seq stOk 0 (some s.tick)
  | .fails bad st res => s.failBatch e bad st res

/-! ### The commands of a boundary (01 R60; 03 R143) -/

/-- The admission order: host port, ring, place in the ring. -/
def Waiting.before (a b : Waiting) : Bool :=
  a.port < b.port || (a.port == b.port && (a.ring < b.ring || (a.ring == b.ring && a.seq < b.seq)))

/-- Inserts a command into a list in admission order. -/
def admitIn (w : Waiting) : List Waiting → List Waiting
  | [] => [w]
  | x :: rest => if w.before x then w :: x :: rest else x :: admitIn w rest

/-- Is a waiting command, or the end of a batch with all its members, due at this boundary, its buffers read? -/
def State.due (s : State) (w : Waiting) : Bool :=
  w.effect.any (fun e => decide (e ≤ s.tickAt)) &&
    (if w.batch.isSome then w.opcode == 0x0B && (s.membersOf w).all (fun x => x.data.isSome) else w.data.isSome)

/-- What is due, in admission order. -/
def State.dueNow (s : State) : List Waiting := (s.waiting.filter (fun w => s.due w)).foldr admitIn []

/-- The commands that take effect at this boundary: first the one that makes a switch, while others of its kind are deferred behind a
switch (R143); then all the rest under the generation then in force (02 R92). -/
def State.runDue (s : State) : State :=
  let s := forEach (s.dueNow.filter (fun w => w.switches)) (fun w s => if s.gens.switching then s else s.runCommand w) s
  forEach (s.dueNow.filter (fun w => !w.switches)) (fun w s => if w.batch.isSome then s.runBatch w else s.runCommand w) s

/-! ### The tick that ends -/

/-- FEC counters of a port in the tick; those of a port that is not provided do not advance (05 R202, R235). -/
def State.fecTick (s : State) (l corrected bad symbols : Nat) : State :=
  if provides s.gens.cur l = false then s
  else
  let s := ((s.addCnt (npCtr l 152) corrected).addCnt (npCtr l 160) bad).addCnt (npCtr l 168) symbols
  if bad = 0 then s else s.modLport l (fun p => { p with fecLastBad := s.tick })

/-- Maximum power of a mode in 0.1 W (14 R596). -/
def Mode.maxDw (m : Mode) : Nat :=
  match m with
  | .reset => 300 | .boot => 950 | .standby => 1400 | .service => 1400 | .run => 4700 | .drain => 4700 | .keep => 240 | .safe => 600

/-- Mean power of a tick in 0.1 W: at a junction up to 85 °C not above the maximum of the modes that the tick can have been spent in
(14 R596). -/
def State.measured (s : State) (dw : Nat) : Nat :=
  if s.power.tmax ≤ 85 then min dw (max s.power.mode.maxDw s.power.prev.maxDw) else dw

/-- Closes the tick in force: what was measured in it, supplies, power, stall cycles and waits for a slot (01 R40, R69; 05 R235;
08 R361; 14 R597, R600). -/
def State.closeTick (s : State) (m : TickMeas) : State :=
  let s := forEach m.fec (fun (l, c, b, y) s => if l < 64 then s.fecTick l c b y else s) s
  let s := forEach m.dram (fun (c, l) s => if c < 12 then
    forEach (l.zip [0, 8, 16, 24, 32, 96, 104, 112, 120]) (fun (n, o) s => s.addCnt (mcCtr c o) n) s else s) s
  let s := forEach s.media.slotWaits (fun (y, c) s => s.bump (ostCtr y c 24)) s
  let s := (s.addCnt (pwrCtr 56) (b2n (s.power.level == 1))).addCnt (pwrCtr 64) (b2n (s.power.level == 2))
  let s := (s.addCnt (pwrCtr 104) m.energyMj).modPower (fun p => { p with
    powerDw := s.measured m.powerDw, vcoreLast := p.vcoreMin, vsramLast := p.vsramMin, vcoreMin := p.vcoreMv, vsramMin := p.vsramMv })
  let s := s.modMedia (fun x => { x with
    slotWaits := (x.noSlot.map (fun o => (o.yard, o.cls))).eraseDups, stallBusy := []
    utilTicks := (List.range 8).map (fun y => (y, (lookD x.stallBusy y 0 :: lookD x.utilTicks y []).take 8)) })
  { s with clientMbps := (List.range 9).map (fun k => (m.clientMbps.drop k).headD 0) }

/-! ### The boundary -/

/-- The decisions in force from this boundary, the samples and charges of the tick that has ended, and what becomes ready. -/
def State.decideTick (s : State) : State :=
  let s := if s.mediaOn then s.audioSets else s
  let s := s.sampleQueues
  let s := if s.mediaOn then s.layerTargets.noteSpeakers else s
  let s := s.shedHistory.shedLog.shedSpill.hostPump.mixTick
  s.modNet (fun n => { n with loftUsed := (n.pools.map (fun kv => kv.2.level)).sum })

/-- Commands, then decisions, then the first capture of each snapshot that took effect (04 R174). -/
def State.boundaryWork (s : State) : State := s.runDue.decideTick.firstCaptures.noteView

/-- Has TB0 advanced by 2,500,000 ns since the last boundary, explicit sets apart (12 R511)? -/
def State.tickDue (s : State) : Bool := decide (s.tickVal + 2500000 * 2 ^ 32 ≤ (s.tbVal 0 : Int))

/-- A return, or the end of probation, that the present boundary waits for comes about there (03 R145, R147). -/
def State.settleHeld (s : State) : State :=
  if s.boundaryHeld = false then s
  else
    let s := if s.gens.autoReturn.isSome then s.autoReturnNow else if s.probationOver then s.becomeKept else s
    ({ s with boundaryHeld := false }).boundaryWork

/-- Is an automatic return due at the boundary in force? -/
def State.returnDue (s : State) : Bool := s.gens.autoReturn.any (fun x => decide (x.1 ≤ s.tick))

/-- TICK_BOUNDARY, once device reset has ended (12 R511). Its commands wait when a return or the end of probation falls due with it
(notes/assumptions/34.md). -/
def tickBoundary (m : TickMeas) (s : State) : State :=
  if s.power.mode = .reset ∨ s.tickDue = false then s
  else
    let s := (s.settleHeld.closeTick m).receiving m.cut
    let s := { s with tick := s.tick + 1, tickAt := s.now, tickVal := s.tickVal + 2500000 * 2 ^ 32, cntTick := s.cnt,
                       unitsTick := s.unitCounts, objsBefore := s.objs }
    let s := if s.gens.switching then s.endSwitch else s
    let due := s.returnDue
    let s := s.probationTick
    if due ∨ s.probationOver then { s with boundaryHeld := true } else s.boundaryWork

/-- PROBATION_END: the last tick of probation has passed without a failure (03 R145). -/
def probationEnd (s : State) : State :=
  if s.now = s.tickAt ∧ s.boundaryHeld ∧ s.probationOver then s.settleHeld else s

/-- AUTOMATIC_RETURN: the return set at the boundary before comes about (03 R147, R148). -/
def automaticReturn (s : State) : State :=
  if s.now = s.tickAt ∧ s.boundaryHeld ∧ s.returnDue then s.settleHeld else s

/-! ### The commands of this file -/

/-- TICK_BOUNDARY (12 R511). -/
def execTickBoundary (t : Nat) (m : TickMeas) (s : State) : Host.Outcome State Fault Refusal := .next (tickBoundary m (s.at t))

/-- PROBATION_END (03 R145). -/
def execProbationEnd (t : Nat) (s : State) : Host.Outcome State Fault Refusal := .next (probationEnd (s.at t))

/-- AUTOMATIC_RETURN (03 R147). -/
def execAutomaticReturn (t : Nat) (s : State) : Host.Outcome State Fault Refusal := .next (automaticReturn (s.at t))

end Sys2Proof.Machine
end

