-- ==== Sys2Proof/Machine/Sweep.lean ====
section
/-! DEFINITION. The adaptive doorbell sweep (02 R78-R84, R95, R107) and the results of the bridge's accesses to host memory
(02 R122). -/
namespace Sys2Proof.Machine

/-! ### Fetching (02 R90) -/

/-- The bridge fetches one descriptor of any kind from a ring. -/
def fetchOne (p r op : Nat) (d : Desc) (s : State) : State :=
  match op with
  | 0x00 => doNop p r d s
  | 0x0A => doBatchBegin p r d s
  | 0x0B => doBatchEnd p r d s
  | 0x0C => doFence p r d s
  | 0x0D => fetchKeyInstall p r d s
  | 0x10 => fetchDesc 0x10 p r d (fun seq s => tackSubmit p r seq d s) s
  | 0x14 => if bit (dfld d 25 1) 0 then fetchKernelUnload p r d s else fetchKernelLoad p r d s
  | 0x1A => fetchDesc 0x1A p r d (fun seq s => puntPost p r seq d s) s
  | 0x1B => fetchDesc 0x1B p r d (fun seq s => hostTx p r seq d s) s
  | 0x1C => fetchDesc 0x1C p r d (fun seq s => logRead p r seq d s) s
  | 0x1E => fetchDesc 0x1E p r d (fun seq s => flashRead p r seq d s) s
  | 0x1F => fetchDesc 0x1F p r d (fun seq s => flashWrite p r seq d s) s
  | 0x20 => fetchDramService p r d s
  | _ => fetchTick op p r d s

/-! ### A sweep -/

/-- How far a 32-bit index stands ahead of a count (02 R80). -/
def ahead (idx count : Nat) : Nat := (idx + 2 ^ 32 - count % 2 ^ 32) % 2 ^ 32

/-- A consumer index of a completion ring: its entries are drained, or it claims too much (02 R81, R95). -/
def sweepCq (p j idx : Nat) (s : State) : State :=
  let q := (s.host p).cqAt j
  let n := ahead idx q.consumed
  if (s.host p).cqEn j = false ∨ q.halted then s
  else if q.posted - q.consumed < n then s.ringError p 1 j idx
  else s.modHost p (fun h => h.modCq j (fun q => { q with
    consumed := q.consumed + n, entries := q.entries.drop n }))

/-- A consumer index of an event queue; freed space takes the EQ_OVERFLOW entry that waits (02 R81, R107). -/
def sweepEq (p i idx : Nat) (s : State) : State :=
  let q := (s.host p).eqAt i
  let n := ahead idx q.consumed
  if (s.host p).eqEn i = false ∨ q.halted then s
  else if q.posted - q.consumed < n then s.ringError p 2 i idx
  else
    (s.modHost p (fun h => h.modEq i (fun q => { q with
      consumed := q.consumed + n, entries := q.entries.drop n }))).overflowDue p i

/-- A producer index of a submission ring: whether it has advanced since the last sweep, and the ring as the bridge sees it (02 R81). -/
def sweepSq (p r idx : Nat) (s : State) : State :=
  let h := s.host p
  let q := h.sqAt r
  let n := ahead idx q.fetched
  if h.sqEn r = false then s
  else
    let s := s.modHost p (fun h => h.modSq r (fun q => { q with prod := q.fetched + n }))
    if q.halted = false ∧ ringSize (h.sqCfg r) < n then s.ringError p 0 r idx else s

/-- Has the producer index of a ring advanced since the last sweep? -/
def HostPort.advanced (h : HostPort) (x : Nat × Nat) : Bool := h.sqEn x.1 && (h.sqAt x.1).prod % 2 ^ 32 != x.2 % 2 ^ 32

/-! The doorbell page (02 R78): an index for each ring and queue in use. -/

/-- SQ_PROD of each submission ring in use. -/
def HostPort.sqProd (h : HostPort) (page : Bytes) : List (Nat × Nat) :=
  ((List.range 64).filter (fun i => h.sqEn i)).map (fun i => (i, le page (4 * i) 4))

/-- CQ_CONS of each completion ring in use. -/
def HostPort.cqCons (h : HostPort) (page : Bytes) : List (Nat × Nat) :=
  ((List.range 64).filter (fun j => h.cqEn j)).map (fun j => (j, le page (256 + 4 * j) 4))

/-- EQ_CONS of each event queue in use. -/
def HostPort.eqCons (h : HostPort) (page : Bytes) : List (Nat × Nat) :=
  ([0, 1, 2, 3].filter (fun q => h.eqEn q)).map (fun q => (q, le page (512 + 4 * q) 4))

/-- Fetches up to 32 descriptors of a ring: its state, and whether its full completion ring made fetching pause (02 R84, R95). -/
def fetchRing (p r : Nat) : Nat → List Bytes → State → State × Bool
  | _, [], s => (s, false)
  | 0, _, s => (s, false)
  | n + 1, b :: rest, s =>
    if s.ringOpen p r = false ∨ ((s.host p).sqAt r).prod ≤ ((s.host p).sqAt r).fetched then (s, false)
    else if s.cqFree p r = false then (s, true)
    else fetchRing p r n rest (fetchOne p r (slotOpcode b) (slotDesc b) s)

/-- Fetches from each ring that is ahead, in ascending order. -/
def fetchRings (p : Nat) : List (Nat × List Bytes) → State → State × Bool
  | [], s => (s, false)
  | (r, ds) :: rest, s =>
    let (s, full) := fetchRing p r 32 ds s
    let (s, more) := fetchRings p rest s
    (s, full || more)

/-- Rings in ascending order. -/
def byRing (l : List (Nat × List Bytes)) : List (Nat × List Bytes) :=
  (List.range 64).filterMap (fun r => (l.find? (fun x => x.1 == r)))

/-- SWEEP: the doorbell page is read, indices are checked, consumption is taken, descriptors are fetched, and the interval adapts
(02 R81-R84).  When the bridge cannot issue the read of the page there is no sweep, only the failure that HOST_DMA_COMPLETION reports
(R122). -/
def sweep (p : Nat) (d : SweepData) (s : State) : State :=
  if 4 ≤ p ∨ s.running p = false ∨ s.power.mode.sweeps = false ∨ (s.host p).canIssue = false then s
  else
    let prod := (s.host p).sqProd d.page
    let busy := prod.any (s.host p).advanced
    let s := (s.bump (hpCtr p 0)).addCnt (hpCtr p 8) (b2n busy)
    let s := forEach ((s.host p).cqCons d.page) (fun (j, idx) s => sweepCq p j idx s) s
    let s := forEach ((s.host p).eqCons d.page) (fun (i, idx) s => sweepEq p i idx s) s
    let s := s.modHost p (fun h => h.settle s.now)
    let s := forEach prod (fun (r, idx) s => sweepSq p r idx s) s
    let (s, full) := fetchRings p (byRing d.slots) s
    let s := s.addCnt (hpCtr p 24) (b2n full)
    s.modHost p (fun h =>
      let cfg := h.reg 0x10010
      { h with sweepNow := if busy then bits cfg 7 0 else min (2 * h.sweepNow) (bits cfg 15 8) })

/-! ### Results of host accesses (02 R122) -/

/-- TAG of a descriptor that is not completed; 0 when its completion is lost. -/
def State.tagOf (s : State) (p r seq : Nat) : Nat :=
  ((((s.host p).sqAt r).out.find? (fun o => o.seq == seq)).map (·.tag)).getD 0

/-- The buffer of a command that waits for its tick could not be read: it fails alone, or its batch with it. -/
def State.commandLost (s : State) (x : Dma) : State :=
  match s.waiting.find? (fun w => w.seq == x.seq) with
  | none => s
  | some w =>
    match w.batch with
    | none => ({ s with waiting := s.waiting.filter (fun y => y.seq != x.seq) }).complete x.port x.ring x.seq stDmaError
    | some b =>
      match s.waiting.find? (fun y => y.opcode == 0x0B && y.batch == some b) with
      | some e => s.failBatch e x.seq stDmaError 0
      | none =>
        let s := ({ s with waiting := s.waiting.filter (fun y => y.seq != x.seq) }).resolve x.port x.ring x.seq stDmaError 0 none 0
        match s.batchOf x.port x.ring with
        | some open_ => s.setBatch x.port x.ring (some { open_ with failed := true })
        | none => s

/-- A buffer has been read or written. -/
def State.dmaDone (s : State) (x : Dma) (data : Bytes) : State :=
  let t := { s with dmas := s.dmas.filter (fun y => y.id != x.id) }
  match x.use with
  | .command => { t with waiting := t.waiting.map (fun w => if w.seq = x.seq then { w with data := some data } else w) }
  | .tackImage => t.tackRead x.port x.ring x.seq (some data)
  | .hostTx => s.hostData x (some data)
  | .flashData => t.flashData x.port x.ring x.seq data
  | .write result => t.complete x.port x.ring x.seq stOk result
  | .log addr room inc k first recs n => t.logFinish x addr room inc k first recs n
  | .snapshot _ => s

/-- A buffer could not be read or written: its descriptor completes with DMA-ERROR. -/
def State.dmaFailed (s : State) (x : Dma) (status : Nat) : State :=
  let s := s.dmaError x.port 0 x.ring status (s.tagOf x.port x.ring x.seq)
  let t := { s with dmas := s.dmas.filter (fun y => y.id != x.id) }
  match x.use with
  | .command => t.commandLost x
  | .tackImage => (t.tackRead x.port x.ring x.seq none).complete x.port x.ring x.seq stDmaError
  | .hostTx => s.hostData x none
  | .flashData => (t.flashDrop x.port x.ring x.seq).complete x.port x.ring x.seq stDmaError
  | .write _ => t.complete x.port x.ring x.seq stDmaError
  | .log .. => t.complete x.port x.ring x.seq stDmaError
  | .snapshot addr => t.snapshotFailed x.port addr x.seq

/-- Is it an access that writes host memory? -/
def DmaUse.writes (u : DmaUse) : Bool :=
  match u with
  | .write _ => true
  | .log .. => true
  | .snapshot _ => true
  | _ => false

/-- May an access end in a failure status (02 R122)?  A write fails only when it was not issued; a read that was not issued has no
other failure. -/
def Dma.fails (x : Dma) (status : Nat) : Bool :=
  if x.issued then !x.use.writes && [1, 2, 4, 5, 6, 7].contains status else status == 7

/-- HOST_DMA_COMPLETION. A result that 02 R122 does not let the access have changes nothing. -/
def hostDmaCompletion (a : DmaRef) (res : DmaResult) (s : State) : State :=
  match a, res with
  | .buffer id, .ok data =>
    (match s.dmas.find? (fun x => x.id == id) with
     | some x => if x.issued then s.dmaDone x data else s
     | none => s)
  | .buffer id, .fail st =>
    (match s.dmas.find? (fun x => x.id == id) with
     | some x => if x.fails st then s.dmaFailed x st else s
     | none => s)
  | .desc p r, .fail st =>
    if s.running p ∧ r < 64 ∧ [1, 2, 4, 5, 6, 7].contains st then (s.haltRing p 0 r).dmaError p 0 r st 0 else s
  | .doorbell p, .fail st => if s.running p ∧ [1, 2, 4, 5, 6, 7].contains st then s.hostFailed p st else s
  | .entry p kind i, .fail st =>
    if s.running p ∧ (s.host p).unissued.contains (kind, i) ∧ st = 7 then
      let s := s.modHost p (fun h => { h with unissued := h.unissued.filter (· != (kind, i)) })
      (s.haltRing p kind i).dmaError p kind i st 0
    else s
  | _, .ok _ => s

/-! ### The commands of this file -/

/-- SWEEP (02 R81). -/
def execSweep (t p : Nat) (d : SweepData) (s : State) : Host.Outcome State Fault Refusal := .next (sweep p d (s.at t))

/-- HOST_DMA_COMPLETION (02 R122). -/
def execHostDmaCompletion (t : Nat) (a : DmaRef) (res : DmaResult) (s : State) : Host.Outcome State Fault Refusal :=
  .next (hostDmaCompletion a res (s.at t))

end Sys2Proof.Machine
end

