-- ==== Sys2Proof/Machine/ThymeIsa.lean ====
section
/-! DEFINITION. The instructions of a thyme core, one meaning a row (11 R485-R491).  Each is `thymeRun` over the effect of the
instruction on its core; `fr` gives the free values of the instruction. -/
namespace Sys2Proof.Machine

/-- Outcome of a step of a core. -/
abbrev Ran := Host.Outcome State Fault Refusal

/-! ### Format P (R486-R488) -/

/-- NOPP: moves only. -/
def thyNopp (xm ym : PMove) (c : Core) : ThymeEffect :=
  let (f, c1) := c.moves xm ym
  { core := c1, fault := f }
def execThNopp (core : Nat) (xm ym : PMove) (s : State) : Ran := .next (thymeRun core (.thNopp core xm ym) 1 (fun _ c => thyNopp xm ym c) s)

/-- MPY: P32(SA, SB). -/
def thyMpy (ad : BitVec 2) (sa : BitVec 3) (sb : BitVec 3) (xm ym : PMove) (c : Core) : ThymeEffect :=
  c.accOp ad (p32 (c.gReg sa.toNat) (c.gReg sb.toNat)) xm ym
def execThMpy (core : Nat) (ad : BitVec 2) (sa : BitVec 3) (sb : BitVec 3) (xm ym : PMove) (s : State) : Ran :=
  .next (thymeRun core (.thMpy core ad sa sb xm ym) 1 (fun _ c => thyMpy ad sa sb xm ym c) s)

/-- MAC: A + P32(SA, SB). -/
def thyMac (ad : BitVec 2) (sa : BitVec 3) (sb : BitVec 3) (xm ym : PMove) (c : Core) : ThymeEffect :=
  c.accOp ad ((c.acc ad.toNat).toInt + p32 (c.gReg sa.toNat) (c.gReg sb.toNat)) xm ym
def execThMac (core : Nat) (ad : BitVec 2) (sa : BitVec 3) (sb : BitVec 3) (xm ym : PMove) (s : State) : Ran :=
  .next (thymeRun core (.thMac core ad sa sb xm ym) 1 (fun _ c => thyMac ad sa sb xm ym c) s)

/-- MSU: A - P32(SA, SB). -/
def thyMsu (ad : BitVec 2) (sa : BitVec 3) (sb : BitVec 3) (xm ym : PMove) (c : Core) : ThymeEffect :=
  c.accOp ad ((c.acc ad.toNat).toInt - p32 (c.gReg sa.toNat) (c.gReg sb.toNat)) xm ym
def execThMsu (core : Nat) (ad : BitVec 2) (sa : BitVec 3) (sb : BitVec 3) (xm ym : PMove) (s : State) : Ran :=
  .next (thymeRun core (.thMsu core ad sa sb xm ym) 1 (fun _ c => thyMsu ad sa sb xm ym c) s)

/-- DMPY: P16(SA, SB). -/
def thyDmpy (ad : BitVec 2) (sa : BitVec 3) (sb : BitVec 3) (xm ym : PMove) (c : Core) : ThymeEffect :=
  c.accOp ad (p16 (c.gReg sa.toNat) (c.gReg sb.toNat)) xm ym
def execThDmpy (core : Nat) (ad : BitVec 2) (sa : BitVec 3) (sb : BitVec 3) (xm ym : PMove) (s : State) : Ran :=
  .next (thymeRun core (.thDmpy core ad sa sb xm ym) 1 (fun _ c => thyDmpy ad sa sb xm ym c) s)

/-- DMAC: A + P16(SA, SB). -/
def thyDmac (ad : BitVec 2) (sa : BitVec 3) (sb : BitVec 3) (xm ym : PMove) (c : Core) : ThymeEffect :=
  c.accOp ad ((c.acc ad.toNat).toInt + p16 (c.gReg sa.toNat) (c.gReg sb.toNat)) xm ym
def execThDmac (core : Nat) (ad : BitVec 2) (sa : BitVec 3) (sb : BitVec 3) (xm ym : PMove) (s : State) : Ran :=
  .next (thymeRun core (.thDmac core ad sa sb xm ym) 1 (fun _ c => thyDmac ad sa sb xm ym c) s)

/-- DMSU: A - P16(SA, SB). -/
def thyDmsu (ad : BitVec 2) (sa : BitVec 3) (sb : BitVec 3) (xm ym : PMove) (c : Core) : ThymeEffect :=
  c.accOp ad ((c.acc ad.toNat).toInt - p16 (c.gReg sa.toNat) (c.gReg sb.toNat)) xm ym
def execThDmsu (core : Nat) (ad : BitVec 2) (sa : BitVec 3) (sb : BitVec 3) (xm ym : PMove) (s : State) : Ran :=
  .next (thymeRun core (.thDmsu core ad sa sb xm ym) 1 (fun _ c => thyDmsu ad sa sb xm ym c) s)

/-- SQMAC: A + P32(SA, SA). -/
def thySqmac (ad : BitVec 2) (sa : BitVec 3) (xm ym : PMove) (c : Core) : ThymeEffect :=
  c.accOp ad ((c.acc ad.toNat).toInt + p32 (c.gReg sa.toNat) (c.gReg sa.toNat)) xm ym
def execThSqmac (core : Nat) (ad : BitVec 2) (sa : BitVec 3) (xm ym : PMove) (s : State) : Ran :=
  .next (thymeRun core (.thSqmac core ad sa xm ym) 1 (fun _ c => thySqmac ad sa xm ym c) s)

/-- ADDG: A + SA. -/
def thyAddg (ad : BitVec 2) (sa : BitVec 3) (xm ym : PMove) (c : Core) : ThymeEffect :=
  c.accOp ad ((c.acc ad.toNat).toInt + (c.gReg sa.toNat).toInt) xm ym
def execThAddg (core : Nat) (ad : BitVec 2) (sa : BitVec 3) (xm ym : PMove) (s : State) : Ran :=
  .next (thymeRun core (.thAddg core ad sa xm ym) 1 (fun _ c => thyAddg ad sa xm ym c) s)

/-- SUBG: A - SA. -/
def thySubg (ad : BitVec 2) (sa : BitVec 3) (xm ym : PMove) (c : Core) : ThymeEffect :=
  c.accOp ad ((c.acc ad.toNat).toInt - (c.gReg sa.toNat).toInt) xm ym
def execThSubg (core : Nat) (ad : BitVec 2) (sa : BitVec 3) (xm ym : PMove) (s : State) : Ran :=
  .next (thymeRun core (.thSubg core ad sa xm ym) 1 (fun _ c => thySubg ad sa xm ym c) s)

/-- LDA: SA, sign-extended. -/
def thyLda (ad : BitVec 2) (sa : BitVec 3) (xm ym : PMove) (c : Core) : ThymeEffect :=
  c.accOp ad ((c.gReg sa.toNat).toInt) xm ym
def execThLda (core : Nat) (ad : BitVec 2) (sa : BitVec 3) (xm ym : PMove) (s : State) : Ran :=
  .next (thymeRun core (.thLda core ad sa xm ym) 1 (fun _ c => thyLda ad sa xm ym c) s)

/-- CLRA: 0. -/
def thyClra (ad : BitVec 2) (xm ym : PMove) (c : Core) : ThymeEffect :=
  c.accOp ad (0) xm ym
def execThClra (core : Nat) (ad : BitVec 2) (xm ym : PMove) (s : State) : Ran :=
  .next (thymeRun core (.thClra core ad xm ym) 1 (fun _ c => thyClra ad xm ym c) s)

/-- ABSA: |A|. -/
def thyAbsa (ad : BitVec 2) (xm ym : PMove) (c : Core) : ThymeEffect :=
  c.accOp ad (((((c.acc ad.toNat).toInt).natAbs : Nat) : Int)) xm ym
def execThAbsa (core : Nat) (ad : BitVec 2) (xm ym : PMove) (s : State) : Ran :=
  .next (thymeRun core (.thAbsa core ad xm ym) 1 (fun _ c => thyAbsa ad xm ym c) s)

/-- NEGA: -A. -/
def thyNega (ad : BitVec 2) (xm ym : PMove) (c : Core) : ThymeEffect :=
  c.accOp ad (-(c.acc ad.toNat).toInt) xm ym
def execThNega (core : Nat) (ad : BitVec 2) (xm ym : PMove) (s : State) : Ran :=
  .next (thymeRun core (.thNega core ad xm ym) 1 (fun _ c => thyNega ad xm ym c) s)

/-- ADDAA: A + A[SB]. -/
def thyAddaa (ad : BitVec 2) (sb : BitVec 2) (xm ym : PMove) (c : Core) : ThymeEffect :=
  c.accOp ad ((c.acc ad.toNat).toInt + (c.acc sb.toNat).toInt) xm ym
def execThAddaa (core : Nat) (ad : BitVec 2) (sb : BitVec 2) (xm ym : PMove) (s : State) : Ran :=
  .next (thymeRun core (.thAddaa core ad sb xm ym) 1 (fun _ c => thyAddaa ad sb xm ym c) s)

/-- ASH: A × 2^n, right shifts towards -∞. -/
def thyAsh (ad : BitVec 2) (n : BitVec 6) (xm ym : PMove) (c : Core) : ThymeEffect :=
  c.accOp ad (if 0 ≤ n.toInt then (c.acc ad.toNat).toInt * 2 ^ n.toInt.toNat else (c.acc ad.toNat).toInt / 2 ^ (-n.toInt).toNat) xm ym
def execThAsh (core : Nat) (ad : BitVec 2) (n : BitVec 6) (xm ym : PMove) (s : State) : Ran :=
  .next (thymeRun core (.thAsh core ad n xm ym) 1 (fun _ c => thyAsh ad n xm ym c) s)

/-- ABSMAX: max(A, |SA|). -/
def thyAbsmax (ad : BitVec 2) (sa : BitVec 3) (xm ym : PMove) (c : Core) : ThymeEffect :=
  c.accOp ad (max (c.acc ad.toNat).toInt (((c.gReg sa.toNat).toInt.natAbs : Nat) : Int)) xm ym
def execThAbsmax (core : Nat) (ad : BitVec 2) (sa : BitVec 3) (xm ym : PMove) (s : State) : Ran :=
  .next (thymeRun core (.thAbsmax core ad sa xm ym) 1 (fun _ c => thyAbsmax ad sa xm ym c) s)

/-! ### ALU (R489) -/

/-- ADD and its immediate form. -/
def execThAdd (core : Nat) (gd gs1 : BitVec 4) (b : AluSrc) (s : State) : Ran :=
  .next (thymeRun core (.thAdd core gd gs1 b) 1 (fun _ c => c.aluOp gd gs1 b aluAdd) s)

/-- SUB and its immediate form. -/
def execThSub (core : Nat) (gd gs1 : BitVec 4) (b : AluSrc) (s : State) : Ran :=
  .next (thymeRun core (.thSub core gd gs1 b) 1 (fun _ c => c.aluOp gd gs1 b aluSub) s)

/-- AND and its immediate form. -/
def execThAnd (core : Nat) (gd gs1 : BitVec 4) (b : AluSrc) (s : State) : Ran :=
  .next (thymeRun core (.thAnd core gd gs1 b) 1 (fun _ c => c.aluOp gd gs1 b aluAnd) s)

/-- OR and its immediate form. -/
def execThOr (core : Nat) (gd gs1 : BitVec 4) (b : AluSrc) (s : State) : Ran :=
  .next (thymeRun core (.thOr core gd gs1 b) 1 (fun _ c => c.aluOp gd gs1 b aluOr) s)

/-- XOR and its immediate form. -/
def execThXor (core : Nat) (gd gs1 : BitVec 4) (b : AluSrc) (s : State) : Ran :=
  .next (thymeRun core (.thXor core gd gs1 b) 1 (fun _ c => c.aluOp gd gs1 b aluXor) s)

/-- SHL and its immediate form. -/
def execThShl (core : Nat) (gd gs1 : BitVec 4) (b : AluSrc) (s : State) : Ran :=
  .next (thymeRun core (.thShl core gd gs1 b) 1 (fun _ c => c.aluOp gd gs1 b aluShl) s)

/-- SHR and its immediate form. -/
def execThShr (core : Nat) (gd gs1 : BitVec 4) (b : AluSrc) (s : State) : Ran :=
  .next (thymeRun core (.thShr core gd gs1 b) 1 (fun _ c => c.aluOp gd gs1 b aluShr) s)

/-- SAR and its immediate form. -/
def execThSar (core : Nat) (gd gs1 : BitVec 4) (b : AluSrc) (s : State) : Ran :=
  .next (thymeRun core (.thSar core gd gs1 b) 1 (fun _ c => c.aluOp gd gs1 b aluSar) s)

/-- MUL and its immediate form. -/
def execThMul (core : Nat) (gd gs1 : BitVec 4) (b : AluSrc) (s : State) : Ran :=
  .next (thymeRun core (.thMul core gd gs1 b) 1 (fun _ c => c.aluOp gd gs1 b aluMul) s)

/-- MULH and its immediate form. -/
def execThMulh (core : Nat) (gd gs1 : BitVec 4) (b : AluSrc) (s : State) : Ran :=
  .next (thymeRun core (.thMulh core gd gs1 b) 1 (fun _ c => c.aluOp gd gs1 b aluMulh) s)

/-- MIN and its immediate form. -/
def execThMin (core : Nat) (gd gs1 : BitVec 4) (b : AluSrc) (s : State) : Ran :=
  .next (thymeRun core (.thMin core gd gs1 b) 1 (fun _ c => c.aluOp gd gs1 b aluMin) s)

/-- MAX and its immediate form. -/
def execThMax (core : Nat) (gd gs1 : BitVec 4) (b : AluSrc) (s : State) : Ran :=
  .next (thymeRun core (.thMax core gd gs1 b) 1 (fun _ c => c.aluOp gd gs1 b aluMax) s)

/-- ADDS and its immediate form. -/
def execThAdds (core : Nat) (gd gs1 : BitVec 4) (b : AluSrc) (s : State) : Ran :=
  .next (thymeRun core (.thAdds core gd gs1 b) 1 (fun _ c => c.aluOp gd gs1 b aluAdds) s)

/-- SUBS and its immediate form. -/
def execThSubs (core : Nat) (gd gs1 : BitVec 4) (b : AluSrc) (s : State) : Ran :=
  .next (thymeRun core (.thSubs core gd gs1 b) 1 (fun _ c => c.aluOp gd gs1 b aluSubs) s)

/-- CMP: the flags of the difference; no register is written. -/
def thyCmp (gs1 : BitVec 4) (b : AluSrc) (c : Core) : ThymeEffect :=
  let (r, cy, v) := aluSub (c.gReg gs1.toNat) (c.aluSrc b)
  { core := { c with sr := srAlu c.sr r cy v } }
def execThCmp (core : Nat) (gs1 : BitVec 4) (b : AluSrc) (s : State) : Ran :=
  .next (thymeRun core (.thCmp core gs1 b) 1 (fun _ c => thyCmp gs1 b c) s)

/-! ### LDI, STA, direct accesses and MOVE (R472, R490) -/

/-- LDI, form 0: IMM16 sign-extended. -/
def execThLdi (core : Nat) (gd : BitVec 4) (imm : BitVec 16) (s : State) : Ran :=
  .next (thymeRun core (.thLdi core gd imm) 1 (fun _ c => { core := c.setG gd.toNat (imm.signExtend 32) }) s)

/-- LDI, form 1: the upper half. -/
def execThLdiUpper (core : Nat) (gd : BitVec 4) (imm : BitVec 16) (s : State) : Ran :=
  .next (thymeRun core (.thLdiUpper core gd imm) 1
    (fun _ c => { core := c.setG gd.toNat (imm ++ (c.gReg gd.toNat).extractLsb' 0 16) }) s)

/-- An address relative to the instruction, modulo 2^14. -/
def Core.rel (c : Core) (d : BitVec 16) : Ptr := c.pc + d.setWidth 14

/-- LDI, form 2: an address relative to its own. -/
def execThLdiRelative (core : Nat) (gd : BitVec 4) (imm : BitVec 16) (s : State) : Ran :=
  .next (thymeRun core (.thLdiRelative core gd imm) 1 (fun _ c => { core := c.setG gd.toNat ((c.rel imm).setWidth 32) }) s)

/-- STA SAT. -/
def execThStaSat (core : Nat) (a : BitVec 2) (gd : BitVec 4) (s : State) : Ran :=
  .next (thymeRun core (.thStaSat core a gd) 1 (fun _ c => c.staOp gd (staSat (c.acc a.toNat))) s)

/-- STA SAT16. -/
def execThStaSat16 (core : Nat) (a : BitVec 2) (gd : BitVec 4) (s : State) : Ran :=
  .next (thymeRun core (.thStaSat16 core a gd) 1 (fun _ c => c.staOp gd (staSat16 (c.acc a.toNat))) s)

/-- STA RAW. -/
def execThStaRaw (core : Nat) (a : BitVec 2) (gd : BitVec 4) (s : State) : Ran :=
  .next (thymeRun core (.thStaRaw core a gd) 1 (fun _ c => { core := c.setG gd.toNat (staRaw (c.acc a.toNat)) }) s)

/-- STA GUARD. -/
def execThStaGuard (core : Nat) (a : BitVec 2) (gd : BitVec 4) (s : State) : Ran :=
  .next (thymeRun core (.thStaGuard core a gd) 1 (fun _ c => { core := c.setG gd.toNat (staGuard (c.acc a.toNat)) }) s)

/-- STA NORM. -/
def execThStaNorm (core : Nat) (a : BitVec 2) (gd : BitVec 4) (s : State) : Ran :=
  .next (thymeRun core (.thStaNorm core a gd) 1 (fun _ c => { core := c.setG gd.toNat (staNorm (c.acc a.toNat)) }) s)

/-- The address of a direct access. -/
def Core.direct (c : Core) (pn : BitVec 3) (off : BitVec 14) : Ptr := c.agPtr pn.toNat + off

/-- Direct load. -/
def thyDirectLoad (y : Bool) (g : BitVec 4) (pn : BitVec 3) (off : BitVec 14) (c : Core) : ThymeEffect :=
  let (f, w) := c.load y (c.direct pn off).toNat
  { core := c.setG g.toNat w, fault := f }
def execThDirectLoad (core : Nat) (y : Bool) (g : BitVec 4) (pn : BitVec 3) (off : BitVec 14) (s : State) : Ran :=
  .next (thymeRun core (.thDirectLoad core y g pn off) 1 (fun _ c => thyDirectLoad y g pn off c) s)

/-- Direct store. -/
def thyDirectStore (y : Bool) (g : BitVec 4) (pn : BitVec 3) (off : BitVec 14) (c : Core) : ThymeEffect :=
  let (f, c1) := c.store y (c.direct pn off).toNat (c.gReg g.toNat)
  { core := c1, fault := f }
def execThDirectStore (core : Nat) (y : Bool) (g : BitVec 4) (pn : BitVec 3) (off : BitVec 14) (s : State) : Ran :=
  .next (thymeRun core (.thDirectStore core y g pn off) 1 (fun _ c => thyDirectStore y g pn off c) s)

/-- MOVE; a pointer or modifier keeps its old value for the address generation of one more instruction (R474). -/
def thyMove (dst src : MoveReg) (c : Core) : ThymeEffect :=
  { core := (c.moveWrite (c.moveRead src) dst).getD c, stale := c.staleOf dst }

/-- MOVE.  Into IPEND, CYC, BUDGET or SP it is reserved: a kernel never holds it (R501), and of firmware the manual does not say what
a core does with it. -/
def execThMove (core : Nat) (dst src : MoveReg) (s : State) : Ran :=
  if dst.writable ∨ (s.core core).fetches core (.thMove core dst src) = false then
    .next (thymeRun core (.thMove core dst src) 1 (fun _ c => thyMove dst src c) s)
  else .refused .reservedEncoding

/-! ### Control flow (R475, R476, R480, R491) -/

/-- BRA. -/
def execThBra (core : Nat) (cond : Cond) (disp : BitVec 16) (s : State) : Ran :=
  .next (thymeRun core (.thBra core cond disp) 1 (fun _ c => { core := c, branch := some (c.branchTo (condHolds cond c.sr) (c.rel disp)) }) s)

/-- A call: the return address is pushed when the branch is taken (notes/assumptions/27.md). -/
def Core.call (c : Core) (fr : Nat → Nat) (taken : Bool) (t : Ptr) : ThymeEffect :=
  let (f, c1) := if taken then c.push fr else (0, c)
  { core := c1, fault := f, branch := some (c.branchTo taken t), draws := if 8 ≤ c.stack.length then 8 else 0 }

/-- CALL. -/
def execThCall (core : Nat) (cond : Cond) (disp : BitVec 16) (s : State) : Ran :=
  .next (thymeRun core (.thCall core cond disp) 1 (fun fr c => c.call fr (condHolds cond c.sr) (c.rel disp)) s)

/-- JMP. -/
def execThJmp (core : Nat) (gs : BitVec 4) (s : State) : Ran :=
  .next (thymeRun core (.thJmp core gs) 1 (fun _ c => { core := c, branch := some ((c.gReg gs.toNat).setWidth 14) }) s)

/-- CALLG. -/
def execThCallg (core : Nat) (gs : BitVec 4) (s : State) : Ran :=
  .next (thymeRun core (.thCallg core gs) 1 (fun fr c => c.call fr true ((c.gReg gs.toNat).setWidth 14)) s)

/-- RET: with an empty stack a kernel faults (R496); of firmware the manual does not say where it goes, a free value. -/
def thyRet (fr : Nat → Nat) (c : Core) : ThymeEffect :=
  match c.stack with
  | a :: rest => { core := { c with stack := rest }, branch := some a }
  | [] => if c.km then { core := c, fault := 5 } else { core := c, branch := some (BitVec.ofNat 14 (fr 0)), draws := 1 }
def execThRet (core : Nat) (s : State) : Ran := .next (thymeRun core (.thRet core) 1 thyRet s)

/-- RETI: restores SR and continues at IRA, without delay slots. -/
def thyReti (c : Core) : ThymeEffect := { core := { c with sr := c.isr &&& srMask }, jump := some c.ira }
def execThReti (core : Nat) (s : State) : Ran := .next (thymeRun core (.thReti core) 3 (fun _ c => thyReti c) s)

/-- The count of a REP. -/
def Core.repCount (c : Core) : RepSrc → Nat
  | .imm n => n.toNat
  | .reg gs => (c.gReg gs.toNat).toNat % 65536

/-- REP: its own cycle here, and one at each repetition of the instruction that follows. -/
def execThRep (core : Nat) (n : RepSrc) (s : State) : Ran :=
  .next (thymeRun core (.thRep core n) 1 (fun _ c => { core := c, rep := some (c.repCount n) }) s)

/-- NOP of the control class. -/
def execThNop (core : Nat) (s : State) : Ran := .next (thymeRun core (.thNop core) 1 (fun _ c => { core := c }) s)

/-- END ends the block of a kernel (R494). -/
def execThEnd (core : Nat) (s : State) : Ran := .next (thymeRun core (.thEnd core) 1 (fun _ c => { core := c, ends := true }) s)

/-- EI sets IE. -/
def execThEi (core : Nat) (s : State) : Ran :=
  .next (thymeRun core (.thEi core) 1 (fun _ c => { core := { c with sr := setBit c.sr 8 true } }) s)

/-- DI clears IE. -/
def execThDi (core : Nat) (s : State) : Ran :=
  .next (thymeRun core (.thDi core) 1 (fun _ c => { core := { c with sr := setBit c.sr 8 false } }) s)

/-- BRK faults a kernel (R496); of firmware the manual gives it no effect, and the core goes on. -/
def execThBrk (core : Nat) (s : State) : Ran :=
  .next (thymeRun core (.thBrk core) 1 (fun _ c => { core := c, fault := 6 }) s)

end Sys2Proof.Machine
end

