-- ==== Sys2Proof/Machine/Dispatch.lean ====
section
/-! DEFINITION. One arm per command of the opcode table: each calls the meaning of its row. -/
namespace Sys2Proof.Machine

/-- The effect of a command on everything but the queue. -/
def exec (i : Instr) (s : State) : Host.Outcome State Fault Refusal :=
  match i with
  | .nop t p r d => Sys2Proof.Machine.execNop t p r d s
  | .roomCreate t p r d => Sys2Proof.Machine.execRoomCreate t p r d s
  | .roomModify t p r d => Sys2Proof.Machine.execRoomModify t p r d s
  | .roomDelete t p r d => Sys2Proof.Machine.execRoomDelete t p r d s
  | .legCreate t p r d => Sys2Proof.Machine.execLegCreate t p r d s
  | .legModify t p r d => Sys2Proof.Machine.execLegModify t p r d s
  | .legDelete t p r d => Sys2Proof.Machine.execLegDelete t p r d s
  | .streamCreate t p r d => Sys2Proof.Machine.execStreamCreate t p r d s
  | .streamModify t p r d => Sys2Proof.Machine.execStreamModify t p r d s
  | .streamDelete t p r d => Sys2Proof.Machine.execStreamDelete t p r d s
  | .batchBegin t p r d => Sys2Proof.Machine.execBatchBegin t p r d s
  | .batchEnd t p r d => Sys2Proof.Machine.execBatchEnd t p r d s
  | .fence t p r d => Sys2Proof.Machine.execFence t p r d s
  | .keyInstall t p r d => Sys2Proof.Machine.execKeyInstall t p r d s
  | .tackSubmit t p r d => Sys2Proof.Machine.execTackSubmit t p r d s
  | .tackCommit t p r d => Sys2Proof.Machine.execTackCommit t p r d s
  | .tackAccept t p r d => Sys2Proof.Machine.execTackAccept t p r d s
  | .tackRollback t p r d => Sys2Proof.Machine.execTackRollback t p r d s
  | .kernelLoad t p r d => Sys2Proof.Machine.execKernelLoad t p r d s
  | .kernelUnload t p r d => Sys2Proof.Machine.execKernelUnload t p r d s
  | .statsSnapshot t p r d => Sys2Proof.Machine.execStatsSnapshot t p r d s
  | .statsSnapshotCancel t p r d => Sys2Proof.Machine.execStatsSnapshotCancel t p r d s
  | .puntPost t p r d => Sys2Proof.Machine.execPuntPost t p r d s
  | .hostTx t p r d => Sys2Proof.Machine.execHostTx t p r d s
  | .logRead t p r d => Sys2Proof.Machine.execLogRead t p r d s
  | .flashRead t p r d => Sys2Proof.Machine.execFlashRead t p r d s
  | .flashWrite t p r d => Sys2Proof.Machine.execFlashWrite t p r d s
  | .dramServiceRead t p r d => Sys2Proof.Machine.execDramServiceRead t p r d s
  | .dramServiceRetrain t p r d => Sys2Proof.Machine.execDramServiceRetrain t p r d s
  | .dramServiceRetire t p r d => Sys2Proof.Machine.execDramServiceRetire t p r d s
  | .dramServiceRestore t p r d => Sys2Proof.Machine.execDramServiceRestore t p r d s
  | .registerWrite t p off value width => Sys2Proof.Machine.execRegisterWrite t p off value width s
  | .lock t p off value width => Sys2Proof.Machine.execLock t p off value width s
  | .sfCfgWrite t p value => Sys2Proof.Machine.execSfCfgWrite t p value s
  | .fwKekWrite t p n w value => Sys2Proof.Machine.execFwKekWrite t p n w value s
  | .loopWrite t p n value => Sys2Proof.Machine.execLoopWrite t p n value s
  | .modeRequest t p value => Sys2Proof.Machine.execModeRequest t p value s
  | .pwrResetWrite t p value => Sys2Proof.Machine.execPwrResetWrite t p value s
  | .tripSeenClear t p => Sys2Proof.Machine.execTripSeenClear t p s
  | .tbNowRead t p n => Sys2Proof.Machine.execTbNowRead t p n s
  | .tbTickRead t p => Sys2Proof.Machine.execTbTickRead t p s
  | .faMigRead t p => Sys2Proof.Machine.execFaMigRead t p s
  | .smbusWrite t head data pec => Sys2Proof.Machine.execSmbusWrite t head data pec s
  | .smbusRead t frame => Sys2Proof.Machine.execSmbusRead t frame s
  | .alertResponse t => Sys2Proof.Machine.execAlertResponse t s
  | .smbusTimeout t => Sys2Proof.Machine.execSmbusTimeout t s
  | .hostLinkUp t p => Sys2Proof.Machine.execHostLinkUp t p s
  | .hostLinkDown t p => Sys2Proof.Machine.execHostLinkDown t p s
  | .flr t p => Sys2Proof.Machine.execFlr t p s
  | .hotReset t p => Sys2Proof.Machine.execHotReset t p s
  | .perstAssert t p => Sys2Proof.Machine.execPerstAssert t p s
  | .sweep t p d => Sys2Proof.Machine.execSweep t p d s
  | .hostDmaCompletion t a res => Sys2Proof.Machine.execHostDmaCompletion t a res s
  | .attentionAge t p q => Sys2Proof.Machine.execAttentionAge t p q s
  | .coalesceAge t p j => Sys2Proof.Machine.execCoalesceAge t p j s
  | .orphanGraceExpiry t p => Sys2Proof.Machine.execOrphanGraceExpiry t p s
  | .batchTimeout t p r => Sys2Proof.Machine.execBatchTimeout t p r s
  | .abortedTailEnd t p r => Sys2Proof.Machine.execAbortedTailEnd t p r s
  | .puntHoldExpiry t p => Sys2Proof.Machine.execPuntHoldExpiry t p s
  | .tickBoundary t m => Sys2Proof.Machine.execTickBoundary t m s
  | .probationEnd t => Sys2Proof.Machine.execProbationEnd t s
  | .automaticReturn t => Sys2Proof.Machine.execAutomaticReturn t s
  | .switchComplete t => Sys2Proof.Machine.execSwitchComplete t s
  | .validationEnd t => Sys2Proof.Machine.execValidationEnd t s
  | .flashOperationDone t res => Sys2Proof.Machine.execFlashOperationDone t res s
  | .tombstoneExpiry t => Sys2Proof.Machine.execTombstoneExpiry t s
  | .periodicCapture t p addr => Sys2Proof.Machine.execPeriodicCapture t p addr s
  | .eventWindowStart t => Sys2Proof.Machine.execEventWindowStart t s
  | .cutThroughStart t lport f => Sys2Proof.Machine.execCutThroughStart t lport f s
  | .completePacketNotice t lport f => Sys2Proof.Machine.execCompletePacketNotice t lport f s
  | .transmitFrameStart t lport => Sys2Proof.Machine.execTransmitFrameStart t lport s
  | .transmitFrameEnd t lport => Sys2Proof.Machine.execTransmitFrameEnd t lport s
  | .headAgeDrop t queue => Sys2Proof.Machine.execHeadAgeDrop t queue s
  | .logicalPortUp t lport => Sys2Proof.Machine.execLogicalPortUp t lport s
  | .logicalPortDown t lport cause => Sys2Proof.Machine.execLogicalPortDown t lport cause s
  | .pauseTimerExpiry t lport c => Sys2Proof.Machine.execPauseTimerExpiry t lport c s
  | .pauseStorm t lport c => Sys2Proof.Machine.execPauseStorm t lport c s
  | .poolLevelCheck t k => Sys2Proof.Machine.execPoolLevelCheck t k s
  | .xoffRepeat t k lport => Sys2Proof.Machine.execXoffRepeat t k lport s
  | .gateChange t lport => Sys2Proof.Machine.execGateChange t lport s
  | .gateListStart t lport => Sys2Proof.Machine.execGateListStart t lport s
  | .fecDegradedSet t lport cw => Sys2Proof.Machine.execFecDegradedSet t lport cw s
  | .fecDegradedClear t lport => Sys2Proof.Machine.execFecDegradedClear t lport s
  | .retrainEnd t n => Sys2Proof.Machine.execRetrainEnd t n s
  | .keyOverlapEnd t stream => Sys2Proof.Machine.execKeyOverlapEnd t stream s
  | .estimateTimeout t leg => Sys2Proof.Machine.execEstimateTimeout t leg s
  | .keyWaitExpiry t stream => Sys2Proof.Machine.execKeyWaitExpiry t stream s
  | .nackSend t stream => Sys2Proof.Machine.execNackSend t stream s
  | .rtcpReportTimer t leg => Sys2Proof.Machine.execRtcpReportTimer t leg s
  | .feedbackTimer t leg => Sys2Proof.Machine.execFeedbackTimer t leg s
  | .historyShedRestore t => Sys2Proof.Machine.execHistoryShedRestore t s
  | .watermarkRearm t k => Sys2Proof.Machine.execWatermarkRearm t k s
  | .operationDispatch t yard cls => Sys2Proof.Machine.execOperationDispatch t yard cls s
  | .interruptEntry core src => Sys2Proof.Machine.execInterruptEntry core src s
  | .stallYield t stall => Sys2Proof.Machine.execStallYield t stall s
  | .watchdogOverrun t op => Sys2Proof.Machine.execWatchdogOverrun t op s
  | .pictureDue t target info => Sys2Proof.Machine.execPictureDue t target info s
  | .decodeComplete t op res => Sys2Proof.Machine.execDecodeComplete t op res s
  | .repairWindowEnd t target => Sys2Proof.Machine.execRepairWindowEnd t target s
  | .keyRepeat t target => Sys2Proof.Machine.execKeyRepeat t target s
  | .composedPictureReady t room => Sys2Proof.Machine.execComposedPictureReady t room s
  | .composeComplete t op cycles => Sys2Proof.Machine.execComposeComplete t op cycles s
  | .encodeComplete t op res => Sys2Proof.Machine.execEncodeComplete t op res s
  | .keyIntervalExpiry t room rung => Sys2Proof.Machine.execKeyIntervalExpiry t room rung s
  | .rungRateUpdate t room => Sys2Proof.Machine.execRungRateUpdate t room s
  | .overlayPoll t entries => Sys2Proof.Machine.execOverlayPoll t entries s
  | .overlayCopyDone t host table index res => Sys2Proof.Machine.execOverlayCopyDone t host table index res s
  | .thymeOperationComplete t op res => Sys2Proof.Machine.execThymeOperationComplete t op res s
  | .mixComplete t op res => Sys2Proof.Machine.execMixComplete t op res s
  | .mixControlPoll t entries => Sys2Proof.Machine.execMixControlPoll t entries s
  | .ptpMessageReceive t lport msg => Sys2Proof.Machine.execPtpMessageReceive t lport msg s
  | .ptpMessageTransmit t n kind => Sys2Proof.Machine.execPtpMessageTransmit t n kind s
  | .holdoverEntry t n => Sys2Proof.Machine.execHoldoverEntry t n s
  | .holdoverEnd t n => Sys2Proof.Machine.execHoldoverEnd t n s
  | .slewLimitTimeout t n => Sys2Proof.Machine.execSlewLimitTimeout t n s
  | .secondsSet t n => Sys2Proof.Machine.execSecondsSet t n s
  | .ppsInputEdge t n => Sys2Proof.Machine.execPpsInputEdge t n s
  | .ppsInputLoss t n => Sys2Proof.Machine.execPpsInputLoss t n s
  | .ppsOutputRise t n => Sys2Proof.Machine.execPpsOutputRise t n s
  | .ppsOutputFall t n => Sys2Proof.Machine.execPpsOutputFall t n s
  | .referenceLoss t => Sys2Proof.Machine.execReferenceLoss t s
  | .referenceReturn t => Sys2Proof.Machine.execReferenceReturn t s
  | .refreshDue t ch rank => Sys2Proof.Machine.execRefreshDue t ch rank s
  | .refreshBatch t ch rank => Sys2Proof.Machine.execRefreshBatch t ch rank s
  | .mr4Read t ch rank doubled => Sys2Proof.Machine.execMr4Read t ch rank doubled s
  | .refreshModeReturn t ch rank => Sys2Proof.Machine.execRefreshModeReturn t ch rank s
  | .dimmSensorRead t ch slot temp => Sys2Proof.Machine.execDimmSensorRead t ch slot temp s
  | .dramRead t client line obj item res => Sys2Proof.Machine.execDramRead t client line obj item res s
  | .contextPoisonDelete t => Sys2Proof.Machine.execContextPoisonDelete t s
  | .caParityError t ch rank retryOk reads writes => Sys2Proof.Machine.execCaParityError t ch rank retryOk reads writes s
  | .migrationStart t => Sys2Proof.Machine.execMigrationStart t s
  | .migrationComplete t => Sys2Proof.Machine.execMigrationComplete t s
  | .patrolScrub t res => Sys2Proof.Machine.execPatrolScrub t res s
  | .pwrgoodLow t => Sys2Proof.Machine.execPwrgoodLow t s
  | .resetNLow t => Sys2Proof.Machine.execResetNLow t s
  | .vcoreLow t mv => Sys2Proof.Machine.execVcoreLow t mv s
  | .vsramLow t mv => Sys2Proof.Machine.execVsramLow t mv s
  | .walkoWatchdog t => Sys2Proof.Machine.execWalkoWatchdog t s
  | .thermalTrip t => Sys2Proof.Machine.execThermalTrip t s
  | .resetRelease t => Sys2Proof.Machine.execResetRelease t s
  | .strapSample t refsel svcBoot smbAddr => Sys2Proof.Machine.execStrapSample t refsel svcBoot smbAddr s
  | .bootStart t facts => Sys2Proof.Machine.execBootStart t facts s
  | .bootEnd t failed refOk => Sys2Proof.Machine.execBootEnd t failed refOk s
  | .modeChange t => Sys2Proof.Machine.execModeChange t s
  | .keepNFall t => Sys2Proof.Machine.execKeepNFall t s
  | .keepNRise t => Sys2Proof.Machine.execKeepNRise t s
  | .keepWaitExpiry t => Sys2Proof.Machine.execKeepWaitExpiry t s
  | .keepExit t => Sys2Proof.Machine.execKeepExit t s
  | .drainTimeout t => Sys2Proof.Machine.execDrainTimeout t s
  | .drainEnd t => Sys2Proof.Machine.execDrainEnd t s
  | .safeEntry t reason => Sys2Proof.Machine.execSafeEntry t reason s
  | .dipHoldStart t rail mv => Sys2Proof.Machine.execDipHoldStart t rail mv s
  | .dipHoldEnd t => Sys2Proof.Machine.execDipHoldEnd t s
  | .temperatureRead t temps => Sys2Proof.Machine.execTemperatureRead t temps s
  | .throttleDecrease t => Sys2Proof.Machine.execThrottleDecrease t s
  | .throttleLevelChange t => Sys2Proof.Machine.execThrottleLevelChange t s
  | .thNopp core xm ym => Sys2Proof.Machine.execThNopp core xm ym s
  | .thMpy core ad sa sb xm ym => Sys2Proof.Machine.execThMpy core ad sa sb xm ym s
  | .thMac core ad sa sb xm ym => Sys2Proof.Machine.execThMac core ad sa sb xm ym s
  | .thMsu core ad sa sb xm ym => Sys2Proof.Machine.execThMsu core ad sa sb xm ym s
  | .thDmpy core ad sa sb xm ym => Sys2Proof.Machine.execThDmpy core ad sa sb xm ym s
  | .thDmac core ad sa sb xm ym => Sys2Proof.Machine.execThDmac core ad sa sb xm ym s
  | .thDmsu core ad sa sb xm ym => Sys2Proof.Machine.execThDmsu core ad sa sb xm ym s
  | .thSqmac core ad sa xm ym => Sys2Proof.Machine.execThSqmac core ad sa xm ym s
  | .thAddg core ad sa xm ym => Sys2Proof.Machine.execThAddg core ad sa xm ym s
  | .thSubg core ad sa xm ym => Sys2Proof.Machine.execThSubg core ad sa xm ym s
  | .thLda core ad sa xm ym => Sys2Proof.Machine.execThLda core ad sa xm ym s
  | .thClra core ad xm ym => Sys2Proof.Machine.execThClra core ad xm ym s
  | .thAbsa core ad xm ym => Sys2Proof.Machine.execThAbsa core ad xm ym s
  | .thNega core ad xm ym => Sys2Proof.Machine.execThNega core ad xm ym s
  | .thAddaa core ad sb xm ym => Sys2Proof.Machine.execThAddaa core ad sb xm ym s
  | .thAsh core ad n xm ym => Sys2Proof.Machine.execThAsh core ad n xm ym s
  | .thAbsmax core ad sa xm ym => Sys2Proof.Machine.execThAbsmax core ad sa xm ym s
  | .thAdd core gd gs1 b => Sys2Proof.Machine.execThAdd core gd gs1 b s
  | .thSub core gd gs1 b => Sys2Proof.Machine.execThSub core gd gs1 b s
  | .thAnd core gd gs1 b => Sys2Proof.Machine.execThAnd core gd gs1 b s
  | .thOr core gd gs1 b => Sys2Proof.Machine.execThOr core gd gs1 b s
  | .thXor core gd gs1 b => Sys2Proof.Machine.execThXor core gd gs1 b s
  | .thShl core gd gs1 b => Sys2Proof.Machine.execThShl core gd gs1 b s
  | .thShr core gd gs1 b => Sys2Proof.Machine.execThShr core gd gs1 b s
  | .thSar core gd gs1 b => Sys2Proof.Machine.execThSar core gd gs1 b s
  | .thMul core gd gs1 b => Sys2Proof.Machine.execThMul core gd gs1 b s
  | .thMulh core gd gs1 b => Sys2Proof.Machine.execThMulh core gd gs1 b s
  | .thMin core gd gs1 b => Sys2Proof.Machine.execThMin core gd gs1 b s
  | .thMax core gd gs1 b => Sys2Proof.Machine.execThMax core gd gs1 b s
  | .thAdds core gd gs1 b => Sys2Proof.Machine.execThAdds core gd gs1 b s
  | .thSubs core gd gs1 b => Sys2Proof.Machine.execThSubs core gd gs1 b s
  | .thCmp core gs1 b => Sys2Proof.Machine.execThCmp core gs1 b s
  | .thLdi core gd imm => Sys2Proof.Machine.execThLdi core gd imm s
  | .thLdiUpper core gd imm => Sys2Proof.Machine.execThLdiUpper core gd imm s
  | .thLdiRelative core gd imm => Sys2Proof.Machine.execThLdiRelative core gd imm s
  | .thStaSat core a gd => Sys2Proof.Machine.execThStaSat core a gd s
  | .thStaSat16 core a gd => Sys2Proof.Machine.execThStaSat16 core a gd s
  | .thStaRaw core a gd => Sys2Proof.Machine.execThStaRaw core a gd s
  | .thStaGuard core a gd => Sys2Proof.Machine.execThStaGuard core a gd s
  | .thStaNorm core a gd => Sys2Proof.Machine.execThStaNorm core a gd s
  | .thDirectLoad core y g pn off => Sys2Proof.Machine.execThDirectLoad core y g pn off s
  | .thDirectStore core y g pn off => Sys2Proof.Machine.execThDirectStore core y g pn off s
  | .thMove core dst src => Sys2Proof.Machine.execThMove core dst src s
  | .thBra core cond disp => Sys2Proof.Machine.execThBra core cond disp s
  | .thCall core cond disp => Sys2Proof.Machine.execThCall core cond disp s
  | .thJmp core gs => Sys2Proof.Machine.execThJmp core gs s
  | .thCallg core gs => Sys2Proof.Machine.execThCallg core gs s
  | .thRet core => Sys2Proof.Machine.execThRet core s
  | .thReti core => Sys2Proof.Machine.execThReti core s
  | .thRep core n => Sys2Proof.Machine.execThRep core n s
  | .thNop core => Sys2Proof.Machine.execThNop core s
  | .thEnd core => Sys2Proof.Machine.execThEnd core s
  | .thEi core => Sys2Proof.Machine.execThEi core s
  | .thDi core => Sys2Proof.Machine.execThDi core s
  | .thBrk core => Sys2Proof.Machine.execThBrk core s
  | .returnLevelCrossing t rail => Sys2Proof.Machine.execReturnLevelCrossing t rail s
  | .vauxLoss t => Sys2Proof.Machine.execVauxLoss t s
  | .announceReceiptTimeout t n lport => Sys2Proof.Machine.execAnnounceReceiptTimeout t n lport s
  | .rankSweepDone t ch rank reads writes => Sys2Proof.Machine.execRankSweepDone t ch rank reads writes s
  | .snapshotWriteEnd t p addr => Sys2Proof.Machine.execSnapshotWriteEnd t p addr s
  | .tckEdge tms tdi trstN pins => Sys2Proof.Machine.execTckEdge tms tdi trstN pins s

end Sys2Proof.Machine
end

