-- ==== Sys2Proof/WellFormed.lean ====
section
/-! DEFINITION. Which commands are well formed: every operand lies in the range the manual gives it.  The meanings are total and take
an ill-formed command too; these checks say which terms stand for a command of the table. -/
namespace Sys2Proof

/-- A number below a limit. -/
def lt (n limit : Nat) : Bool := decide (n < limit)

/-- A descriptor as its 64-byte slot holds it, OPCODE apart (02 R88). -/
def Desc.wf (d : Desc) : Bool :=
  lt d.rsv 256 && lt d.tag 65536 && lt d.genview (2 ^ 32) && lt d.length (2 ^ 32) && lt d.handle (2 ^ 32) && d.body.length == 48

/-- Bytes 0-527 of a doorbell page, and slots of 64 bytes of 64 submission rings (02 R78, R88). -/
def SweepData.wf (d : SweepData) : Bool :=
  d.page.length == 528 && d.slots.all (fun x => lt x.1 64 && x.2.all (fun b => b.length == 64))

/-- An access of 8, 16, 32 or 64 bits (00 R19). -/
def widthOk (width : Nat) : Bool := width == 8 || width == 16 || width == 32 || width == 64

/-- A received frame: the layers of its picture, spatial and temporal (06 R263). -/
def RxFrame.wf (f : RxFrame) : Bool := f.layers.all (fun l => lt l.1 3 && lt l.2 3)

/-- Measurements of a tick: nine clients, logical ports, nine counts of a channel, a 16-bit power (01 R69; 13 R575; 14 R597). -/
def TickMeas.wf (m : TickMeas) : Bool :=
  lt m.powerDw 65536 && m.clientMbps.length == 9 && m.fec.all (fun x => lt x.1 64) && m.cut.all (fun l => lt l 64) &&
    m.dram.all (fun x => lt x.1 12 && x.2.length == 9)

/-- A host access that the bridge makes (02 R122). -/
def DmaRef.wf : DmaRef → Bool
  | .buffer _ => true
  | .desc p r => lt p 4 && lt r 64
  | .doorbell p => lt p 4
  | .entry p kind r => lt p 4 && (kind == 1 && lt r 64 || kind == 2 && lt r 4)

/-- A failure status that is reported (02 R122). -/
def DmaResult.wf : DmaResult → Bool
  | .ok _ => true
  | .fail st => [1, 2, 4, 5, 6, 7].contains st

/-- An outcome of a flash operation (03 R165). -/
def FlashResult.wf (r : FlashResult) : Bool := [0, 3, 4, 5, 6].contains r.reason

/-- A picture's header: chroma format, bit depth (08 R337). -/
def PicHeader.wf (h : PicHeader) : Bool := lt h.chroma 4 && decide (8 ≤ h.depth) && lt h.depth 17

/-- A block has a sample for each place, those of Cb and Cr at half each dimension (08 R350). -/
def DecBlock.wf (b : DecBlock) : Bool :=
  let half (n : Nat) : Nat := (n + 1) / 2
  b.luma.length == b.rect.w * b.rect.h && b.cb.length == half b.rect.w * half b.rect.h && b.cr.length == half b.rect.w * half b.rect.h

/-- What a decode made: blocks with all their samples. -/
def Recon.wf (r : Recon) : Bool := r.blocks.all (fun b => b.wf)

/-- A vector lies in the search window of ±256 by ±128 luma samples (09 R392). -/
def BlockVec.wf (v : BlockVec) : Bool := lt v.x.natAbs 1025 && lt v.y.natAbs 513

/-- An encode ended: spatial layers 0 to 2, vectors in the search window. -/
def EncodeResult.wf (z : EncodeResult) : Bool := z.units.all (fun u => lt u.s 3) && z.mvs.all (fun v => v.wf)

/-- Blocks of concealment have 120 samples (10 R418). -/
def MixResult.wf (z : MixResult) : Bool := z.fades.all (fun f => lt f.1 1048576 && f.2.length == 120)

/-- An audio block has 120 samples (10 R431). -/
def ThymeResult.wf (r : ThymeResult) : Bool := r.samples.length == 0 || r.samples.length == 120

/-- An overlay entry of 64 bytes (09 R385). -/
def OverlayRead.wf (e : OverlayRead) : Bool := lt e.host 4 && lt e.table 2 && e.data.length == 64

/-- A mix control entry of 128 bytes (10 R446). -/
def MixCtlRead.wf (e : MixCtlRead) : Bool := lt e.leg 1048576 && e.data.length == 128

/-- What BOOT finds: a 384-bit fuse hash, and DIMMs in 12 channels of 2 slots (13 R534). -/
def BootFacts.wf (f : BootFacts) : Bool := lt f.keyHash (2 ^ 384) && f.dimms.all (fun d => lt d.ch 12 && lt d.slot 2)

/-- A sensor reading: a signed byte (14 R597; 13 R551). -/
def tempOk (t : Int) : Bool := decide (-128 ≤ t) && decide (t ≤ 127)

/-- A move field without EN has no other bits (11 R488). -/
def PMove.wf (m : PMove) : Bool := m.en || m == {}

/-- Is a command well formed? -/
def Instr.wf (i : Instr) : Bool :=
  match i with
  | .nop _ p r d => lt p 4 && lt r 64 && d.wf
  | .roomCreate _ p r d => lt p 4 && lt r 64 && d.wf
  | .roomModify _ p r d => lt p 4 && lt r 64 && d.wf
  | .roomDelete _ p r d => lt p 4 && lt r 64 && d.wf
  | .legCreate _ p r d => lt p 4 && lt r 64 && d.wf
  | .legModify _ p r d => lt p 4 && lt r 64 && d.wf
  | .legDelete _ p r d => lt p 4 && lt r 64 && d.wf
  | .streamCreate _ p r d => lt p 4 && lt r 64 && d.wf
  | .streamModify _ p r d => lt p 4 && lt r 64 && d.wf
  | .streamDelete _ p r d => lt p 4 && lt r 64 && d.wf
  | .batchBegin _ p r d => lt p 4 && lt r 64 && d.wf
  | .batchEnd _ p r d => lt p 4 && lt r 64 && d.wf
  | .fence _ p r d => lt p 4 && lt r 64 && d.wf
  | .keyInstall _ p r d => lt p 4 && lt r 64 && d.wf
  | .tackSubmit _ p r d => lt p 4 && lt r 64 && d.wf
  | .tackCommit _ p r d => lt p 4 && lt r 64 && d.wf
  | .tackAccept _ p r d => lt p 4 && lt r 64 && d.wf
  | .tackRollback _ p r d => lt p 4 && lt r 64 && d.wf
  | .kernelLoad _ p r d => lt p 4 && lt r 64 && d.wf
  | .kernelUnload _ p r d => lt p 4 && lt r 64 && d.wf
  | .statsSnapshot _ p r d => lt p 4 && lt r 64 && d.wf
  | .statsSnapshotCancel _ p r d => lt p 4 && lt r 64 && d.wf
  | .puntPost _ p r d => lt p 4 && lt r 64 && d.wf
  | .hostTx _ p r d => lt p 4 && lt r 64 && d.wf
  | .logRead _ p r d => lt p 4 && lt r 64 && d.wf
  | .flashRead _ p r d => lt p 4 && lt r 64 && d.wf
  | .flashWrite _ p r d => lt p 4 && lt r 64 && d.wf
  | .dramServiceRead _ p r d => lt p 4 && lt r 64 && d.wf
  | .dramServiceRetrain _ p r d => lt p 4 && lt r 64 && d.wf
  | .dramServiceRetire _ p r d => lt p 4 && lt r 64 && d.wf
  | .dramServiceRestore _ p r d => lt p 4 && lt r 64 && d.wf
  | .registerWrite _ p r value width => lt p 4 && lt r.off (2 ^ 17) && lt value (2 ^ width) && widthOk width
  | .lock _ p off value width => lt p 4 && lt off (2 ^ 17) && lt value (2 ^ width) && widthOk width
  | .sfCfgWrite _ p value => lt p 4 && lt value (2 ^ 32)
  | .fwKekWrite _ p n w value => lt p 4 && lt n 4 && lt w 8 && lt value (2 ^ 32)
  | .loopWrite _ p n value => lt p 4 && lt n 16 && lt value (2 ^ 32)
  | .modeRequest _ p value => lt p 4 && lt value (2 ^ 32)
  | .pwrResetWrite _ p value => lt p 4 && lt value (2 ^ 32)
  | .tripSeenClear _ p => lt p 4
  | .tbNowRead _ p r => lt p 4 && lt r.n 4 && lt r.at_ 16 && widthOk r.width
  | .tbTickRead _ r => lt r.n 4 && lt r.at_ 8 && widthOk r.width
  | .faMigRead _ r => lt r.n 4 && lt r.at_ 8 && widthOk r.width
  | .smbusWrite _ head data pec => lt (head ++ data ++ pec).length 257
  | .smbusRead _ frame => lt frame.length 257
  | .alertResponse _ => true
  | .smbusTimeout _ => true
  | .hostLinkUp _ l => lt l.port 4 && [1, 2, 4, 8, 16].contains l.width && decide (1 ≤ l.rate) && lt l.rate 6
  | .hostLinkDown _ p => lt p 4
  | .flr _ p => lt p 4
  | .hotReset _ p => lt p 4
  | .perstAssert _ p => lt p 4
  | .sweep _ p d => lt p 4 && d.wf
  | .hostDmaCompletion _ a res => a.wf && res.wf
  | .attentionAge _ p q => lt p 4 && lt q 4
  | .coalesceAge _ p j => lt p 4 && lt j 64
  | .orphanGraceExpiry _ p => lt p 4
  | .batchTimeout _ p r => lt p 4 && lt r 64
  | .abortedTailEnd _ p r => lt p 4 && lt r 64
  | .puntHoldExpiry _ p => lt p 4
  | .tickBoundary _ m => m.wf
  | .probationEnd _ => true
  | .automaticReturn _ => true
  | .switchComplete _ => true
  | .validationEnd _ => true
  | .flashOperationDone _ res => res.wf
  | .tombstoneExpiry _ => true
  | .periodicCapture _ p addr => lt p 4 && lt addr (2 ^ 64)
  | .eventWindowStart _ => true
  | .cutThroughStart _ lport f => lt lport 64 && f.wf
  | .completePacketNotice _ lport f => lt lport 64 && f.wf
  | .transmitFrameStart _ lport => lt lport 64
  | .transmitFrameEnd _ lport => lt lport 64
  | .headAgeDrop _ queue => lt queue (512 + 1048576)
  | .logicalPortUp _ lport => lt lport 64
  | .logicalPortDown _ lport _ => lt lport 64
  | .pauseTimerExpiry _ lport c => lt lport 64 && lt c 8
  | .pauseStorm _ lport c => lt lport 64 && lt c 8
  | .poolLevelCheck _ k => lt k 16
  | .xoffRepeat _ k lport => lt k 16 && lt lport 64
  | .gateChange _ lport => lt lport 64
  | .gateListStart _ lport => lt lport 64
  | .fecDegradedSet _ lport _ => lt lport 64
  | .fecDegradedClear _ lport => lt lport 64
  | .retrainEnd _ n => lt n 16
  | .keyOverlapEnd _ stream => lt stream 4194304
  | .estimateTimeout _ leg => lt leg 1048576
  | .keyWaitExpiry _ stream => lt stream 4194304
  | .nackSend _ stream => lt stream 4194304
  | .rtcpReportTimer _ leg => lt leg 1048576
  | .feedbackTimer _ leg => lt leg 1048576
  | .historyShedRestore _ => true
  | .watermarkRearm _ k => lt k 16
  | .operationDispatch _ yard cls => lt yard 8 && lt cls 4
  | .interruptEntry core src => lt core 64 && lt src 3
  | .stallYield _ x => lt x.stall 48
  | .watchdogOverrun _ x => x.made.wf
  | .pictureDue _ _ info => info.hdr.wf && info.sim.all (fun j => lt j 3) && lt info.layer.1 3 && lt info.layer.2 3
  | .decodeComplete _ _ res => res.made.wf
  | .repairWindowEnd _ _ => true
  | .keyRepeat _ _ => true
  | .composedPictureReady _ room => lt room 65536
  | .composeComplete _ _ _ => true
  | .encodeComplete _ _ res => res.wf
  | .keyIntervalExpiry _ room rung => lt room 65536 && lt rung 8
  | .rungRateUpdate _ room => lt room 65536
  | .overlayPoll _ entries => entries.all (fun e => e.wf)
  | .overlayCopyDone _ host table _ res => lt host 4 && lt table 2 && res.wf
  | .thymeOperationComplete _ _ res => res.wf
  | .mixComplete _ _ res => res.wf
  | .mixControlPoll _ entries => entries.all (fun e => e.wf)
  | .ptpMessageReceive _ lport _ => lt lport 64
  | .ptpMessageTransmit _ n _ => lt n 4
  | .holdoverEntry _ n => lt n 4
  | .holdoverEnd _ n => lt n 4
  | .slewLimitTimeout _ n => lt n 4
  | .secondsSet _ n => lt n 4
  | .ppsInputEdge _ n => lt n 4
  | .ppsInputLoss _ n => lt n 4
  | .ppsOutputRise _ n => lt n 4
  | .ppsOutputFall _ n => lt n 4
  | .referenceLoss _ => true
  | .referenceReturn _ => true
  | .refreshDue _ ch rank => lt ch 12 && lt rank 4
  | .refreshBatch _ ch rank => lt ch 12 && lt rank 4
  | .mr4Read _ ch rank _ => lt ch 12 && lt rank 4
  | .refreshModeReturn _ ch rank => lt ch 12 && lt rank 4
  | .dimmSensorRead _ ch slot temp => lt ch 12 && lt slot 2 && tempOk temp
  | .dramRead _ client _ _ _ res => lt client 32 && res.cut.all (fun l => lt l 64)
  | .contextPoisonDelete _ => true
  | .caParityError _ ch rank _ reads _ => lt ch 12 && lt rank 4 && reads.all (fun u => lt u.client 32)
  | .migrationStart _ => true
  | .migrationComplete _ => true
  | .patrolScrub _ _ => true
  | .pwrgoodLow _ => true
  | .resetNLow _ => true
  | .vcoreLow _ mv => lt mv 65536
  | .vsramLow _ mv => lt mv 65536
  | .walkoWatchdog _ => true
  | .thermalTrip _ => true
  | .resetRelease _ => true
  | .strapSample _ _ _ smbAddr => lt smbAddr 4
  | .bootStart _ facts => facts.wf
  | .bootEnd _ failed _ => failed.all (fun x => lt x.1 8 && lt x.2 17)
  | .modeChange _ => true
  | .keepNFall _ => true
  | .keepNRise _ => true
  | .keepWaitExpiry _ => true
  | .keepExit _ => true
  | .drainTimeout _ => true
  | .drainEnd _ => true
  | .safeEntry _ x => lt x.code 16 && x.cut.all (fun l => lt l 64)
  | .dipHoldStart _ rail mv => lt rail 2 && lt mv 65536
  | .dipHoldEnd _ => true
  | .temperatureRead _ temps => (temps.length == 9 && temps.all tempOk)
  | .throttleDecrease _ => true
  | .throttleLevelChange _ => true
  | .thNopp core xm ym => lt core 64 && xm.wf && ym.wf
  | .thMpy core _ _ _ xm ym => lt core 64 && xm.wf && ym.wf
  | .thMac core _ _ _ xm ym => lt core 64 && xm.wf && ym.wf
  | .thMsu core _ _ _ xm ym => lt core 64 && xm.wf && ym.wf
  | .thDmpy core _ _ _ xm ym => lt core 64 && xm.wf && ym.wf
  | .thDmac core _ _ _ xm ym => lt core 64 && xm.wf && ym.wf
  | .thDmsu core _ _ _ xm ym => lt core 64 && xm.wf && ym.wf
  | .thSqmac core _ _ xm ym => lt core 64 && xm.wf && ym.wf
  | .thAddg core _ _ xm ym => lt core 64 && xm.wf && ym.wf
  | .thSubg core _ _ xm ym => lt core 64 && xm.wf && ym.wf
  | .thLda core _ _ xm ym => lt core 64 && xm.wf && ym.wf
  | .thClra core _ xm ym => lt core 64 && xm.wf && ym.wf
  | .thAbsa core _ xm ym => lt core 64 && xm.wf && ym.wf
  | .thNega core _ xm ym => lt core 64 && xm.wf && ym.wf
  | .thAddaa core _ _ xm ym => lt core 64 && xm.wf && ym.wf
  | .thAsh core _ _ xm ym => lt core 64 && xm.wf && ym.wf
  | .thAbsmax core _ _ xm ym => lt core 64 && xm.wf && ym.wf
  | .thAdd core _ _ _ => lt core 64
  | .thSub core _ _ _ => lt core 64
  | .thAnd core _ _ _ => lt core 64
  | .thOr core _ _ _ => lt core 64
  | .thXor core _ _ _ => lt core 64
  | .thShl core _ _ _ => lt core 64
  | .thShr core _ _ _ => lt core 64
  | .thSar core _ _ _ => lt core 64
  | .thMul core _ _ _ => lt core 64
  | .thMulh core _ _ _ => lt core 64
  | .thMin core _ _ _ => lt core 64
  | .thMax core _ _ _ => lt core 64
  | .thAdds core _ _ _ => lt core 64
  | .thSubs core _ _ _ => lt core 64
  | .thCmp core _ _ => lt core 64
  | .thLdi core _ _ => lt core 64
  | .thLdiUpper core _ _ => lt core 64
  | .thLdiRelative core _ _ => lt core 64
  | .thStaSat core _ _ => lt core 64
  | .thStaSat16 core _ _ => lt core 64
  | .thStaRaw core _ _ => lt core 64
  | .thStaGuard core _ _ => lt core 64
  | .thStaNorm core _ _ => lt core 64
  | .thDirectLoad core _ _ _ _ => lt core 64
  | .thDirectStore core _ _ _ _ => lt core 64
  | .thMove core dst _ => lt core 64 && dst.writable
  | .thBra core _ _ => lt core 64
  | .thCall core _ _ => lt core 64
  | .thJmp core _ => lt core 64
  | .thCallg core _ => lt core 64
  | .thRet core => lt core 64
  | .thReti core => lt core 64
  | .thRep core _ => lt core 64
  | .thNop core => lt core 64
  | .thEnd core => lt core 64
  | .thEi core => lt core 64
  | .thDi core => lt core 64
  | .thBrk core => lt core 64
  | .returnLevelCrossing _ rail => lt rail 2
  | .vauxLoss _ => true
  | .announceReceiptTimeout _ n lport => lt n 4 && lt lport 64
  | .rankSweepDone _ ch rank _ _ => lt ch 12 && lt rank 4
  | .snapshotWriteEnd _ p addr => lt p 4 && lt addr (2 ^ 64)
  | .tckEdge _ _ _ _ => true

end Sys2Proof
end

