-- ==== Sys2Proof/Safety.lean ====
section
/-! DEFINITION. What counts as a safe run, and the forms of the state that statements speak of. -/
namespace Sys2Proof.Machine

/-- A run of n steps that stops nowhere. -/
def SafeFor (n : Nat) (s : State) : Prop := ∃ t, Sys2Proof.core.run n s = .next t

/-- A register bank in canonical form: 16 G registers, 4 accumulators, 8 pointers (11 R464). -/
def Bank.wf (b : Bank) : Bool :=
  Memory.wf 0#32 b.g && Memory.wf 0#40 b.a && Memory.wf 0#14 b.p && b.g.all (fun e => lt e.1 16) && b.a.all (fun e => lt e.1 4) &&
    b.p.all (fun e => lt e.1 8)

/-- A core in canonical form, its data and program memories included: bits [15:14] of each modifier and the reserved bits of SR read
0, and the return stack holds at most 8 entries (11 R461, R465, R469, R481). -/
def Core.wf (c : Core) : Bool :=
  c.main.wf && c.shadow.wf && Memory.wf 0#32 c.m && Memory.wf 0#32 c.x && Memory.wf 0#32 c.y && Memory.wf 0#32 c.pm &&
    c.m.all (fun e => lt e.1 8 && e.2 &&& 0xC000#32 == 0#32) && c.sr &&& ~~~srMask == 0#32 && decide (c.stack.length ≤ 8)

/-- The memories of the block outside the cores in canonical form: the flash, the analysis region, and what it has written to each
host. -/
def State.memWf (s : State) : Bool :=
  Memory.wf (0xFF : Byte) s.flash.mem && Memory.wf (0 : Byte) s.dram.analysis && s.hostMem.all (fun m => Memory.wf (0 : Byte) m.2)

/-- Every memory of the machine is in canonical form. -/
def State.wf (s : State) : Bool := s.memWf && s.thyme.cores.all (fun c => c.2.wf) && s.thyme.saved.all (fun c => c.2.wf)

/-! ### Forms of the state that statements name -/

/-- A descriptor of a kind that a ring hands over now runs: the ring fetches, no batch is open on it and no aborted tail stands, and
checks 1-4 pass (02 R82, R84, R92, R95, R96, R98). -/
def State.takes (s : State) (p r op : Nat) (d : Desc) : Bool :=
  s.ringOpen p r && s.cqFree p r && !s.tailOf p r && (s.batchOf p r).isNone && (earlyStatus s.power.mode op d).isNone

/-- No descriptor of a ring waits for its completion, no ring of the port stands at a fence, and the bridge can issue writes on the port
(02 R122). -/
def State.idleRing (s : State) (p r : Nat) : Bool :=
  ((s.host p).sqAt r).out == [] && (s.host p).sq.all (fun kv => kv.2.fence.isNone) && (s.host p).canIssue

/-- The completion ring of a submission ring has one entry more, with a tag, a status and a RESULT (02 R93). -/
def State.answered (s t : State) (p r tag status result : Nat) : Prop :=
  ∃ e : Compl, ((t.host p).cqAt ((s.host p).cqOf r)).entries = ((s.host p).cqAt ((s.host p).cqOf r)).entries ++ [e] ∧
    e.ring = r ∧ e.tag = tag ∧ e.status = status ∧ e.result = result

/-- A core on which an instruction is the next and is followed by no other event: no interrupt waits, and a kernel holds the instruction at
PC, stays below its budget, and goes on at `dest` within its own code (11 R479, R495, R496). -/
def Core.goes (c : Core) (core : Nat) (i : Instr) (cost : Nat) (dest : Ptr) : Bool :=
  lt core 64 && c.ipend == 0#3 && c.fetches core i &&
    (match c.km, c.run with
     | true, some k => decide (c.cyc.toNat + cost < c.budget.toNat) && decide (k.base ≤ dest.toNat) && decide (dest.toNat < k.base + k.words)
     | _, _ => true)

/-- A core that goes on at an address after `cost` cycles, which a kernel is charged (11 R464, R473). -/
def Core.after (c : Core) (cost : Nat) (dest : Ptr) : Core :=
  { c with pc := dest, cyc := if c.km then c.cyc + BitVec.ofNat 32 cost else c.cyc, waits := c.waits.map (· + cost) }

/-- The branch-class instructions, REP, and END, which go on elsewhere than behind themselves (11 R475-R477). -/
def leavesLine : Instr → Bool
  | .thBra _ _ _ => true
  | .thCall _ _ _ => true
  | .thJmp _ _ => true
  | .thCallg _ _ => true
  | .thRet _ => true
  | .thReti _ => true
  | .thRep _ _ => true
  | .thEnd _ => true
  | _ => false

/-- Every core, running or set aside, is in canonical form. -/
def State.coresWf (s : State) : Bool := s.thyme.cores.all (fun c => c.2.wf) && s.thyme.saved.all (fun c => c.2.wf)

end Sys2Proof.Machine
end

