-- ==== Sys2Proof/Certificates/Slice0/Obligations.lean ====
section
/-! DEFINITION. The statements for the provers. -/
open Sys2Proof Sys2Proof.Machine

/-! ### Descriptors (02, and the chapters that own each kind) -/

/-- R90, R93: a NOP that an idle ring hands over is answered OK at once; nothing but the port and its memory changes. R96: a FENCE is
answered OK at once when no ring that it names has a descriptor open, and otherwise its ring stands at it. -/
def Obligations.NopAndFenceAreAnswered : Prop :=
  (∀ (t p r : Nat) (d : Desc) (s : State), (s.at t).takes p r 0x00 d = true → s.idleRing p r = true →
    ∃ u, exec (.nop t p r d) s = .next u ∧ s.answered u p r d.tag stOk 0 ∧
      u = { s.at t with hosts := u.hosts, hostMem := u.hostMem, cnt := u.cnt, nextSeq := s.nextSeq + 1 }) ∧
  (∀ (t p r : Nat) (d : Desc) (s : State), (s.at t).takes p r 0x0C d = true → s.idleRing p r = true →
    ((∀ i < 64, bit (dfld d 16 8) i = true → ((s.host p).sqAt i).out = []) →
      ∃ u, exec (.fence t p r d) s = .next u ∧ s.answered u p r d.tag stOk 0 ∧ ((u.host p).sqAt r).fence = none) ∧
    ((∃ i < 64, bit (dfld d 16 8) i = true ∧ ∃ o ∈ ((s.host p).sqAt i).out, o.seq < s.nextSeq) →
      ∃ u, exec (.fence t p r d) s = .next u ∧ (u.at t).ringOpen p r = false ∧
        ((u.host p).sqAt r).fence = some (s.nextSeq, (List.range 64).filter (fun i => bit (dfld d 16 8) i || i == r))))

/-- R98, R99: BATCH_BEGIN opens a batch on its ring; BATCH_END closes one that holds members and has not failed, and from then on the
members wait for one boundary at least 100 µs later. -/
def Obligations.BatchFraming : Prop :=
  (∀ (t p r : Nat) (d : Desc) (s : State), (s.at t).takes p r 0x0A d = true →
    ∃ u, exec (.batchBegin t p r d) s = .next u ∧ u.batchOf p r = some { beginSeq := s.nextSeq, startTick := s.tick } ∧
      u = { s.at t with hosts := u.hosts, cnt := u.cnt, nextSeq := s.nextSeq + 1 }) ∧
  (∀ (t p r : Nat) (d : Desc) (b : Batch) (s : State), (s.at t).ringOpen p r = true → (s.at t).cqFree p r = true →
    (s.at t).tailOf p r = false → earlyStatus s.power.mode 0x0B d = none → s.batchOf p r = some b → b.failed = false → b.members ≠ [] →
    ∃ u, exec (.batchEnd t p r d) s = .next u ∧ u.batchOf p r = none ∧
      (∀ w ∈ u.waiting, w.batch = some b.beginSeq → w.effect = some (max s.now t + 100 * us)) ∧
      u.waiting.length = s.waiting.length + 1 ∧
      u = { s.at t with hosts := u.hosts, cnt := u.cnt, nextSeq := s.nextSeq + 1, waiting := u.waiting })

/-- R91: a kind that takes effect at a tick boundary and reads no buffer waits, once taken, for the first boundary at least 100 µs later,
and changes nothing else but its port. R91 with 06 R254 and 11 R501: KEY_INSTALL and KERNEL_LOAD wait likewise and begin the read of their
host buffer. -/
def Obligations.TickKindsWait : Prop :=
  (∀ (t p r : Nat) (d : Desc) (s : State) (c : Instr) (op : Nat) (e : Desc), (c, op, e) ∈ [
      (Instr.roomCreate t p r d, 0x01, d), (Instr.roomModify t p r d, 0x02, d), (Instr.roomDelete t p r d, 0x03, d),
      (Instr.legCreate t p r d, 0x04, d), (Instr.legModify t p r d, 0x05, d), (Instr.legDelete t p r d, 0x06, d),
      (Instr.streamCreate t p r d, 0x07, d), (Instr.streamModify t p r d, 0x08, d), (Instr.streamDelete t p r d, 0x09, d),
      (Instr.tackCommit t p r d, 0x11, withAccept false d), (Instr.tackAccept t p r d, 0x11, withAccept true d),
      (Instr.tackRollback t p r d, 0x12, d), (Instr.statsSnapshot t p r d, 0x18, withCancel false d),
      (Instr.statsSnapshotCancel t p r d, 0x18, withCancel true d),
      (Instr.kernelUnload t p r d, 0x14, { d with body := splice (padTo 48 d.body) 9 (leBytes 1 (dfld d 25 1 / 2 * 2 + 1)) })] →
    (s.at t).takes p r op e = true →
    ∃ u, exec c s = .next u ∧
      u = { s.at t with
        hosts := u.hosts, cnt := u.cnt, nextSeq := s.nextSeq + 1
        waiting := s.waiting ++ [{ port := p, ring := r, seq := s.nextSeq, opcode := op, desc := e, effect := some (max s.now t + 100 * us) }] }) ∧
  (∀ (t p r : Nat) (d : Desc) (s : State) (c : Instr) (op : Nat) (e : Desc), (c, op, e) ∈ [
      (Instr.keyInstall t p r d, 0x0D, d),
      (Instr.kernelLoad t p r d, 0x14, { d with body := splice (padTo 48 d.body) 9 (leBytes 1 (dfld d 25 1 / 2 * 2)) })] →
    (s.at t).takes p r op e = true →
    ∃ u, exec c s = .next u ∧
      u = { s.at t with
        hosts := u.hosts, cnt := u.cnt, nextSeq := s.nextSeq + 1, nextDma := s.nextDma + 1
        dmas := s.dmas ++ [{ id := s.nextDma, port := p, ring := r, seq := s.nextSeq, use := .command, issued := (s.host p).canIssue }]
        waiting := s.waiting ++ [{
          port := p, ring := r, seq := s.nextSeq, opcode := op, desc := e, effect := some (max s.now t + 100 * us), data := none }] })

/-- 03 R133: a TACK_SUBMIT of the owner that views the generation in force, while nothing is validated and no switch is set, counts,
and the bridge begins to read its image, of 256 bytes to 16 MiB. -/
def Obligations.TackSubmitReadsTheImage : Prop :=
  ∀ (t p r : Nat) (d : Desc) (s : State), (s.at t).takes p r 0x10 d = true → s.isOwner p = true → d.genview = s.gen →
    dfld d 16 8 % 64 = 0 → s.gens.validating = none → s.switchSet = false → 256 ≤ d.length → d.length ≤ 16777216 →
    ∃ u, exec (.tackSubmit t p r d) s = .next u ∧
      u.gens.validating = some { port := p, ring := r, seq := s.nextSeq, length := d.length, image := none, at_ := max s.now t } ∧
      u.dmas = s.dmas ++ [{ id := s.nextDma, port := p, ring := r, seq := s.nextSeq, use := .tackImage, issued := (s.host p).canIssue }] ∧
      u = { s.at t with
        hosts := u.hosts, cnt := u.cnt, nextSeq := s.nextSeq + 1, nextDma := s.nextDma + 1, dmas := u.dmas, gens := u.gens }

/-- 03 R164, R165: FLASH_READ takes its place behind the flash operations that wait; so does a FLASH_WRITE of the owner on whole
sectors, whose data the bridge begins to read. -/
def Obligations.FlashCommandsTakeTheirPlace : Prop :=
  ∀ (t p r : Nat) (d : Desc) (s : State), dfld d 24 4 + d.length ≤ s.flash.sizeMib * 1048576 →
    ((s.at t).takes p r 0x1E d = true →
      ∃ u, exec (.flashRead t p r d) s = .next u ∧
        u.flash = { s.flash with ops := s.flash.ops ++ [.read p r s.nextSeq (dfld d 16 8) (dfld d 24 4) d.length] } ∧
        u = { s.at t with hosts := u.hosts, cnt := u.cnt, nextSeq := s.nextSeq + 1, flash := u.flash }) ∧
    ((s.at t).takes p r 0x1F d = true → s.isOwner p = true → dfld d 24 4 % 4096 = 0 → d.length % 4096 = 0 →
      ∃ u, exec (.flashWrite t p r d) s = .next u ∧
        u.flash = { s.flash with ops := s.flash.ops ++ [.write p r s.nextSeq (dfld d 24 4) d.length none] } ∧
        u = { s.at t with
          hosts := u.hosts, cnt := u.cnt, nextSeq := s.nextSeq + 1, nextDma := s.nextDma + 1, flash := u.flash
          dmas := s.dmas ++ [{ id := s.nextDma, port := p, ring := r, seq := s.nextSeq, use := .flashData, issued := (s.host p).canIssue }] })

/-- 06 R284, R285: a LOG_READ of a live room with a log, its buffer aligned and long enough, with SET_MARK at a retained record, with OLDEST,
or from the mark of its reader, takes the records from there that fit, in whole records, moves that mark behind them, forgets the reader's
lost span and begins the copy; no other room, and nothing else, changes. -/
def Obligations.LogReadCopies : Prop :=
  ∀ (t p r : Nat) (d : Desc) (s : State) (i k m : Nat) (rm : Room) (gap : Bytes) (recs : List (Nat × Bytes)) (e : Nat),
    (s.at t).takes p r 0x1C d = true → s.handleCheck p 1 d.handle = none → s.roomAt d.handle = some (i, rm) → d.length % 64 = 0 →
    16384 ≤ d.length → d.length ≤ 16777216 → dfld d 16 8 % 64 = 0 → rm.logMib ≠ 0 → k = dbits d 24 1 0 →
    (bit (dfld d 25 1) 0 = true → ∃ b, (dfld d 32 8, b) ∈ rm.logRecs) →
    m = (if bit (dfld d 25 1) 1 = true then rm.oldest else if bit (dfld d 25 1) 0 = true then dfld d 32 8 else rm.marks.getD k 0) →
    (look rm.lostSpan k = none → gap = []) →
    (∀ a b c f, look rm.lostSpan k = some (a, b, c, f) → gap = gapRecord a b c f (s.at t).timeNs) →
    (recs, e) = takeRecords rm.logBad (s.at t).timeNs (rm.logRecs.filter (fun x => decide (m ≤ x.1))) (d.length - gap.length) m →
    ∃ u, exec (.logRead t p r d) s = .next u ∧
      u.dmas = s.dmas ++ [{
        id := s.nextDma, port := p, ring := r, seq := s.nextSeq, use := .log (dfld d 16 8) i rm.inc k gap recs d.length,
        issued := (s.host p).canIssue }] ∧
      look u.objs.rooms i = some { rm with marks := setAt rm.marks k e, lostSpan := del rm.lostSpan k } ∧
      (∀ j, j ≠ i → look u.objs.rooms j = look s.objs.rooms j) ∧ u.objs = { s.objs with rooms := u.objs.rooms } ∧
      u = { s.at t with
        hosts := u.hosts, cnt := u.cnt, nextSeq := s.nextSeq + 1, nextDma := s.nextDma + 1, dmas := u.dmas, objs := u.objs }

/-- 02 R117: a HOST_TX of at most 9,212 bytes to a logical port that the mode provides begins the read of its frame once its pool has room,
while none waits before it. 02 R112: a PUNT_POST on the punt ring gives the port one more buffer. -/
def Obligations.HostTxAndPuntPost : Prop :=
  (∀ (t p r : Nat) (d : Desc) (s : State), (s.at t).takes p r 0x1B d = true → d.length ≤ 9212 →
    provides s.gens.cur (txLport d) = true → s.net.hostWait = [] →
    s.poolTakes (s.poolOf (txLport d) (txClass d)) (cellsOf (hostLen d.length)) = true →
    ∃ u, exec (.hostTx t p r d) s = .next u ∧ u.net.hostWait = [] ∧
      u.dmas = s.dmas ++ [{
        id := s.nextDma, port := p, ring := r, seq := s.nextSeq, use := .hostTx, issued := (s.host p).canIssue
        gen := s.gen, pool := s.poolOf (txLport d) (txClass d), desc := d }] ∧
      u.net.lports = s.net.lports ∧ u.objs = s.objs ∧ u.media = s.media ∧ u.gens = s.gens ∧
      (u.pool (s.poolOf (txLport d) (txClass d))).level = (s.pool (s.poolOf (txLport d) (txClass d))).level + cellsOf (hostLen d.length)) ∧
  (∀ (t p r : Nat) (d : Desc) (s : State), (s.at t).takes p r 0x1A d = true → (s.host p).puntRing = some r → d.length % 64 = 0 →
    256 ≤ d.length → d.length ≤ 16384 → dfld d 16 8 % 64 = 0 → (s.host p).puntHeld = [] →
    ∃ u, exec (.puntPost t p r d) s = .next u ∧
      (u.host p).puntBufs = (s.host p).puntBufs ++ [{ ring := r, seq := s.nextSeq, len := d.length, addr := dfld d 16 8 }] ∧
      u = { s.at t with hosts := u.hosts, cnt := u.cnt, nextSeq := s.nextSeq + 1 })

/-- 13 R566: a READ within the analysis region waits for the write of its bytes; RETIRE marks a member with REASON 4 while a spare is
free; in SERVICE a RETRAIN of ranks that can be moved, and a RESTORE of a retired or failed rank, join the sweeps. -/
def Obligations.DramServices : Prop :=
  ∀ (t p r : Nat) (d : Desc) (s : State),
    ((s.at t).takes p r 0x20 (withOp 0 d) = true → d.length % 64 = 0 → d.length ≤ 8388608 →
      dfld (withOp 0 d) 24 8 % 64 = 0 → dfld (withOp 0 d) 32 8 % 64 = 0 → (s.region 8).1 * 1048576 ≤ dfld (withOp 0 d) 32 8 →
      dfld (withOp 0 d) 32 8 + d.length ≤ ((s.region 8).1 + (s.region 8).2.1) * 1048576 →
      ∃ u bad, exec (.dramServiceRead t p r d) s = .next u ∧ bad ≤ 255 ∧
        u.dmas = s.dmas ++ [{ id := s.nextDma, port := p, ring := r, seq := s.nextSeq, use := .write (d.length + bad * 2 ^ 24), issued := (s.host p).canIssue }] ∧
        u.dram = s.dram) ∧
    ((s.at t).takes p r 0x20 (withOp 1 d) = true → s.power.mode = .service → s.isOwner p = true →
      ∀ l, s.namedRanks (dfld (withOp 1 d) 17 1) (dfld (withOp 1 d) 18 1) = some l →
      (bit (dfld (withOp 1 d) 19 1) 0 = true ∨ ∀ k ∈ l, (s.rank k).holds = false ∨ (s.spareFor k).isSome = true) →
      ∃ u, exec (.dramServiceRetrain t p r d) s = .next u ∧ u.dram.services.length = s.dram.services.length + 1) ∧
    ((s.at t).takes p r 0x20 (withOp 2 d) = true → s.isOwner p = true → dfld (withOp 2 d) 17 1 < 12 → dfld (withOp 2 d) 18 1 < 4 →
      (s.rank (4 * dfld (withOp 2 d) 17 1 + dfld (withOp 2 d) 18 1)).state = .member →
      (s.spareFor (4 * dfld (withOp 2 d) 17 1 + dfld (withOp 2 d) 18 1)).isSome = true →
      ∃ u, exec (.dramServiceRetire t p r d) s = .next u ∧
        (u.rank (4 * dfld (withOp 2 d) 17 1 + dfld (withOp 2 d) 18 1)).reason = 4 ∧
        4 * dfld (withOp 2 d) 17 1 + dfld (withOp 2 d) 18 1 ∈ u.dram.queue) ∧
    ((s.at t).takes p r 0x20 (withOp 3 d) = true → s.power.mode = .service → s.isOwner p = true → dfld (withOp 3 d) 17 1 < 12 →
      dfld (withOp 3 d) 18 1 < 4 →
      ((s.rank (4 * dfld (withOp 3 d) 17 1 + dfld (withOp 3 d) 18 1)).state = .retired ∨
        (s.rank (4 * dfld (withOp 3 d) 17 1 + dfld (withOp 3 d) 18 1)).state = .failed) →
      ∃ u, exec (.dramServiceRestore t p r d) s = .next u ∧ u.dram.services.length = s.dram.services.length + 1)

/-! ### Registers, SMBus, JTAG -/

/-- 02 R77, 00 R19, R20: an aligned 32-bit write to an RL register of BAR0 stores the bits that the register has while the port is not in
RUN; in RUN such a register or LOCK keeps its value and the write is counted; a narrower or unaligned write, and one to another address,
changes nothing.  02 R70: a write to an entry of the table in BAR2 masks it or not; one to a register of the function sets bus mastering or
the read request size.  12 R528, 13 R569: an aligned 32-bit read of a register that latches its upper half leaves it in the latches of the
reading port, a narrower one returns its bytes and latches nothing, and nothing else changes. -/
def Obligations.RegistersAreAccessed : Prop :=
  (∀ (t p off value width : Nat) (s : State), s.barOpen p = true →
    (width = 32 → off % 4 = 0 → 0x10000 ≤ off → rlMask (off - 0x10000) ≠ 0 → s.running p = false →
      ∃ u, exec (.registerWrite t p ⟨.bar0, off⟩ value width) s = .next u ∧
        look (u.host p).regs off = some (BitVec.ofNat 32 (value % 2 ^ 32 &&& rlMask (off - 0x10000))) ∧
        (∀ o, o ≠ off → look (u.host p).regs o = look (s.host p).regs o) ∧ u = { s.at t with hosts := u.hosts }) ∧
    (width = 32 → off % 4 = 0 → 0x10000 ≤ off → rlMask (off - 0x10000) ≠ 0 ∨ off = 0x10000 → s.running p = true →
      exec (.registerWrite t p ⟨.bar0, off⟩ value width) s = .next ((s.at t).bump (hpCtr p 64)) ∧
      (off = 0x10000 → bit value 0 = true → exec (.lock t p off value width) s = .next ((s.at t).bump (hpCtr p 64)))) ∧
    (width ≠ 32 ∨ off % 4 ≠ 0 ∨ off < 0x10000 ∨ rlMask (off - 0x10000) = 0 ∧ off ≠ 0x10000 →
      exec (.registerWrite t p ⟨.bar0, off⟩ value width) s = .next (s.at t) ∧ exec (.lock t p off value width) s = .next (s.at t)) ∧
    (∀ i < 64, ∃ u, exec (.registerWrite t p ⟨.bar2, 16 * i + 12⟩ value 32) s = .next u ∧
      lookD (u.host p).msixTab i {} = { lookD (s.host p).msixTab i {} with mask := bit (value % 2 ^ 32) 0 } ∧
      (∀ j, j ≠ i → lookD (u.host p).msixTab j {} = lookD (s.host p).msixTab j {}) ∧ u = { s.at t with hosts := u.hosts }) ∧
    ((s.host p).link = true →
      (∃ u, exec (.registerWrite t p ⟨.command, off⟩ value width) s = .next u ∧ (u.host p).bme = bit value 2 ∧
        u = { s.at t with hosts := u.hosts }) ∧
      (∃ u, exec (.registerWrite t p ⟨.deviceControl, off⟩ value width) s = .next u ∧
        u.host p = { s.host p with mrrs := 128 * 2 ^ min 5 (value / 2 ^ 12 % 8) } ∧ u = { s.at t with hosts := u.hosts }))) ∧
  (∀ (t p a w : Nat) (s : State), s.barOpen p = true → s.power.mode ≠ .boot →
    (∀ n < 4, ∃ u, exec (.tbNowRead t p ⟨n, a, w⟩) s = .next u ∧
      (a = 0 → w = 32 → look (u.host p).latches.tb n = some ((s.at t).tbSec n, (s.at t).tbFrac n) ∧
        (u.host p).rdData = (s.at t).readReg (some p) 0 (0x5000 + 0x20 * n)) ∧
      (a ≠ 0 ∨ w ≠ 32 → (u.host p).latches = (s.host p).latches ∧
        (u.host p).rdData = BitVec.ofNat 32 (((s.at t).readReg (some p) 0 (0x5000 + 0x20 * n)).toNat / 2 ^ (8 * a) % 2 ^ w)) ∧
      u = { s.at t with hosts := u.hosts }) ∧
    (∃ u, exec (.tbTickRead t ⟨p, a, w⟩) s = .next u ∧
      (u.host p).latches = (if a = 0 ∧ w = 32 then { (s.host p).latches with tickHi := s.tick / 2 ^ 32 % 2 ^ 16 } else (s.host p).latches) ∧
      u = { s.at t with hosts := u.hosts }) ∧
    (∃ u, exec (.faMigRead t ⟨p, a, w⟩) s = .next u ∧
      (u.host p).latches = (if a = 0 ∧ w = 32 then { (s.host p).latches with migHi := (s.at t).watermark / 2 ^ 32 % 2 ^ 8 }
        else (s.host p).latches) ∧
      u = { s.at t with hosts := u.hosts }))

/-- 16 R631, R632, R635: outside RESET a process call to the target's address reads a register outside the host ports and the yards, and is
followed by its PEC; a block write of 8 bytes acts at PWR_MODE_REQ and PWR_RESET alone, with a PEC as without, and not with a wrong one; any
other transaction is not acknowledged, and it or an abandoned one has no effect. 16 R633: a read of the Alert Response Address returns the
target's address, 0x6C to 0x6F, and releases the pin. -/
def Obligations.SmbusReadsAndWrites : Prop :=
  (∀ (t addr value : Nat) (frame : List Byte) (s z : State), s.power.mode ≠ .reset → s.power.smbAddr < 4 → addr < 2 ^ 32 → value < 2 ^ 32 →
    z = (s.at t).modPins (fun p => { p with smbAck := true }) →
    (addr < 0x10000 → frame = s.smbHead 0x12 4 ++ leBytes 4 addr ++ [BitVec.ofNat 8 (2 * (0x6C + s.power.smbAddr) + 1)] →
      ∃ u, exec (.smbusRead t frame) s = .next u ∧ u.pins.smbAck = true ∧ u.pins.smbData = z.readReg none 0 (addr / 4 * 4) ∧
        u.pins.smbPec = smbPec (frame ++ [4] ++ leBytes 4 u.pins.smbData.toNat) ∧ u = { z with free := s.free + 1, pins := u.pins }) ∧
    (∀ head data, head = s.smbHead 0x10 8 → data = leBytes 4 addr ++ leBytes 4 value →
      (addr / 4 = 0x1C01 → exec (.smbusWrite t head data []) s = .next (z.writeModeReq value)) ∧
      (addr / 4 = 0x1C03 → exec (.smbusWrite t head data []) s = .next (z.softReset 0 value)) ∧
      (addr / 4 ≠ 0x1C01 → addr / 4 ≠ 0x1C03 → exec (.smbusWrite t head data []) s = .next z) ∧
      (∀ pec : Byte, exec (.smbusWrite t head data [pec]) s =
        if pec.toNat = smbPec (head ++ data) then exec (.smbusWrite t head data []) s else .next z))) ∧
  (∀ (t : Nat) (frame head data pec : List Byte) (s : State),
    (s.power.mode = .reset ∨ (head ++ data ++ pec).take 3 ≠ s.smbHead 0x10 8 ∨
        ((head ++ data ++ pec).length ≠ 11 ∧ (head ++ data ++ pec).length ≠ 12) →
      exec (.smbusWrite t head data pec) s = .next ((s.at t).modPins (fun p => { p with smbAck := false }))) ∧
    (s.power.mode = .reset ∨ frame.take 3 ≠ s.smbHead 0x12 4 ∨ frame.length ≠ 8 →
      exec (.smbusRead t frame) s = .next ((s.at t).modPins (fun p => { p with smbAck := false }))) ∧
    exec (.smbusTimeout t) s = .next (s.at t) ∧
    (s.power.mode ≠ .reset → s.pins.alert = true → s.power.smbAddr < 4 →
      ∃ u, exec (.alertResponse t) s = .next u ∧ u.pins.alert = false ∧ u.pins.smbData = BitVec.ofNat 32 (0x6C + s.power.smbAddr) ∧
        u = { s.at t with pins := u.pins }))

/-- 16 R638: five clocks with TMS high bring the TAP controller to Test-Logic-Reset from any state, which selects IDCODE; there TRST_N
low brings it at once; a clock in Capture-DR under IDCODE loads the code 0x16448B47. -/
def Obligations.TapReachesReset : Prop :=
  (∀ (a b c d e : Bool) (pins : List Bool) (s : State), ∃ s1 s2 s3 s4 u,
    exec (.tckEdge true a true pins) s = .next s1 ∧ exec (.tckEdge true b true pins) s1 = .next s2 ∧
    exec (.tckEdge true c true pins) s2 = .next s3 ∧ exec (.tckEdge true d true pins) s3 = .next s4 ∧
    exec (.tckEdge true e true pins) s4 = .next u ∧ u.pins.tap = 0xF ∧ u.pins.ir = 1#4) ∧
  (∀ (tms tdi : Bool) (pins : List Bool) (s : State), ∃ u, exec (.tckEdge tms tdi false pins) s = .next u ∧ u.pins.tap = 0xF ∧ u.pins.ir = 1#4) ∧
  (∀ (tms tdi : Bool) (pins : List Bool) (s : State), s.pins.tap = 0x6 → s.pins.ir = 1#4 →
    ∃ u, exec (.tckEdge tms tdi true pins) s = .next u ∧ u.pins.dr.length = 32 ∧
      ∀ i < 32, u.pins.dr[i]? = some (Nat.testBit 0x16448B47 i))

/-- 03 R163, 05 R228, 06 R256: SF_CFG takes the owner's write at once, and mode and clock follow it, while no flash operation is in progress,
and holds it till the end of one that is; LOOP takes it in SERVICE; a key-encryption key takes its own port's words outside RUN. -/
def Obligations.OwnerRegistersTakeWrites : Prop :=
  ∀ (t p value : Nat) (s : State), s.barOpen p = true →
    (s.isOwner p = true → s.flash.busy = false →
      ∃ u, exec (.sfCfgWrite t p value) s = .next u ∧
        u.flash = { s.flash with
          cfg := (s.flash.cfg &&& ~~~0x0003FF03#32) ||| (BitVec.ofNat 32 value &&& 0x0003FF03#32), cfgHeld := none }.select ∧
        u = { s.at t with flash := u.flash }) ∧
    (s.isOwner p = true → s.flash.busy = true →
      ∃ u, exec (.sfCfgWrite t p value) s = .next u ∧ u.flash.cfg = s.flash.cfg ∧
        u.flash.cfgHeld = some ((s.flash.cfg &&& ~~~0x0003FF03#32) ||| (BitVec.ofNat 32 value &&& 0x0003FF03#32)) ∧
        u = { s.at t with flash := u.flash }) ∧
    (∀ n < 16, s.isOwner p = true → s.power.mode = .service → value % 4 ≠ 3 →
      ∃ u, exec (.loopWrite t p n value) s = .next u ∧ (lookD u.net.phys n {}).loop = value % 4 ∧
        (∀ m, m ≠ n → lookD u.net.phys m {} = lookD s.net.phys m {}) ∧ u = { s.at t with net := u.net }) ∧
    (∀ w < 8, s.running p = false →
      ∃ u, exec (.fwKekWrite t p p w value) s = .next u ∧ look (u.host p).kek w = some (BitVec.ofNat 32 value) ∧
        (∀ v, v ≠ w → look (u.host p).kek v = look (s.host p).kek v) ∧ u = { s.at t with hosts := u.hosts })

/-! ### Host ports -/

/-- 02 R70, R73, R85: a link that comes up has its width and rate, and takes its port from OFF to SETUP outside RESET and BOOT; a LOCK in SETUP whose
checks pass takes it to RUN, its rings empty and the doorbell sweep at its FLOOR; one whose checks fail leaves the port in SETUP with the code
of the check and changes nothing else; a LOCK in RUN is ignored and counted. -/
def Obligations.PortsComeUp : Prop :=
  ∀ (t p width rate value : Nat) (s : State), p < 4 → bit value 0 = true →
    (∃ u, exec (.hostLinkUp t ⟨p, width, rate⟩) s = .next u ∧ u = { s.at t with hosts := u.hosts } ∧ (∀ q, q ≠ p → u.host q = s.host q) ∧
      u.host p = { s.host p with
        link := true, width, rate
        state := if (s.host p).state = .off ∧ s.power.mode ≠ .reset ∧ s.power.mode ≠ .boot then .setup else (s.host p).state }) ∧
    ((s.host p).state = .setup → (s.host p).lockCheck s.power.mode = none →
      ∃ u, exec (.lock t p 0x10000 value 32) s = .next u ∧ (u.host p).state = .run ∧ (u.host p).lockErr = 0 ∧ (u.host p).sq = [] ∧ (u.host p).cq = [] ∧
        (u.host p).sweepNow = bits ((s.host p).reg 0x10010) 7 0 ∧ u.objs = s.objs) ∧
    (∀ code kind ring, (s.host p).state = .setup → (s.host p).lockCheck s.power.mode = some (code, kind, ring) →
      exec (.lock t p 0x10000 value 32) s = .next ((s.at t).modHost p (fun h => { h with lockErr := code, errKind := kind, errRing := ring }))) ∧
    ((s.host p).state = .run → exec (.lock t p 0x10000 value 32) s = .next ((s.at t).bump (hpCtr p 64)))

/-- 02 R73, R74, 14 R586: FLR and hot reset take a port from RUN to SETUP, link down and HnPERST_N to OFF; its rings and queues are
empty then, every other port stands as it was, and rooms, legs and streams live on. -/
def Obligations.PortsLeaveRun : Prop :=
  ∀ (t p : Nat) (s : State) (c : Instr) (dest : PortState), p < 4 → (s.host p).state = .run →
    (c, dest) ∈ [(Instr.flr t p, .setup), (Instr.hotReset t p, .setup), (Instr.hostLinkDown t p, .off), (Instr.perstAssert t p, .off)] →
    (s.host p).link = true → ∃ u, exec c s = .next u ∧ (u.host p).state = dest ∧ (u.host p).sq = [] ∧ (u.host p).cq = [] ∧ (u.host p).eq = [] ∧
      (u.host p).grace = some (max s.now t + s.fld 2 (4 + 4 * p) 4 * 1000 * us) ∧ (∀ q, q ≠ p → u.host q = s.host q) ∧
      u.objs = s.objs ∧ u.hostMem = s.hostMem

/-- 02 R78, R81-R84: a sweep reads the page, is counted, and returns its interval to FLOOR when an index of a submission ring has moved since the
last one; otherwise it doubles it, up to CEIL.  A producer index that claims more than its ring holds halts the ring, which fetches no more.
What the sweep fetches, in the order of the rings, is fetched as each descriptor's command is: a ring that is open, ahead, and has room in its
completion ring hands over its descriptor. -/
def Obligations.SweepsReadIndices : Prop :=
  (∀ (t p : Nat) (d : SweepData) (s : State), p < 4 → s.running p = true → s.power.mode.sweeps = true → (s.host p).canIssue = true →
    (d.slots = [] → ∃ u, exec (.sweep t p d) s = .next u ∧
      ((∀ i < 64, (s.host p).sqEn i = true → ((s.host p).sqAt i).prod % 2 ^ 32 = le d.page (4 * i) 4 % 2 ^ 32) →
        (u.host p).sweepNow = min (2 * (s.host p).sweepNow) (bits ((s.host p).reg 0x10010) 15 8)) ∧
      (∀ i < 64, (s.host p).sqEn i = true → ((s.host p).sqAt i).prod % 2 ^ 32 ≠ le d.page (4 * i) 4 % 2 ^ 32 →
        (u.host p).sweepNow = bits ((s.host p).reg 0x10010) 7 0) ∧
      u.cntOf (hpCtr p 0) = (s.cntOf (hpCtr p 0) + 1) % 2 ^ 64 ∧
      (∀ i < 64, (s.host p).sqEn i = true → ((s.host p).sqAt i).halted = false →
        ringSize ((s.host p).sqCfg i) < ahead (le d.page (4 * i) 4) ((s.host p).sqAt i).fetched →
        ((u.host p).sqAt i).halted = true ∧ u.ringOpen p i = false)) ∧
    (∃ (z : State) (adapt : State → State), (∀ v, ∃ n, adapt v = v.modHost p (fun h => { h with sweepNow := n })) ∧
      exec (.sweep t p { d with slots := [] }) s = .next (adapt (z.addCnt (hpCtr p 24) 0)) ∧
      exec (.sweep t p d) s = .next (adapt ((fetchRings p (byRing d.slots) z).1.addCnt (hpCtr p 24) (b2n (fetchRings p (byRing d.slots) z).2))))) ∧
  (∀ (p r : Nat) (b : Bytes) (s : State), s.ringOpen p r = true → ((s.host p).sqAt r).fetched < ((s.host p).sqAt r).prod → s.cqFree p r = true →
    fetchRings p [(r, [b])] s = (fetchOne p r (slotOpcode b) (slotDesc b) s, false))

/-- 02 R93, R122: an access that ends well gives its data to the command or the tack that waits for it, or completes the descriptor whose buffer
it wrote with its RESULT; a write that fails completes it with DMA-ERROR.  A descriptor read that fails is counted, noted for AER, and halts
its ring; so does a completion or event entry that could not be written; a failed read of the page is counted alone. -/
def Obligations.HostAccessesEnd : Prop :=
  ∀ (t : Nat) (s : State),
    (∀ (id : Nat) (x : Dma) (data : Bytes), s.dmas.find? (fun y => y.id == id) = some x →
      (x.issued = true → x.use = .command → ∃ u, exec (.hostDmaCompletion t (.buffer id) (.ok data)) s = .next u ∧
        (∀ y ∈ u.dmas, y.id ≠ id) ∧ (∀ w ∈ u.waiting, w.seq = x.seq → w.data = some data) ∧
        u = { s.at t with dmas := u.dmas, waiting := u.waiting }) ∧
      (∀ v, x.issued = true → x.use = .tackImage → s.gens.validating = some v → v.port = x.port → v.ring = x.ring → v.seq = x.seq →
        ∃ u, exec (.hostDmaCompletion t (.buffer id) (.ok data)) s = .next u ∧ (∀ y ∈ u.dmas, y.id ≠ id) ∧
          u.gens = { s.gens with validating := some { v with image := some data } } ∧ u = { s.at t with dmas := u.dmas, gens := u.gens }) ∧
      (∀ result o, x.use = .write result → ((s.host x.port).sqAt x.ring).out = [o] → o.seq = x.seq → o.done = none →
        (s.host x.port).sq.all (fun kv => kv.2.fence.isNone) = true → (s.host x.port).canIssue = true →
        ((s.host x.port).cqAt ((s.host x.port).cqOf x.ring)).halted = false →
        (x.issued = true → ∃ u, exec (.hostDmaCompletion t (.buffer id) (.ok data)) s = .next u ∧ s.answered u x.port x.ring o.tag stOk result ∧
          (∀ y ∈ u.dmas, y.id ≠ id)) ∧
        (x.issued = false → ∃ u, exec (.hostDmaCompletion t (.buffer id) (.fail 7)) s = .next u ∧
          s.answered u x.port x.ring o.tag stDmaError 0 ∧ (∀ y ∈ u.dmas, y.id ≠ id)))) ∧
    (∀ p r st, s.running p = true → st ∈ [1, 2, 4, 5, 6, 7] →
      (r < 64 → ∃ u, exec (.hostDmaCompletion t (.desc p r) (.fail st)) s = .next u ∧ u.ringOpen p r = false ∧
        ((u.host p).sqAt r).halted = true ∧ (u.host p).aer = (s.host p).aer ||| aerBits st ∧
        u.cntOf (hpCtr p 112) = (s.cntOf (hpCtr p 112) + 1) % 2 ^ 64) ∧
      exec (.hostDmaCompletion t (.doorbell p) (.fail st)) s = .next ((s.at t).hostFailed p st)) ∧
    (∀ p i, s.running p = true → (s.host p).unissued.contains (1, i) = true →
      ∃ u, exec (.hostDmaCompletion t (.entry p 1 i) (.fail 7)) s = .next u ∧ ((u.host p).cqAt i).halted = true ∧
        u.cntOf (hpCtr p 112) = (s.cntOf (hpCtr p 112) + 1) % 2 ^ 64)

/-- 02 R108, R109: an entry past its age asserts HnATN_N and keeps its place; the oldest unsignalled completion past its age leaves none
unsignalled and sends the ring's message, or sets its pending bit while its vector is masked. -/
def Obligations.AgesSignal : Prop :=
  ∀ (t p i : Nat) (s : State),
    (p < 4 → i < 4 → (s.host p).state = .run → (s.host p).eqMeets (max s.now t) i = true →
      ∃ u, exec (.attentionAge t p i) s = .next u ∧ (u.host p).atn = true ∧ ((u.host p).eqAt i).criterion = true ∧
        ((u.host p).eqAt i).entries = ((s.host p).eqAt i).entries ∧ u = { s.at t with hosts := u.hosts }) ∧
    (∀ vec, vec = bits ((s.host p).cqCfg i) 21 16 → (s.host p).state = .run → (s.host p).msix = true →
      bits ((s.host p).reg (0x1050C + 16 * i)) 31 16 ≠ 0 → 0 < ((s.host p).cqAt i).unsignalled →
      ((s.host p).cqAt i).oldest + bits ((s.host p).reg (0x1050C + 16 * i)) 31 16 * us ≤ max s.now t →
      ∃ u, exec (.coalesceAge t p i) s = .next u ∧ ((u.host p).cqAt i).unsignalled = 0 ∧
        ((u.host p).cqAt i).entries = ((s.host p).cqAt i).entries ∧
        ((s.host p).masked vec = true → (u.host p).pba = (s.host p).pba ||| 2 ^ vec ∧ (u.host p).msixSent = (s.host p).msixSent) ∧
        ((s.host p).masked vec = false → (s.host p).canIssue = true → (u.host p).msixSent = vec :: (s.host p).msixSent) ∧
        u = { s.at t with hosts := u.hosts })

/-- 02 R104, R114, 06 R251, R258: a port whose grace has run out loses its rooms; a held frame past its time is dropped and counted; a
tombstone whose time has come ends with its event; an old key serves no longer than its overlap. 02 R98: 400 ticks after its begin an open
batch is aborted and an aborted tail begins; 400 ticks after the abort the tail ends. -/
def Obligations.HostTimersEnd : Prop :=
  (∀ (t p i : Nat) (s : State),
    (∀ e, p < 4 → (s.host p).grace = some e → e ≤ s.tickAt → s.power.mode ≠ .keep →
      ∃ u, exec (.orphanGraceExpiry t p) s = .next u ∧
        (∀ i r, look s.objs.rooms i = some r → r.owner = p → look u.objs.rooms i = none) ∧
        (s.roomsOf p = [] → (s.host p).doomed = [] → (u.host p).grace = none ∧ u = { s.at t with hosts := u.hosts })) ∧
    (∀ f, (s.host p).puntHeld = [f] → f.at_ + s.puntHold ≤ max s.now t →
      ∃ u, exec (.puntHoldExpiry t p) s = .next u ∧ (u.host p).puntHeld = [] ∧
        u.cntOf (hpCtr p 88) = (s.cntOf (hpCtr p 88) + 1) % 2 ^ 64) ∧
    (∃ u, exec (.tombstoneExpiry t) s = .next u ∧ (∀ x, x ∈ u.objs.tombs ↔ x ∈ s.objs.tombs ∧ s.tickAt < x.expiry) ∧
      u.objs = { s.objs with tombs := u.objs.tombs }) ∧
    (∀ (x : Stream) (k : SrtpKey) (e : Nat), look s.objs.streams i = some x → x.oldKey = some (k, e) → e ≤ max s.now t →
      ∃ u, exec (.keyOverlapEnd t i) s = .next u ∧ look u.objs.streams i = some { x with oldKey := none } ∧
        u = { s.at t with objs := u.objs })) ∧
  (∀ (t p r : Nat) (s : State),
    (∀ b, s.batchOf p r = some b → b.startTick + 400 ≤ s.tick →
      ∃ u, exec (.batchTimeout t p r) s = .next u ∧ u.batchOf p r = none ∧ ((u.host p).sqAt r).tail = some (s.tick + 400) ∧
        ∀ w ∈ u.waiting, w.batch ≠ some b.beginSeq) ∧
    (∀ e, ((s.host p).sqAt r).tail = some e → e ≤ s.tick →
      ∃ u, exec (.abortedTailEnd t p r) s = .next u ∧ ((u.host p).sqAt r).tail = none ∧ u = { s.at t with hosts := u.hosts }))

/-! ### Objects at their tick (06 R240-R247) -/

/-- 02 R93, R100, 06 R240, R242, R244: a create that ends OK answers the handle of a live object that was not there before and that its
sender owns; R5: each time an index is issued again its incarnation advances by one, and after the largest value it goes on at 1. 06 R247: a delete of a live object by its owner ends OK and takes the object away. -/
def Obligations.ObjectsComeAndGo : Prop :=
  (∀ (p : Nat) (d : Desc) (s u : State) (h o : Nat),
    (s.applyCommand 0x01 p d [] = (u, stOk, h, o) →
      o = h ∧ ∃ i r, u.roomAt h = some (i, r) ∧ r.owner = p ∧ r.createdTick = s.tick ∧ look s.objs.rooms i = none ∧
        r.inc = (if lookD s.objs.roomInc i 0 < 0xFFFF then lookD s.objs.roomInc i 0 + 1 else 1) ∧ lookD u.objs.roomInc i 0 = r.inc) ∧
    (s.applyCommand 0x04 p d [] = (u, stOk, h, o) →
      o = h ∧ ∃ i l, u.legAt h = some (i, l) ∧ l.owner = p ∧ look s.objs.legs i = none ∧
        l.inc = (if lookD s.objs.legInc i 0 < 0xFFF then lookD s.objs.legInc i 0 + 1 else 1) ∧ lookD u.objs.legInc i 0 = l.inc) ∧
    (s.applyCommand 0x07 p d [] = (u, stOk, h, o) →
      o = h ∧ ∃ i x, u.streamAt h = some (i, x) ∧ x.owner = p ∧ x.createdTick = s.tick ∧ look s.objs.streams i = none ∧
        x.inc = (if lookD s.objs.streamInc i 0 < 0x3FF then lookD s.objs.streamInc i 0 + 1 else 1) ∧ lookD u.objs.streamInc i 0 = x.inc)) ∧
  (∀ (p : Nat) (d : Desc) (s : State),
    (∀ i r, s.roomAt d.handle = some (i, r) → r.owner = p →
      ∃ u, s.applyCommand 0x03 p d [] = (u, stOk, 0, d.handle) ∧ look u.objs.rooms i = none) ∧
    (∀ i l, s.legAt d.handle = some (i, l) → l.owner = p →
      ∃ u, s.applyCommand 0x06 p d [] = (u, stOk, 0, d.handle) ∧ look u.objs.legs i = none) ∧
    (∀ i x, s.streamAt d.handle = some (i, x) → x.owner = p →
      ∃ u, s.applyCommand 0x09 p d [] = (u, stOk, 0, d.handle) ∧ look u.objs.streams i = none))

/-- 02 R92: a command whose HANDLE names nothing live ends STALE-HANDLE, one on another port's object NOT-OWNER, and neither changes
anything. -/
def Obligations.HandlesAreChecked : Prop :=
  ∀ (op p : Nat) (d : Desc) (s : State), op ∈ [0x02, 0x03, 0x04, 0x05, 0x06, 0x07, 0x08, 0x09, 0x0D] →
    (op = 0x0D → d.length ≠ 0) →
    ∀ k, kindOf op = some k →
    (s.ownerOf k.handle d.handle = none → s.applyCommand op p d [] = (s, stStaleHandle, 0, 0)) ∧
    (∀ q, s.ownerOf k.handle d.handle = some q → q ≠ p → s.applyCommand op p d [] = (s, stNotOwner, 0, 0))

/-! ### Ticks, generations, flash, snapshots, events -/

/-- 12 R511: when TB0 has advanced by one media tick since the last boundary, TICK_BOUNDARY advances the tick by one and runs the work of
the boundary after it, or leaves that work to a return or an end of probation that falls due with it. 03 R145, R147: at a boundary that
waits for it, the end of probation makes the generation KEPT, and an automatic return puts its parent in force as KEPT; the work of the
boundary follows. -/
def Obligations.TickBoundariesAct : Prop :=
  (∀ (t : Nat) (m : TickMeas) (s : State), s.power.mode ≠ .reset → s.boundaryHeld = false →
    s.tickVal + 2500000 * 2 ^ 32 ≤ (s.at t).tbVal 0 →
    ∃ z : State, (exec (.tickBoundary t m) s = .next z.boundaryWork ∨ exec (.tickBoundary t m) s = .next { z with boundaryHeld := true }) ∧
      z.tick = s.tick + 1 ∧ z.tickAt = max s.now t ∧ z.tickVal = s.tickVal + 2500000 * 2 ^ 32 ∧ z.waiting = s.waiting ∧ z.objs = s.objs ∧
      z.tbs = s.tbs) ∧
  (∀ (t : Nat) (s : State), max s.now t = s.tickAt → s.boundaryHeld = true →
    (s.gens.autoReturn = none → s.probationOver = true →
      ∃ z : State, exec (.probationEnd t) s = .next z.boundaryWork ∧ z.gens.state = .kept ∧ z.gens.cur = s.gens.cur ∧ z.boundaryHeld = false) ∧
    (∀ b k v par, s.gens.autoReturn = some (b, k, v) → b ≤ s.tick → s.gens.parent = some par →
      ∃ z : State, exec (.automaticReturn t) s = .next z.boundaryWork ∧ z.gens.state = .kept ∧ z.gens.cur = some par ∧ z.gens.parent = none ∧
        z.boundaryHeld = false))

/-- 03 R134, R136: an image that passes every check is staged; one that fails is not, and RESULT keeps the first failing reason. 03 R141:
once no frame stamped with the old generation is in flight, the switch is complete and the old settings are gone. -/
def Obligations.ValidationAndSwitchEnd : Prop :=
  (∀ (t : Nat) (s : State) (v : Validation) (b : Bytes), s.gens.validating = some v → v.image = some b →
    (validateTack (s.at t).vctx v.length b = none →
      ∃ u, exec (.validationEnd t) s = .next u ∧ u.gens = { s.gens with validating := none, staged := some (readTack b) } ∧
        u = { s.at t with gens := u.gens, hosts := u.hosts, hostMem := u.hostMem }) ∧
    (∀ result, validateTack (s.at t).vctx v.length b = some result →
      ∃ u, exec (.validationEnd t) s = .next u ∧ u.gens = { s.gens with validating := none, lastReason := result } ∧
        u = { s.at t with gens := u.gens, hosts := u.hosts, hostMem := u.hostMem, cnt := u.cnt })) ∧
  (∀ (t : Nat) (s : State), s.gens.switching = true → s.oldInFlight = false →
    ∃ u, exec (.switchComplete t) s = .next u ∧ u.gens = { s.gens with old := none, switching := false } ∧ u = { s.at t with gens := u.gens })

/-- 03 R164, R165: a FLASH_READ that ends well sends the bytes of the flash to the host and waits for their write; a FLASH_WRITE that no sector refuses leaves its
data in the flash. -/
def Obligations.FlashOperationsEnd : Prop :=
  ∀ (t : Nat) (s : State) (p r seq off len : Nat) (rest : List FlashOp), s.flash.held = false →
    (∀ addr, s.flash.ops = .read p r seq addr off len :: rest → (s.host p).canIssue = true →
      ∃ u, exec (.flashOperationDone t { reason := 0, sector := 0 }) s = .next u ∧ u.flash.ops = rest ∧
        u.hostRead p addr len = s.flash.bytes off len ∧ u.flash.mem = s.flash.mem ∧
        u.dmas = s.dmas ++ [{ id := s.nextDma, port := p, ring := r, seq, use := .write len, issued := true }]) ∧
    (∀ b : Bytes, s.flash.ops = .write p r seq off len (some b) :: rest → b.length = len → len % 4096 = 0 →
      s.flash.firstFailure off len { reason := 0, sector := 0 } = none →
      ∃ u, exec (.flashOperationDone t { reason := 0, sector := 0 }) s = .next u ∧ u.flash.ops = rest ∧ u.flash.bytes off len = b ∧
        (∀ a, a < off ∨ off + len ≤ a → u.flash.bytes a 1 = s.flash.bytes a 1))

/-- 04 R175, R177: a capture that is due and fits is numbered and begins to be written with an odd EPOCH; the end of its writing makes EPOCH
even, and completes a request whose first capture it is. 15 R611: at the first tick of a window EV_SUPPRESSED arises once for a source that was suppressed in the last one, and the counts of
the window begin anew. -/
def Obligations.CapturesAndWindows : Prop :=
  (∀ (t p addr : Nat) (q : SnapReq) (s : State), p < 4 →
    ((s.host p).snaps = [q] → max s.now t = s.tickAt → s.boundaryHeld = false → s.power.mode ≠ .keep → q.addr = addr → q.period ≠ 0 →
      q.capture ≠ 0 → q.cancelled = false → q.nextTick = s.tick → q.writing = false → (s.host p).canIssue = true → ((s.at t).snapshot p q).length ≤ q.length →
      ∃ (u : State) (q' : SnapReq), exec (.periodicCapture t p addr) s = .next u ∧ (u.host p).snaps = [q'] ∧ q'.capture = q.capture + 1 ∧ q'.writing = true ∧
        q'.captureTick = s.tick ∧ u.hostRead p addr 8 = leBytes 8 (2 * (q.capture + 1) - 1) ∧
        u = { s.at t with
          hosts := u.hosts, hostMem := u.hostMem, dmas := u.dmas, nextDma := s.nextDma + 1 }) ∧
    ((s.host p).snaps.find? (fun x => x.addr == addr && x.writing) = some q → (s.host p).canIssue = true →
      (q.capture ≠ 1 → ∃ u, exec (.snapshotWriteEnd t p addr) s = .next u ∧ u.hostRead p addr 8 = leBytes 8 (2 * q.capture) ∧
        u = { s.at t with hosts := u.hosts, hostMem := u.hostMem, dmas := u.dmas }) ∧
      (∀ o, q.capture = 1 → ((s.host p).sqAt q.ring).out = [o] → o.seq = q.seq → o.done = none →
        (s.host p).sq.all (fun kv => kv.2.fence.isNone) = true → ((s.host p).cqAt ((s.host p).cqOf q.ring)).halted = false →
        ∃ u, exec (.snapshotWriteEnd t p addr) s = .next u ∧ s.answered u p q.ring o.tag stOk q.snapLen))) ∧
  (∀ (t src n sup : Nat) (s : State), s.tick % 400 = 0 → s.router.windowNo ≠ s.tick / 400 → s.router.told = [] → sup ≠ 0 →
    (s.router.window = [(src, (n, sup))] →
      ∃ u, exec (.eventWindowStart t) s = .next u ∧ u.cntOf (ctr 0x0E 0 (16 * 44)) = (s.cntOf (ctr 0x0E 0 (16 * 44)) + 1) % 2 ^ 64 ∧
        u.router.window = [(44, (1, 0))] ∧ u.router.windowNo = s.tick / 400 ∧ u.router.told = []) ∧
    (s.router.window = [(src, (n, 0))] →
      exec (.eventWindowStart t) s = .next ((s.at t).modRouter (fun x => { x with windowNo := s.tick / 400, window := [] }))))

/-! ### Network ports and egress -/

/-- 05 R207, R209, R210, 07 R316-R318: a complete frame that did not start in cut-through is lost without room in pool 0, and else has stood
there; with a receive error it is dropped and counted under the first error found; an accepted MAC control frame of another opcode, one
for a time base, and one that no forwarding takes in this mode, are counted and go no further.  A frame that pool 0 refused in cut-through
is dropped whole. -/
def Obligations.FramesAreJudged : Prop :=
  ∀ (t l off first n : Nat) (f : RxFrame) (s z w v : State) (c : Option Tack), z = s.at t → s.upl l = true → (s.lport l).rx = none →
    n = f.data.length + 4 → first = z.now - n * bytePs (modeOf s.gens.cur (l / 4)) → c = z.cfgOf (z.stampAt first) →
    w = (z.poolAdd 0 (cellsOf n)).poolSub 0 (cellsOf n) → v = w.seen first (z.stampAt first) →
    ((s.lport l).rxRefused = true → exec (.completePacketNotice t l f) s = .next (z.modLport l (fun p => { p with rxRefused := false }))) ∧
    ((s.lport l).rxRefused = false →
      (z.poolTakes 0 (cellsOf n) = false →
        exec (.completePacketNotice t l f) s = .next ((z.addCnt (poolCtr 0 32) (cellsOf n)).bump pool0Ctr)) ∧
      (z.poolTakes 0 (cellsOf n) = true →
        (rxError c l f.data f.fcsOk = some off → exec (.completePacketNotice t l f) s = .next (w.bump (npCtr l off))) ∧
        (rxError c l f.data f.fcsOk = none → v.steer l f.data = .ctrlOther →
          exec (.completePacketNotice t l f) s = .next (((w.bump (npCtr l 0)).addCnt (npCtr l 8) n).bump (npCtr l 80))) ∧
        (rxError c l f.data f.fcsOk = none → v.steer l f.data = .ptp →
          exec (.completePacketNotice t l f) s = .next (((w.bump (npCtr l 0)).addCnt (npCtr l 8) n).bump (npCtr l 104))) ∧
        (rxError c l f.data f.fcsOk = none → v.steer l f.data = .fwd → s.mediaOn = false →
          exec (.completePacketNotice t l f) s =
            .next ((((w.bump (npCtr l 0)).addCnt (npCtr l 8) n).bump (npCtr l 88)).bump (ctr 0x0D 0 96)))))

/-- 01 R54, 05 R211, R212: RTP of a known leg, accepted by every check its headers allow, becomes pending once CT_THRESH bytes of it are in
the loft; with no stream for its SSRC nothing of it is forwarded yet.  07 R318: when pool 0 has no room for it, it is refused whole. -/
def Obligations.CutThroughMakesPending : Prop :=
  ∀ (t l leg : Nat) (lg : Leg) (f : RxFrame) (s z v : State) (c : Option Tack) (ip : Ip), z = s.at t → s.upl l = true → s.mediaOn = true →
    (s.lport l).rx = none → (s.lport l).rxRefused = false → s.gens.switching = false → c = z.cfgOf s.gen → lpfld c l 26 2 ≠ 0 →
    v = z.seen (z.now - lpfld c l 26 2 * bytePs (modeOf s.gens.cur (l / 4))) s.gen →
    lpfld c l 26 2 ≤ f.data.length → rxError c l f.data true = none → v.steer l f.data = .fwd →
    (z.poolTakes 0 (cellsOf (headerLen f.data)) = false → exec (.cutThroughStart t l f) s =
      .next (((z.addCnt (poolCtr 0 32) (cellsOf (headerLen f.data))).bump pool0Ctr).modLport l (fun p => { p with rxRefused := true }))) ∧
    (z.poolTakes 0 (cellsOf (headerLen f.data)) = true → ip = parseIp f.data (parseEth f.data) → udpKind (udpData f.data ip) = .rtp →
    v.tombAt 0 (rxTuple l ip f.data) 0 = false → v.tombAt 1 (rxTuple l ip f.data) (be (udpData f.data ip) 8 4) = false →
    v.legBy (rxTuple l ip f.data) = some (leg, lg) → v.ingressBy leg (be (udpData f.data ip) 8 4) = none →
    ∃ u, exec (.cutThroughStart t l f) s = .next u ∧
      (u.lport l).rx = some {
        id := s.net.nextRx, gen := s.gen, firstIn := z.now - lpfld c l 26 2 * bytePs (modeOf s.gens.cur (l / 4))
        lenIn := headerLen f.data, bytePs := bytePs (modeOf s.gens.cur (l / 4)), auth := false, unknown := true } ∧
      (u.pool 0).level = (s.pool 0).level + cellsOf (headerLen f.data) ∧ u.net.nextRx = s.net.nextRx + 1 ∧
      u = { z with net := u.net, hosts := u.hosts, hostMem := u.hostMem, router := u.router, cnt := u.cnt })

/-- 05 R200, R213, R221: at a frame boundary of a port that is up, a waiting pause frame goes before every class; otherwise the frame that the
highest sending class offers starts, for as long as its bytes take; the end of a frame leaves the MAC free after 20 byte times, and a
control frame is counted unless it was cut. -/
def Obligations.FramesAreSent : Prop :=
  ∀ (t l : Nat) (s z : State), z = s.at t → l < 64 → s.power.mode ∉ [Mode.reset, .boot, .keep] →
    ((s.lport l).tx = none → (s.lport l).nextStart ≤ z.now → s.upl l = true →
      (∀ b rest, (s.lport l).ctl = b :: rest →
        ∃ u x, exec (.transmitFrameStart t l) s = .next u ∧ (u.lport l).tx = some x ∧ x.frame.data = b ∧ x.frame.kind = 8 ∧
          x.start = z.now ∧ x.frame.len = z.wireLen l (ctlQFrame z.now b) ∧
          x.ends = z.now + x.frame.len * bytePs (modeOf s.gens.cur (l / 4)) ∧ (u.lport l).ctl = rest ∧ u.objs = s.objs ∧ u.gens = s.gens) ∧
      (∀ c q ds f w, (s.lport l).ctl = [] → z.pick l = (some (c, q), ds) → (z.setDeficits ds).takeHead l c q = some (f, w) →
        w.stopped f = false →
        ∃ u x, exec (.transmitFrameStart t l) s = .next u ∧ (u.lport l).tx = some x ∧ x.cls = c ∧ x.frame.len = f.len ∧ x.start = z.now ∧
          x.ends = z.now + f.len * bytePs (modeOf s.gens.cur (l / 4)))) ∧
    (∀ x, (s.lport l).tx = some x → x.ends ≤ z.now → x.frame.pending = none →
      (∃ u, exec (.transmitFrameEnd t l) s = .next u ∧ (u.lport l).tx = none ∧
        (u.lport l).nextStart = x.ends + 20 * bytePs (modeOf s.gens.cur (l / 4))) ∧
      (x.frame.kind = 8 → s.net.hostWait = [] →
        ∃ u, exec (.transmitFrameEnd t l) s = .next u ∧ u = { z with net := u.net, cnt := u.cnt } ∧
          u.cnt = if x.stomped then s.cnt else (s.bump (npCtr l 136)).cnt))

/-- 07 R311, R317, R323: a head older than DROP_AGE_MS that is no HOST_TX leaves its direct queue, or the queue of its leg, its cells go back to its pool and the
yard counts it; a watermark latch whose notice is consumed is armed again below LOW_CELLS. -/
def Obligations.OldHeadsAreDropped : Prop :=
  ∀ (t l c k : Nat) (f : QFrame) (s z : State), z = s.at t → l < 64 → c < 8 →
    (s.direct l c = [f] → s.cls l c 12 2 ≠ 0 → f.kind ≠ 3 → f.enter + s.cls l c 12 2 * 1000 * us < z.now → f.pending = none →
      f.spilled = false → s.net.hostWait = [] →
      ∃ u, exec (.headAgeDrop t (8 * l + c)) s = .next u ∧ u.direct l c = [] ∧
        (u.pool f.pool).level = (s.pool f.pool).level - cellsOf f.len ∧
        u.cntOf (shCtr (l / 8) 0) = (s.cntOf (shCtr (l / 8) 0) + 1) % 2 ^ 64 ∧ u = { z with net := u.net, cnt := u.cnt }) ∧
    (∀ i leg, look s.objs.legs i = some leg → s.legq i = [f] → s.cls leg.lport leg.videoClass 12 2 ≠ 0 → f.kind ≠ 3 →
      f.enter + s.cls leg.lport leg.videoClass 12 2 * 1000 * us < z.now → f.pending = none → f.spilled = false → s.net.hostWait = [] →
      ∃ u, exec (.headAgeDrop t (512 + i)) s = .next u ∧ u.legq i = [] ∧
        (u.pool f.pool).level = (s.pool f.pool).level - cellsOf f.len ∧
        u.cntOf (shCtr (leg.lport / 8) 0) = (s.cntOf (shCtr (leg.lport / 8) 0) + 1) % 2 ^ 64 ∧ u = { z with net := u.net, cnt := u.cnt }) ∧
    (k < 16 → (s.pool k).latched = true → s.noticeDone k = true → (s.pool k).level < s.poolFld k 16 →
      exec (.watermarkRearm t k) s = .next (z.modPool k (fun p => { p with latched := false, notice := [] })))

/-- 05 R205, R229, R234: a provided port that has lock comes up 10 ms after its last fault; a port that is up goes down and counts it, and a
frame then in reception that it cuts; one that is down tells the condition it is in; uncorrectable codewords degrade its FEC until 400 whole
ticks without one; a retraining ends when each new port is up. -/
def Obligations.LinksRiseAndFall : Prop :=
  ∀ (t l n : Nat) (s z : State), z = s.at t → l < 64 →
    (provides s.gens.cur l = true → (s.lport l).up = false → (∀ a, (s.lport l).faultAt = some a → a + 10000 * us ≤ z.now) →
      bit (lookD s.power.ydStatus (yardOf l) 0) 16 = true →
      s.power.mode ∉ [Mode.reset, .boot, .keep, .safe] → (lookD s.net.phys (l / 4) {}).loop = 0 →
      ∃ u, exec (.logicalPortUp t l) s = .next u ∧ (u.lport l).up = true ∧ (∀ m, m ≠ l → u.lport m = s.lport m) ∧
        u = { z with net := u.net, hosts := u.hosts, hostMem := u.hostMem, router := u.router, cnt := u.cnt }) ∧
    (∀ cause : DownCause, provides s.gens.cur l = true → (s.lport l).up = true → (s.lport l).rx = none → (s.lport l).rxRefused = false →
      (s.lport l).tx = none → s.net.inRx.1 ≠ z.now →
      ∃ u, exec (.logicalPortDown t l cause) s = .next u ∧ (u.lport l).up = false ∧ (u.lport l).ctl = [] ∧
        (∀ m, m ≠ l → u.lport m = s.lport m) ∧ u.cntOf (npCtr l 176) = (s.cntOf (npCtr l 176) + 1) % 2 ^ 64 ∧
        (cause.cutRx = true → u.cntOf (npCtr l 16) = (s.cntOf (npCtr l 16) + 1) % 2 ^ 64) ∧
        u = { z with net := u.net, hosts := u.hosts, hostMem := u.hostMem, router := u.router, cnt := u.cnt }) ∧
    (∀ cause : DownCause, provides s.gens.cur l = true → (s.lport l).up = false →
      ∃ u, exec (.logicalPortDown t l cause) s = .next u ∧ (u.lport l).up = false ∧ (u.lport l).localFault = cause.localFault ∧
        (u.lport l).remoteFault = cause.remoteFault ∧ (u.lport l).amLock = !cause.lockLost ∧ (∀ m, m ≠ l → u.lport m = s.lport m) ∧
        u = { z with net := u.net }) ∧
    (∀ cw, provides s.gens.cur l = true → s.fld 4 (16 * (l / 4) + 4) 4 ≠ 0 → s.fld 4 (16 * (l / 4) + 4) 4 ≤ cw →
      (s.lport l).fecDegraded = false →
      ∃ u, exec (.fecDegradedSet t l cw) s = .next u ∧ u.lport l = { s.lport l with fecDegraded := true, fecLastBad := s.tick } ∧
        u = { z with net := u.net, hosts := u.hosts, hostMem := u.hostMem, router := u.router, cnt := u.cnt }) ∧
    ((s.lport l).fecDegraded = true → (s.lport l).fecLastBad + 401 ≤ s.tick →
      exec (.fecDegradedClear t l) s = .next (z.modLport l (fun p => { p with fecDegraded := false }))) ∧
    (∀ t0, n < 16 → (lookD s.net.phys n {}).retrainAt = some t0 →
      (∀ k < 4, provides s.gens.cur (4 * n + k) = true → (s.lport (4 * n + k)).up = true) →
      ∃ u, exec (.retrainEnd t n) s = .next u ∧ (lookD u.net.phys n {}) = { lookD s.net.phys n {} with retrainAt := none } ∧
        u = { z with net := u.net, hosts := u.hosts, hostMem := u.hostMem, router := u.router, cnt := u.cnt })

/-- 05 R217, R220, R221, 07 R322: the end of a pause ends its run and adds it to the paused time; a class paused longer than STORM_MS
is a storm once; a pool that rises above PAUSE_CELLS queues an XOFF to each guarded port and repeats it after half its time. -/
def Obligations.PausesAreKept : Prop :=
  ∀ (t l c k : Nat) (s z : State), z = s.at t → l < 64 →
    (∀ since, c < 8 → (s.lport l).pausedSince = [(c, since)] → since ≤ z.now → (∀ d < 8, z.paused l d = false) →
      ∃ u e, exec (.pauseTimerExpiry t l c) s = .next u ∧ (u.lport l).pausedSince = [] ∧ look (u.lport l).resumedAt c = some e ∧
        since ≤ e ∧ e ≤ z.now ∧ (s.cntOf (npCtr l (256 + 8 * c)) < 2 ^ 64 →
          u.cntOf (npCtr l (256 + 8 * c)) = (s.cntOf (npCtr l (256 + 8 * c)) + (e / 1000 - since / 1000)) % 2 ^ 64) ∧
        u = { z with net := u.net, cnt := u.cnt }) ∧
    (∀ since, look (s.lport l).pausedSince c = some since → lpfld s.gens.cur l 60 2 ≠ 0 → z.paused l c = true →
      since + lpfld s.gens.cur l 60 2 * 1000 * us < z.now → (s.lport l).stormSaid.contains c = false →
      ∃ u, exec (.pauseStorm t l c) s = .next u ∧ u.lport l = { s.lport l with stormSaid := c :: (s.lport l).stormSaid } ∧
        u.cntOf (npCtr l 200) = (s.cntOf (npCtr l 200) + 1) % 2 ^ 64) ∧
    (k < 16 → bit (s.fld 8 (48 * k + 20) 1) 0 = true → (s.pool k).pausing = false → s.poolFld k 24 < (s.pool k).level →
      ∃ u, exec (.poolLevelCheck t k) s = .next u ∧ (u.pool k).pausing = true ∧ (u.pool k).level = (s.pool k).level ∧
        (l ∈ s.guarded k → (u.lport l).ctl = (s.lport l).ctl ++ [s.ctlFrame l (s.fld 8 (48 * k + 21) 1) (lpfld s.gens.cur l 30 2)]) ∧
        (l ∉ s.guarded k → u.lport l = s.lport l) ∧ u = { z with net := u.net }) ∧
    (∀ t0, look (s.pool k).xoffAt l = some t0 → (s.pool k).pausing = true → s.poolFld k 24 < (s.pool k).level →
      (s.guarded k).contains l = true → t0 + lpfld s.gens.cur l 30 2 * 32 * bytePs (modeOf s.gens.cur (l / 4)) ≤ z.now →
      ∃ u, exec (.xoffRepeat t k l) s = .next u ∧
        (u.lport l).ctl = (s.lport l).ctl ++ [s.ctlFrame l (s.fld 8 (48 * k + 21) 1) (lpfld s.gens.cur l 30 2)] ∧
        look (u.pool k).xoffAt l = some z.now ∧ u = { z with net := u.net })

/-- 05 R222, R224: on a port that is sending no frame, the running gate list gives the gates of the entry in which its time base stands; a list
committed at a switch runs from its start and is counted. -/
def Obligations.GateListsRun : Prop :=
  ∀ (t l : Nat) (g : GateList) (s z : State), z = s.at t → l < 64 → (s.lport l).tx = none →
    ((s.lport l).gcl = some g →
      exec (.gateChange t l) s = .next (z.modLport l (fun p => { p with gates := (g.stateAt (z.tbNs g.tb)).2, gateIdx := (g.stateAt (z.tbNs g.tb)).1 }))) ∧
    ((s.lport l).gclNext = some g → g.start ≤ z.tbNs g.tb →
      ∃ u, exec (.gateListStart t l) s = .next u ∧ (u.lport l).gcl = some g ∧ (u.lport l).gclNext = none ∧
        (u.lport l).gates = (g.stateAt (z.tbNs g.tb)).2 ∧ (∀ m, m ≠ l → u.lport m = s.lport m) ∧
        u.cntOf (npCtr l 192) = (s.cntOf (npCtr l 192) + 1) % 2 ^ 64 ∧
        u = { z with net := u.net, hosts := u.hosts, hostMem := u.hostMem, router := u.router, cnt := u.cnt })

/-! ### Forwarding timers -/

/-- 06 R264, R267, R276, R277, R278, R280: a leg without reports for 1 s, or before its first, falls to EST_MIN; a switch point that does not
come for KEY_WAIT_MS requests a key picture; a gap that has stood for REORDER_MS is asked for; reports and feedback go out when they are due,
an SR for an egress stream, an RR with its report block for an ingress one, RFC 8888 or transport-wide feedback as FB_MODE says; a history
that kept to its budget for 400 ticks gets one class back. -/
def Obligations.ForwardingTimersAct : Prop :=
  ∀ (t leg i : Nat) (l : Leg) (x : Stream) (s z : State), z = s.at t → look s.objs.legs leg = some l →
    (∀ t0, l.lastReport = some t0 → t0 + 1000000 * us ≤ z.now → l.fbMode ≠ 2 → l.pinRate = 0 →
      exec (.estimateTimeout t leg) s =
        .next (z.modLeg leg (fun l => { l with est := s.fld 6 8 4, estFrac := 0, lastReport := none, estState := 2 }))) ∧
    (l.lastReport = none → l.fbMode ≠ 2 → l.pinRate = 0 →
      exec (.estimateTimeout t leg) s = .next (z.modLeg leg (fun l => { l with est := s.fld 6 8 4, estFrac := 0 }))) ∧
    (∀ w t0 r k src, look s.objs.streams i = some x → x.outKind = 0 → x.want = some w → x.wantSince = some t0 →
      look s.objs.rooms x.room = some r → s.streamAt x.source = some (k, src) → src.layering ≠ 2 → src.pliAt = none →
      t0 + r.tf 10 2 * 1000 * us ≤ z.now →
      ∃ u y, exec (.keyWaitExpiry t i) s = .next u ∧ look u.objs.streams k = some y ∧ y.pliAt = some z.now) ∧
    (∀ g, look s.objs.streams i = some x → x.egress = false → x.gaps = [g] → g.tries = 0 → 0 < s.fld 6 24 1 →
      g.seen + s.fld 6 22 2 * 1000 * us ≤ z.now →
      ∃ u y, exec (.nackSend t i) s = .next u ∧ look u.objs.streams i = some y ∧ y.gaps = [{ g with tries := 1, last := z.now }]) ∧
    (z.now < s.rtcpDue l → exec (.rtcpReportTimer t leg) s = .next z) ∧
    (s.streamsOf leg = [(i, x)] → s.rtcpDue l ≤ z.now →
      (x.egress = true → ∃ k, k ≤ 65536 ∧ exec (.rtcpReportTimer t leg) s = .next
        ((({ z with free := s.free + 1 } : State).modLeg leg (fun l => { l with rtcpAt := z.now, rtcpFrac := k })).sendRtcp leg
          (rtcpHead 0 200 6 ++ beBytes 4 x.ssrc ++ z.ntp ++ beBytes 4 (x.lastOutTs % 2 ^ 32) ++ beBytes 4 (x.packets % 2 ^ 32) ++
            beBytes 4 (x.bytes % 2 ^ 32)))) ∧
      (x.egress = false → ∃ k own, k ≤ 65536 ∧ exec (.rtcpReportTimer t leg) s = .next
        (((({ z with free := s.free + 2 } : State).modLeg leg (fun l => { l with rtcpAt := z.now, rtcpFrac := k })).modStream i
          Stream.nextReport).sendRtcp leg (rtcpHead 1 201 7 ++ beBytes 4 own ++ x.reportBlock z.now)))) ∧
    (s.streamsOf leg = [(i, x)] → x.egress = false → l.fbAt + s.fld 6 30 2 * 1000 * us ≤ z.now →
      (l.fbMode = 0 → ∃ own b, b = beBytes 4 own ++ x.ccBlock z.now ++ beBytes 4 (midNtp z.ntp) ∧
        exec (.feedbackTimer t leg) s = .next (((({ z with free := s.free + 1 } : State).modLeg leg (fun l => { l with fbAt := z.now })).modStream i
          Stream.fbDone).sendRtcp leg (rtcpHead 11 205 (b.length / 4) ++ b))) ∧
      (l.fbMode = 1 → ∃ own b, b = beBytes 4 own ++ beBytes 4 x.ssrc ++ l.twFeedback ∧
        exec (.feedbackTimer t leg) s = .next (((({ z with free := s.free + 1 } : State).modLeg leg (fun l => { l with fbAt := z.now })).modLeg leg
          Leg.twDone).sendRtcp leg (rtcpHead 15 205 (b.length / 4) ++ b)))) ∧
    (0 < s.objs.shedLevel → 400 ≤ s.objs.shedUnder →
      ∃ u, exec (.historyShedRestore t) s = .next u ∧ u.objs = { s.objs with shedLevel := s.objs.shedLevel - 1, shedUnder := 0 } ∧
        u = { z with objs := u.objs, hosts := u.hosts, hostMem := u.hostMem, router := u.router, cnt := u.cnt })

/-! ### The Ostler and the stalls -/

/-- 01 R41-R44, R46, R47: an idle unit takes the first ready operation of its class; with every unit busy the operation of lowest priority below
the first ready one is marked; a stall gives up a marked operation, which keeps its ready time and is charged what it has used, the moving of
its context apart; a decode operation that reaches its budget ends, what it has made standing in its picture. -/
def Obligations.OperationsAreDispatched : Prop :=
  ∀ (t y cls : Nat) (o : Op) (s z : State), z = s.at t → y < 8 → cls < 4 → s.power.hold = none → s.mediaOn = true →
    (∀ u us rest, s.readyList y cls = o :: rest → s.runningOps y cls = [] → s.unitsOf y cls = u :: us →
      (∀ room block, o.kind ≠ .mix room block) → (∀ i b k n, o.kind ≠ .kernel i b k n) →
      ∃ w, exec (.operationDispatch t y cls) s = .next w ∧
        w.media.ops = s.media.ops.map (fun x => if x.id = o.id then
          { x with unit := some u, startAt := z.now, startClk := z.clkRead, dispatched := true } else x) ∧
        w = { z with media := w.media, cnt := w.cnt }) ∧
    (∀ v rest, cls = 0 → s.readyList y cls = o :: rest → (s.runningOps y cls).all (fun x => !x.marked) = true →
      (∀ u ∈ s.unitsOf y cls, ∃ x ∈ s.runningOps y cls, x.unit = some u) → victim (s.runningOps y cls) o.prio = some v →
      exec (.operationDispatch t y cls) s = .next (z.modOp v.id (fun x => { x with marked := true }))) ∧
    (∀ stall moved, s.media.ops.find? (fun x => x.cls == 0 && x.yard == stall / 6 && x.unit == some (stall % 6) && x.marked) = some o →
      ∃ w, exec (.stallYield t ⟨stall, moved⟩) s = .next w ∧
        w.media.ops = s.media.ops.map (fun x => if x.id = o.id then
          { x with unit := none, marked := false, charged := x.charged + z.cyclesOf o moved } else x) ∧
        w = { z with media := w.media, cnt := w.cnt }) ∧
    (∀ id k n share tg p, ∀ made : Recon, s.runningOp id = some o → o.kind = .decode k n share false → o.budget ≤ o.charged + z.cyclesOf o →
      s.media.past = [] → s.media.noSlot = [] → s.target k = some tg → tg.pic n = some p → 2 ≤ p.left →
      ∃ w q, exec (.watchdogOverrun t ⟨id, made⟩) s = .next w ∧ (∀ x ∈ w.media.ops, x.id ≠ o.id) ∧ (w.target k).bind (fun g => g.pic n) = some q ∧
        q = { p with left := p.left - 1, overrun := true, work := reconOver made (tg.lastRef n) (p.info.hdr.depth == 10) p.work } ∧
        (s.opView o = none → w = { z with media := w.media, cnt := w.cnt })) ∧
    (∀ id made, s.runningOp id = some o → o.charged + z.cyclesOf o < o.budget → exec (.watchdogOverrun t ⟨id, made⟩) s = .next z)

/-- 08 R337-R340, R345, R347, R349, R350, R357, R359, 04 R197: a picture of another layer or member, or one that is not due yet, changes nothing; a
sound picture that the target supports and that is due on an idle target is decoded in its shares; one that it does not support is void and leaves the target unsupported; the end of the last share of an undamaged picture
that lacks nothing confirms it, with the samples that its shares have made; a chain whose window has ended is void; a key request is repeated
until its tries have run out. -/
def Obligations.PicturesAreDecoded : Prop :=
  ∀ (t k : Nat) (tg : Target) (s z : State), z = s.at t → s.target k = some tg →
    (∀ (i : PicInfo), s.mediaOn = true → z.takesPicture tg i = false → exec (.pictureDue t k i) s = .next z) ∧
    (∀ (i : PicInfo) (codec : Nat), s.mediaOn = true → i.headersOk = true → z.takesPicture tg i = true →
      codec = ((look s.objs.streams (s.targetSource k (tg.onMember i))).map (·.codec)).getD 0 →
      (unsupportedCode codec tg i.hdr = 0 → tg.unsupported = false ∨ i.key = true → tg.needKey = false ∨ i.key = true → z.skips tg i = none →
        i.missing = [] → tg.pics = [] → tg.chains = [] → s.decoding k = false →
        ∃ u g q, exec (.pictureDue t k i) s = .next u ∧ u.target k = some g ∧ g.next = tg.next + 1 ∧ g.pics = [q] ∧ q.num = tg.next ∧
          q.info = i ∧ q.state = .decoding ∧ q.left = (sharesOf i (shareCount i (s.fld 9 12 4))).length ∧ q.lossy = false ∧
          g.unsupported = false ∧ g.member = (tg.onMember i).member) ∧
      (unsupportedCode codec tg i.hdr ≠ 0 → tg.pics = [] →
        ∃ u g q, exec (.pictureDue t k i) s = .next u ∧ u.target k = some g ∧ g.next = tg.next + 1 ∧ g.pics = [q] ∧ q.num = tg.next ∧
          q.state = .void ∧ g.unsupported = true)) ∧
    (∀ id o n share p, ∀ r : DecodeResult, s.runningOp id = some o → o.kind = .decode k n share false → r.cycles ≤ o.budget →
      s.media.past = [] → s.media.noSlot = [] → tg.pics = [p] → p.num = n → tg.chains = [] → p.left = 1 → r.writeClipped = 0 →
      r.poisoned = false → o.poisoned = false → r.syntaxError = false → p.clipped = false → p.poisoned = false → p.damaged = false →
      p.overrun = false → p.lossy = false → p.info.refLost = false → tg.refsVoid p = false →
      ∃ u g q, exec (.decodeComplete t id r) s = .next u ∧ u.target k = some g ∧ g.pics = [q] ∧ q.state = .confirmed ∧ q.num = n ∧
        q.frame = reconOver r.made (tg.lastRef n) (p.info.hdr.depth == 10) p.work) ∧
    (∀ c p, tg.chains = [c] → c.ends ≤ z.now → tg.pics = [p] → p.num ∈ c.members → p.state = .pending →
      ∃ u g q, exec (.repairWindowEnd t k) s = .next u ∧ u.target k = some g ∧ g.chains = [] ∧ g.pics = [q] ∧ q.state = .void) ∧
    (∀ n last, tg.keyReq = some (n, last) → last + s.fld 9 8 2 * 1000 * us ≤ z.now →
      ∃ u g, exec (.keyRepeat t k) s = .next u ∧ u.target k = some g ∧
        g = { tg with keyReq := if n = 0 then none else some (n - 1, z.now) })

/-! ### Composition, ladders and overlays -/

/-- 09 R375, R391, R396, R399, R400: a composed picture that is due takes its number and its boundary, and with an active rung its compose
operation becomes ready; the end of a composition makes it the last picture; the end of an encode settles the debt of its rung and takes it
out of the encodes under way; KEY_INTERVAL_S after the last key picture the next one is wanted; a rung without receivers goes to its lowest
rate, a fixed one to its highest. -/
def Obligations.CanvasesAreComposed : Prop :=
  ∀ (t room : Nat) (c : Canvas) (r : Room) (s z : State), z = s.at t → s.canvas room = some c → look s.objs.rooms room = some r →
    (∀ n k, c.dueAt s.tick = some n → s.mediaOn = true → k < c.rungs.length → s.rungActive room k = true →
      ∃ u d p, exec (.composedPictureReady t room) s = .next u ∧ u.canvas room = some d ∧ d.next = n + 1 ∧ d.pics = c.pics ++ [p] ∧ p.num = n ∧
        p.boundary = s.tickAt ∧
        (slotFree s.media.ops (s.nodePrio room 2) = true → u = { z with media := u.media, cnt := u.cnt } ∧
          ∃ o : Op, u.media.ops = s.media.ops ++ [o] ∧ o.kind = .compose room n ∧ o.cls = 2 ∧ o.yard = r.home ∧ o.unit = none)) ∧
    (∀ id cycles o n p, s.runningOp id = some o → o.kind = .compose room n → s.media.past = [] → s.media.noSlot = [] →
      (look (z.opSeen o).objs.rooms room).isSome = true → c.pics.find? (fun p => p.num == n) = some p →
      ∃ u d, exec (.composeComplete t id cycles) s = .next u ∧ u.canvas room = some d ∧ d.lastPic = n ∧ d.lastConcealed = p.concealed) ∧
    (∀ id o k n g e p, ∀ x : EncodeResult, s.runningOp id = some o → o.kind = .encode room k n → c.rungs[k]? = some g →
      g.enc.find? (fun e => e.num == n) = some e → c.pics.find? (fun p => p.num == n) = some p → x.poisoned = false → o.poisoned = false →
      x.cycles ≤ o.budget → s.media.past = [] → s.media.noSlot = [] → c.dependents k = [] →
      (∃ rm, look (z.opSeen o).objs.rooms room = some rm ∧
        encodeFits x g.codec g.profile (rungLevel g.codec g.profile g.w g.h c.fps ((z.opSeen o).rungFld (rm.tf 5 1) k 16 4)) e.key = true) →
      ∃ u d h, exec (.encodeComplete t id x) s = .next u ∧ u.canvas room = some d ∧ d.rungs[k]? = some h ∧
        h.enc = g.enc.filter (fun e => e.num != n) ∧
        h.debt = (bitBudget e.rate c.fps (layerWeight g.strct e.tid) e.weight e.key g.debt).1 + x.bits -
          (bitBudget e.rate c.fps (layerWeight g.strct e.tid) e.weight e.key g.debt).2.1) ∧
    (∀ k g t0, c.rungs[k]? = some g → g.lastKey = some t0 → s.rungFld (r.tf 5 1) k 10 2 ≠ 0 →
      t0 + s.rungFld (r.tf 5 1) k 10 2 * 1000000 * us ≤ z.now →
      exec (.keyIntervalExpiry t room k) s = .next (z.modRung room k (fun g => { g with wantKey := true }))) ∧
    (∀ g, c.rungs = [g] → s.rungActive room 0 = true → s.fld 0x0B 8 2 ≠ 0 → s.tick % s.fld 0x0B 8 2 = 0 → g.rateTick ≠ s.tick →
      ∃ u d h, exec (.rungRateUpdate t room) s = .next u ∧ u.canvas room = some d ∧ d.rungs = [h] ∧ h.rateTick = s.tick ∧
        (bit (s.rungFld (r.tf 5 1) 0 2 1) 2 = true → h.rate = s.rungFld (r.tf 5 1) 0 16 4) ∧
        (bit (s.rungFld (r.tf 5 1) 0 2 1) 2 = false → s.legsOf room = [] → h.rate = s.rungFld (r.tf 5 1) 0 12 4) ∧ u = { z with media := u.media })

/-- 09 R386: a poll that reads an entry with a new number, its fields right and room in the cache, begins the copy of its bitmap; the end
of the copy makes it the one that is drawn and writes its number to the entry's ACK; a copy that fails is counted, and nothing is drawn. -/
def Obligations.OverlaysAreCopied : Prop :=
  ∀ (t host table index : Nat) (s z : State), z = s.at t →
    (∀ (e : OverlayRead) (o : Overlay) room, s.fld 0x0A 64 2 ≠ 0 → s.tick % s.fld 0x0A 64 2 = 0 → s.ovlRoom e.table e.index = some (room, e.host) →
      (s.ovlAddr e.host e.table e.index).isSome = true → s.running e.host = true → e.ok = true → le e.data 0 4 = le e.data 28 4 →
      o = lookD s.media.overlays (ovlKey e.host e.table e.index) {} → o.seq ≠ some (le e.data 0 4) → o.copying = none →
      ovlOk e.table e.data = true → le e.data 4 1 ≠ 0 →
      s.ovlUsed + le e.data 20 2 * le e.data 18 2 ≤ s.fld 0x0A 66 2 * 1048576 →
      ∃ u, exec (.overlayPoll t [e]) s = .next u ∧ look u.media.overlays (ovlKey e.host e.table e.index) =
          some { o with
            copying := some (le e.data 0 4), newBytes := le e.data 20 2 * le e.data 18 2, newDrawn := true
            newBitmap := some (bitmapOf e.data) } ∧
        u = { z with media := u.media, cnt := u.cnt }) ∧
    (∀ (o : Overlay) seq a (data : Bytes), (s.host host).canIssue = true → look s.media.overlays (ovlKey host table index) = some o → o.copying = some seq → s.ovlAddr host table index = some a →
      s.running host = true →
      ∃ u, exec (.overlayCopyDone t host table index (.ok data)) s = .next u ∧ u.hostRead host (a + 32) 4 = leBytes 4 seq ∧
        look u.media.overlays (ovlKey host table index) =
          some { o with
            seq := some seq, copying := none, bytes := o.newBytes, drawn := o.newDrawn, ack := seq
            bitmap := o.newBitmap.map (fun b => { b with data }), newBitmap := none } ∧
        u = { z with media := u.media, hostMem := u.hostMem }) ∧
    (∀ (o : Overlay) seq status, look s.media.overlays (ovlKey host table index) = some o → o.copying = some seq →
      ∃ u x, exec (.overlayCopyDone t host table index (.fail status)) s = .next u ∧
        look u.media.overlays (ovlKey host table index) = some x ∧ x.drawn = false ∧ x.copying = none ∧ x.seq = o.seq ∧
        u.cntOf (hpCtr host 112) = (s.cntOf (hpCtr host 112) + 1) % 2 ^ 64)

/-- 10 R430, R432, R433, R446-R449, 02 R122: a decode of a block within its budget is followed by its jitter buffer, of 1,250 cycles at four
times its charge; after its up-bridge the block of an input without a kernel is there for the mix; the encode of a mix frame advances its number
and timestamp; a mix takes the inputs of its block and leaves its ramps 120 samples on; a mix control entry that is accepted becomes the setting
of its leg and is answered, and a read of one that fails is counted and changes no setting. -/
def Obligations.BlocksAreMixed : Prop :=
  ∀ (t : Nat) (s z : State), z = s.at t →
    (∀ id o i block kd x r m, ∀ res : ThymeResult, s.runningOp id = some o → o.kind = .codec i block kd → res.cycles ≤ o.budget →
      s.media.past = [] → look (z.opSeen o).objs.streams i = some x → look (z.opSeen o).objs.rooms x.room = some r → s.mixOf x.room = some m →
      (kd = 0 → ∃ u p, exec (.thymeOperationComplete t id res) s = .next u ∧ p ∈ u.media.ops ++ u.media.noSlot ∧ p.kind = .codec i block 1 ∧
        p.cls = 1 ∧ p.budget = 5000 ∧ p.unit = none) ∧
      (kd = 2 → m.inKernel = 0 → ∃ u n, exec (.thymeOperationComplete t id res) s = .next u ∧ u.mixOf x.room = some n ∧
        ({ stream := i, block, samples := res.samples } : MixIn) ∈ n.inDone) ∧
      (kd = 4 → ∀ l q, look (z.opSeen o).objs.legs x.leg = some l → look s.media.mixOuts i = some q → q.begun = true → x.exhausted = false →
        q.seq < 2 ^ 48 →
        ∃ u, exec (.thymeOperationComplete t id res) s = .next u ∧
          look u.media.mixOuts i = some { q with seq := q.seq + 1, ts := (q.ts + q.frameBlocks * x.clock / 400) % 2 ^ 32 })) ∧
    (∀ id o room block m r, ∀ res : MixResult, s.runningOp id = some o → o.kind = .mix room block → s.media.past = [] → s.mixOf room = some m →
      look (z.opSeen o).objs.rooms room = some r →
      ∃ u n, exec (.mixComplete t id res) s = .next u ∧ u.mixOf room = some n ∧ n.ramps = m.ramps.map (fun r => { r with left := r.left - 120 }) ∧
        n.taken = m.taken.filter (fun p => p.block != block) ∧ n.active = m.active ∧ n.rows = m.rows) ∧
    (∀ (e : MixCtlRead) l r m, s.fld 0x0C 32 2 ≠ 0 → s.tick % s.fld 0x0C 32 2 = 0 → look s.objs.legs e.leg = some l →
      look s.objs.rooms l.room = some r → s.mixOf l.room = some m → s.fld 0x0C (8 * r.owner) 8 ≠ 0 → s.running r.owner = true →
      (e.ok = true → (s.host r.owner).canIssue = true → le e.data 0 4 ≠ 0 → le e.data 0 4 = le e.data 120 4 → le e.data 0 4 ≠ l.mixSeq →
        z.ctlStatus e.leg l e.data = 0 →
        ∃ u, exec (.mixControlPoll t [e]) s = .next u ∧
          u.hostRead r.owner (s.fld 0x0C (8 * r.owner) 8 + 128 * e.leg + 112) 5 = leBytes 4 (le e.data 0 4) ++ [0] ∧
          look u.objs.legs e.leg = some { l with
            mixSeq := le e.data 0 4
            mix := { inGain := sgn 16 (le e.data 4 2), outGain := sgn 16 (le e.data 6 2), pin := bit (le e.data 8 1) 0
                     hearSelf := bit (le e.data 8 1) 1, nodes := ctlNodes e.data (le e.data 9 1) } }) ∧
      (e.ok = false → exec (.mixControlPoll t [e]) s = .next (z.hostFailed r.owner e.status)))

/-! ### Time bases -/

/-- 12 R517, R518, R519: a time base takes the messages of its port and domain: an unacceptable Announce is counted and an acceptable one entered
among the foreign masters; a Delay_Resp of the master that answers its request gives the newest of 8 delays; a one-step Sync of the master, once there
is a delay, drives the servo and the lock once; a message that it sends takes the next sequenceId of its type. -/
def Obligations.TimeBasesTakeMessages : Prop :=
  ∀ (t l rx n : Nat) (frame : Bytes) (m : PtpMsg) (s z : State), z = s.at t → n < 4 → s.tbPtp n = true → s.tbLport n = l →
    readPtp frame = some m → s.tbDomain n = m.domain → (∀ k, k < n → s.tbPtp k = true → s.tbLport k = l → s.tbDomain k ≠ m.domain) →
    (m.kind = ptAnnounce → s.gmAccepts n m.src = false →
      exec (.ptpMessageReceive t l ⟨rx, frame⟩) s = .next (z.bump (tbCtr n 136))) ∧
    (m.kind = ptAnnounce → s.gmAccepts n m.src = true → m.src ≠ s.clockId n →
      ∃ u, exec (.ptpMessageReceive t l ⟨rx, frame⟩) s = .next u ∧
        (u.tb n).foreign = m.foreign (z.now :: (((((s.tb n).foreign.find? (fun f => f.src == m.src && f.port == m.port)).map (·.times)).getD []).take 3)) ::
          (s.tb n).foreign.filter (fun f => !(f.src == m.src && f.port == m.port)) ∧
        (∀ k, k ≠ n → u.tb k = s.tb k)) ∧
    (∀ t3 a, m.kind = ptDelayResp → s.tbP2p n = false → s.fromParent n m = true → m.answers = (s.clockId n, 1) →
      (s.tb n).reqSent = some (m.seq, some t3) → (s.tb n).msDiff = some a →
      ∃ u, exec (.ptpMessageReceive t l ⟨rx, frame⟩) s = .next u ∧
        u.tb n = { s.tb n with reqSent := none, delays := ((a + (m.time 0 * 65536 - t3 - m.correction)) / 2 :: (s.tb n).delays).take 8 } ∧
        (∀ k, k ≠ n → u.tb k = s.tb k)) ∧
    (∀ o : Int, m.kind = ptSync → m.twoStep = false → s.fromParent n m = true → (s.tb n).delays ≠ [] → (s.tb n).state ≠ .free →
      (s.tb n).state ≠ .master → (s.tb n).setAt = none →
      o = ((z.tbAt n (min rx z.now) / 2 ^ 16 : Nat) : Int) - rxLatency (s.tbMode n) - m.time 0 * 65536 - m.correction - (s.tb n).pathDelay -
        s.tbSFld n 40 4 * 65536 →
      ∃ u, exec (.ptpMessageReceive t l ⟨rx, frame⟩) s = .next u ∧ (u.tb n).offset = some o ∧ (u.tb n).offsetAt = z.now ∧
        (u.tb n).f = (servoStep o (s.tb n).fInt (s.tbFld n 16 2) (s.tbFld n 18 1) (s.tbFld n 12 4)).1 ∧
        (u.tb n).fInt = (servoStep o (s.tb n).fInt (s.tbFld n 16 2) (s.tbFld n 18 1) (s.tbFld n 12 4)).2.1 ∧
        (u.tb n).state = (lockStep (s.tb n).state (s.tb n).lockRun o (s.tbFld n 20 4) (s.tbFld n 24 4) (s.tbFld n 19 1)).1 ∧
        u.tbVal n = z.tbVal n ∧ (∀ k, k ≠ n → u.tb k = s.tb k)) ∧
    (∀ k q, s.ptpSends n k = true → q = lookD (s.tb n).seqs (ptpCode k) 0 →
      ∃ u, exec (.ptpMessageTransmit t n k) s = .next u ∧
        u.tb n = { s.tb n with
          seqs := put (s.tb n).seqs (ptpCode k) ((q + 1) % 65536)
          reqSent := if k = .delayReq ∨ k = .pdelayReq then some (q, none) else (s.tb n).reqSent } ∧
        (∀ j, j ≠ n → u.tb j = s.tb j) ∧ u.objs = s.objs ∧ u.gens = s.gens)

/-- 12 R510, R518, R519: LOCKED without an offset for its time enters HOLDOVER, and HOLDOVER_MS in it ends in ACQUIRING; f clamped for 1 s is
slew-limited; without Announces and without another foreign master a role 2 port becomes MASTER with f at 0, and a role 1 port listens, out of LOCKED in HOLDOVER;
the loss and the return of the reference step no time base. -/
def Obligations.TimeBasesHoldOver : Prop :=
  ∀ (t n : Nat) (s z : State), z = s.at t → n < 4 →
    ((s.tb n).state = .locked → (s.tb n).offsetAt + (if s.tbRole n = 3 then 3000000000000 else 3 * s.syncPs n) ≤ z.now →
      ∃ u, exec (.holdoverEntry t n) s = .next u ∧ u.tb n = { s.tb n with state := .holdover, holdAt := z.now } ∧
        (∀ m, m ≠ n → u.tb m = s.tb m)) ∧
    ((s.tb n).state = .holdover → (s.tb n).holdAt + s.tbFld n 28 4 * 1000 * us ≤ z.now →
      ∃ u, exec (.holdoverEnd t n) s = .next u ∧ u.tb n = { s.tb n with state := .acquiring, lockRun := 0, since := z.now } ∧
        (∀ m, m ≠ n → u.tb m = s.tb m)) ∧
    (∀ c, (s.tb n).clampedSince = some c → c + 1000000000000 ≤ z.now → (s.tb n).slewSaid = false →
      ∃ u, exec (.slewLimitTimeout t n) s = .next u ∧ u.tb n = { s.tb n with slewLimited := true, slewSaid := true } ∧
        (∀ m, m ≠ n → u.tb m = s.tb m)) ∧
    ((s.tb n).portState ≠ 6 → (s.tb n).lastAnnounce + s.tbFld n 7 1 * s.announcePs n ≤ z.now →
      (∀ f ∈ (s.tb n).foreign, (s.tb n).parent = some (f.src, f.port)) →
      (s.tbRole n = 2 → ∃ u, exec (.announceReceiptTimeout t n (s.tbLport n)) s = .next u ∧ (u.tb n).state = .master ∧ (u.tb n).f = 0 ∧
        (u.tb n).portState = 6 ∧ (∀ m, m ≠ n → u.tb m = s.tb m)) ∧
      (s.tbRole n = 1 → ∃ u, exec (.announceReceiptTimeout t n (s.tbLport n)) s = .next u ∧ (u.tb n).portState = 4 ∧ (u.tb n).parent = none ∧
        ((s.tb n).state = .locked → (u.tb n).state = .holdover ∧ (u.tb n).holdAt = z.now) ∧
        ((s.tb n).state ≠ .locked → (u.tb n).state = (s.tb n).state) ∧ (∀ m, m ≠ n → u.tb m = s.tb m))) ∧
    (s.power.refOk = true → ∃ u, exec (.referenceLoss t) s = .next u ∧ u.power = { s.power with refOk := false } ∧
      (∀ m < 4, (u.tb m).refFallback = true ∧ (u.tb m).dev.natAbs ≤ 50000 ∧ u.tbVal m = z.tbVal m)) ∧
    (s.power.refOk = false → ∃ u, exec (.referenceReturn t) s = .next u ∧
      (∀ m < 4, (u.tb m).refFallback = false ∧ (u.tb m).dev = 0 ∧ u.tbVal m = z.tbVal m) ∧
      u = { z with power := { s.power with refOk := true }, tbs := u.tbs })

/-- 12 R513, R518, R525, R526: a set of the seconds takes effect at the rollover, exactly, and leaves the nanoseconds; a 1PPS edge is stamped
and counted, one within 1 µs after another is ignored (16 R636), and the loss of the input is said once; the output rises at its second, and falls PPS_WIDTH_MS later as TBn measures it. -/
def Obligations.SecondsAndPulses : Prop :=
  ∀ (t n : Nat) (s z : State), z = s.at t → n < 4 →
    (∀ v from_, (s.tb n).setSec = some (v, from_) → from_ < z.tbNs n / 1000000000 →
      ∃ u, exec (.secondsSet t n) s = .next u ∧ u.tbSec n = v % 2 ^ 48 ∧ u.tbNanos n = z.tbNanos n ∧ u.tbFrac n = z.tbFrac n ∧
        (u.tb n).setSec = none ∧ (u.tb n).setAt = some z.now) ∧
    (bit (s.tbFld n 11 1) 2 = true → s.tbRole n ≠ 3 → (∀ a, (s.tb n).ppsEdge = some a → a + us < z.now) →
      ∃ u, exec (.ppsInputEdge t n) s = .next u ∧ u.tb n = { s.tb n with
        ppsLast := some (z.tbVal n), ppsLastAt := some z.now, ppsLost := false, ppsEdge := some z.now } ∧
        u = { z with tbs := u.tbs, cnt := (z.bump (tbCtr n 160)).cnt }) ∧
    (∀ a, bit (s.tbFld n 11 1) 2 = true → (s.tb n).ppsEdge = some a → z.now ≤ a + us →
      exec (.ppsInputEdge t n) s = .next (z.modTb n (fun tb => { tb with ppsEdge := some z.now }))) ∧
    (∀ a, s.tbRole n = 3 → (s.tb n).ppsLost = false → (s.tb n).ppsLastAt = some a → a + 1500000000000 ≤ z.now →
      ∃ u, exec (.ppsInputLoss t n) s = .next u ∧ u.tb n = { s.tb n with ppsLost := true } ∧ (∀ m, m ≠ n → u.tb m = s.tb m)) ∧
    (s.tbFld n 48 2 ≠ 0 → (s.tb n).ppsOut = false → z.ppsDue n = true →
      exec (.ppsOutputRise t n) s = .next (z.modTb n (fun tb => { tb with ppsOut := true, ppsRise := z.tbNs n }))) ∧
    ((s.tb n).ppsOut = true → (s.tb n).ppsRise + s.tbFld n 48 2 * 1000000 ≤ z.tbNs n →
      exec (.ppsOutputFall t n) s = .next (z.modTb n (fun tb => { tb with ppsOut := false })))

/-! ### DRAM -/

/-- 13 R550, R551, R554: a refresh that is due out of KEEP is owed up to the limit, the next one tREFI later, and a batch issues what is owed; the
doubled request and 64 clean reads switch the refresh mode; a sensor reading is kept, and the first at 90 °C asserts SMBALERT_N; a command error is
noted and counted when the retry succeeds, and when it fails the lines it was to write are poisoned. -/
def Obligations.MemoryIsRefreshed : Prop :=
  ∀ (t c r : Nat) (s z : State), z = s.at t → c < 12 → r < 4 → (s.rank (4 * c + r)).inService = true →
    (s.power.mode ≠ .keep → (∀ d, (s.rank (4 * c + r)).due = some d → d ≤ z.now) → ∃ u, exec (.refreshDue t c r) s = .next u ∧
      (u.rank (4 * c + r)).owed = min ((s.rank (4 * c + r)).owed + 1) (s.oweLimit (s.rank (4 * c + r))) ∧
      (u.rank (4 * c + r)).due = some ((s.rank (4 * c + r)).due.getD z.now + (s.rank (4 * c + r)).tRefi) ∧
      (∀ k, k ≠ 4 * c + r → u.rank k = s.rank k) ∧ u = { z with dram := u.dram, cnt := u.cnt }) ∧
    (∃ u, exec (.refreshBatch t c r) s = .next u ∧ u.rank (4 * c + r) = { s.rank (4 * c + r) with owed := 0 } ∧
      (∀ k, k ≠ 4 * c + r → u.rank k = s.rank k) ∧ u = { z with dram := u.dram, cnt := (z.addCnt (mcCtr c 40) (s.rank (4 * c + r)).owed).cnt }) ∧
    (∃ u, exec (.mr4Read t c r true) s = .next u ∧ (u.rank (4 * c + r)).mode2x = true ∧ (u.rank (4 * c + r)).cleanMr4 = 0) ∧
    (s.sensorOf (4 * c + r) < 85 → exec (.mr4Read t c r false) s = .next (z.modRank (4 * c + r) (fun x => { x with cleanMr4 := x.cleanMr4 + 1 }))) ∧
    ((s.rank (4 * c + r)).mode2x = true → 64 ≤ (s.rank (4 * c + r)).cleanMr4 → s.sensorOf (4 * c + r) < 85 →
      exec (.refreshModeReturn t c r) s = .next (z.modRank (4 * c + r) (fun x => { x with mode2x := false, cleanMr4 := 0 }))) ∧
    (∀ (d : Nat) (temp : Int), d < 2 → (lookD s.dram.dimms (2 * c + d) {}).state = 1 →
      ∃ u, exec (.dimmSensorRead t c d temp) s = .next u ∧ (lookD u.dram.dimms (2 * c + d) {}).sensor = temp ∧
        (∀ n, n ≠ 2 * c + d → lookD u.dram.dimms n {} = lookD s.dram.dimms n {}) ∧
        (90 ≤ temp → (lookD s.dram.dimms (2 * c + d) {}).hotSaid = false → u.pins.alert = true)) ∧
    (∀ reads writes, ∃ u, exec (.caParityError t c r false reads writes) s = .next u ∧ (∀ l ∈ writes, l ∈ u.dram.poison) ∧
      (reads = [] → (u.rank (4 * c + r)).parityTicks = s.tick :: recent s.tick (s.rank (4 * c + r)).parityTicks)) ∧
    (∀ reads writes, (recent s.tick (s.rank (4 * c + r)).parityTicks).length + 1 < s.fld 0x0E 8 2 →
      exec (.caParityError t c r true reads writes) s =
        .next ((z.modRank (4 * c + r) (fun x => { x with parityTicks := s.tick :: recent s.tick x.parityTicks })).bump (mcCtr c 72)))

/-- 13 R553, R555, R556, R559, R562, R567, R575: a corrected read is remembered for its rank, an uncorrectable one that no consumer asked for
poisons its line, and a line that reads clean is poisoned no more; the row and the urgency of a read are counted; a stream whose
context is poisoned is deleted at a boundary; a queued rank migrates to its spare, which takes its place in the set at the end; the patrol
advances line by line; a rank that a RESTORE has swept is a spare. -/
def Obligations.MemoryIsRepaired : Prop :=
  ∀ (t k : Nat) (s z : State), z = s.at t →
    (∀ client line obj item, z.servedBy line = some k →
      (∀ acc cut, ∃ u, exec (.dramRead t client line obj item ⟨acc, .clean, cut⟩) s = .next u ∧ u.lineBad line = false ∧
        u = { z with dram := u.dram, cnt := (z.issued (k / 4) client acc).cnt }) ∧
      (∀ acc cut, ∃ u, exec (.dramRead t client line obj item ⟨acc, .corrected, cut⟩) s = .next u ∧
        (u.rank k).ceTicks = s.tick :: recent s.tick (s.rank k).ceTicks ∧ u.dram.poison = s.dram.poison) ∧
      (∀ acc cut, 2 ^ 27 ≤ line → s.consumer client line = none →
        ∃ u, exec (.dramRead t client line obj item ⟨acc, .uncorrectable, cut⟩) s = .next u ∧ line ∈ u.dram.poison ∧
          (u.rank k).poisonTick = some s.tick)) ∧
    (∀ i x, max s.now t = s.tickAt → s.objs.poisonDue = [(2, i)] → look s.objs.streams i = some x →
      ∃ u, exec (.contextPoisonDelete t) s = .next u ∧ look u.objs.streams i = none ∧ u.objs.poisonDue = []) ∧
    (∀ j, s.dram.migration = none → s.power.mode ≠ .keep → s.dram.queue = [k] → s.spareFor k = some j →
      ∃ u, exec (.migrationStart t) s = .next u ∧ u.dram.migration = some { src := k, dst := j, startAt := z.now, mbps := s.migRate } ∧
        u.dram.queue = [] ∧ (u.rank k).state = .migrating ∧ (∀ i, i ≠ k → u.rank i = s.rank i) ∧ u = { z with dram := u.dram }) ∧
    (∀ m, s.dram.migration = some m → m.src ≠ m.dst → gibBytes (s.rank m.src).gib ≤ z.watermark →
      ∃ u, exec (.migrationComplete t) s = .next u ∧ u.dram.migration = none ∧ (u.rank m.src).state = .retired ∧
        (u.rank m.dst).state = .spareInUse ∧ (u.rank m.dst).set = (s.rank m.src).set ∧
        u.dram.sets = s.dram.sets.map (fun (a, l) => (a, l.map (fun r => if r = m.src then m.dst else r)))) ∧
    ((s.patrolRanks.map (fun x => gibLines x.2)).sum ≠ 0 → s.power.mode ≠ .keep →
      exec (.patrolScrub t .clean) s = .next ((z.bump (faCtr 16)).modDram (fun d => { d with
        scrubPos := (d.scrubPos % (s.patrolRanks.map (fun x => gibLines x.2)).sum + 1) % (s.patrolRanks.map (fun x => gibLines x.2)).sum }))) ∧
    (∀ c r v, s.dram.services = [v] → v.left = [4 * c + r] → (s.rank (4 * c + r)).holds = false →
      ∃ u, exec (.rankSweepDone t c r true true) s = .next u ∧ (u.rank (4 * c + r)).state = .spare ∧ (u.rank (4 * c + r)).set = 0xFF ∧
        u.dram.services = [])

/-! ### Modes, reset and supplies -/

/-- 14 R577-R585: a request that nothing stands against is accepted for a boundary 100 µs later, and a refused one leaves its reason; a change
whose time has come takes effect at a boundary; KEEP_N requests KEEP and, as the model has it for STANDBY, the return from it; a decode operation that
outlives the wait is ended; the exit from KEEP begins when it is due, and the mode before KEEP is resumed at a later boundary; DRAIN deletes
the rooms that are left and ends in STANDBY; SAFE takes its reason and SMBALERT_N. -/
def Obligations.ModesChange : Prop :=
  ∀ (t : Nat) (s z : State), z = s.at t →
    (∀ p value, s.barOpen p = true → s.isOwner p = true → s.power.mode ∉ [Mode.reset, .boot] →
      ∃ u, exec (.modeRequest t p value) s = .next u ∧ u.power.reqResult = z.requestResult (modeOfCode (bits value 2 0)) ∧
        u.power.pend = (if z.requestResult (modeOfCode (bits value 2 0)) = 0 then some (modeOfCode (bits value 2 0), z.now + 100 * us) else s.power.pend) ∧
        u.power.mode = s.power.mode ∧ u = { z with power := u.power }) ∧
    (∀ dest eff, s.power.pend = some (dest, eff) → z.modeBoundary = true → eff ≤ s.tickAt → s.power.mode ≠ .keep →
      ∃ u, exec (.modeChange t) s = .next u ∧ u.power.mode = dest ∧ u.power.prev = s.power.mode ∧ u.power.pend = none ∧
        (dest = .keep → u.power.keepFrom = s.power.mode) ∧ (dest = .drain → u.power.drainTick = s.tick)) ∧
    (s.power.mode ∉ [Mode.reset, .boot] → ∃ u, exec (.keepNFall t) s = .next u ∧ u.power.keepN = false ∧
      u.power.reqResult = { z with power := { s.power with keepN := false } }.requestResult .keep ∧
      u.power.pend = (if u.power.reqResult = 0 then some (.keep, z.now + 100 * us) else s.power.pend)) ∧
    (s.power.mode = .keep → s.power.pend = none → s.power.keepFrom = .standby → s.fld 0x0E 0 4 ≤ s.capGib →
      ∃ u, exec (.keepNRise t) s = .next u ∧ u.power.keepN = true ∧ u.power.reqResult = 0 ∧ u.power.pend = some (.standby, z.now + 100 * us)) ∧
    (∀ o k n share tg p, s.opView o = none → s.power.mode = .keep → s.power.keepAt + s.fld 0x0F 12 2 * 1000 * us ≤ z.now → s.media.ops = [o] → s.media.noSlot = [] →
      o.unit.isSome = true → o.kind = .decode k n share false → s.target k = some tg → tg.pic n = some p → 2 ≤ p.left →
      ∃ u, exec (.keepWaitExpiry t) s = .next u ∧ u.media.ops = []) ∧
    (∀ dest eff, s.power.pend = some (dest, eff) → s.power.mode = .keep → s.power.keepExit = none → eff ≤ s.tickAt →
      ∃ u, exec (.keepExit t) s = .next u ∧ u.power = { s.power with keepExit := some z.now } ∧ u.flash = s.flash ∧ u.gens = s.gens) ∧
    (∀ dest eff e, s.power.pend = some (dest, eff) → s.power.mode = .keep → s.power.keepExit = some e → e < s.tickAt → eff ≤ s.tickAt →
      z.modeBoundary = true →
      ∃ u, exec (.modeChange t) s = .next u ∧ u.power.mode = s.power.keepFrom ∧ u.power.keepExit = none ∧ u.power.pend = none) ∧
    (s.power.mode = .drain → z.now = s.tickAt → s.power.drainTick + s.fld 0x0F 8 4 * 400 ≤ s.tick →
      ∃ u, exec (.drainTimeout t) s = .next u ∧ ∀ i, look u.objs.rooms i = none) ∧
    (∀ e, s.power.mode = .drain → z.modeBoundary = true → s.power.drainEmpty = some e → e < s.tick →
      ∃ u, exec (.drainEnd t) s = .next u ∧ u.power.mode = .standby ∧ u.power.prev = .drain) ∧
    (∀ reason cut, reason = 2 ∨ reason = 4 → s.power.mode ∉ [Mode.reset, .safe] →
      ∃ u, exec (.safeEntry t ⟨reason, cut⟩) s = .next u ∧ u.power.mode = .safe ∧ u.power.safeReason = reason ∧ u.power.pend = none ∧ u.pins.alert = true)

/-- 14 R586-R588, R591, R594, R597: each reset source takes the bridge to RESET with its bit of PWR_RSTCAUSE beside TRIP_SEEN, empties it, and
keeps an idle flash, its fuses and the host's memory; a port clears TRIP_SEEN; the sources are released; the straps are sampled 5 ms after the release of the sources, BOOT begins after 10 ms with ticks and time bases at 0 (that device
reset ends there is the model's reading of 12 R508 and R511, notes/assumptions/78.md), and BOOT ends in SERVICE where the strap asks for it or there
is no memory, else in STANDBY where no generation was chosen. -/
def Obligations.ResetsAndBoot : Prop :=
  ∀ (t : Nat) (s z : State), z = s.at t →
    (∀ (c : Instr) (cause : BitVec 9), (c, cause) ∈ [(Instr.pwrgoodLow t, 0x001#9), (Instr.resetNLow t, 0x008#9), (Instr.vcoreLow t 689, 0x002#9),
        (Instr.vsramLow t 779, 0x004#9), (Instr.walkoWatchdog t, 0x010#9), (Instr.thermalTrip t, 0x100#9)] → s.power.mode ≠ .reset →
      2 ≤ s.power.trip → s.flash.ops = [] →
      ∃ u, exec c s = .next u ∧ u.power.mode = .reset ∧ u.power.rstCause = (s.power.rstCause &&& 0x100#9) ||| cause ∧ u.flash.mem = s.flash.mem ∧
        u.flash.keyHash = s.flash.keyHash ∧ u.flash.fuseRb = s.flash.fuseRb ∧ u.hostMem = s.hostMem ∧ u.hosts = [] ∧ u.objs = {} ∧ u.gens = {} ∧ u.net = {} ∧ u.media = {} ∧ u.thyme = {} ∧ u.cnt = []) ∧
    (∀ p value, s.barOpen p = true → s.isOwner p = true → p < 4 → s.power.mode ∉ [Mode.reset, .boot] → value / 65536 = 0xB007 → value % 2 = 1 →
      s.flash.ops = [] →
      ∃ u, exec (.pwrResetWrite t p value) s = .next u ∧ u.power.mode = .reset ∧
        u.power.rstCause = (s.power.rstCause &&& 0x100#9) ||| 0x020#9 ||| BitVec.ofNat 9 (64 * p) ∧ u.flash.mem = s.flash.mem ∧
        u.flash.cfg = s.flash.cfg) ∧
    (∀ p, s.barOpen p = true → ∃ u, exec (.tripSeenClear t p) s = .next u ∧ u.power.rstCause = s.power.rstCause &&& 0x0FF#9 ∧
      u = { z with power := { s.power with rstCause := u.power.rstCause } }) ∧
    (s.power.mode = .reset → s.power.releaseAt = none → s.power.asserted.contains 2 = false →
      exec (.resetRelease t) s = .next { z with power := { s.power with asserted := [], releaseAt := some z.now, vaux := true } }) ∧
    (∀ r refsel svc addr, s.power.releaseAt = some r → s.power.mode = .reset → s.power.strapped = false → r + 5000 * us ≤ z.now →
      exec (.strapSample t refsel svc addr) s =
        .next { z with power := { s.power with strapped := true, refsel, svcBoot := svc, smbAddr := addr % 4 } }) ∧
    (∀ r facts, s.power.releaseAt = some r → s.power.mode = .reset → s.power.strapped = true → r + 10000 * us ≤ z.now →
      ∃ u, exec (.bootStart t facts) s = .next u ∧ u.power.mode = .boot ∧ u.power.prev = .reset ∧ u.tick = 0 ∧
        u.tickAt = z.now ∧ ∀ n < 4, u.tbVal n = 0) ∧
    (∀ failed refOk, s.power.mode = .boot → s.flash.stageErr = 0 →
      ∃ u, exec (.bootEnd t failed refOk) s = .next u ∧ u.power.booted = true ∧ u.power.refOk = refOk ∧ u.power.prev = .boot ∧
        (s.power.svcBoot = true ∨ s.capGib = 0 → u.power.mode = .service) ∧
        (s.power.svcBoot = false → s.capGib ≠ 0 → s.gens.chosen = none → u.power.mode = .standby))

/-- 14 R586, R591-R594: a rail below its warning level begins a hold, which ends 50 µs after the last rail is back, its time counted; a
temperature read counts the reads in a row at 110 °C and at 115 °C; a throttle level falls after 400 whole cool ticks, and a new level takes effect at
a boundary; the loss of VAUX clears TRIP_SEEN. -/
def Obligations.SuppliesAndHeat : Prop :=
  ∀ (t : Nat) (s z : State), z = s.at t →
    (∀ rail mv, s.power.mode ≠ .reset → (rail = 0 ∧ mv < s.fld 0x0F 4 2) ∨ (rail = 1 ∧ mv < s.fld 0x0F 6 2) →
      ∃ u, exec (.dipHoldStart t rail mv) s = .next u ∧ u.power.hold = some (s.power.hold.getD z.now) ∧ u.power.returnAt = none ∧
        u.power.lowMv = min s.power.lowMv mv ∧ u = { z with power := u.power }) ∧
    (s.power.hold.isSome = true → s.power.vcoreBelow = true → s.power.vsramBelow = false →
      ∃ u, exec (.returnLevelCrossing t 0) s = .next u ∧ u.power.vcoreBelow = false ∧ u.power.returnAt = some z.now ∧
        u = { z with power := u.power, free := s.free + 1 }) ∧
    (s.power.hold.isSome = true → s.power.vcoreBelow = false → s.power.vsramBelow = true →
      ∃ u, exec (.returnLevelCrossing t 1) s = .next u ∧ u.power.vsramBelow = false ∧ u.power.returnAt = some z.now) ∧
    (∀ a r, s.power.hold = some a → s.power.returnAt = some r → r + 50 * us ≤ z.now → s.cntOf (pwrCtr 48) < 2 ^ 64 →
      ∃ u, exec (.dipHoldEnd t) s = .next u ∧ u.power.hold = none ∧ u.power.lowMv = 0xFFFF ∧
        u.cntOf (pwrCtr 48) = (s.cntOf (pwrCtr 48) + (z.now - a) / 1000) % 2 ^ 64) ∧
    (∀ temps, s.power.mode ≠ .reset →
      ∃ u, exec (.temperatureRead t temps) s = .next u ∧ u.power.temps = temps.take 9 ∧
        u.power.trip = (if 115 ≤ u.power.tmax then s.power.trip + 1 else 0) ∧ u.power.crit = (if 110 ≤ u.power.tmax then s.power.crit + 1 else 0) ∧
        u.power.level = s.power.level ∧ u = { z with power := u.power, pins := u.pins }) ∧
    (∀ a, s.power.coolSince = some a → a + 400 < s.tick → 0 < s.power.level → s.power.levelNext = none →
      exec (.throttleDecrease t) s = .next (z.modPower (fun p => { p with levelNext := some (p.level - 1), coolSince := none }))) ∧
    (∀ l, s.power.levelNext = some l → z.now = s.tickAt →
      ∃ u, exec (.throttleLevelChange t) s = .next u ∧ u.power.level = l ∧ u.power.levelNext = none ∧
        (s.power.level = 0 → 0 < l → u.pins.alert = true) ∧ u.objs = s.objs) ∧
    (∃ u, exec (.vauxLoss t) s = .next u ∧ u.power = { s.power with rstCause := s.power.rstCause &&& 0x0FF#9, vaux := false, thermtrip := false } ∧
      u = { z with power := u.power })

/-! ### Thyme cores -/

/-- 11 R467, R468, R473, R486, R487: an accumulator operation leaves its exact result, brought within -2^39 to 2^39 - 1 once, beside its two
moves; AOV is set when that changed the result, and no other bit of SR changes.  NOPP makes its moves alone. -/
def Obligations.ThymeAccumulators : Prop :=
  ∀ (core : Nat) (ad sb2 : BitVec 2) (sa sb : BitVec 3) (n : BitVec 6) (xm ym : PMove) (s : State) (c d : Core) (q : Int), c = s.core core →
    q = 2 * (((c.gReg sa.toNat).extractLsb' 16 16).toInt * ((c.gReg sb.toNat).extractLsb' 16 16).toInt +
      ((c.gReg sa.toNat).extractLsb' 0 16).toInt * ((c.gReg sb.toNat).extractLsb' 0 16).toInt) →
    d = ((c.after 1 (c.pc + 1)).moves xm ym).2 → c.clean = true → (c.km = true → (c.moves xm ym).1 = 0) →
    (∀ i v, (i, v) ∈ [
        (Instr.thMpy core ad sa sb xm ym, (c.gReg sa.toNat).toInt * (c.gReg sb.toNat).toInt / 2 ^ 31),
        (Instr.thMac core ad sa sb xm ym, (c.acc ad.toNat).toInt + (c.gReg sa.toNat).toInt * (c.gReg sb.toNat).toInt / 2 ^ 31),
        (Instr.thMsu core ad sa sb xm ym, (c.acc ad.toNat).toInt - (c.gReg sa.toNat).toInt * (c.gReg sb.toNat).toInt / 2 ^ 31),
        (Instr.thDmpy core ad sa sb xm ym, q),
        (Instr.thDmac core ad sa sb xm ym, (c.acc ad.toNat).toInt + q),
        (Instr.thDmsu core ad sa sb xm ym, (c.acc ad.toNat).toInt - q),
        (Instr.thSqmac core ad sa xm ym, (c.acc ad.toNat).toInt + (c.gReg sa.toNat).toInt * (c.gReg sa.toNat).toInt / 2 ^ 31),
        (Instr.thAddg core ad sa xm ym, (c.acc ad.toNat).toInt + (c.gReg sa.toNat).toInt),
        (Instr.thSubg core ad sa xm ym, (c.acc ad.toNat).toInt - (c.gReg sa.toNat).toInt),
        (Instr.thLda core ad sa xm ym, (c.gReg sa.toNat).toInt), (Instr.thClra core ad xm ym, 0),
        (Instr.thAbsa core ad xm ym, |(c.acc ad.toNat).toInt|), (Instr.thNega core ad xm ym, -(c.acc ad.toNat).toInt),
        (Instr.thAddaa core ad sb2 xm ym, (c.acc ad.toNat).toInt + (c.acc sb2.toNat).toInt),
        (Instr.thAsh core ad n xm ym, if 0 ≤ n.toInt then (c.acc ad.toNat).toInt * 2 ^ n.toInt.toNat
          else (c.acc ad.toNat).toInt / 2 ^ (-n.toInt).toNat),
        (Instr.thAbsmax core ad sa xm ym, max (c.acc ad.toNat).toInt |(c.gReg sa.toNat).toInt|)] →
      c.goes core i 1 (c.pc + 1) = true →
      ∃ a : Acc, a.toInt = max (-2 ^ 39) (min v (2 ^ 39 - 1)) ∧
        exec i s = .next (s.setCore core (({ d with sr := if a.toInt = v then c.sr else setBit c.sr 4 true } : Core).setAcc ad.toNat a))) ∧
    (c.goes core (.thNopp core xm ym) 1 (c.pc + 1) = true → exec (.thNopp core xm ym) s = .next (s.setCore core d))

/-- 11 R470, R471, R474, R488: the two moves of an instruction of firmware read their sources first; the value of the Y load is kept when both
load one register; a store writes the value its register had; each pointer is then updated, a circular one within its buffer. -/
def Obligations.ThymeMoves : Prop :=
  (∀ (core : Nat) (xm ym : PMove) (s : State) (c : Core), c = s.core core → c.clean = true → c.km = false → core < 64 → c.ipend = 0#3 →
    xm.en = true → ym.en = true → ym.st = false →
    ∃ u e, exec (.thNopp core xm ym) s = .next u ∧ e = u.core core ∧ (∀ k, k ≠ core → u.core k = s.core k) ∧ u = { s with thyme := u.thyme } ∧
      e.gReg ym.reg.toNat = memRead 0#32 c.y (c.ptr (ym.ptr.toNat + 4)).toNat ∧
      (xm.st = false → xm.reg ≠ ym.reg → e.gReg xm.reg.toNat = memRead 0#32 c.x (c.ptr xm.ptr.toNat).toNat) ∧
      (xm.st = false → ∀ k, k ≠ xm.reg.toNat → k ≠ ym.reg.toNat → e.gReg k = c.gReg k) ∧ (xm.st = false → e.x = c.x) ∧
      (xm.st = true → memRead 0#32 e.x (c.ptr xm.ptr.toNat).toNat = c.gReg xm.reg.toNat ∧
        (∀ a, a ≠ (c.ptr xm.ptr.toNat).toNat → memRead 0#32 e.x a = memRead 0#32 c.x a) ∧ ∀ k, k ≠ ym.reg.toNat → e.gReg k = c.gReg k) ∧
      e.y = c.y ∧ e.sr = c.sr ∧ (∀ k, e.acc k = c.acc k) ∧ e.m = c.m ∧
      e.ptr xm.ptr.toNat = updatePtr xm.upd.toNat (c.ptr xm.ptr.toNat) (c.mod xm.ptr.toNat) ∧
      e.ptr (ym.ptr.toNat + 4) = updatePtr ym.upd.toNat (c.ptr (ym.ptr.toNat + 4)) (c.mod (ym.ptr.toNat + 4)) ∧
      ∀ k, k ≠ xm.ptr.toNat → k ≠ ym.ptr.toNat + 4 → e.ptr k = c.ptr k) ∧
  (∀ (upd k : Nat) (d : Int) (p : Ptr) (m : Word), (upd, d) ∈ [(1, 1), (2, (m.extractLsb' 0 14).toInt), (3, -1)] →
    updatePtr 0 p m = p ∧
    ((m.extractLsb' 30 2 = 0#2 ∨ m.extractLsb' 30 2 = 3#2) → updatePtr upd p m = p + BitVec.ofInt 14 d) ∧
    (m.extractLsb' 30 2 = 2#2 → upd ≠ 2 → updatePtr upd p m = p + BitVec.ofInt 14 d) ∧
    (m.extractLsb' 30 2 = 1#2 → (m.extractLsb' 16 14).toNat + 1 ≤ 2 ^ k → (∀ j < k, 2 ^ j < (m.extractLsb' 16 14).toNat + 1) →
      ((updatePtr upd p m).toNat : Int) = p.toNat - p.toNat % 2 ^ k + ((p.toNat % 2 ^ k : Nat) + d) % ((m.extractLsb' 16 14).toNat + 1 : Nat)) ∧
    (m.extractLsb' 30 2 = 2#2 → upd = 2 → 2 ^ k ≤ (m.extractLsb' 16 14).toNat + 1 → (m.extractLsb' 16 14).toNat + 1 < 2 ^ (k + 1) →
      (updatePtr upd p m).toNat / 2 ^ k = p.toNat / 2 ^ k ∧
      ∀ i < k, (updatePtr upd p m).toNat.testBit i =
        (revBits k (p.toNat % 2 ^ k) + revBits k (d % (2 ^ k : Nat)).toNat).testBit (k - 1 - i)))

/-- 11 R465, R473, R489: an ALU instruction writes its result to GD alone, and Z, N, C and V as its function gives them; CMP writes the flags of
the difference alone. -/
def Obligations.ThymeAlu : Prop :=
  ∀ (core : Nat) (gd gs1 : BitVec 4) (b : AluSrc) (s : State) (c : Core) (i : Instr) (x y r : Word) (cy v : Bool), c = s.core core →
    c.clean = true → x = c.gReg gs1.toNat → (∀ gs2, b = .reg gs2 → y = c.gReg gs2.toNat) → (∀ imm, b = .imm imm → y = imm.signExtend 32) →
    (i, r, cy, v) ∈ [
      (Instr.thAdd core gd gs1 b, x + y, decide (2 ^ 32 ≤ x.toNat + y.toNat), decide ((x + y).toInt ≠ x.toInt + y.toInt)),
      (Instr.thSub core gd gs1 b, x - y, decide (y.toNat ≤ x.toNat), decide ((x - y).toInt ≠ x.toInt - y.toInt)),
      (Instr.thAnd core gd gs1 b, x &&& y, false, false), (Instr.thOr core gd gs1 b, x ||| y, false, false),
      (Instr.thXor core gd gs1 b, x ^^^ y, false, false), (Instr.thShl core gd gs1 b, x <<< (y.toNat % 32), false, false),
      (Instr.thShr core gd gs1 b, x >>> (y.toNat % 32), false, false), (Instr.thSar core gd gs1 b, x.sshiftRight (y.toNat % 32), false, false),
      (Instr.thMul core gd gs1 b, BitVec.ofInt 32 (x.toInt * y.toInt), false, false),
      (Instr.thMulh core gd gs1 b, BitVec.ofInt 32 (x.toInt * y.toInt / 2 ^ 32), false, false),
      (Instr.thMin core gd gs1 b, BitVec.ofInt 32 (min x.toInt y.toInt), false, false),
      (Instr.thMax core gd gs1 b, BitVec.ofInt 32 (max x.toInt y.toInt), false, false),
      (Instr.thAdds core gd gs1 b, BitVec.ofInt 32 (max (-2 ^ 31) (min (x.toInt + y.toInt) (2 ^ 31 - 1))), decide (2 ^ 32 ≤ x.toNat + y.toNat),
        decide ((x + y).toInt ≠ x.toInt + y.toInt)),
      (Instr.thSubs core gd gs1 b, BitVec.ofInt 32 (max (-2 ^ 31) (min (x.toInt - y.toInt) (2 ^ 31 - 1))), decide (y.toNat ≤ x.toNat),
        decide ((x - y).toInt ≠ x.toInt - y.toInt)),
      (Instr.thCmp core gs1 b, x - y, decide (y.toNat ≤ x.toNat), decide ((x - y).toInt ≠ x.toInt - y.toInt))] →
    c.goes core i 1 (c.pc + 1) = true →
    ∃ sr : Word, srZ sr = (r == 0#32) ∧ srN sr = r.getLsbD 31 ∧ srC sr = cy ∧ srV sr = v ∧ (∀ k, 4 ≤ k → sr.getLsbD k = c.sr.getLsbD k) ∧
      exec i s = .next (s.setCore core (if i = .thCmp core gs1 b then { c.after 1 (c.pc + 1) with sr := sr }
        else ({ c.after 1 (c.pc + 1) with sr := sr } : Core).setG gd.toNat r))

/-- 11 R472: a direct load or store accesses address (Pn + OFF) mod 2^14, OFF signed, and updates no pointer.  (The moves of R461 and R490 give
what it loads and stores.) -/
def Obligations.ThymeDirect : Prop :=
  ∀ (core : Nat) (y : Bool) (g : BitVec 4) (pn : BitVec 3) (off : BitVec 14) (s : State) (c : Core) (a : Nat), c = s.core core →
    c.clean = true → (a : Int) = ((c.ptr pn.toNat).toNat + off.toInt) % 2 ^ 14 →
    (c.goes core (.thDirectLoad core y g pn off) 1 (c.pc + 1) = true → (c.km = true → (c.load y a).1 = 0) →
      exec (.thDirectLoad core y g pn off) s = .next (s.setCore core ((c.after 1 (c.pc + 1)).setG g.toNat (c.load y a).2))) ∧
    (c.km = false → (c.load y a).2 = memRead 0#32 (if y then c.y else c.x) a) ∧
    (c.goes core (.thDirectStore core y g pn off) 1 (c.pc + 1) = true → (c.km = true → kernelWrites y a = true) →
      ∃ e : Core, exec (.thDirectStore core y g pn off) s = .next (s.setCore core e) ∧
        memRead 0#32 (if y then e.y else e.x) a = c.gReg g.toNat ∧
        (∀ b, b ≠ a → memRead 0#32 (if y then e.y else e.x) b = memRead 0#32 (if y then c.y else c.x) b) ∧
        e = (if y then { c.after 1 (c.pc + 1) with y := e.y, wroteY := e.wroteY }
          else { c.after 1 (c.pc + 1) with x := e.x, wroteX := e.wroteX }))

/-- 11 R466, R474, R490: LDI, STA and MOVE write their destination alone, and STA the SAT bit; a MOVE to a pointer or modifier leaves its old
value to the address generation of the next instruction; in a kernel a MOVE to SR changes bits [5:0] only.  A MOVE into IPEND, CYC, BUDGET or
SP is refused (notes/assumptions/76.md; SAT16 rounds as notes/assumptions/23.md says). -/
def Obligations.ThymeMovesOfData : Prop :=
  ∀ (core : Nat) (gd : BitVec 4) (imm : BitVec 16) (ai : BitVec 2) (s : State) (c d : Core) (a : Acc), c = s.core core → c.clean = true →
    d = c.after 1 (c.pc + 1) → a = c.acc ai.toNat →
    (∀ i w, (i, w) ∈ [
        (Instr.thLdi core gd imm, BitVec.ofInt 32 imm.toInt),
        (Instr.thLdiUpper core gd imm, BitVec.ofNat 32 (imm.toNat * 65536 + (c.gReg gd.toNat).toNat % 65536)),
        (Instr.thLdiRelative core gd imm, BitVec.ofInt 32 ((c.pc.toNat + imm.toInt) % 2 ^ 14)),
        (Instr.thStaRaw core ai gd, BitVec.ofNat 32 a.toNat), (Instr.thStaGuard core ai gd, BitVec.ofInt 32 (a.toInt / 2 ^ 32)),
        (Instr.thStaNorm core ai gd, staNorm a)] →
      c.goes core i 1 (c.pc + 1) = true → exec i s = .next (s.setCore core (d.setG gd.toNat w))) ∧
    (a = 0#40 → staNorm a = 31#32) ∧
    (∀ k ≤ 38, (∀ j, 38 - k < j → j < 39 → a.getLsbD j = a.getLsbD 39) → a.getLsbD (38 - k) ≠ a.getLsbD 39 → (staNorm a).toInt = (k : Int) - 8) ∧
    (∀ i w clips, (i, w, clips) ∈ [
        (Instr.thStaSat core ai gd, BitVec.ofInt 32 (max (-2 ^ 31) (min a.toInt (2 ^ 31 - 1))), decide (a.toInt < -2 ^ 31 ∨ 2 ^ 31 ≤ a.toInt)),
        (Instr.thStaSat16 core ai gd, (staSat16 a).1, (staSat16 a).2)] →
      c.goes core i 1 (c.pc + 1) = true →
      exec i s = .next (s.setCore core (({ d with sr := if clips then setBit c.sr 5 true else c.sr } : Core).setG gd.toNat w))) ∧
    (∀ v : Int, (0 ≤ a.toInt → v = (a.toInt + 2 ^ 15) / 2 ^ 16) → (a.toInt < 0 → v = -((2 ^ 15 - a.toInt) / 2 ^ 16)) →
      (staSat16 a).1 = BitVec.ofInt 32 (max (-2 ^ 15) (min v (2 ^ 15 - 1)) * 2 ^ 16) ∧ (staSat16 a).2 = decide (v < -2 ^ 15 ∨ 2 ^ 15 ≤ v)) ∧
    (∀ (src dst : MoveReg) (w : Word) (e : Core),
      (∀ k, src = .g k → w = c.gReg k.toNat) → (∀ k, src = .p k → w = (c.ptr k.toNat).setWidth 32) → (∀ k, src = .m k → w = c.mod k.toNat) →
      (∀ k, src = .al k → w = (c.acc k.toNat).setWidth 32) → (∀ k, src = .ag k → w = BitVec.ofInt 32 ((c.acc k.toNat).toInt / 2 ^ 32)) →
      (src = .sr → w = c.sr) → (src = .ira → w = c.ira.setWidth 32) → (src = .isr → w = c.isr) → (src = .imask → w = c.imask.setWidth 32) →
      (src = .ipend → w = c.ipend.setWidth 32) → (src = .cyc → w = c.cyc) → (src = .budget → w = c.budget) →
      (src = .sp → w = BitVec.ofNat 32 c.stack.length) →
      (∀ k, dst = .g k → e = d.setG k.toNat w) →
      (∀ k, dst = .p k → e = { d.setPtr k.toNat (w.setWidth 14) with stale := some (false, k.toNat, (c.ptr k.toNat).setWidth 32) }) →
      (∀ k, dst = .m k → e = { d with m := memWrite 0#32 c.m k.toNat (w &&& ~~~0xC000#32), stale := some (true, k.toNat, c.mod k.toNat) }) →
      (∀ k, dst = .al k → e = d.setAcc k.toNat (w.signExtend 40)) →
      (∀ k, dst = .ag k → e = d.setAcc k.toNat (BitVec.ofNat 40 (w.toNat % 256 * 2 ^ 32 + (c.acc k.toNat).toNat % 2 ^ 32))) →
      (dst = .sr → e = { d with sr := if c.km then (c.sr &&& 0xFFFFFFC0#32) ||| (w &&& 0x3F#32) else w &&& 0x73F#32 }) →
      (dst = .ira → e = { d with ira := w.setWidth 14 }) → (dst = .isr → e = { d with isr := w }) →
      (dst = .imask → e = { d with imask := w.setWidth 3 }) →
      c.goes core (.thMove core dst src) 1 (c.pc + 1) = true →
      (dst.writable = true → exec (.thMove core dst src) s = .next (s.setCore core e)) ∧
      (dst.writable = false → exec (.thMove core dst src) s = .refused .reservedEncoding))

/-- 11 R475: each branch-class instruction but RETI is followed by two delay slots, and execution then goes on at its target, or at the branch
address + 3 when it is not taken (a fault of a kernel apart, which ends its block); a call pushes the branch address + 3, and RET pops the address it goes on at. -/
def Obligations.ThymeBranches : Prop :=
  ∀ (core : Nat) (disp : BitVec 16) (gs : BitVec 4) (s : State) (c d : Core), c = s.core core → d = c.after 1 (c.pc + 1) → c.clean = true →
    (∀ cond taken, (cond, taken) ∈ [
        (Cond.al, true), (.eq, c.sr.getLsbD 0), (.ne, !c.sr.getLsbD 0), (.lt, c.sr.getLsbD 1 != c.sr.getLsbD 3),
        (.ge, c.sr.getLsbD 1 == c.sr.getLsbD 3), (.le, c.sr.getLsbD 0 || (c.sr.getLsbD 1 != c.sr.getLsbD 3)),
        (.gt, !c.sr.getLsbD 0 && (c.sr.getLsbD 1 == c.sr.getLsbD 3)), (.cs, c.sr.getLsbD 2), (.cc, !c.sr.getLsbD 2), (.vs, c.sr.getLsbD 3),
        (.vc, !c.sr.getLsbD 3), (.mi, c.sr.getLsbD 1), (.pl, !c.sr.getLsbD 1)] →
      (c.goes core (.thBra core cond disp) 1 (c.pc + 1) = true →
        exec (.thBra core cond disp) s = .next (s.setCore core { d with
          delay := some (2, if taken then BitVec.ofInt 14 (c.pc.toNat + disp.toInt) else c.pc + 3) })) ∧
      (c.goes core (.thCall core cond disp) 1 (c.pc + 1) = true → taken = true → c.stack.length < (if c.km then 6 else 8) →
        exec (.thCall core cond disp) s = .next (s.setCore core { d with
          delay := some (2, BitVec.ofInt 14 (c.pc.toNat + disp.toInt)), stack := (c.pc + 3) :: c.stack })) ∧
      (c.goes core (.thCall core cond disp) 1 (c.pc + 1) = true → taken = false → c.stack.length < 8 →
        ∃ u, exec (.thCall core cond disp) s = .next u ∧ (u.core core).pc = c.pc + 1 ∧ (u.core core).delay = some (2, c.pc + 3))) ∧
    (c.goes core (.thJmp core gs) 1 (c.pc + 1) = true →
      exec (.thJmp core gs) s = .next (s.setCore core { d with delay := some (2, (c.gReg gs.toNat).setWidth 14) })) ∧
    (c.goes core (.thCallg core gs) 1 (c.pc + 1) = true → c.stack.length < (if c.km then 6 else 8) →
      exec (.thCallg core gs) s = .next (s.setCore core { d with
        delay := some (2, (c.gReg gs.toNat).setWidth 14), stack := (c.pc + 3) :: c.stack })) ∧
    (∀ a rest, c.goes core (.thRet core) 1 (c.pc + 1) = true → c.stack = a :: rest →
      exec (.thRet core) s = .next (s.setCore core { d with delay := some (2, a), stack := rest })) ∧
    (∀ i w n t dest, ∀ z : State, decodeThyme core w = some i → leavesLine i = false → (z.core core).rep = none →
      (z.core core).delay = some (n + 1, t) → dest = (if n = 0 then t else (z.core core).pc + 1) → (z.core core).goes core i 1 dest = true →
      ∃ u, exec i z = .next u ∧ ((z.core core).km = true ∧ (u.core core).km = false ∨
        (u.core core).pc = dest ∧ (u.core core).delay = (if n = 0 then none else some (n, t)))) ∧
    (c.goes core (.thReti core) 3 c.ira = true → ∃ u, exec (.thReti core) s = .next u ∧ (u.core core).pc = c.ira ∧ (u.core core).delay = none)

/-- 11 R473, R476, R491: REP n has the instruction behind it executed n times, each at its cost, and skips it when n is 0; NOP, EI and DI; outside
a kernel END and BRK do nothing but advance (notes/assumptions/76.md). -/
def Obligations.ThymeControl : Prop :=
  ∀ (core : Nat) (s : State) (c d : Core), c = s.core core → d = c.after 1 (c.pc + 1) →
    (c.clean = true → ∀ src n, (src = RepSrc.imm (BitVec.ofNat 16 n) ∧ n < 65536 ∨ ∃ gs, src = .reg gs ∧ n = (c.gReg gs.toNat).toNat % 65536) →
      (c.goes core (.thRep core src) 1 (c.pc + 1) = true → n ≠ 0 → exec (.thRep core src) s = .next (s.setCore core { d with rep := some n })) ∧
      (c.goes core (.thRep core src) 1 (c.pc + 2) = true → n = 0 → exec (.thRep core src) s = .next (s.setCore core (c.after 1 (c.pc + 2))))) ∧
    (∀ i w n dest, decodeThyme core w = some i → leavesLine i = false → c.delay = none → c.rep = some (n + 1) →
      dest = (if n = 0 then c.pc + 1 else c.pc) → c.goes core i 1 dest = true →
      ∃ u, exec i s = .next u ∧ (c.km = true ∧ (u.core core).km = false ∨
        (u.core core).pc = dest ∧ (u.core core).rep = (if n = 0 then none else some n))) ∧
    (c.clean = true →
      (c.goes core (.thNop core) 1 (c.pc + 1) = true → exec (.thNop core) s = .next (s.setCore core d)) ∧
      (c.goes core (.thEi core) 1 (c.pc + 1) = true → exec (.thEi core) s = .next (s.setCore core { d with sr := c.sr ||| 0x100#32 })) ∧
      (c.goes core (.thDi core) 1 (c.pc + 1) = true → exec (.thDi core) s = .next (s.setCore core { d with sr := c.sr &&& 0xFFFFFEFF#32 })) ∧
      (c.km = false → core < 64 → c.ipend = 0#3 → exec (.thEnd core) s = .next (s.setCore core d) ∧ exec (.thBrk core) s = .next (s.setCore core d)))

/-- 11 R480: taking an interrupt takes 6 cycles; it sets IRA to the next instruction and copies SR to ISR, sets BANK to 1, clears IE, KM and the
source's bit of IPEND, jumps to the vector, and touches no register of either bank; RETI restores SR, BANK included, and goes on at IRA.  The
source taken is the first of those that IMASK lets through (R479), and one that is not let through only sets its bit. -/
def Obligations.ThymeInterrupts : Prop :=
  ∀ (core src : Nat) (s : State) (c : Core) (p : BitVec 3), c = s.core core → core < 64 → src < 3 → c.clean = true →
    p = c.ipend ||| (1#3 <<< src) →
    (∀ k, srIE c.sr = true → p.getLsbD k = true → c.imask.getLsbD k = true → (∀ j < k, (p.getLsbD j && c.imask.getLsbD j) = false) →
      (k = 0 → s.media.ops.find? (fun o => o.cls == 1 && o.yard == core / 8 && o.unit == some (core % 8) && o.marked) = none) →
      ∃ u e, exec (.interruptEntry core src) s = .next u ∧ e = u.core core ∧ u = { s with thyme := u.thyme } ∧ (∀ n, n ≠ core → u.core n = s.core n) ∧
        e = { c with
          ira := c.pc, isr := c.sr, sr := (c.sr &&& 0xFFFFFAFF#32) ||| 0x200#32, ipend := p &&& ~~~(1#3 <<< k), pc := BitVec.ofNat 14 (8 * k)
          waits := e.waits, holdoffs := e.holdoffs } ∧
        e.holdoffs.head? = some (s.tick, c.waits.getD 0 + 6)) ∧
    (srIE c.sr = false → src ≠ 0 →
      ∃ u, exec (.interruptEntry core src) s = .next u ∧ u.core core = { c with ipend := p, waits := some (c.waits.getD 0) } ∧
        u = { s with thyme := u.thyme } ∧ ∀ n, n ≠ core → u.core n = s.core n) ∧
    (c.goes core (.thReti core) 3 c.ira = true →
      exec (.thReti core) s = .next (s.setCore core { c.after 3 c.ira with sr := c.isr &&& 0x73F#32 }))

/-- 11 R493-R496: END within the budget keeps the block and the state of the instance; BRK, and the budget, end the block as it stood at entry and
hand the core to firmware at 0x0018, and the next block of the instance is told of it. -/
def Obligations.ThymeBlocksEnd : Prop :=
  ∀ (core : Nat) (s : State) (c : Core) (k : KernelRun) (o : Op), c = s.core core → core < 64 → c.km = true → c.run = some k →
    s.opAt k.op = some o → c.ipend = 0#3 → c.cyc.toNat + 1 < 2 ^ 32 →
    (c.fetches core (.thEnd core) = true → c.cyc.toNat + 1 ≤ c.budget.toNat →
      ∃ u, exec (.thEnd core) s = .next u ∧ (u.core core).run = none ∧ (u.core core).km = false ∧
        look u.thyme.instances k.inst = some {
          xstate := memReadAll 0#32 c.x 0x2080 k.xstate, ystate := memReadAll 0#32 c.y 0x2010 k.ystate, fresh := false } ∧
        look u.thyme.blocks k.inst = some ((memReadAll 0#32 c.x 0x2000 120).map (fun w => w &&& ~~~0xFF#32))) ∧
    (c.fetches core (.thBrk core) = true →
      ∃ u i, exec (.thBrk core) s = .next u ∧ (u.core core).run = none ∧ (u.core core).km = false ∧ (u.core core).pc = 0x18#14 ∧
        look u.thyme.instances k.inst = some i ∧ i.faultPrev = true ∧ i.overrunPrev = false ∧ look u.thyme.blocks k.inst = some c.entry) ∧
    (c.fetches core (.thNop core) = true → c.budget.toNat ≤ c.cyc.toNat + 1 →
      ∃ u i, exec (.thNop core) s = .next u ∧ (u.core core).run = none ∧ (u.core core).km = false ∧ (u.core core).pc = 0x18#14 ∧
        look u.thyme.instances k.inst = some i ∧ i.overrunPrev = true ∧ i.faultPrev = false ∧ look u.thyme.blocks k.inst = some c.entry)

/-- 11 R462: no instruction of a kernel changes firmware's words of X and Y, the guard words, the parameters and block information, program
memory, or another core. -/
def Obligations.KernelsKeepFirmware : Prop :=
  ∀ (core : Nat) (w : Word) (i : Instr) (s : State) (c : Core), c = s.core core → c.km = true → decodeThyme core w = some i →
    ∃ u, exec i s = .next u ∧ (u.core core).pm = c.pm ∧ (∀ k, k ≠ core → u.core k = s.core k) ∧
      (∀ a, a < 0x2000 ∨ 0x2078 ≤ a ∧ a < 0x2080 → memRead 0#32 (u.core core).x a = memRead 0#32 c.x a) ∧
      (∀ a < 0x2010, memRead 0#32 (u.core core).y a = memRead 0#32 c.y a)

/-- 11 R461, R465, R469, R481: every core stays in canonical form through every instruction of a thyme program and every interrupt: its registers
and memories, the reserved bits of SR and of the modifiers, and a return stack of at most 8 entries. -/
def Obligations.ThymeKeepsCores : Prop :=
  ∀ (core src : Nat) (w : Word) (i : Instr) (s t : State), decodeThyme core w = some i ∨ i = .interruptEntry core src → s.coresWf = true →
    exec i s = .next t → t.coresWf = true

/-! ### The whole block -/

/-- A step of a state with a command at the front of its queue is that command's effect on the state with the rest; with an empty queue the
block idles (notes/assumptions/2.md, the model's choice).  In every state every command answers a next state, a MOVE into a register that no MOVE
writes (11 R490) apart. -/
def Obligations.StepRunsFrontCommand : Prop :=
  (∀ (c : Instr) (rest : List Instr) (s : State),
    step { s with pending := c :: rest } = exec c { s with pending := rest } ∧ step { s with pending := [] } = .next { s with pending := [] }) ∧
  (∀ (c : Instr) (s : State), (∀ core dst src, c = .thMove core dst src → dst.writable = true) → ∃ t, exec c s = .next t)

/-- What reset leaves (14 R586): mode RESET, every host port OFF, no object, no tack, tick 0, and every memory in canonical form.  The cause
bit of power-on and each register to which the spec gives no value are the model's choice (notes/assumptions/1.md). -/
def Obligations.ResetState : Prop :=
  State.reset.power.mode = .reset ∧ (∀ p, (State.reset.host p).state = .off) ∧ State.reset.objs = {} ∧ State.reset.gens.cur = none ∧
    State.reset.tick = 0 ∧ State.reset.pending = [] ∧ (∀ p, (State.reset.host p).reg 0x10010 = 0x2002) ∧
    State.reset.flash.cfg = 0x0003C802#32 ∧ (∀ l, (State.reset.lport l).up = false) ∧ (∀ l, State.reset.lport l = {}) ∧
    (∀ k, (State.reset.pool k).level = 0) ∧ (∀ n, State.reset.cntOf n = 0) ∧ State.reset.wf = true ∧ State.reset.coresWf = true

/-- The worked kernel of chapter 11: each word decodes to the instruction it stands for. -/
def Obligations.ThymeWordsDecode : Prop :=
  ∀ core : Nat,
    decodeThyme core 0xA4300000#32 = some (.thDirectLoad core true 1 4 0) ∧ decodeThyme core 0x90800078#32 = some (.thLdi core 4 120) ∧
    decodeThyme core 0x00021400#32 = some (.thNopp core { en := true, ptr := 0, upd := 1, reg := 2 } {}) ∧
    decodeThyme core 0x04461400#32 = some (.thMpy core 0 2 1 { en := true, ptr := 0, upd := 1, reg := 2 } {}) ∧
    decodeThyme core 0x88510001#32 = some (.thSub core 4 4 (.imm 1)) ∧ decodeThyme core 0xC100FFFE#32 = some (.thBra core .ne 0xFFFE) ∧
    decodeThyme core 0x980C0000#32 = some (.thStaSat core 0 3) ∧
    decodeThyme core 0x41635600#32 = some (.thAbsmax core 1 3 { en := true, st := true, ptr := 1, upd := 1, reg := 3 } {}) ∧
    decodeThyme core 0x98540000#32 = some (.thStaSat core 1 5) ∧ decodeThyme core 0xA6B00010#32 = some (.thDirectStore core true 5 4 16) ∧
    decodeThyme core 0xE1000000#32 = some (.thEnd core) ∧ decodeThyme core 0xFFFFFFFF#32 = none ∧ decodeThyme core 0x44000000#32 = none

/-- 11 R485-R491: the encoding of a well-formed thyme instruction decodes to that instruction, operands and all, and a word that decodes to an
instruction is its encoding: no two words mean one instruction, and an unused field that is not 0 is reserved. -/
def Obligations.ThymeDecodeAndEncodeAgree : Prop :=
  ∀ (core : Nat) (w : Word), core < 64 →
    (∀ j, decodeThyme core w = some j → j.wf = true ∧ encodeThyme j = some w) ∧
    (∀ i v, i.wf = true → encodeThyme i = some v → ∃ k < 64, decodeThyme k v = some i)
end

