-- ==== Sys2Proof/Laws/State.lean ====
section
/-! SUPPORT. What each one-line update of the state leaves in each field. -/
namespace Sys2Proof.Machine

/-! ### `State.at` -/

@[simp] theorem State.at_pending (s : State) (t : Nat) : (s.at t).pending = s.pending := rfl
@[simp] theorem State.at_now (s : State) (t : Nat) : (s.at t).now = max s.now t := rfl
@[simp] theorem State.at_free (s : State) (t : Nat) : (s.at t).free = s.free := rfl
@[simp] theorem State.at_tick (s : State) (t : Nat) : (s.at t).tick = s.tick := rfl
@[simp] theorem State.at_tickAt (s : State) (t : Nat) : (s.at t).tickAt = s.tickAt := rfl
@[simp] theorem State.at_tickVal (s : State) (t : Nat) : (s.at t).tickVal = s.tickVal := rfl
@[simp] theorem State.at_hosts (s : State) (t : Nat) : (s.at t).hosts = s.hosts := rfl
@[simp] theorem State.at_waiting (s : State) (t : Nat) : (s.at t).waiting = s.waiting := rfl
@[simp] theorem State.at_boundaryHeld (s : State) (t : Nat) : (s.at t).boundaryHeld = s.boundaryHeld := rfl
@[simp] theorem State.at_dmas (s : State) (t : Nat) : (s.at t).dmas = s.dmas := rfl
@[simp] theorem State.at_nextDma (s : State) (t : Nat) : (s.at t).nextDma = s.nextDma := rfl
@[simp] theorem State.at_nextSeq (s : State) (t : Nat) : (s.at t).nextSeq = s.nextSeq := rfl
@[simp] theorem State.at_hostMem (s : State) (t : Nat) : (s.at t).hostMem = s.hostMem := rfl
@[simp] theorem State.at_gens (s : State) (t : Nat) : (s.at t).gens = s.gens := rfl
@[simp] theorem State.at_flash (s : State) (t : Nat) : (s.at t).flash = s.flash := rfl
@[simp] theorem State.at_objs (s : State) (t : Nat) : (s.at t).objs = s.objs := rfl
@[simp] theorem State.at_objsBefore (s : State) (t : Nat) : (s.at t).objsBefore = s.objsBefore := rfl
@[simp] theorem State.at_views (s : State) (t : Nat) : (s.at t).views = s.views := rfl
@[simp] theorem State.at_net (s : State) (t : Nat) : (s.at t).net = s.net := rfl
@[simp] theorem State.at_media (s : State) (t : Nat) : (s.at t).media = s.media := rfl
@[simp] theorem State.at_thyme (s : State) (t : Nat) : (s.at t).thyme = s.thyme := rfl
@[simp] theorem State.at_tbs (s : State) (t : Nat) : (s.at t).tbs = s.tbs := rfl
@[simp] theorem State.at_dram (s : State) (t : Nat) : (s.at t).dram = s.dram := rfl
@[simp] theorem State.at_power (s : State) (t : Nat) : (s.at t).power = s.power := rfl
@[simp] theorem State.at_pins (s : State) (t : Nat) : (s.at t).pins = s.pins := rfl
@[simp] theorem State.at_router (s : State) (t : Nat) : (s.at t).router = s.router := rfl
@[simp] theorem State.at_cnt (s : State) (t : Nat) : (s.at t).cnt = s.cnt := rfl
@[simp] theorem State.at_cntTick (s : State) (t : Nat) : (s.at t).cntTick = s.cntTick := rfl
@[simp] theorem State.at_unitsTick (s : State) (t : Nat) : (s.at t).unitsTick = s.unitsTick := rfl
@[simp] theorem State.at_clientMbps (s : State) (t : Nat) : (s.at t).clientMbps = s.clientMbps := rfl

/-! ### `State.modHost` -/

@[simp] theorem State.modHost_pending (s : State) (p : Nat) (f : HostPort → HostPort) : (s.modHost p f).pending = s.pending := rfl
@[simp] theorem State.modHost_now (s : State) (p : Nat) (f : HostPort → HostPort) : (s.modHost p f).now = s.now := rfl
@[simp] theorem State.modHost_free (s : State) (p : Nat) (f : HostPort → HostPort) : (s.modHost p f).free = s.free := rfl
@[simp] theorem State.modHost_tick (s : State) (p : Nat) (f : HostPort → HostPort) : (s.modHost p f).tick = s.tick := rfl
@[simp] theorem State.modHost_tickAt (s : State) (p : Nat) (f : HostPort → HostPort) : (s.modHost p f).tickAt = s.tickAt := rfl
@[simp] theorem State.modHost_tickVal (s : State) (p : Nat) (f : HostPort → HostPort) : (s.modHost p f).tickVal = s.tickVal := rfl
@[simp] theorem State.modHost_hosts (s : State) (p : Nat) (f : HostPort → HostPort) : (s.modHost p f).hosts = adjD s.hosts p {} f := rfl
@[simp] theorem State.modHost_waiting (s : State) (p : Nat) (f : HostPort → HostPort) : (s.modHost p f).waiting = s.waiting := rfl
@[simp] theorem State.modHost_boundaryHeld (s : State) (p : Nat) (f : HostPort → HostPort) : (s.modHost p f).boundaryHeld = s.boundaryHeld := rfl
@[simp] theorem State.modHost_dmas (s : State) (p : Nat) (f : HostPort → HostPort) : (s.modHost p f).dmas = s.dmas := rfl
@[simp] theorem State.modHost_nextDma (s : State) (p : Nat) (f : HostPort → HostPort) : (s.modHost p f).nextDma = s.nextDma := rfl
@[simp] theorem State.modHost_nextSeq (s : State) (p : Nat) (f : HostPort → HostPort) : (s.modHost p f).nextSeq = s.nextSeq := rfl
@[simp] theorem State.modHost_hostMem (s : State) (p : Nat) (f : HostPort → HostPort) : (s.modHost p f).hostMem = s.hostMem := rfl
@[simp] theorem State.modHost_gens (s : State) (p : Nat) (f : HostPort → HostPort) : (s.modHost p f).gens = s.gens := rfl
@[simp] theorem State.modHost_flash (s : State) (p : Nat) (f : HostPort → HostPort) : (s.modHost p f).flash = s.flash := rfl
@[simp] theorem State.modHost_objs (s : State) (p : Nat) (f : HostPort → HostPort) : (s.modHost p f).objs = s.objs := rfl
@[simp] theorem State.modHost_objsBefore (s : State) (p : Nat) (f : HostPort → HostPort) : (s.modHost p f).objsBefore = s.objsBefore := rfl
@[simp] theorem State.modHost_views (s : State) (p : Nat) (f : HostPort → HostPort) : (s.modHost p f).views = s.views := rfl
@[simp] theorem State.modHost_net (s : State) (p : Nat) (f : HostPort → HostPort) : (s.modHost p f).net = s.net := rfl
@[simp] theorem State.modHost_media (s : State) (p : Nat) (f : HostPort → HostPort) : (s.modHost p f).media = s.media := rfl
@[simp] theorem State.modHost_thyme (s : State) (p : Nat) (f : HostPort → HostPort) : (s.modHost p f).thyme = s.thyme := rfl
@[simp] theorem State.modHost_tbs (s : State) (p : Nat) (f : HostPort → HostPort) : (s.modHost p f).tbs = s.tbs := rfl
@[simp] theorem State.modHost_dram (s : State) (p : Nat) (f : HostPort → HostPort) : (s.modHost p f).dram = s.dram := rfl
@[simp] theorem State.modHost_power (s : State) (p : Nat) (f : HostPort → HostPort) : (s.modHost p f).power = s.power := rfl
@[simp] theorem State.modHost_pins (s : State) (p : Nat) (f : HostPort → HostPort) : (s.modHost p f).pins = s.pins := rfl
@[simp] theorem State.modHost_router (s : State) (p : Nat) (f : HostPort → HostPort) : (s.modHost p f).router = s.router := rfl
@[simp] theorem State.modHost_cnt (s : State) (p : Nat) (f : HostPort → HostPort) : (s.modHost p f).cnt = s.cnt := rfl
@[simp] theorem State.modHost_cntTick (s : State) (p : Nat) (f : HostPort → HostPort) : (s.modHost p f).cntTick = s.cntTick := rfl
@[simp] theorem State.modHost_unitsTick (s : State) (p : Nat) (f : HostPort → HostPort) : (s.modHost p f).unitsTick = s.unitsTick := rfl
@[simp] theorem State.modHost_clientMbps (s : State) (p : Nat) (f : HostPort → HostPort) : (s.modHost p f).clientMbps = s.clientMbps := rfl

/-! ### `State.modGens` -/

@[simp] theorem State.modGens_pending (s : State) (f : Gens → Gens) : (s.modGens f).pending = s.pending := rfl
@[simp] theorem State.modGens_now (s : State) (f : Gens → Gens) : (s.modGens f).now = s.now := rfl
@[simp] theorem State.modGens_free (s : State) (f : Gens → Gens) : (s.modGens f).free = s.free := rfl
@[simp] theorem State.modGens_tick (s : State) (f : Gens → Gens) : (s.modGens f).tick = s.tick := rfl
@[simp] theorem State.modGens_tickAt (s : State) (f : Gens → Gens) : (s.modGens f).tickAt = s.tickAt := rfl
@[simp] theorem State.modGens_tickVal (s : State) (f : Gens → Gens) : (s.modGens f).tickVal = s.tickVal := rfl
@[simp] theorem State.modGens_hosts (s : State) (f : Gens → Gens) : (s.modGens f).hosts = s.hosts := rfl
@[simp] theorem State.modGens_waiting (s : State) (f : Gens → Gens) : (s.modGens f).waiting = s.waiting := rfl
@[simp] theorem State.modGens_boundaryHeld (s : State) (f : Gens → Gens) : (s.modGens f).boundaryHeld = s.boundaryHeld := rfl
@[simp] theorem State.modGens_dmas (s : State) (f : Gens → Gens) : (s.modGens f).dmas = s.dmas := rfl
@[simp] theorem State.modGens_nextDma (s : State) (f : Gens → Gens) : (s.modGens f).nextDma = s.nextDma := rfl
@[simp] theorem State.modGens_nextSeq (s : State) (f : Gens → Gens) : (s.modGens f).nextSeq = s.nextSeq := rfl
@[simp] theorem State.modGens_hostMem (s : State) (f : Gens → Gens) : (s.modGens f).hostMem = s.hostMem := rfl
@[simp] theorem State.modGens_gens (s : State) (f : Gens → Gens) : (s.modGens f).gens = f s.gens := rfl
@[simp] theorem State.modGens_flash (s : State) (f : Gens → Gens) : (s.modGens f).flash = s.flash := rfl
@[simp] theorem State.modGens_objs (s : State) (f : Gens → Gens) : (s.modGens f).objs = s.objs := rfl
@[simp] theorem State.modGens_objsBefore (s : State) (f : Gens → Gens) : (s.modGens f).objsBefore = s.objsBefore := rfl
@[simp] theorem State.modGens_views (s : State) (f : Gens → Gens) : (s.modGens f).views = s.views := rfl
@[simp] theorem State.modGens_net (s : State) (f : Gens → Gens) : (s.modGens f).net = s.net := rfl
@[simp] theorem State.modGens_media (s : State) (f : Gens → Gens) : (s.modGens f).media = s.media := rfl
@[simp] theorem State.modGens_thyme (s : State) (f : Gens → Gens) : (s.modGens f).thyme = s.thyme := rfl
@[simp] theorem State.modGens_tbs (s : State) (f : Gens → Gens) : (s.modGens f).tbs = s.tbs := rfl
@[simp] theorem State.modGens_dram (s : State) (f : Gens → Gens) : (s.modGens f).dram = s.dram := rfl
@[simp] theorem State.modGens_power (s : State) (f : Gens → Gens) : (s.modGens f).power = s.power := rfl
@[simp] theorem State.modGens_pins (s : State) (f : Gens → Gens) : (s.modGens f).pins = s.pins := rfl
@[simp] theorem State.modGens_router (s : State) (f : Gens → Gens) : (s.modGens f).router = s.router := rfl
@[simp] theorem State.modGens_cnt (s : State) (f : Gens → Gens) : (s.modGens f).cnt = s.cnt := rfl
@[simp] theorem State.modGens_cntTick (s : State) (f : Gens → Gens) : (s.modGens f).cntTick = s.cntTick := rfl
@[simp] theorem State.modGens_unitsTick (s : State) (f : Gens → Gens) : (s.modGens f).unitsTick = s.unitsTick := rfl
@[simp] theorem State.modGens_clientMbps (s : State) (f : Gens → Gens) : (s.modGens f).clientMbps = s.clientMbps := rfl

/-! ### `State.modFlash` -/

@[simp] theorem State.modFlash_pending (s : State) (f : Flash → Flash) : (s.modFlash f).pending = s.pending := rfl
@[simp] theorem State.modFlash_now (s : State) (f : Flash → Flash) : (s.modFlash f).now = s.now := rfl
@[simp] theorem State.modFlash_free (s : State) (f : Flash → Flash) : (s.modFlash f).free = s.free := rfl
@[simp] theorem State.modFlash_tick (s : State) (f : Flash → Flash) : (s.modFlash f).tick = s.tick := rfl
@[simp] theorem State.modFlash_tickAt (s : State) (f : Flash → Flash) : (s.modFlash f).tickAt = s.tickAt := rfl
@[simp] theorem State.modFlash_tickVal (s : State) (f : Flash → Flash) : (s.modFlash f).tickVal = s.tickVal := rfl
@[simp] theorem State.modFlash_hosts (s : State) (f : Flash → Flash) : (s.modFlash f).hosts = s.hosts := rfl
@[simp] theorem State.modFlash_waiting (s : State) (f : Flash → Flash) : (s.modFlash f).waiting = s.waiting := rfl
@[simp] theorem State.modFlash_boundaryHeld (s : State) (f : Flash → Flash) : (s.modFlash f).boundaryHeld = s.boundaryHeld := rfl
@[simp] theorem State.modFlash_dmas (s : State) (f : Flash → Flash) : (s.modFlash f).dmas = s.dmas := rfl
@[simp] theorem State.modFlash_nextDma (s : State) (f : Flash → Flash) : (s.modFlash f).nextDma = s.nextDma := rfl
@[simp] theorem State.modFlash_nextSeq (s : State) (f : Flash → Flash) : (s.modFlash f).nextSeq = s.nextSeq := rfl
@[simp] theorem State.modFlash_hostMem (s : State) (f : Flash → Flash) : (s.modFlash f).hostMem = s.hostMem := rfl
@[simp] theorem State.modFlash_gens (s : State) (f : Flash → Flash) : (s.modFlash f).gens = s.gens := rfl
@[simp] theorem State.modFlash_flash (s : State) (f : Flash → Flash) : (s.modFlash f).flash = f s.flash := rfl
@[simp] theorem State.modFlash_objs (s : State) (f : Flash → Flash) : (s.modFlash f).objs = s.objs := rfl
@[simp] theorem State.modFlash_objsBefore (s : State) (f : Flash → Flash) : (s.modFlash f).objsBefore = s.objsBefore := rfl
@[simp] theorem State.modFlash_views (s : State) (f : Flash → Flash) : (s.modFlash f).views = s.views := rfl
@[simp] theorem State.modFlash_net (s : State) (f : Flash → Flash) : (s.modFlash f).net = s.net := rfl
@[simp] theorem State.modFlash_media (s : State) (f : Flash → Flash) : (s.modFlash f).media = s.media := rfl
@[simp] theorem State.modFlash_thyme (s : State) (f : Flash → Flash) : (s.modFlash f).thyme = s.thyme := rfl
@[simp] theorem State.modFlash_tbs (s : State) (f : Flash → Flash) : (s.modFlash f).tbs = s.tbs := rfl
@[simp] theorem State.modFlash_dram (s : State) (f : Flash → Flash) : (s.modFlash f).dram = s.dram := rfl
@[simp] theorem State.modFlash_power (s : State) (f : Flash → Flash) : (s.modFlash f).power = s.power := rfl
@[simp] theorem State.modFlash_pins (s : State) (f : Flash → Flash) : (s.modFlash f).pins = s.pins := rfl
@[simp] theorem State.modFlash_router (s : State) (f : Flash → Flash) : (s.modFlash f).router = s.router := rfl
@[simp] theorem State.modFlash_cnt (s : State) (f : Flash → Flash) : (s.modFlash f).cnt = s.cnt := rfl
@[simp] theorem State.modFlash_cntTick (s : State) (f : Flash → Flash) : (s.modFlash f).cntTick = s.cntTick := rfl
@[simp] theorem State.modFlash_unitsTick (s : State) (f : Flash → Flash) : (s.modFlash f).unitsTick = s.unitsTick := rfl
@[simp] theorem State.modFlash_clientMbps (s : State) (f : Flash → Flash) : (s.modFlash f).clientMbps = s.clientMbps := rfl

/-! ### `State.modObjs` -/

@[simp] theorem State.modObjs_pending (s : State) (f : Objects → Objects) : (s.modObjs f).pending = s.pending := rfl
@[simp] theorem State.modObjs_now (s : State) (f : Objects → Objects) : (s.modObjs f).now = s.now := rfl
@[simp] theorem State.modObjs_free (s : State) (f : Objects → Objects) : (s.modObjs f).free = s.free := rfl
@[simp] theorem State.modObjs_tick (s : State) (f : Objects → Objects) : (s.modObjs f).tick = s.tick := rfl
@[simp] theorem State.modObjs_tickAt (s : State) (f : Objects → Objects) : (s.modObjs f).tickAt = s.tickAt := rfl
@[simp] theorem State.modObjs_tickVal (s : State) (f : Objects → Objects) : (s.modObjs f).tickVal = s.tickVal := rfl
@[simp] theorem State.modObjs_hosts (s : State) (f : Objects → Objects) : (s.modObjs f).hosts = s.hosts := rfl
@[simp] theorem State.modObjs_waiting (s : State) (f : Objects → Objects) : (s.modObjs f).waiting = s.waiting := rfl
@[simp] theorem State.modObjs_boundaryHeld (s : State) (f : Objects → Objects) : (s.modObjs f).boundaryHeld = s.boundaryHeld := rfl
@[simp] theorem State.modObjs_dmas (s : State) (f : Objects → Objects) : (s.modObjs f).dmas = s.dmas := rfl
@[simp] theorem State.modObjs_nextDma (s : State) (f : Objects → Objects) : (s.modObjs f).nextDma = s.nextDma := rfl
@[simp] theorem State.modObjs_nextSeq (s : State) (f : Objects → Objects) : (s.modObjs f).nextSeq = s.nextSeq := rfl
@[simp] theorem State.modObjs_hostMem (s : State) (f : Objects → Objects) : (s.modObjs f).hostMem = s.hostMem := rfl
@[simp] theorem State.modObjs_gens (s : State) (f : Objects → Objects) : (s.modObjs f).gens = s.gens := rfl
@[simp] theorem State.modObjs_flash (s : State) (f : Objects → Objects) : (s.modObjs f).flash = s.flash := rfl
@[simp] theorem State.modObjs_objs (s : State) (f : Objects → Objects) : (s.modObjs f).objs = f s.objs := rfl
@[simp] theorem State.modObjs_objsBefore (s : State) (f : Objects → Objects) : (s.modObjs f).objsBefore = s.objsBefore := rfl
@[simp] theorem State.modObjs_views (s : State) (f : Objects → Objects) : (s.modObjs f).views = s.views := rfl
@[simp] theorem State.modObjs_net (s : State) (f : Objects → Objects) : (s.modObjs f).net = s.net := rfl
@[simp] theorem State.modObjs_media (s : State) (f : Objects → Objects) : (s.modObjs f).media = s.media := rfl
@[simp] theorem State.modObjs_thyme (s : State) (f : Objects → Objects) : (s.modObjs f).thyme = s.thyme := rfl
@[simp] theorem State.modObjs_tbs (s : State) (f : Objects → Objects) : (s.modObjs f).tbs = s.tbs := rfl
@[simp] theorem State.modObjs_dram (s : State) (f : Objects → Objects) : (s.modObjs f).dram = s.dram := rfl
@[simp] theorem State.modObjs_power (s : State) (f : Objects → Objects) : (s.modObjs f).power = s.power := rfl
@[simp] theorem State.modObjs_pins (s : State) (f : Objects → Objects) : (s.modObjs f).pins = s.pins := rfl
@[simp] theorem State.modObjs_router (s : State) (f : Objects → Objects) : (s.modObjs f).router = s.router := rfl
@[simp] theorem State.modObjs_cnt (s : State) (f : Objects → Objects) : (s.modObjs f).cnt = s.cnt := rfl
@[simp] theorem State.modObjs_cntTick (s : State) (f : Objects → Objects) : (s.modObjs f).cntTick = s.cntTick := rfl
@[simp] theorem State.modObjs_unitsTick (s : State) (f : Objects → Objects) : (s.modObjs f).unitsTick = s.unitsTick := rfl
@[simp] theorem State.modObjs_clientMbps (s : State) (f : Objects → Objects) : (s.modObjs f).clientMbps = s.clientMbps := rfl

/-! ### `State.modRoom` -/

@[simp] theorem State.modRoom_pending (s : State) (i : Nat) (f : Room → Room) : (s.modRoom i f).pending = s.pending := rfl
@[simp] theorem State.modRoom_now (s : State) (i : Nat) (f : Room → Room) : (s.modRoom i f).now = s.now := rfl
@[simp] theorem State.modRoom_free (s : State) (i : Nat) (f : Room → Room) : (s.modRoom i f).free = s.free := rfl
@[simp] theorem State.modRoom_tick (s : State) (i : Nat) (f : Room → Room) : (s.modRoom i f).tick = s.tick := rfl
@[simp] theorem State.modRoom_tickAt (s : State) (i : Nat) (f : Room → Room) : (s.modRoom i f).tickAt = s.tickAt := rfl
@[simp] theorem State.modRoom_tickVal (s : State) (i : Nat) (f : Room → Room) : (s.modRoom i f).tickVal = s.tickVal := rfl
@[simp] theorem State.modRoom_hosts (s : State) (i : Nat) (f : Room → Room) : (s.modRoom i f).hosts = s.hosts := rfl
@[simp] theorem State.modRoom_waiting (s : State) (i : Nat) (f : Room → Room) : (s.modRoom i f).waiting = s.waiting := rfl
@[simp] theorem State.modRoom_boundaryHeld (s : State) (i : Nat) (f : Room → Room) : (s.modRoom i f).boundaryHeld = s.boundaryHeld := rfl
@[simp] theorem State.modRoom_dmas (s : State) (i : Nat) (f : Room → Room) : (s.modRoom i f).dmas = s.dmas := rfl
@[simp] theorem State.modRoom_nextDma (s : State) (i : Nat) (f : Room → Room) : (s.modRoom i f).nextDma = s.nextDma := rfl
@[simp] theorem State.modRoom_nextSeq (s : State) (i : Nat) (f : Room → Room) : (s.modRoom i f).nextSeq = s.nextSeq := rfl
@[simp] theorem State.modRoom_hostMem (s : State) (i : Nat) (f : Room → Room) : (s.modRoom i f).hostMem = s.hostMem := rfl
@[simp] theorem State.modRoom_gens (s : State) (i : Nat) (f : Room → Room) : (s.modRoom i f).gens = s.gens := rfl
@[simp] theorem State.modRoom_flash (s : State) (i : Nat) (f : Room → Room) : (s.modRoom i f).flash = s.flash := rfl
@[simp] theorem State.modRoom_objs (s : State) (i : Nat) (f : Room → Room) : (s.modRoom i f).objs = { s.objs with rooms := adj s.objs.rooms i f } := rfl
@[simp] theorem State.modRoom_objsBefore (s : State) (i : Nat) (f : Room → Room) : (s.modRoom i f).objsBefore = s.objsBefore := rfl
@[simp] theorem State.modRoom_views (s : State) (i : Nat) (f : Room → Room) : (s.modRoom i f).views = s.views := rfl
@[simp] theorem State.modRoom_net (s : State) (i : Nat) (f : Room → Room) : (s.modRoom i f).net = s.net := rfl
@[simp] theorem State.modRoom_media (s : State) (i : Nat) (f : Room → Room) : (s.modRoom i f).media = s.media := rfl
@[simp] theorem State.modRoom_thyme (s : State) (i : Nat) (f : Room → Room) : (s.modRoom i f).thyme = s.thyme := rfl
@[simp] theorem State.modRoom_tbs (s : State) (i : Nat) (f : Room → Room) : (s.modRoom i f).tbs = s.tbs := rfl
@[simp] theorem State.modRoom_dram (s : State) (i : Nat) (f : Room → Room) : (s.modRoom i f).dram = s.dram := rfl
@[simp] theorem State.modRoom_power (s : State) (i : Nat) (f : Room → Room) : (s.modRoom i f).power = s.power := rfl
@[simp] theorem State.modRoom_pins (s : State) (i : Nat) (f : Room → Room) : (s.modRoom i f).pins = s.pins := rfl
@[simp] theorem State.modRoom_router (s : State) (i : Nat) (f : Room → Room) : (s.modRoom i f).router = s.router := rfl
@[simp] theorem State.modRoom_cnt (s : State) (i : Nat) (f : Room → Room) : (s.modRoom i f).cnt = s.cnt := rfl
@[simp] theorem State.modRoom_cntTick (s : State) (i : Nat) (f : Room → Room) : (s.modRoom i f).cntTick = s.cntTick := rfl
@[simp] theorem State.modRoom_unitsTick (s : State) (i : Nat) (f : Room → Room) : (s.modRoom i f).unitsTick = s.unitsTick := rfl
@[simp] theorem State.modRoom_clientMbps (s : State) (i : Nat) (f : Room → Room) : (s.modRoom i f).clientMbps = s.clientMbps := rfl

/-! ### `State.modLeg` -/

@[simp] theorem State.modLeg_pending (s : State) (i : Nat) (f : Leg → Leg) : (s.modLeg i f).pending = s.pending := rfl
@[simp] theorem State.modLeg_now (s : State) (i : Nat) (f : Leg → Leg) : (s.modLeg i f).now = s.now := rfl
@[simp] theorem State.modLeg_free (s : State) (i : Nat) (f : Leg → Leg) : (s.modLeg i f).free = s.free := rfl
@[simp] theorem State.modLeg_tick (s : State) (i : Nat) (f : Leg → Leg) : (s.modLeg i f).tick = s.tick := rfl
@[simp] theorem State.modLeg_tickAt (s : State) (i : Nat) (f : Leg → Leg) : (s.modLeg i f).tickAt = s.tickAt := rfl
@[simp] theorem State.modLeg_tickVal (s : State) (i : Nat) (f : Leg → Leg) : (s.modLeg i f).tickVal = s.tickVal := rfl
@[simp] theorem State.modLeg_hosts (s : State) (i : Nat) (f : Leg → Leg) : (s.modLeg i f).hosts = s.hosts := rfl
@[simp] theorem State.modLeg_waiting (s : State) (i : Nat) (f : Leg → Leg) : (s.modLeg i f).waiting = s.waiting := rfl
@[simp] theorem State.modLeg_boundaryHeld (s : State) (i : Nat) (f : Leg → Leg) : (s.modLeg i f).boundaryHeld = s.boundaryHeld := rfl
@[simp] theorem State.modLeg_dmas (s : State) (i : Nat) (f : Leg → Leg) : (s.modLeg i f).dmas = s.dmas := rfl
@[simp] theorem State.modLeg_nextDma (s : State) (i : Nat) (f : Leg → Leg) : (s.modLeg i f).nextDma = s.nextDma := rfl
@[simp] theorem State.modLeg_nextSeq (s : State) (i : Nat) (f : Leg → Leg) : (s.modLeg i f).nextSeq = s.nextSeq := rfl
@[simp] theorem State.modLeg_hostMem (s : State) (i : Nat) (f : Leg → Leg) : (s.modLeg i f).hostMem = s.hostMem := rfl
@[simp] theorem State.modLeg_gens (s : State) (i : Nat) (f : Leg → Leg) : (s.modLeg i f).gens = s.gens := rfl
@[simp] theorem State.modLeg_flash (s : State) (i : Nat) (f : Leg → Leg) : (s.modLeg i f).flash = s.flash := rfl
@[simp] theorem State.modLeg_objs (s : State) (i : Nat) (f : Leg → Leg) : (s.modLeg i f).objs = { s.objs with legs := adj s.objs.legs i f } := rfl
@[simp] theorem State.modLeg_objsBefore (s : State) (i : Nat) (f : Leg → Leg) : (s.modLeg i f).objsBefore = s.objsBefore := rfl
@[simp] theorem State.modLeg_views (s : State) (i : Nat) (f : Leg → Leg) : (s.modLeg i f).views = s.views := rfl
@[simp] theorem State.modLeg_net (s : State) (i : Nat) (f : Leg → Leg) : (s.modLeg i f).net = s.net := rfl
@[simp] theorem State.modLeg_media (s : State) (i : Nat) (f : Leg → Leg) : (s.modLeg i f).media = s.media := rfl
@[simp] theorem State.modLeg_thyme (s : State) (i : Nat) (f : Leg → Leg) : (s.modLeg i f).thyme = s.thyme := rfl
@[simp] theorem State.modLeg_tbs (s : State) (i : Nat) (f : Leg → Leg) : (s.modLeg i f).tbs = s.tbs := rfl
@[simp] theorem State.modLeg_dram (s : State) (i : Nat) (f : Leg → Leg) : (s.modLeg i f).dram = s.dram := rfl
@[simp] theorem State.modLeg_power (s : State) (i : Nat) (f : Leg → Leg) : (s.modLeg i f).power = s.power := rfl
@[simp] theorem State.modLeg_pins (s : State) (i : Nat) (f : Leg → Leg) : (s.modLeg i f).pins = s.pins := rfl
@[simp] theorem State.modLeg_router (s : State) (i : Nat) (f : Leg → Leg) : (s.modLeg i f).router = s.router := rfl
@[simp] theorem State.modLeg_cnt (s : State) (i : Nat) (f : Leg → Leg) : (s.modLeg i f).cnt = s.cnt := rfl
@[simp] theorem State.modLeg_cntTick (s : State) (i : Nat) (f : Leg → Leg) : (s.modLeg i f).cntTick = s.cntTick := rfl
@[simp] theorem State.modLeg_unitsTick (s : State) (i : Nat) (f : Leg → Leg) : (s.modLeg i f).unitsTick = s.unitsTick := rfl
@[simp] theorem State.modLeg_clientMbps (s : State) (i : Nat) (f : Leg → Leg) : (s.modLeg i f).clientMbps = s.clientMbps := rfl

/-! ### `State.modStream` -/

@[simp] theorem State.modStream_pending (s : State) (i : Nat) (f : Stream → Stream) : (s.modStream i f).pending = s.pending := rfl
@[simp] theorem State.modStream_now (s : State) (i : Nat) (f : Stream → Stream) : (s.modStream i f).now = s.now := rfl
@[simp] theorem State.modStream_free (s : State) (i : Nat) (f : Stream → Stream) : (s.modStream i f).free = s.free := rfl
@[simp] theorem State.modStream_tick (s : State) (i : Nat) (f : Stream → Stream) : (s.modStream i f).tick = s.tick := rfl
@[simp] theorem State.modStream_tickAt (s : State) (i : Nat) (f : Stream → Stream) : (s.modStream i f).tickAt = s.tickAt := rfl
@[simp] theorem State.modStream_tickVal (s : State) (i : Nat) (f : Stream → Stream) : (s.modStream i f).tickVal = s.tickVal := rfl
@[simp] theorem State.modStream_hosts (s : State) (i : Nat) (f : Stream → Stream) : (s.modStream i f).hosts = s.hosts := rfl
@[simp] theorem State.modStream_waiting (s : State) (i : Nat) (f : Stream → Stream) : (s.modStream i f).waiting = s.waiting := rfl
@[simp] theorem State.modStream_boundaryHeld (s : State) (i : Nat) (f : Stream → Stream) : (s.modStream i f).boundaryHeld = s.boundaryHeld := rfl
@[simp] theorem State.modStream_dmas (s : State) (i : Nat) (f : Stream → Stream) : (s.modStream i f).dmas = s.dmas := rfl
@[simp] theorem State.modStream_nextDma (s : State) (i : Nat) (f : Stream → Stream) : (s.modStream i f).nextDma = s.nextDma := rfl
@[simp] theorem State.modStream_nextSeq (s : State) (i : Nat) (f : Stream → Stream) : (s.modStream i f).nextSeq = s.nextSeq := rfl
@[simp] theorem State.modStream_hostMem (s : State) (i : Nat) (f : Stream → Stream) : (s.modStream i f).hostMem = s.hostMem := rfl
@[simp] theorem State.modStream_gens (s : State) (i : Nat) (f : Stream → Stream) : (s.modStream i f).gens = s.gens := rfl
@[simp] theorem State.modStream_flash (s : State) (i : Nat) (f : Stream → Stream) : (s.modStream i f).flash = s.flash := rfl
@[simp] theorem State.modStream_objs (s : State) (i : Nat) (f : Stream → Stream) : (s.modStream i f).objs = { s.objs with streams := adj s.objs.streams i f } := rfl
@[simp] theorem State.modStream_objsBefore (s : State) (i : Nat) (f : Stream → Stream) : (s.modStream i f).objsBefore = s.objsBefore := rfl
@[simp] theorem State.modStream_views (s : State) (i : Nat) (f : Stream → Stream) : (s.modStream i f).views = s.views := rfl
@[simp] theorem State.modStream_net (s : State) (i : Nat) (f : Stream → Stream) : (s.modStream i f).net = s.net := rfl
@[simp] theorem State.modStream_media (s : State) (i : Nat) (f : Stream → Stream) : (s.modStream i f).media = s.media := rfl
@[simp] theorem State.modStream_thyme (s : State) (i : Nat) (f : Stream → Stream) : (s.modStream i f).thyme = s.thyme := rfl
@[simp] theorem State.modStream_tbs (s : State) (i : Nat) (f : Stream → Stream) : (s.modStream i f).tbs = s.tbs := rfl
@[simp] theorem State.modStream_dram (s : State) (i : Nat) (f : Stream → Stream) : (s.modStream i f).dram = s.dram := rfl
@[simp] theorem State.modStream_power (s : State) (i : Nat) (f : Stream → Stream) : (s.modStream i f).power = s.power := rfl
@[simp] theorem State.modStream_pins (s : State) (i : Nat) (f : Stream → Stream) : (s.modStream i f).pins = s.pins := rfl
@[simp] theorem State.modStream_router (s : State) (i : Nat) (f : Stream → Stream) : (s.modStream i f).router = s.router := rfl
@[simp] theorem State.modStream_cnt (s : State) (i : Nat) (f : Stream → Stream) : (s.modStream i f).cnt = s.cnt := rfl
@[simp] theorem State.modStream_cntTick (s : State) (i : Nat) (f : Stream → Stream) : (s.modStream i f).cntTick = s.cntTick := rfl
@[simp] theorem State.modStream_unitsTick (s : State) (i : Nat) (f : Stream → Stream) : (s.modStream i f).unitsTick = s.unitsTick := rfl
@[simp] theorem State.modStream_clientMbps (s : State) (i : Nat) (f : Stream → Stream) : (s.modStream i f).clientMbps = s.clientMbps := rfl

/-! ### `State.modNet` -/

@[simp] theorem State.modNet_pending (s : State) (f : Net → Net) : (s.modNet f).pending = s.pending := rfl
@[simp] theorem State.modNet_now (s : State) (f : Net → Net) : (s.modNet f).now = s.now := rfl
@[simp] theorem State.modNet_free (s : State) (f : Net → Net) : (s.modNet f).free = s.free := rfl
@[simp] theorem State.modNet_tick (s : State) (f : Net → Net) : (s.modNet f).tick = s.tick := rfl
@[simp] theorem State.modNet_tickAt (s : State) (f : Net → Net) : (s.modNet f).tickAt = s.tickAt := rfl
@[simp] theorem State.modNet_tickVal (s : State) (f : Net → Net) : (s.modNet f).tickVal = s.tickVal := rfl
@[simp] theorem State.modNet_hosts (s : State) (f : Net → Net) : (s.modNet f).hosts = s.hosts := rfl
@[simp] theorem State.modNet_waiting (s : State) (f : Net → Net) : (s.modNet f).waiting = s.waiting := rfl
@[simp] theorem State.modNet_boundaryHeld (s : State) (f : Net → Net) : (s.modNet f).boundaryHeld = s.boundaryHeld := rfl
@[simp] theorem State.modNet_dmas (s : State) (f : Net → Net) : (s.modNet f).dmas = s.dmas := rfl
@[simp] theorem State.modNet_nextDma (s : State) (f : Net → Net) : (s.modNet f).nextDma = s.nextDma := rfl
@[simp] theorem State.modNet_nextSeq (s : State) (f : Net → Net) : (s.modNet f).nextSeq = s.nextSeq := rfl
@[simp] theorem State.modNet_hostMem (s : State) (f : Net → Net) : (s.modNet f).hostMem = s.hostMem := rfl
@[simp] theorem State.modNet_gens (s : State) (f : Net → Net) : (s.modNet f).gens = s.gens := rfl
@[simp] theorem State.modNet_flash (s : State) (f : Net → Net) : (s.modNet f).flash = s.flash := rfl
@[simp] theorem State.modNet_objs (s : State) (f : Net → Net) : (s.modNet f).objs = s.objs := rfl
@[simp] theorem State.modNet_objsBefore (s : State) (f : Net → Net) : (s.modNet f).objsBefore = s.objsBefore := rfl
@[simp] theorem State.modNet_views (s : State) (f : Net → Net) : (s.modNet f).views = s.views := rfl
@[simp] theorem State.modNet_net (s : State) (f : Net → Net) : (s.modNet f).net = f s.net := rfl
@[simp] theorem State.modNet_media (s : State) (f : Net → Net) : (s.modNet f).media = s.media := rfl
@[simp] theorem State.modNet_thyme (s : State) (f : Net → Net) : (s.modNet f).thyme = s.thyme := rfl
@[simp] theorem State.modNet_tbs (s : State) (f : Net → Net) : (s.modNet f).tbs = s.tbs := rfl
@[simp] theorem State.modNet_dram (s : State) (f : Net → Net) : (s.modNet f).dram = s.dram := rfl
@[simp] theorem State.modNet_power (s : State) (f : Net → Net) : (s.modNet f).power = s.power := rfl
@[simp] theorem State.modNet_pins (s : State) (f : Net → Net) : (s.modNet f).pins = s.pins := rfl
@[simp] theorem State.modNet_router (s : State) (f : Net → Net) : (s.modNet f).router = s.router := rfl
@[simp] theorem State.modNet_cnt (s : State) (f : Net → Net) : (s.modNet f).cnt = s.cnt := rfl
@[simp] theorem State.modNet_cntTick (s : State) (f : Net → Net) : (s.modNet f).cntTick = s.cntTick := rfl
@[simp] theorem State.modNet_unitsTick (s : State) (f : Net → Net) : (s.modNet f).unitsTick = s.unitsTick := rfl
@[simp] theorem State.modNet_clientMbps (s : State) (f : Net → Net) : (s.modNet f).clientMbps = s.clientMbps := rfl

/-! ### `State.modLport` -/

@[simp] theorem State.modLport_pending (s : State) (l : Nat) (f : LPort → LPort) : (s.modLport l f).pending = s.pending := rfl
@[simp] theorem State.modLport_now (s : State) (l : Nat) (f : LPort → LPort) : (s.modLport l f).now = s.now := rfl
@[simp] theorem State.modLport_free (s : State) (l : Nat) (f : LPort → LPort) : (s.modLport l f).free = s.free := rfl
@[simp] theorem State.modLport_tick (s : State) (l : Nat) (f : LPort → LPort) : (s.modLport l f).tick = s.tick := rfl
@[simp] theorem State.modLport_tickAt (s : State) (l : Nat) (f : LPort → LPort) : (s.modLport l f).tickAt = s.tickAt := rfl
@[simp] theorem State.modLport_tickVal (s : State) (l : Nat) (f : LPort → LPort) : (s.modLport l f).tickVal = s.tickVal := rfl
@[simp] theorem State.modLport_hosts (s : State) (l : Nat) (f : LPort → LPort) : (s.modLport l f).hosts = s.hosts := rfl
@[simp] theorem State.modLport_waiting (s : State) (l : Nat) (f : LPort → LPort) : (s.modLport l f).waiting = s.waiting := rfl
@[simp] theorem State.modLport_boundaryHeld (s : State) (l : Nat) (f : LPort → LPort) : (s.modLport l f).boundaryHeld = s.boundaryHeld := rfl
@[simp] theorem State.modLport_dmas (s : State) (l : Nat) (f : LPort → LPort) : (s.modLport l f).dmas = s.dmas := rfl
@[simp] theorem State.modLport_nextDma (s : State) (l : Nat) (f : LPort → LPort) : (s.modLport l f).nextDma = s.nextDma := rfl
@[simp] theorem State.modLport_nextSeq (s : State) (l : Nat) (f : LPort → LPort) : (s.modLport l f).nextSeq = s.nextSeq := rfl
@[simp] theorem State.modLport_hostMem (s : State) (l : Nat) (f : LPort → LPort) : (s.modLport l f).hostMem = s.hostMem := rfl
@[simp] theorem State.modLport_gens (s : State) (l : Nat) (f : LPort → LPort) : (s.modLport l f).gens = s.gens := rfl
@[simp] theorem State.modLport_flash (s : State) (l : Nat) (f : LPort → LPort) : (s.modLport l f).flash = s.flash := rfl
@[simp] theorem State.modLport_objs (s : State) (l : Nat) (f : LPort → LPort) : (s.modLport l f).objs = s.objs := rfl
@[simp] theorem State.modLport_objsBefore (s : State) (l : Nat) (f : LPort → LPort) : (s.modLport l f).objsBefore = s.objsBefore := rfl
@[simp] theorem State.modLport_views (s : State) (l : Nat) (f : LPort → LPort) : (s.modLport l f).views = s.views := rfl
@[simp] theorem State.modLport_net (s : State) (l : Nat) (f : LPort → LPort) : (s.modLport l f).net = { s.net with lports := adjD s.net.lports l {} f } := rfl
@[simp] theorem State.modLport_media (s : State) (l : Nat) (f : LPort → LPort) : (s.modLport l f).media = s.media := rfl
@[simp] theorem State.modLport_thyme (s : State) (l : Nat) (f : LPort → LPort) : (s.modLport l f).thyme = s.thyme := rfl
@[simp] theorem State.modLport_tbs (s : State) (l : Nat) (f : LPort → LPort) : (s.modLport l f).tbs = s.tbs := rfl
@[simp] theorem State.modLport_dram (s : State) (l : Nat) (f : LPort → LPort) : (s.modLport l f).dram = s.dram := rfl
@[simp] theorem State.modLport_power (s : State) (l : Nat) (f : LPort → LPort) : (s.modLport l f).power = s.power := rfl
@[simp] theorem State.modLport_pins (s : State) (l : Nat) (f : LPort → LPort) : (s.modLport l f).pins = s.pins := rfl
@[simp] theorem State.modLport_router (s : State) (l : Nat) (f : LPort → LPort) : (s.modLport l f).router = s.router := rfl
@[simp] theorem State.modLport_cnt (s : State) (l : Nat) (f : LPort → LPort) : (s.modLport l f).cnt = s.cnt := rfl
@[simp] theorem State.modLport_cntTick (s : State) (l : Nat) (f : LPort → LPort) : (s.modLport l f).cntTick = s.cntTick := rfl
@[simp] theorem State.modLport_unitsTick (s : State) (l : Nat) (f : LPort → LPort) : (s.modLport l f).unitsTick = s.unitsTick := rfl
@[simp] theorem State.modLport_clientMbps (s : State) (l : Nat) (f : LPort → LPort) : (s.modLport l f).clientMbps = s.clientMbps := rfl

/-! ### `State.modMedia` -/

@[simp] theorem State.modMedia_pending (s : State) (f : Media → Media) : (s.modMedia f).pending = s.pending := rfl
@[simp] theorem State.modMedia_now (s : State) (f : Media → Media) : (s.modMedia f).now = s.now := rfl
@[simp] theorem State.modMedia_free (s : State) (f : Media → Media) : (s.modMedia f).free = s.free := rfl
@[simp] theorem State.modMedia_tick (s : State) (f : Media → Media) : (s.modMedia f).tick = s.tick := rfl
@[simp] theorem State.modMedia_tickAt (s : State) (f : Media → Media) : (s.modMedia f).tickAt = s.tickAt := rfl
@[simp] theorem State.modMedia_tickVal (s : State) (f : Media → Media) : (s.modMedia f).tickVal = s.tickVal := rfl
@[simp] theorem State.modMedia_hosts (s : State) (f : Media → Media) : (s.modMedia f).hosts = s.hosts := rfl
@[simp] theorem State.modMedia_waiting (s : State) (f : Media → Media) : (s.modMedia f).waiting = s.waiting := rfl
@[simp] theorem State.modMedia_boundaryHeld (s : State) (f : Media → Media) : (s.modMedia f).boundaryHeld = s.boundaryHeld := rfl
@[simp] theorem State.modMedia_dmas (s : State) (f : Media → Media) : (s.modMedia f).dmas = s.dmas := rfl
@[simp] theorem State.modMedia_nextDma (s : State) (f : Media → Media) : (s.modMedia f).nextDma = s.nextDma := rfl
@[simp] theorem State.modMedia_nextSeq (s : State) (f : Media → Media) : (s.modMedia f).nextSeq = s.nextSeq := rfl
@[simp] theorem State.modMedia_hostMem (s : State) (f : Media → Media) : (s.modMedia f).hostMem = s.hostMem := rfl
@[simp] theorem State.modMedia_gens (s : State) (f : Media → Media) : (s.modMedia f).gens = s.gens := rfl
@[simp] theorem State.modMedia_flash (s : State) (f : Media → Media) : (s.modMedia f).flash = s.flash := rfl
@[simp] theorem State.modMedia_objs (s : State) (f : Media → Media) : (s.modMedia f).objs = s.objs := rfl
@[simp] theorem State.modMedia_objsBefore (s : State) (f : Media → Media) : (s.modMedia f).objsBefore = s.objsBefore := rfl
@[simp] theorem State.modMedia_views (s : State) (f : Media → Media) : (s.modMedia f).views = s.views := rfl
@[simp] theorem State.modMedia_net (s : State) (f : Media → Media) : (s.modMedia f).net = s.net := rfl
@[simp] theorem State.modMedia_media (s : State) (f : Media → Media) : (s.modMedia f).media = f s.media := rfl
@[simp] theorem State.modMedia_thyme (s : State) (f : Media → Media) : (s.modMedia f).thyme = s.thyme := rfl
@[simp] theorem State.modMedia_tbs (s : State) (f : Media → Media) : (s.modMedia f).tbs = s.tbs := rfl
@[simp] theorem State.modMedia_dram (s : State) (f : Media → Media) : (s.modMedia f).dram = s.dram := rfl
@[simp] theorem State.modMedia_power (s : State) (f : Media → Media) : (s.modMedia f).power = s.power := rfl
@[simp] theorem State.modMedia_pins (s : State) (f : Media → Media) : (s.modMedia f).pins = s.pins := rfl
@[simp] theorem State.modMedia_router (s : State) (f : Media → Media) : (s.modMedia f).router = s.router := rfl
@[simp] theorem State.modMedia_cnt (s : State) (f : Media → Media) : (s.modMedia f).cnt = s.cnt := rfl
@[simp] theorem State.modMedia_cntTick (s : State) (f : Media → Media) : (s.modMedia f).cntTick = s.cntTick := rfl
@[simp] theorem State.modMedia_unitsTick (s : State) (f : Media → Media) : (s.modMedia f).unitsTick = s.unitsTick := rfl
@[simp] theorem State.modMedia_clientMbps (s : State) (f : Media → Media) : (s.modMedia f).clientMbps = s.clientMbps := rfl

/-! ### `State.modThyme` -/

@[simp] theorem State.modThyme_pending (s : State) (f : Thyme → Thyme) : (s.modThyme f).pending = s.pending := rfl
@[simp] theorem State.modThyme_now (s : State) (f : Thyme → Thyme) : (s.modThyme f).now = s.now := rfl
@[simp] theorem State.modThyme_free (s : State) (f : Thyme → Thyme) : (s.modThyme f).free = s.free := rfl
@[simp] theorem State.modThyme_tick (s : State) (f : Thyme → Thyme) : (s.modThyme f).tick = s.tick := rfl
@[simp] theorem State.modThyme_tickAt (s : State) (f : Thyme → Thyme) : (s.modThyme f).tickAt = s.tickAt := rfl
@[simp] theorem State.modThyme_tickVal (s : State) (f : Thyme → Thyme) : (s.modThyme f).tickVal = s.tickVal := rfl
@[simp] theorem State.modThyme_hosts (s : State) (f : Thyme → Thyme) : (s.modThyme f).hosts = s.hosts := rfl
@[simp] theorem State.modThyme_waiting (s : State) (f : Thyme → Thyme) : (s.modThyme f).waiting = s.waiting := rfl
@[simp] theorem State.modThyme_boundaryHeld (s : State) (f : Thyme → Thyme) : (s.modThyme f).boundaryHeld = s.boundaryHeld := rfl
@[simp] theorem State.modThyme_dmas (s : State) (f : Thyme → Thyme) : (s.modThyme f).dmas = s.dmas := rfl
@[simp] theorem State.modThyme_nextDma (s : State) (f : Thyme → Thyme) : (s.modThyme f).nextDma = s.nextDma := rfl
@[simp] theorem State.modThyme_nextSeq (s : State) (f : Thyme → Thyme) : (s.modThyme f).nextSeq = s.nextSeq := rfl
@[simp] theorem State.modThyme_hostMem (s : State) (f : Thyme → Thyme) : (s.modThyme f).hostMem = s.hostMem := rfl
@[simp] theorem State.modThyme_gens (s : State) (f : Thyme → Thyme) : (s.modThyme f).gens = s.gens := rfl
@[simp] theorem State.modThyme_flash (s : State) (f : Thyme → Thyme) : (s.modThyme f).flash = s.flash := rfl
@[simp] theorem State.modThyme_objs (s : State) (f : Thyme → Thyme) : (s.modThyme f).objs = s.objs := rfl
@[simp] theorem State.modThyme_objsBefore (s : State) (f : Thyme → Thyme) : (s.modThyme f).objsBefore = s.objsBefore := rfl
@[simp] theorem State.modThyme_views (s : State) (f : Thyme → Thyme) : (s.modThyme f).views = s.views := rfl
@[simp] theorem State.modThyme_net (s : State) (f : Thyme → Thyme) : (s.modThyme f).net = s.net := rfl
@[simp] theorem State.modThyme_media (s : State) (f : Thyme → Thyme) : (s.modThyme f).media = s.media := rfl
@[simp] theorem State.modThyme_thyme (s : State) (f : Thyme → Thyme) : (s.modThyme f).thyme = f s.thyme := rfl
@[simp] theorem State.modThyme_tbs (s : State) (f : Thyme → Thyme) : (s.modThyme f).tbs = s.tbs := rfl
@[simp] theorem State.modThyme_dram (s : State) (f : Thyme → Thyme) : (s.modThyme f).dram = s.dram := rfl
@[simp] theorem State.modThyme_power (s : State) (f : Thyme → Thyme) : (s.modThyme f).power = s.power := rfl
@[simp] theorem State.modThyme_pins (s : State) (f : Thyme → Thyme) : (s.modThyme f).pins = s.pins := rfl
@[simp] theorem State.modThyme_router (s : State) (f : Thyme → Thyme) : (s.modThyme f).router = s.router := rfl
@[simp] theorem State.modThyme_cnt (s : State) (f : Thyme → Thyme) : (s.modThyme f).cnt = s.cnt := rfl
@[simp] theorem State.modThyme_cntTick (s : State) (f : Thyme → Thyme) : (s.modThyme f).cntTick = s.cntTick := rfl
@[simp] theorem State.modThyme_unitsTick (s : State) (f : Thyme → Thyme) : (s.modThyme f).unitsTick = s.unitsTick := rfl
@[simp] theorem State.modThyme_clientMbps (s : State) (f : Thyme → Thyme) : (s.modThyme f).clientMbps = s.clientMbps := rfl

/-! ### `State.setCore` -/

@[simp] theorem State.setCore_pending (s : State) (c : Nat) (k : Core) : (s.setCore c k).pending = s.pending := rfl
@[simp] theorem State.setCore_now (s : State) (c : Nat) (k : Core) : (s.setCore c k).now = s.now := rfl
@[simp] theorem State.setCore_free (s : State) (c : Nat) (k : Core) : (s.setCore c k).free = s.free := rfl
@[simp] theorem State.setCore_tick (s : State) (c : Nat) (k : Core) : (s.setCore c k).tick = s.tick := rfl
@[simp] theorem State.setCore_tickAt (s : State) (c : Nat) (k : Core) : (s.setCore c k).tickAt = s.tickAt := rfl
@[simp] theorem State.setCore_tickVal (s : State) (c : Nat) (k : Core) : (s.setCore c k).tickVal = s.tickVal := rfl
@[simp] theorem State.setCore_hosts (s : State) (c : Nat) (k : Core) : (s.setCore c k).hosts = s.hosts := rfl
@[simp] theorem State.setCore_waiting (s : State) (c : Nat) (k : Core) : (s.setCore c k).waiting = s.waiting := rfl
@[simp] theorem State.setCore_boundaryHeld (s : State) (c : Nat) (k : Core) : (s.setCore c k).boundaryHeld = s.boundaryHeld := rfl
@[simp] theorem State.setCore_dmas (s : State) (c : Nat) (k : Core) : (s.setCore c k).dmas = s.dmas := rfl
@[simp] theorem State.setCore_nextDma (s : State) (c : Nat) (k : Core) : (s.setCore c k).nextDma = s.nextDma := rfl
@[simp] theorem State.setCore_nextSeq (s : State) (c : Nat) (k : Core) : (s.setCore c k).nextSeq = s.nextSeq := rfl
@[simp] theorem State.setCore_hostMem (s : State) (c : Nat) (k : Core) : (s.setCore c k).hostMem = s.hostMem := rfl
@[simp] theorem State.setCore_gens (s : State) (c : Nat) (k : Core) : (s.setCore c k).gens = s.gens := rfl
@[simp] theorem State.setCore_flash (s : State) (c : Nat) (k : Core) : (s.setCore c k).flash = s.flash := rfl
@[simp] theorem State.setCore_objs (s : State) (c : Nat) (k : Core) : (s.setCore c k).objs = s.objs := rfl
@[simp] theorem State.setCore_objsBefore (s : State) (c : Nat) (k : Core) : (s.setCore c k).objsBefore = s.objsBefore := rfl
@[simp] theorem State.setCore_views (s : State) (c : Nat) (k : Core) : (s.setCore c k).views = s.views := rfl
@[simp] theorem State.setCore_net (s : State) (c : Nat) (k : Core) : (s.setCore c k).net = s.net := rfl
@[simp] theorem State.setCore_media (s : State) (c : Nat) (k : Core) : (s.setCore c k).media = s.media := rfl
@[simp] theorem State.setCore_thyme (s : State) (c : Nat) (k : Core) : (s.setCore c k).thyme = { s.thyme with cores := put s.thyme.cores c k } := rfl
@[simp] theorem State.setCore_tbs (s : State) (c : Nat) (k : Core) : (s.setCore c k).tbs = s.tbs := rfl
@[simp] theorem State.setCore_dram (s : State) (c : Nat) (k : Core) : (s.setCore c k).dram = s.dram := rfl
@[simp] theorem State.setCore_power (s : State) (c : Nat) (k : Core) : (s.setCore c k).power = s.power := rfl
@[simp] theorem State.setCore_pins (s : State) (c : Nat) (k : Core) : (s.setCore c k).pins = s.pins := rfl
@[simp] theorem State.setCore_router (s : State) (c : Nat) (k : Core) : (s.setCore c k).router = s.router := rfl
@[simp] theorem State.setCore_cnt (s : State) (c : Nat) (k : Core) : (s.setCore c k).cnt = s.cnt := rfl
@[simp] theorem State.setCore_cntTick (s : State) (c : Nat) (k : Core) : (s.setCore c k).cntTick = s.cntTick := rfl
@[simp] theorem State.setCore_unitsTick (s : State) (c : Nat) (k : Core) : (s.setCore c k).unitsTick = s.unitsTick := rfl
@[simp] theorem State.setCore_clientMbps (s : State) (c : Nat) (k : Core) : (s.setCore c k).clientMbps = s.clientMbps := rfl

/-! ### `State.modTb` -/

@[simp] theorem State.modTb_pending (s : State) (n : Nat) (f : TimeBase → TimeBase) : (s.modTb n f).pending = s.pending := rfl
@[simp] theorem State.modTb_now (s : State) (n : Nat) (f : TimeBase → TimeBase) : (s.modTb n f).now = s.now := rfl
@[simp] theorem State.modTb_free (s : State) (n : Nat) (f : TimeBase → TimeBase) : (s.modTb n f).free = s.free := rfl
@[simp] theorem State.modTb_tick (s : State) (n : Nat) (f : TimeBase → TimeBase) : (s.modTb n f).tick = s.tick := rfl
@[simp] theorem State.modTb_tickAt (s : State) (n : Nat) (f : TimeBase → TimeBase) : (s.modTb n f).tickAt = s.tickAt := rfl
@[simp] theorem State.modTb_tickVal (s : State) (n : Nat) (f : TimeBase → TimeBase) : (s.modTb n f).tickVal = s.tickVal := rfl
@[simp] theorem State.modTb_hosts (s : State) (n : Nat) (f : TimeBase → TimeBase) : (s.modTb n f).hosts = s.hosts := rfl
@[simp] theorem State.modTb_waiting (s : State) (n : Nat) (f : TimeBase → TimeBase) : (s.modTb n f).waiting = s.waiting := rfl
@[simp] theorem State.modTb_boundaryHeld (s : State) (n : Nat) (f : TimeBase → TimeBase) : (s.modTb n f).boundaryHeld = s.boundaryHeld := rfl
@[simp] theorem State.modTb_dmas (s : State) (n : Nat) (f : TimeBase → TimeBase) : (s.modTb n f).dmas = s.dmas := rfl
@[simp] theorem State.modTb_nextDma (s : State) (n : Nat) (f : TimeBase → TimeBase) : (s.modTb n f).nextDma = s.nextDma := rfl
@[simp] theorem State.modTb_nextSeq (s : State) (n : Nat) (f : TimeBase → TimeBase) : (s.modTb n f).nextSeq = s.nextSeq := rfl
@[simp] theorem State.modTb_hostMem (s : State) (n : Nat) (f : TimeBase → TimeBase) : (s.modTb n f).hostMem = s.hostMem := rfl
@[simp] theorem State.modTb_gens (s : State) (n : Nat) (f : TimeBase → TimeBase) : (s.modTb n f).gens = s.gens := rfl
@[simp] theorem State.modTb_flash (s : State) (n : Nat) (f : TimeBase → TimeBase) : (s.modTb n f).flash = s.flash := rfl
@[simp] theorem State.modTb_objs (s : State) (n : Nat) (f : TimeBase → TimeBase) : (s.modTb n f).objs = s.objs := rfl
@[simp] theorem State.modTb_objsBefore (s : State) (n : Nat) (f : TimeBase → TimeBase) : (s.modTb n f).objsBefore = s.objsBefore := rfl
@[simp] theorem State.modTb_views (s : State) (n : Nat) (f : TimeBase → TimeBase) : (s.modTb n f).views = s.views := rfl
@[simp] theorem State.modTb_net (s : State) (n : Nat) (f : TimeBase → TimeBase) : (s.modTb n f).net = s.net := rfl
@[simp] theorem State.modTb_media (s : State) (n : Nat) (f : TimeBase → TimeBase) : (s.modTb n f).media = s.media := rfl
@[simp] theorem State.modTb_thyme (s : State) (n : Nat) (f : TimeBase → TimeBase) : (s.modTb n f).thyme = s.thyme := rfl
@[simp] theorem State.modTb_tbs (s : State) (n : Nat) (f : TimeBase → TimeBase) : (s.modTb n f).tbs = adjD s.tbs n {} f := rfl
@[simp] theorem State.modTb_dram (s : State) (n : Nat) (f : TimeBase → TimeBase) : (s.modTb n f).dram = s.dram := rfl
@[simp] theorem State.modTb_power (s : State) (n : Nat) (f : TimeBase → TimeBase) : (s.modTb n f).power = s.power := rfl
@[simp] theorem State.modTb_pins (s : State) (n : Nat) (f : TimeBase → TimeBase) : (s.modTb n f).pins = s.pins := rfl
@[simp] theorem State.modTb_router (s : State) (n : Nat) (f : TimeBase → TimeBase) : (s.modTb n f).router = s.router := rfl
@[simp] theorem State.modTb_cnt (s : State) (n : Nat) (f : TimeBase → TimeBase) : (s.modTb n f).cnt = s.cnt := rfl
@[simp] theorem State.modTb_cntTick (s : State) (n : Nat) (f : TimeBase → TimeBase) : (s.modTb n f).cntTick = s.cntTick := rfl
@[simp] theorem State.modTb_unitsTick (s : State) (n : Nat) (f : TimeBase → TimeBase) : (s.modTb n f).unitsTick = s.unitsTick := rfl
@[simp] theorem State.modTb_clientMbps (s : State) (n : Nat) (f : TimeBase → TimeBase) : (s.modTb n f).clientMbps = s.clientMbps := rfl

/-! ### `State.modDram` -/

@[simp] theorem State.modDram_pending (s : State) (f : Dram → Dram) : (s.modDram f).pending = s.pending := rfl
@[simp] theorem State.modDram_now (s : State) (f : Dram → Dram) : (s.modDram f).now = s.now := rfl
@[simp] theorem State.modDram_free (s : State) (f : Dram → Dram) : (s.modDram f).free = s.free := rfl
@[simp] theorem State.modDram_tick (s : State) (f : Dram → Dram) : (s.modDram f).tick = s.tick := rfl
@[simp] theorem State.modDram_tickAt (s : State) (f : Dram → Dram) : (s.modDram f).tickAt = s.tickAt := rfl
@[simp] theorem State.modDram_tickVal (s : State) (f : Dram → Dram) : (s.modDram f).tickVal = s.tickVal := rfl
@[simp] theorem State.modDram_hosts (s : State) (f : Dram → Dram) : (s.modDram f).hosts = s.hosts := rfl
@[simp] theorem State.modDram_waiting (s : State) (f : Dram → Dram) : (s.modDram f).waiting = s.waiting := rfl
@[simp] theorem State.modDram_boundaryHeld (s : State) (f : Dram → Dram) : (s.modDram f).boundaryHeld = s.boundaryHeld := rfl
@[simp] theorem State.modDram_dmas (s : State) (f : Dram → Dram) : (s.modDram f).dmas = s.dmas := rfl
@[simp] theorem State.modDram_nextDma (s : State) (f : Dram → Dram) : (s.modDram f).nextDma = s.nextDma := rfl
@[simp] theorem State.modDram_nextSeq (s : State) (f : Dram → Dram) : (s.modDram f).nextSeq = s.nextSeq := rfl
@[simp] theorem State.modDram_hostMem (s : State) (f : Dram → Dram) : (s.modDram f).hostMem = s.hostMem := rfl
@[simp] theorem State.modDram_gens (s : State) (f : Dram → Dram) : (s.modDram f).gens = s.gens := rfl
@[simp] theorem State.modDram_flash (s : State) (f : Dram → Dram) : (s.modDram f).flash = s.flash := rfl
@[simp] theorem State.modDram_objs (s : State) (f : Dram → Dram) : (s.modDram f).objs = s.objs := rfl
@[simp] theorem State.modDram_objsBefore (s : State) (f : Dram → Dram) : (s.modDram f).objsBefore = s.objsBefore := rfl
@[simp] theorem State.modDram_views (s : State) (f : Dram → Dram) : (s.modDram f).views = s.views := rfl
@[simp] theorem State.modDram_net (s : State) (f : Dram → Dram) : (s.modDram f).net = s.net := rfl
@[simp] theorem State.modDram_media (s : State) (f : Dram → Dram) : (s.modDram f).media = s.media := rfl
@[simp] theorem State.modDram_thyme (s : State) (f : Dram → Dram) : (s.modDram f).thyme = s.thyme := rfl
@[simp] theorem State.modDram_tbs (s : State) (f : Dram → Dram) : (s.modDram f).tbs = s.tbs := rfl
@[simp] theorem State.modDram_dram (s : State) (f : Dram → Dram) : (s.modDram f).dram = f s.dram := rfl
@[simp] theorem State.modDram_power (s : State) (f : Dram → Dram) : (s.modDram f).power = s.power := rfl
@[simp] theorem State.modDram_pins (s : State) (f : Dram → Dram) : (s.modDram f).pins = s.pins := rfl
@[simp] theorem State.modDram_router (s : State) (f : Dram → Dram) : (s.modDram f).router = s.router := rfl
@[simp] theorem State.modDram_cnt (s : State) (f : Dram → Dram) : (s.modDram f).cnt = s.cnt := rfl
@[simp] theorem State.modDram_cntTick (s : State) (f : Dram → Dram) : (s.modDram f).cntTick = s.cntTick := rfl
@[simp] theorem State.modDram_unitsTick (s : State) (f : Dram → Dram) : (s.modDram f).unitsTick = s.unitsTick := rfl
@[simp] theorem State.modDram_clientMbps (s : State) (f : Dram → Dram) : (s.modDram f).clientMbps = s.clientMbps := rfl

/-! ### `State.modPower` -/

@[simp] theorem State.modPower_pending (s : State) (f : Power → Power) : (s.modPower f).pending = s.pending := rfl
@[simp] theorem State.modPower_now (s : State) (f : Power → Power) : (s.modPower f).now = s.now := rfl
@[simp] theorem State.modPower_free (s : State) (f : Power → Power) : (s.modPower f).free = s.free := rfl
@[simp] theorem State.modPower_tick (s : State) (f : Power → Power) : (s.modPower f).tick = s.tick := rfl
@[simp] theorem State.modPower_tickAt (s : State) (f : Power → Power) : (s.modPower f).tickAt = s.tickAt := rfl
@[simp] theorem State.modPower_tickVal (s : State) (f : Power → Power) : (s.modPower f).tickVal = s.tickVal := rfl
@[simp] theorem State.modPower_hosts (s : State) (f : Power → Power) : (s.modPower f).hosts = s.hosts := rfl
@[simp] theorem State.modPower_waiting (s : State) (f : Power → Power) : (s.modPower f).waiting = s.waiting := rfl
@[simp] theorem State.modPower_boundaryHeld (s : State) (f : Power → Power) : (s.modPower f).boundaryHeld = s.boundaryHeld := rfl
@[simp] theorem State.modPower_dmas (s : State) (f : Power → Power) : (s.modPower f).dmas = s.dmas := rfl
@[simp] theorem State.modPower_nextDma (s : State) (f : Power → Power) : (s.modPower f).nextDma = s.nextDma := rfl
@[simp] theorem State.modPower_nextSeq (s : State) (f : Power → Power) : (s.modPower f).nextSeq = s.nextSeq := rfl
@[simp] theorem State.modPower_hostMem (s : State) (f : Power → Power) : (s.modPower f).hostMem = s.hostMem := rfl
@[simp] theorem State.modPower_gens (s : State) (f : Power → Power) : (s.modPower f).gens = s.gens := rfl
@[simp] theorem State.modPower_flash (s : State) (f : Power → Power) : (s.modPower f).flash = s.flash := rfl
@[simp] theorem State.modPower_objs (s : State) (f : Power → Power) : (s.modPower f).objs = s.objs := rfl
@[simp] theorem State.modPower_objsBefore (s : State) (f : Power → Power) : (s.modPower f).objsBefore = s.objsBefore := rfl
@[simp] theorem State.modPower_views (s : State) (f : Power → Power) : (s.modPower f).views = s.views := rfl
@[simp] theorem State.modPower_net (s : State) (f : Power → Power) : (s.modPower f).net = s.net := rfl
@[simp] theorem State.modPower_media (s : State) (f : Power → Power) : (s.modPower f).media = s.media := rfl
@[simp] theorem State.modPower_thyme (s : State) (f : Power → Power) : (s.modPower f).thyme = s.thyme := rfl
@[simp] theorem State.modPower_tbs (s : State) (f : Power → Power) : (s.modPower f).tbs = s.tbs := rfl
@[simp] theorem State.modPower_dram (s : State) (f : Power → Power) : (s.modPower f).dram = s.dram := rfl
@[simp] theorem State.modPower_power (s : State) (f : Power → Power) : (s.modPower f).power = f s.power := rfl
@[simp] theorem State.modPower_pins (s : State) (f : Power → Power) : (s.modPower f).pins = s.pins := rfl
@[simp] theorem State.modPower_router (s : State) (f : Power → Power) : (s.modPower f).router = s.router := rfl
@[simp] theorem State.modPower_cnt (s : State) (f : Power → Power) : (s.modPower f).cnt = s.cnt := rfl
@[simp] theorem State.modPower_cntTick (s : State) (f : Power → Power) : (s.modPower f).cntTick = s.cntTick := rfl
@[simp] theorem State.modPower_unitsTick (s : State) (f : Power → Power) : (s.modPower f).unitsTick = s.unitsTick := rfl
@[simp] theorem State.modPower_clientMbps (s : State) (f : Power → Power) : (s.modPower f).clientMbps = s.clientMbps := rfl

/-! ### `State.modPins` -/

@[simp] theorem State.modPins_pending (s : State) (f : Pins → Pins) : (s.modPins f).pending = s.pending := rfl
@[simp] theorem State.modPins_now (s : State) (f : Pins → Pins) : (s.modPins f).now = s.now := rfl
@[simp] theorem State.modPins_free (s : State) (f : Pins → Pins) : (s.modPins f).free = s.free := rfl
@[simp] theorem State.modPins_tick (s : State) (f : Pins → Pins) : (s.modPins f).tick = s.tick := rfl
@[simp] theorem State.modPins_tickAt (s : State) (f : Pins → Pins) : (s.modPins f).tickAt = s.tickAt := rfl
@[simp] theorem State.modPins_tickVal (s : State) (f : Pins → Pins) : (s.modPins f).tickVal = s.tickVal := rfl
@[simp] theorem State.modPins_hosts (s : State) (f : Pins → Pins) : (s.modPins f).hosts = s.hosts := rfl
@[simp] theorem State.modPins_waiting (s : State) (f : Pins → Pins) : (s.modPins f).waiting = s.waiting := rfl
@[simp] theorem State.modPins_boundaryHeld (s : State) (f : Pins → Pins) : (s.modPins f).boundaryHeld = s.boundaryHeld := rfl
@[simp] theorem State.modPins_dmas (s : State) (f : Pins → Pins) : (s.modPins f).dmas = s.dmas := rfl
@[simp] theorem State.modPins_nextDma (s : State) (f : Pins → Pins) : (s.modPins f).nextDma = s.nextDma := rfl
@[simp] theorem State.modPins_nextSeq (s : State) (f : Pins → Pins) : (s.modPins f).nextSeq = s.nextSeq := rfl
@[simp] theorem State.modPins_hostMem (s : State) (f : Pins → Pins) : (s.modPins f).hostMem = s.hostMem := rfl
@[simp] theorem State.modPins_gens (s : State) (f : Pins → Pins) : (s.modPins f).gens = s.gens := rfl
@[simp] theorem State.modPins_flash (s : State) (f : Pins → Pins) : (s.modPins f).flash = s.flash := rfl
@[simp] theorem State.modPins_objs (s : State) (f : Pins → Pins) : (s.modPins f).objs = s.objs := rfl
@[simp] theorem State.modPins_objsBefore (s : State) (f : Pins → Pins) : (s.modPins f).objsBefore = s.objsBefore := rfl
@[simp] theorem State.modPins_views (s : State) (f : Pins → Pins) : (s.modPins f).views = s.views := rfl
@[simp] theorem State.modPins_net (s : State) (f : Pins → Pins) : (s.modPins f).net = s.net := rfl
@[simp] theorem State.modPins_media (s : State) (f : Pins → Pins) : (s.modPins f).media = s.media := rfl
@[simp] theorem State.modPins_thyme (s : State) (f : Pins → Pins) : (s.modPins f).thyme = s.thyme := rfl
@[simp] theorem State.modPins_tbs (s : State) (f : Pins → Pins) : (s.modPins f).tbs = s.tbs := rfl
@[simp] theorem State.modPins_dram (s : State) (f : Pins → Pins) : (s.modPins f).dram = s.dram := rfl
@[simp] theorem State.modPins_power (s : State) (f : Pins → Pins) : (s.modPins f).power = s.power := rfl
@[simp] theorem State.modPins_pins (s : State) (f : Pins → Pins) : (s.modPins f).pins = f s.pins := rfl
@[simp] theorem State.modPins_router (s : State) (f : Pins → Pins) : (s.modPins f).router = s.router := rfl
@[simp] theorem State.modPins_cnt (s : State) (f : Pins → Pins) : (s.modPins f).cnt = s.cnt := rfl
@[simp] theorem State.modPins_cntTick (s : State) (f : Pins → Pins) : (s.modPins f).cntTick = s.cntTick := rfl
@[simp] theorem State.modPins_unitsTick (s : State) (f : Pins → Pins) : (s.modPins f).unitsTick = s.unitsTick := rfl
@[simp] theorem State.modPins_clientMbps (s : State) (f : Pins → Pins) : (s.modPins f).clientMbps = s.clientMbps := rfl

/-! ### `State.modRouter` -/

@[simp] theorem State.modRouter_pending (s : State) (f : Router → Router) : (s.modRouter f).pending = s.pending := rfl
@[simp] theorem State.modRouter_now (s : State) (f : Router → Router) : (s.modRouter f).now = s.now := rfl
@[simp] theorem State.modRouter_free (s : State) (f : Router → Router) : (s.modRouter f).free = s.free := rfl
@[simp] theorem State.modRouter_tick (s : State) (f : Router → Router) : (s.modRouter f).tick = s.tick := rfl
@[simp] theorem State.modRouter_tickAt (s : State) (f : Router → Router) : (s.modRouter f).tickAt = s.tickAt := rfl
@[simp] theorem State.modRouter_tickVal (s : State) (f : Router → Router) : (s.modRouter f).tickVal = s.tickVal := rfl
@[simp] theorem State.modRouter_hosts (s : State) (f : Router → Router) : (s.modRouter f).hosts = s.hosts := rfl
@[simp] theorem State.modRouter_waiting (s : State) (f : Router → Router) : (s.modRouter f).waiting = s.waiting := rfl
@[simp] theorem State.modRouter_boundaryHeld (s : State) (f : Router → Router) : (s.modRouter f).boundaryHeld = s.boundaryHeld := rfl
@[simp] theorem State.modRouter_dmas (s : State) (f : Router → Router) : (s.modRouter f).dmas = s.dmas := rfl
@[simp] theorem State.modRouter_nextDma (s : State) (f : Router → Router) : (s.modRouter f).nextDma = s.nextDma := rfl
@[simp] theorem State.modRouter_nextSeq (s : State) (f : Router → Router) : (s.modRouter f).nextSeq = s.nextSeq := rfl
@[simp] theorem State.modRouter_hostMem (s : State) (f : Router → Router) : (s.modRouter f).hostMem = s.hostMem := rfl
@[simp] theorem State.modRouter_gens (s : State) (f : Router → Router) : (s.modRouter f).gens = s.gens := rfl
@[simp] theorem State.modRouter_flash (s : State) (f : Router → Router) : (s.modRouter f).flash = s.flash := rfl
@[simp] theorem State.modRouter_objs (s : State) (f : Router → Router) : (s.modRouter f).objs = s.objs := rfl
@[simp] theorem State.modRouter_objsBefore (s : State) (f : Router → Router) : (s.modRouter f).objsBefore = s.objsBefore := rfl
@[simp] theorem State.modRouter_views (s : State) (f : Router → Router) : (s.modRouter f).views = s.views := rfl
@[simp] theorem State.modRouter_net (s : State) (f : Router → Router) : (s.modRouter f).net = s.net := rfl
@[simp] theorem State.modRouter_media (s : State) (f : Router → Router) : (s.modRouter f).media = s.media := rfl
@[simp] theorem State.modRouter_thyme (s : State) (f : Router → Router) : (s.modRouter f).thyme = s.thyme := rfl
@[simp] theorem State.modRouter_tbs (s : State) (f : Router → Router) : (s.modRouter f).tbs = s.tbs := rfl
@[simp] theorem State.modRouter_dram (s : State) (f : Router → Router) : (s.modRouter f).dram = s.dram := rfl
@[simp] theorem State.modRouter_power (s : State) (f : Router → Router) : (s.modRouter f).power = s.power := rfl
@[simp] theorem State.modRouter_pins (s : State) (f : Router → Router) : (s.modRouter f).pins = s.pins := rfl
@[simp] theorem State.modRouter_router (s : State) (f : Router → Router) : (s.modRouter f).router = f s.router := rfl
@[simp] theorem State.modRouter_cnt (s : State) (f : Router → Router) : (s.modRouter f).cnt = s.cnt := rfl
@[simp] theorem State.modRouter_cntTick (s : State) (f : Router → Router) : (s.modRouter f).cntTick = s.cntTick := rfl
@[simp] theorem State.modRouter_unitsTick (s : State) (f : Router → Router) : (s.modRouter f).unitsTick = s.unitsTick := rfl
@[simp] theorem State.modRouter_clientMbps (s : State) (f : Router → Router) : (s.modRouter f).clientMbps = s.clientMbps := rfl

/-! ### `State.hostWrite` -/

@[simp] theorem State.hostWrite_pending (s : State) (p a : Nat) (b : Bytes) : (s.hostWrite p a b).pending = s.pending := rfl
@[simp] theorem State.hostWrite_now (s : State) (p a : Nat) (b : Bytes) : (s.hostWrite p a b).now = s.now := rfl
@[simp] theorem State.hostWrite_free (s : State) (p a : Nat) (b : Bytes) : (s.hostWrite p a b).free = s.free := rfl
@[simp] theorem State.hostWrite_tick (s : State) (p a : Nat) (b : Bytes) : (s.hostWrite p a b).tick = s.tick := rfl
@[simp] theorem State.hostWrite_tickAt (s : State) (p a : Nat) (b : Bytes) : (s.hostWrite p a b).tickAt = s.tickAt := rfl
@[simp] theorem State.hostWrite_tickVal (s : State) (p a : Nat) (b : Bytes) : (s.hostWrite p a b).tickVal = s.tickVal := rfl
@[simp] theorem State.hostWrite_hosts (s : State) (p a : Nat) (b : Bytes) : (s.hostWrite p a b).hosts = s.hosts := rfl
@[simp] theorem State.hostWrite_waiting (s : State) (p a : Nat) (b : Bytes) : (s.hostWrite p a b).waiting = s.waiting := rfl
@[simp] theorem State.hostWrite_boundaryHeld (s : State) (p a : Nat) (b : Bytes) : (s.hostWrite p a b).boundaryHeld = s.boundaryHeld := rfl
@[simp] theorem State.hostWrite_dmas (s : State) (p a : Nat) (b : Bytes) : (s.hostWrite p a b).dmas = s.dmas := rfl
@[simp] theorem State.hostWrite_nextDma (s : State) (p a : Nat) (b : Bytes) : (s.hostWrite p a b).nextDma = s.nextDma := rfl
@[simp] theorem State.hostWrite_nextSeq (s : State) (p a : Nat) (b : Bytes) : (s.hostWrite p a b).nextSeq = s.nextSeq := rfl
@[simp] theorem State.hostWrite_hostMem (s : State) (p a : Nat) (b : Bytes) : (s.hostWrite p a b).hostMem = if (s.host p).canIssue then put s.hostMem p (memWriteAll (0 : Byte) (lookD s.hostMem p []) a b) else s.hostMem := rfl
@[simp] theorem State.hostWrite_gens (s : State) (p a : Nat) (b : Bytes) : (s.hostWrite p a b).gens = s.gens := rfl
@[simp] theorem State.hostWrite_flash (s : State) (p a : Nat) (b : Bytes) : (s.hostWrite p a b).flash = s.flash := rfl
@[simp] theorem State.hostWrite_objs (s : State) (p a : Nat) (b : Bytes) : (s.hostWrite p a b).objs = s.objs := rfl
@[simp] theorem State.hostWrite_objsBefore (s : State) (p a : Nat) (b : Bytes) : (s.hostWrite p a b).objsBefore = s.objsBefore := rfl
@[simp] theorem State.hostWrite_views (s : State) (p a : Nat) (b : Bytes) : (s.hostWrite p a b).views = s.views := rfl
@[simp] theorem State.hostWrite_net (s : State) (p a : Nat) (b : Bytes) : (s.hostWrite p a b).net = s.net := rfl
@[simp] theorem State.hostWrite_media (s : State) (p a : Nat) (b : Bytes) : (s.hostWrite p a b).media = s.media := rfl
@[simp] theorem State.hostWrite_thyme (s : State) (p a : Nat) (b : Bytes) : (s.hostWrite p a b).thyme = s.thyme := rfl
@[simp] theorem State.hostWrite_tbs (s : State) (p a : Nat) (b : Bytes) : (s.hostWrite p a b).tbs = s.tbs := rfl
@[simp] theorem State.hostWrite_dram (s : State) (p a : Nat) (b : Bytes) : (s.hostWrite p a b).dram = s.dram := rfl
@[simp] theorem State.hostWrite_power (s : State) (p a : Nat) (b : Bytes) : (s.hostWrite p a b).power = s.power := rfl
@[simp] theorem State.hostWrite_pins (s : State) (p a : Nat) (b : Bytes) : (s.hostWrite p a b).pins = s.pins := rfl
@[simp] theorem State.hostWrite_router (s : State) (p a : Nat) (b : Bytes) : (s.hostWrite p a b).router = s.router := rfl
@[simp] theorem State.hostWrite_cnt (s : State) (p a : Nat) (b : Bytes) : (s.hostWrite p a b).cnt = s.cnt := rfl
@[simp] theorem State.hostWrite_cntTick (s : State) (p a : Nat) (b : Bytes) : (s.hostWrite p a b).cntTick = s.cntTick := rfl
@[simp] theorem State.hostWrite_unitsTick (s : State) (p a : Nat) (b : Bytes) : (s.hostWrite p a b).unitsTick = s.unitsTick := rfl
@[simp] theorem State.hostWrite_clientMbps (s : State) (p a : Nat) (b : Bytes) : (s.hostWrite p a b).clientMbps = s.clientMbps := rfl

/-! ### `State.hostPut` -/

@[simp] theorem State.hostPut_pending (s : State) (p a : Nat) (b : Bytes) : (s.hostPut p a b).pending = s.pending := rfl
@[simp] theorem State.hostPut_now (s : State) (p a : Nat) (b : Bytes) : (s.hostPut p a b).now = s.now := rfl
@[simp] theorem State.hostPut_free (s : State) (p a : Nat) (b : Bytes) : (s.hostPut p a b).free = s.free := rfl
@[simp] theorem State.hostPut_tick (s : State) (p a : Nat) (b : Bytes) : (s.hostPut p a b).tick = s.tick := rfl
@[simp] theorem State.hostPut_tickAt (s : State) (p a : Nat) (b : Bytes) : (s.hostPut p a b).tickAt = s.tickAt := rfl
@[simp] theorem State.hostPut_tickVal (s : State) (p a : Nat) (b : Bytes) : (s.hostPut p a b).tickVal = s.tickVal := rfl
@[simp] theorem State.hostPut_hosts (s : State) (p a : Nat) (b : Bytes) : (s.hostPut p a b).hosts = s.hosts := rfl
@[simp] theorem State.hostPut_waiting (s : State) (p a : Nat) (b : Bytes) : (s.hostPut p a b).waiting = s.waiting := rfl
@[simp] theorem State.hostPut_boundaryHeld (s : State) (p a : Nat) (b : Bytes) : (s.hostPut p a b).boundaryHeld = s.boundaryHeld := rfl
@[simp] theorem State.hostPut_dmas (s : State) (p a : Nat) (b : Bytes) : (s.hostPut p a b).dmas = s.dmas := rfl
@[simp] theorem State.hostPut_nextDma (s : State) (p a : Nat) (b : Bytes) : (s.hostPut p a b).nextDma = s.nextDma := rfl
@[simp] theorem State.hostPut_nextSeq (s : State) (p a : Nat) (b : Bytes) : (s.hostPut p a b).nextSeq = s.nextSeq := rfl
@[simp] theorem State.hostPut_hostMem (s : State) (p a : Nat) (b : Bytes) : (s.hostPut p a b).hostMem = put s.hostMem p (memWriteAll (0 : Byte) (lookD s.hostMem p []) a b) := rfl
@[simp] theorem State.hostPut_gens (s : State) (p a : Nat) (b : Bytes) : (s.hostPut p a b).gens = s.gens := rfl
@[simp] theorem State.hostPut_flash (s : State) (p a : Nat) (b : Bytes) : (s.hostPut p a b).flash = s.flash := rfl
@[simp] theorem State.hostPut_objs (s : State) (p a : Nat) (b : Bytes) : (s.hostPut p a b).objs = s.objs := rfl
@[simp] theorem State.hostPut_objsBefore (s : State) (p a : Nat) (b : Bytes) : (s.hostPut p a b).objsBefore = s.objsBefore := rfl
@[simp] theorem State.hostPut_views (s : State) (p a : Nat) (b : Bytes) : (s.hostPut p a b).views = s.views := rfl
@[simp] theorem State.hostPut_net (s : State) (p a : Nat) (b : Bytes) : (s.hostPut p a b).net = s.net := rfl
@[simp] theorem State.hostPut_media (s : State) (p a : Nat) (b : Bytes) : (s.hostPut p a b).media = s.media := rfl
@[simp] theorem State.hostPut_thyme (s : State) (p a : Nat) (b : Bytes) : (s.hostPut p a b).thyme = s.thyme := rfl
@[simp] theorem State.hostPut_tbs (s : State) (p a : Nat) (b : Bytes) : (s.hostPut p a b).tbs = s.tbs := rfl
@[simp] theorem State.hostPut_dram (s : State) (p a : Nat) (b : Bytes) : (s.hostPut p a b).dram = s.dram := rfl
@[simp] theorem State.hostPut_power (s : State) (p a : Nat) (b : Bytes) : (s.hostPut p a b).power = s.power := rfl
@[simp] theorem State.hostPut_pins (s : State) (p a : Nat) (b : Bytes) : (s.hostPut p a b).pins = s.pins := rfl
@[simp] theorem State.hostPut_router (s : State) (p a : Nat) (b : Bytes) : (s.hostPut p a b).router = s.router := rfl
@[simp] theorem State.hostPut_cnt (s : State) (p a : Nat) (b : Bytes) : (s.hostPut p a b).cnt = s.cnt := rfl
@[simp] theorem State.hostPut_cntTick (s : State) (p a : Nat) (b : Bytes) : (s.hostPut p a b).cntTick = s.cntTick := rfl
@[simp] theorem State.hostPut_unitsTick (s : State) (p a : Nat) (b : Bytes) : (s.hostPut p a b).unitsTick = s.unitsTick := rfl
@[simp] theorem State.hostPut_clientMbps (s : State) (p a : Nat) (b : Bytes) : (s.hostPut p a b).clientMbps = s.clientMbps := rfl

/-! ### `State.draw` -/

@[simp] theorem State.draw_pending (s : State) (m : Nat) : ((s.draw m).2).pending = s.pending := rfl
@[simp] theorem State.draw_now (s : State) (m : Nat) : ((s.draw m).2).now = s.now := rfl
@[simp] theorem State.draw_free (s : State) (m : Nat) : ((s.draw m).2).free = s.free + 1 := rfl
@[simp] theorem State.draw_tick (s : State) (m : Nat) : ((s.draw m).2).tick = s.tick := rfl
@[simp] theorem State.draw_tickAt (s : State) (m : Nat) : ((s.draw m).2).tickAt = s.tickAt := rfl
@[simp] theorem State.draw_tickVal (s : State) (m : Nat) : ((s.draw m).2).tickVal = s.tickVal := rfl
@[simp] theorem State.draw_hosts (s : State) (m : Nat) : ((s.draw m).2).hosts = s.hosts := rfl
@[simp] theorem State.draw_waiting (s : State) (m : Nat) : ((s.draw m).2).waiting = s.waiting := rfl
@[simp] theorem State.draw_boundaryHeld (s : State) (m : Nat) : ((s.draw m).2).boundaryHeld = s.boundaryHeld := rfl
@[simp] theorem State.draw_dmas (s : State) (m : Nat) : ((s.draw m).2).dmas = s.dmas := rfl
@[simp] theorem State.draw_nextDma (s : State) (m : Nat) : ((s.draw m).2).nextDma = s.nextDma := rfl
@[simp] theorem State.draw_nextSeq (s : State) (m : Nat) : ((s.draw m).2).nextSeq = s.nextSeq := rfl
@[simp] theorem State.draw_hostMem (s : State) (m : Nat) : ((s.draw m).2).hostMem = s.hostMem := rfl
@[simp] theorem State.draw_gens (s : State) (m : Nat) : ((s.draw m).2).gens = s.gens := rfl
@[simp] theorem State.draw_flash (s : State) (m : Nat) : ((s.draw m).2).flash = s.flash := rfl
@[simp] theorem State.draw_objs (s : State) (m : Nat) : ((s.draw m).2).objs = s.objs := rfl
@[simp] theorem State.draw_objsBefore (s : State) (m : Nat) : ((s.draw m).2).objsBefore = s.objsBefore := rfl
@[simp] theorem State.draw_views (s : State) (m : Nat) : ((s.draw m).2).views = s.views := rfl
@[simp] theorem State.draw_net (s : State) (m : Nat) : ((s.draw m).2).net = s.net := rfl
@[simp] theorem State.draw_media (s : State) (m : Nat) : ((s.draw m).2).media = s.media := rfl
@[simp] theorem State.draw_thyme (s : State) (m : Nat) : ((s.draw m).2).thyme = s.thyme := rfl
@[simp] theorem State.draw_tbs (s : State) (m : Nat) : ((s.draw m).2).tbs = s.tbs := rfl
@[simp] theorem State.draw_dram (s : State) (m : Nat) : ((s.draw m).2).dram = s.dram := rfl
@[simp] theorem State.draw_power (s : State) (m : Nat) : ((s.draw m).2).power = s.power := rfl
@[simp] theorem State.draw_pins (s : State) (m : Nat) : ((s.draw m).2).pins = s.pins := rfl
@[simp] theorem State.draw_router (s : State) (m : Nat) : ((s.draw m).2).router = s.router := rfl
@[simp] theorem State.draw_cnt (s : State) (m : Nat) : ((s.draw m).2).cnt = s.cnt := rfl
@[simp] theorem State.draw_cntTick (s : State) (m : Nat) : ((s.draw m).2).cntTick = s.cntTick := rfl
@[simp] theorem State.draw_unitsTick (s : State) (m : Nat) : ((s.draw m).2).unitsTick = s.unitsTick := rfl
@[simp] theorem State.draw_clientMbps (s : State) (m : Nat) : ((s.draw m).2).clientMbps = s.clientMbps := rfl

/-! ### `State.addCnt` -/

@[simp] theorem State.addCnt_pending (s : State) (k n : Nat) : (s.addCnt k n).pending = s.pending := by unfold State.addCnt; split <;> rfl
@[simp] theorem State.addCnt_now (s : State) (k n : Nat) : (s.addCnt k n).now = s.now := by unfold State.addCnt; split <;> rfl
@[simp] theorem State.addCnt_free (s : State) (k n : Nat) : (s.addCnt k n).free = s.free := by unfold State.addCnt; split <;> rfl
@[simp] theorem State.addCnt_tick (s : State) (k n : Nat) : (s.addCnt k n).tick = s.tick := by unfold State.addCnt; split <;> rfl
@[simp] theorem State.addCnt_tickAt (s : State) (k n : Nat) : (s.addCnt k n).tickAt = s.tickAt := by unfold State.addCnt; split <;> rfl
@[simp] theorem State.addCnt_tickVal (s : State) (k n : Nat) : (s.addCnt k n).tickVal = s.tickVal := by unfold State.addCnt; split <;> rfl
@[simp] theorem State.addCnt_hosts (s : State) (k n : Nat) : (s.addCnt k n).hosts = s.hosts := by unfold State.addCnt; split <;> rfl
@[simp] theorem State.addCnt_waiting (s : State) (k n : Nat) : (s.addCnt k n).waiting = s.waiting := by unfold State.addCnt; split <;> rfl
@[simp] theorem State.addCnt_boundaryHeld (s : State) (k n : Nat) : (s.addCnt k n).boundaryHeld = s.boundaryHeld := by unfold State.addCnt; split <;> rfl
@[simp] theorem State.addCnt_dmas (s : State) (k n : Nat) : (s.addCnt k n).dmas = s.dmas := by unfold State.addCnt; split <;> rfl
@[simp] theorem State.addCnt_nextDma (s : State) (k n : Nat) : (s.addCnt k n).nextDma = s.nextDma := by unfold State.addCnt; split <;> rfl
@[simp] theorem State.addCnt_nextSeq (s : State) (k n : Nat) : (s.addCnt k n).nextSeq = s.nextSeq := by unfold State.addCnt; split <;> rfl
@[simp] theorem State.addCnt_hostMem (s : State) (k n : Nat) : (s.addCnt k n).hostMem = s.hostMem := by unfold State.addCnt; split <;> rfl
@[simp] theorem State.addCnt_gens (s : State) (k n : Nat) : (s.addCnt k n).gens = s.gens := by unfold State.addCnt; split <;> rfl
@[simp] theorem State.addCnt_flash (s : State) (k n : Nat) : (s.addCnt k n).flash = s.flash := by unfold State.addCnt; split <;> rfl
@[simp] theorem State.addCnt_objs (s : State) (k n : Nat) : (s.addCnt k n).objs = s.objs := by unfold State.addCnt; split <;> rfl
@[simp] theorem State.addCnt_objsBefore (s : State) (k n : Nat) : (s.addCnt k n).objsBefore = s.objsBefore := by unfold State.addCnt; split <;> rfl
@[simp] theorem State.addCnt_views (s : State) (k n : Nat) : (s.addCnt k n).views = s.views := by unfold State.addCnt; split <;> rfl
@[simp] theorem State.addCnt_net (s : State) (k n : Nat) : (s.addCnt k n).net = s.net := by unfold State.addCnt; split <;> rfl
@[simp] theorem State.addCnt_media (s : State) (k n : Nat) : (s.addCnt k n).media = s.media := by unfold State.addCnt; split <;> rfl
@[simp] theorem State.addCnt_thyme (s : State) (k n : Nat) : (s.addCnt k n).thyme = s.thyme := by unfold State.addCnt; split <;> rfl
@[simp] theorem State.addCnt_tbs (s : State) (k n : Nat) : (s.addCnt k n).tbs = s.tbs := by unfold State.addCnt; split <;> rfl
@[simp] theorem State.addCnt_dram (s : State) (k n : Nat) : (s.addCnt k n).dram = s.dram := by unfold State.addCnt; split <;> rfl
@[simp] theorem State.addCnt_power (s : State) (k n : Nat) : (s.addCnt k n).power = s.power := by unfold State.addCnt; split <;> rfl
@[simp] theorem State.addCnt_pins (s : State) (k n : Nat) : (s.addCnt k n).pins = s.pins := by unfold State.addCnt; split <;> rfl
@[simp] theorem State.addCnt_router (s : State) (k n : Nat) : (s.addCnt k n).router = s.router := by unfold State.addCnt; split <;> rfl
@[simp] theorem State.addCnt_cnt (s : State) (k n : Nat) : (s.addCnt k n).cnt = if n = 0 then s.cnt else put s.cnt k ((lookD s.cnt k 0 + n) % 2 ^ 64) := by unfold State.addCnt; split <;> rfl
@[simp] theorem State.addCnt_cntTick (s : State) (k n : Nat) : (s.addCnt k n).cntTick = s.cntTick := by unfold State.addCnt; split <;> rfl
@[simp] theorem State.addCnt_unitsTick (s : State) (k n : Nat) : (s.addCnt k n).unitsTick = s.unitsTick := by unfold State.addCnt; split <;> rfl
@[simp] theorem State.addCnt_clientMbps (s : State) (k n : Nat) : (s.addCnt k n).clientMbps = s.clientMbps := by unfold State.addCnt; split <;> rfl

/-! ### `State.bump` -/

@[simp] theorem State.bump_pending (s : State) (k : Nat) : (s.bump k).pending = s.pending := rfl
@[simp] theorem State.bump_now (s : State) (k : Nat) : (s.bump k).now = s.now := rfl
@[simp] theorem State.bump_free (s : State) (k : Nat) : (s.bump k).free = s.free := rfl
@[simp] theorem State.bump_tick (s : State) (k : Nat) : (s.bump k).tick = s.tick := rfl
@[simp] theorem State.bump_tickAt (s : State) (k : Nat) : (s.bump k).tickAt = s.tickAt := rfl
@[simp] theorem State.bump_tickVal (s : State) (k : Nat) : (s.bump k).tickVal = s.tickVal := rfl
@[simp] theorem State.bump_hosts (s : State) (k : Nat) : (s.bump k).hosts = s.hosts := rfl
@[simp] theorem State.bump_waiting (s : State) (k : Nat) : (s.bump k).waiting = s.waiting := rfl
@[simp] theorem State.bump_boundaryHeld (s : State) (k : Nat) : (s.bump k).boundaryHeld = s.boundaryHeld := rfl
@[simp] theorem State.bump_dmas (s : State) (k : Nat) : (s.bump k).dmas = s.dmas := rfl
@[simp] theorem State.bump_nextDma (s : State) (k : Nat) : (s.bump k).nextDma = s.nextDma := rfl
@[simp] theorem State.bump_nextSeq (s : State) (k : Nat) : (s.bump k).nextSeq = s.nextSeq := rfl
@[simp] theorem State.bump_hostMem (s : State) (k : Nat) : (s.bump k).hostMem = s.hostMem := rfl
@[simp] theorem State.bump_gens (s : State) (k : Nat) : (s.bump k).gens = s.gens := rfl
@[simp] theorem State.bump_flash (s : State) (k : Nat) : (s.bump k).flash = s.flash := rfl
@[simp] theorem State.bump_objs (s : State) (k : Nat) : (s.bump k).objs = s.objs := rfl
@[simp] theorem State.bump_objsBefore (s : State) (k : Nat) : (s.bump k).objsBefore = s.objsBefore := rfl
@[simp] theorem State.bump_views (s : State) (k : Nat) : (s.bump k).views = s.views := rfl
@[simp] theorem State.bump_net (s : State) (k : Nat) : (s.bump k).net = s.net := rfl
@[simp] theorem State.bump_media (s : State) (k : Nat) : (s.bump k).media = s.media := rfl
@[simp] theorem State.bump_thyme (s : State) (k : Nat) : (s.bump k).thyme = s.thyme := rfl
@[simp] theorem State.bump_tbs (s : State) (k : Nat) : (s.bump k).tbs = s.tbs := rfl
@[simp] theorem State.bump_dram (s : State) (k : Nat) : (s.bump k).dram = s.dram := rfl
@[simp] theorem State.bump_power (s : State) (k : Nat) : (s.bump k).power = s.power := rfl
@[simp] theorem State.bump_pins (s : State) (k : Nat) : (s.bump k).pins = s.pins := rfl
@[simp] theorem State.bump_router (s : State) (k : Nat) : (s.bump k).router = s.router := rfl
@[simp] theorem State.bump_cnt (s : State) (k : Nat) : (s.bump k).cnt = put s.cnt k ((lookD s.cnt k 0 + 1) % 2 ^ 64) := rfl
@[simp] theorem State.bump_cntTick (s : State) (k : Nat) : (s.bump k).cntTick = s.cntTick := rfl
@[simp] theorem State.bump_unitsTick (s : State) (k : Nat) : (s.bump k).unitsTick = s.unitsTick := rfl
@[simp] theorem State.bump_clientMbps (s : State) (k : Nat) : (s.bump k).clientMbps = s.clientMbps := rfl

/-! ### Accessors under updates of other parts -/

@[simp] theorem State.host_at' (s : State) (t : Nat) (j : Nat) : (s.at t).host j = s.host j := by simp [State.host]
@[simp] theorem State.host_modGens' (s : State) (f : Gens → Gens) (j : Nat) : (s.modGens f).host j = s.host j := by simp [State.host]
@[simp] theorem State.host_modFlash' (s : State) (f : Flash → Flash) (j : Nat) : (s.modFlash f).host j = s.host j := by simp [State.host]
@[simp] theorem State.host_modObjs' (s : State) (f : Objects → Objects) (j : Nat) : (s.modObjs f).host j = s.host j := by simp [State.host]
@[simp] theorem State.host_modRoom' (s : State) (i : Nat) (f : Room → Room) (j : Nat) : (s.modRoom i f).host j = s.host j := by simp [State.host]
@[simp] theorem State.host_modLeg' (s : State) (i : Nat) (f : Leg → Leg) (j : Nat) : (s.modLeg i f).host j = s.host j := by simp [State.host]
@[simp] theorem State.host_modStream' (s : State) (i : Nat) (f : Stream → Stream) (j : Nat) : (s.modStream i f).host j = s.host j := by simp [State.host]
@[simp] theorem State.host_modNet' (s : State) (f : Net → Net) (j : Nat) : (s.modNet f).host j = s.host j := by simp [State.host]
@[simp] theorem State.host_modLport' (s : State) (l : Nat) (f : LPort → LPort) (j : Nat) : (s.modLport l f).host j = s.host j := by simp [State.host]
@[simp] theorem State.host_modMedia' (s : State) (f : Media → Media) (j : Nat) : (s.modMedia f).host j = s.host j := by simp [State.host]
@[simp] theorem State.host_modThyme' (s : State) (f : Thyme → Thyme) (j : Nat) : (s.modThyme f).host j = s.host j := by simp [State.host]
@[simp] theorem State.host_setCore' (s : State) (c : Nat) (k : Core) (j : Nat) : (s.setCore c k).host j = s.host j := by simp [State.host]
@[simp] theorem State.host_modTb' (s : State) (n : Nat) (f : TimeBase → TimeBase) (j : Nat) : (s.modTb n f).host j = s.host j := by simp [State.host]
@[simp] theorem State.host_modDram' (s : State) (f : Dram → Dram) (j : Nat) : (s.modDram f).host j = s.host j := by simp [State.host]
@[simp] theorem State.host_modPower' (s : State) (f : Power → Power) (j : Nat) : (s.modPower f).host j = s.host j := by simp [State.host]
@[simp] theorem State.host_modPins' (s : State) (f : Pins → Pins) (j : Nat) : (s.modPins f).host j = s.host j := by simp [State.host]
@[simp] theorem State.host_modRouter' (s : State) (f : Router → Router) (j : Nat) : (s.modRouter f).host j = s.host j := by simp [State.host]
@[simp] theorem State.host_hostWrite' (s : State) (p a : Nat) (b : Bytes) (j : Nat) : (s.hostWrite p a b).host j = s.host j := by simp [State.host]
@[simp] theorem State.host_hostPut' (s : State) (p a : Nat) (b : Bytes) (j : Nat) : (s.hostPut p a b).host j = s.host j := by simp [State.host]
@[simp] theorem State.host_draw' (s : State) (m : Nat) (j : Nat) : ((s.draw m).2).host j = s.host j := by simp [State.host]
@[simp] theorem State.host_addCnt' (s : State) (k n : Nat) (j : Nat) : (s.addCnt k n).host j = s.host j := by simp [State.host]
@[simp] theorem State.host_bump' (s : State) (k : Nat) (j : Nat) : (s.bump k).host j = s.host j := by simp [State.host]
@[simp] theorem State.lport_at' (s : State) (t : Nat) (j : Nat) : (s.at t).lport j = s.lport j := by simp [State.lport]
@[simp] theorem State.lport_modHost' (s : State) (p : Nat) (f : HostPort → HostPort) (j : Nat) : (s.modHost p f).lport j = s.lport j := by simp [State.lport]
@[simp] theorem State.lport_modGens' (s : State) (f : Gens → Gens) (j : Nat) : (s.modGens f).lport j = s.lport j := by simp [State.lport]
@[simp] theorem State.lport_modFlash' (s : State) (f : Flash → Flash) (j : Nat) : (s.modFlash f).lport j = s.lport j := by simp [State.lport]
@[simp] theorem State.lport_modObjs' (s : State) (f : Objects → Objects) (j : Nat) : (s.modObjs f).lport j = s.lport j := by simp [State.lport]
@[simp] theorem State.lport_modRoom' (s : State) (i : Nat) (f : Room → Room) (j : Nat) : (s.modRoom i f).lport j = s.lport j := by simp [State.lport]
@[simp] theorem State.lport_modLeg' (s : State) (i : Nat) (f : Leg → Leg) (j : Nat) : (s.modLeg i f).lport j = s.lport j := by simp [State.lport]
@[simp] theorem State.lport_modStream' (s : State) (i : Nat) (f : Stream → Stream) (j : Nat) : (s.modStream i f).lport j = s.lport j := by simp [State.lport]
@[simp] theorem State.lport_modMedia' (s : State) (f : Media → Media) (j : Nat) : (s.modMedia f).lport j = s.lport j := by simp [State.lport]
@[simp] theorem State.lport_modThyme' (s : State) (f : Thyme → Thyme) (j : Nat) : (s.modThyme f).lport j = s.lport j := by simp [State.lport]
@[simp] theorem State.lport_setCore' (s : State) (c : Nat) (k : Core) (j : Nat) : (s.setCore c k).lport j = s.lport j := by simp [State.lport]
@[simp] theorem State.lport_modTb' (s : State) (n : Nat) (f : TimeBase → TimeBase) (j : Nat) : (s.modTb n f).lport j = s.lport j := by simp [State.lport]
@[simp] theorem State.lport_modDram' (s : State) (f : Dram → Dram) (j : Nat) : (s.modDram f).lport j = s.lport j := by simp [State.lport]
@[simp] theorem State.lport_modPower' (s : State) (f : Power → Power) (j : Nat) : (s.modPower f).lport j = s.lport j := by simp [State.lport]
@[simp] theorem State.lport_modPins' (s : State) (f : Pins → Pins) (j : Nat) : (s.modPins f).lport j = s.lport j := by simp [State.lport]
@[simp] theorem State.lport_modRouter' (s : State) (f : Router → Router) (j : Nat) : (s.modRouter f).lport j = s.lport j := by simp [State.lport]
@[simp] theorem State.lport_hostWrite' (s : State) (p a : Nat) (b : Bytes) (j : Nat) : (s.hostWrite p a b).lport j = s.lport j := by simp [State.lport]
@[simp] theorem State.lport_hostPut' (s : State) (p a : Nat) (b : Bytes) (j : Nat) : (s.hostPut p a b).lport j = s.lport j := by simp [State.lport]
@[simp] theorem State.lport_draw' (s : State) (m : Nat) (j : Nat) : ((s.draw m).2).lport j = s.lport j := by simp [State.lport]
@[simp] theorem State.lport_addCnt' (s : State) (k n : Nat) (j : Nat) : (s.addCnt k n).lport j = s.lport j := by simp [State.lport]
@[simp] theorem State.lport_bump' (s : State) (k : Nat) (j : Nat) : (s.bump k).lport j = s.lport j := by simp [State.lport]
@[simp] theorem State.core_at' (s : State) (t : Nat) (j : Nat) : (s.at t).core j = s.core j := by simp [State.core]
@[simp] theorem State.core_modHost' (s : State) (p : Nat) (f : HostPort → HostPort) (j : Nat) : (s.modHost p f).core j = s.core j := by simp [State.core]
@[simp] theorem State.core_modGens' (s : State) (f : Gens → Gens) (j : Nat) : (s.modGens f).core j = s.core j := by simp [State.core]
@[simp] theorem State.core_modFlash' (s : State) (f : Flash → Flash) (j : Nat) : (s.modFlash f).core j = s.core j := by simp [State.core]
@[simp] theorem State.core_modObjs' (s : State) (f : Objects → Objects) (j : Nat) : (s.modObjs f).core j = s.core j := by simp [State.core]
@[simp] theorem State.core_modRoom' (s : State) (i : Nat) (f : Room → Room) (j : Nat) : (s.modRoom i f).core j = s.core j := by simp [State.core]
@[simp] theorem State.core_modLeg' (s : State) (i : Nat) (f : Leg → Leg) (j : Nat) : (s.modLeg i f).core j = s.core j := by simp [State.core]
@[simp] theorem State.core_modStream' (s : State) (i : Nat) (f : Stream → Stream) (j : Nat) : (s.modStream i f).core j = s.core j := by simp [State.core]
@[simp] theorem State.core_modNet' (s : State) (f : Net → Net) (j : Nat) : (s.modNet f).core j = s.core j := by simp [State.core]
@[simp] theorem State.core_modLport' (s : State) (l : Nat) (f : LPort → LPort) (j : Nat) : (s.modLport l f).core j = s.core j := by simp [State.core]
@[simp] theorem State.core_modMedia' (s : State) (f : Media → Media) (j : Nat) : (s.modMedia f).core j = s.core j := by simp [State.core]
@[simp] theorem State.core_modTb' (s : State) (n : Nat) (f : TimeBase → TimeBase) (j : Nat) : (s.modTb n f).core j = s.core j := by simp [State.core]
@[simp] theorem State.core_modDram' (s : State) (f : Dram → Dram) (j : Nat) : (s.modDram f).core j = s.core j := by simp [State.core]
@[simp] theorem State.core_modPower' (s : State) (f : Power → Power) (j : Nat) : (s.modPower f).core j = s.core j := by simp [State.core]
@[simp] theorem State.core_modPins' (s : State) (f : Pins → Pins) (j : Nat) : (s.modPins f).core j = s.core j := by simp [State.core]
@[simp] theorem State.core_modRouter' (s : State) (f : Router → Router) (j : Nat) : (s.modRouter f).core j = s.core j := by simp [State.core]
@[simp] theorem State.core_hostWrite' (s : State) (p a : Nat) (b : Bytes) (j : Nat) : (s.hostWrite p a b).core j = s.core j := by simp [State.core]
@[simp] theorem State.core_hostPut' (s : State) (p a : Nat) (b : Bytes) (j : Nat) : (s.hostPut p a b).core j = s.core j := by simp [State.core]
@[simp] theorem State.core_draw' (s : State) (m : Nat) (j : Nat) : ((s.draw m).2).core j = s.core j := by simp [State.core]
@[simp] theorem State.core_addCnt' (s : State) (k n : Nat) (j : Nat) : (s.addCnt k n).core j = s.core j := by simp [State.core]
@[simp] theorem State.core_bump' (s : State) (k : Nat) (j : Nat) : (s.bump k).core j = s.core j := by simp [State.core]
@[simp] theorem State.tb_at' (s : State) (t : Nat) (j : Nat) : (s.at t).tb j = s.tb j := by simp [State.tb]
@[simp] theorem State.tb_modHost' (s : State) (p : Nat) (f : HostPort → HostPort) (j : Nat) : (s.modHost p f).tb j = s.tb j := by simp [State.tb]
@[simp] theorem State.tb_modGens' (s : State) (f : Gens → Gens) (j : Nat) : (s.modGens f).tb j = s.tb j := by simp [State.tb]
@[simp] theorem State.tb_modFlash' (s : State) (f : Flash → Flash) (j : Nat) : (s.modFlash f).tb j = s.tb j := by simp [State.tb]
@[simp] theorem State.tb_modObjs' (s : State) (f : Objects → Objects) (j : Nat) : (s.modObjs f).tb j = s.tb j := by simp [State.tb]
@[simp] theorem State.tb_modRoom' (s : State) (i : Nat) (f : Room → Room) (j : Nat) : (s.modRoom i f).tb j = s.tb j := by simp [State.tb]
@[simp] theorem State.tb_modLeg' (s : State) (i : Nat) (f : Leg → Leg) (j : Nat) : (s.modLeg i f).tb j = s.tb j := by simp [State.tb]
@[simp] theorem State.tb_modStream' (s : State) (i : Nat) (f : Stream → Stream) (j : Nat) : (s.modStream i f).tb j = s.tb j := by simp [State.tb]
@[simp] theorem State.tb_modNet' (s : State) (f : Net → Net) (j : Nat) : (s.modNet f).tb j = s.tb j := by simp [State.tb]
@[simp] theorem State.tb_modLport' (s : State) (l : Nat) (f : LPort → LPort) (j : Nat) : (s.modLport l f).tb j = s.tb j := by simp [State.tb]
@[simp] theorem State.tb_modMedia' (s : State) (f : Media → Media) (j : Nat) : (s.modMedia f).tb j = s.tb j := by simp [State.tb]
@[simp] theorem State.tb_modThyme' (s : State) (f : Thyme → Thyme) (j : Nat) : (s.modThyme f).tb j = s.tb j := by simp [State.tb]
@[simp] theorem State.tb_setCore' (s : State) (c : Nat) (k : Core) (j : Nat) : (s.setCore c k).tb j = s.tb j := by simp [State.tb]
@[simp] theorem State.tb_modDram' (s : State) (f : Dram → Dram) (j : Nat) : (s.modDram f).tb j = s.tb j := by simp [State.tb]
@[simp] theorem State.tb_modPower' (s : State) (f : Power → Power) (j : Nat) : (s.modPower f).tb j = s.tb j := by simp [State.tb]
@[simp] theorem State.tb_modPins' (s : State) (f : Pins → Pins) (j : Nat) : (s.modPins f).tb j = s.tb j := by simp [State.tb]
@[simp] theorem State.tb_modRouter' (s : State) (f : Router → Router) (j : Nat) : (s.modRouter f).tb j = s.tb j := by simp [State.tb]
@[simp] theorem State.tb_hostWrite' (s : State) (p a : Nat) (b : Bytes) (j : Nat) : (s.hostWrite p a b).tb j = s.tb j := by simp [State.tb]
@[simp] theorem State.tb_hostPut' (s : State) (p a : Nat) (b : Bytes) (j : Nat) : (s.hostPut p a b).tb j = s.tb j := by simp [State.tb]
@[simp] theorem State.tb_draw' (s : State) (m : Nat) (j : Nat) : ((s.draw m).2).tb j = s.tb j := by simp [State.tb]
@[simp] theorem State.tb_addCnt' (s : State) (k n : Nat) (j : Nat) : (s.addCnt k n).tb j = s.tb j := by simp [State.tb]
@[simp] theorem State.tb_bump' (s : State) (k : Nat) (j : Nat) : (s.bump k).tb j = s.tb j := by simp [State.tb]
@[simp] theorem State.cntOf_at' (s : State) (t : Nat) (j : Nat) : (s.at t).cntOf j = s.cntOf j := by simp [State.cntOf]
@[simp] theorem State.cntOf_modHost' (s : State) (p : Nat) (f : HostPort → HostPort) (j : Nat) : (s.modHost p f).cntOf j = s.cntOf j := by simp [State.cntOf]
@[simp] theorem State.cntOf_modGens' (s : State) (f : Gens → Gens) (j : Nat) : (s.modGens f).cntOf j = s.cntOf j := by simp [State.cntOf]
@[simp] theorem State.cntOf_modFlash' (s : State) (f : Flash → Flash) (j : Nat) : (s.modFlash f).cntOf j = s.cntOf j := by simp [State.cntOf]
@[simp] theorem State.cntOf_modObjs' (s : State) (f : Objects → Objects) (j : Nat) : (s.modObjs f).cntOf j = s.cntOf j := by simp [State.cntOf]
@[simp] theorem State.cntOf_modRoom' (s : State) (i : Nat) (f : Room → Room) (j : Nat) : (s.modRoom i f).cntOf j = s.cntOf j := by simp [State.cntOf]
@[simp] theorem State.cntOf_modLeg' (s : State) (i : Nat) (f : Leg → Leg) (j : Nat) : (s.modLeg i f).cntOf j = s.cntOf j := by simp [State.cntOf]
@[simp] theorem State.cntOf_modStream' (s : State) (i : Nat) (f : Stream → Stream) (j : Nat) : (s.modStream i f).cntOf j = s.cntOf j := by simp [State.cntOf]
@[simp] theorem State.cntOf_modNet' (s : State) (f : Net → Net) (j : Nat) : (s.modNet f).cntOf j = s.cntOf j := by simp [State.cntOf]
@[simp] theorem State.cntOf_modLport' (s : State) (l : Nat) (f : LPort → LPort) (j : Nat) : (s.modLport l f).cntOf j = s.cntOf j := by simp [State.cntOf]
@[simp] theorem State.cntOf_modMedia' (s : State) (f : Media → Media) (j : Nat) : (s.modMedia f).cntOf j = s.cntOf j := by simp [State.cntOf]
@[simp] theorem State.cntOf_modThyme' (s : State) (f : Thyme → Thyme) (j : Nat) : (s.modThyme f).cntOf j = s.cntOf j := by simp [State.cntOf]
@[simp] theorem State.cntOf_setCore' (s : State) (c : Nat) (k : Core) (j : Nat) : (s.setCore c k).cntOf j = s.cntOf j := by simp [State.cntOf]
@[simp] theorem State.cntOf_modTb' (s : State) (n : Nat) (f : TimeBase → TimeBase) (j : Nat) : (s.modTb n f).cntOf j = s.cntOf j := by simp [State.cntOf]
@[simp] theorem State.cntOf_modDram' (s : State) (f : Dram → Dram) (j : Nat) : (s.modDram f).cntOf j = s.cntOf j := by simp [State.cntOf]
@[simp] theorem State.cntOf_modPower' (s : State) (f : Power → Power) (j : Nat) : (s.modPower f).cntOf j = s.cntOf j := by simp [State.cntOf]
@[simp] theorem State.cntOf_modPins' (s : State) (f : Pins → Pins) (j : Nat) : (s.modPins f).cntOf j = s.cntOf j := by simp [State.cntOf]
@[simp] theorem State.cntOf_modRouter' (s : State) (f : Router → Router) (j : Nat) : (s.modRouter f).cntOf j = s.cntOf j := by simp [State.cntOf]
@[simp] theorem State.cntOf_hostWrite' (s : State) (p a : Nat) (b : Bytes) (j : Nat) : (s.hostWrite p a b).cntOf j = s.cntOf j := by simp [State.cntOf]
@[simp] theorem State.cntOf_hostPut' (s : State) (p a : Nat) (b : Bytes) (j : Nat) : (s.hostPut p a b).cntOf j = s.cntOf j := by simp [State.cntOf]
@[simp] theorem State.cntOf_draw' (s : State) (m : Nat) (j : Nat) : ((s.draw m).2).cntOf j = s.cntOf j := by simp [State.cntOf]

end Sys2Proof.Machine
end

