-- ==== Sys2Proof/Laws/Tables.lean ====
section
/-! SUPPORT. Tables: what a look-up finds after an entry has been stored, updated or removed, and the accessors of the state built on
them. -/
namespace Sys2Proof.Machine

variable {α : Type}

@[simp] theorem look_nil (n : Nat) : look ([] : Tab α) n = none := rfl

/-- A look-up after a store. -/
theorem look_put (t : Tab α) (k n : Nat) (a : α) : look (put t k a) n = if k = n then some a else look t n := by
  induction t with
  | nil => simp [put, look]
  | cons p t ih =>
    obtain ⟨j, v⟩ := p
    unfold put
    split
    · simp [look]
    · split
      · next h => subst h; by_cases hn : k = n <;> simp [look, hn]
      · simp only [look, ih]
        by_cases hj : j = n <;> by_cases hk : k = n <;> simp_all

@[simp] theorem look_put_same (t : Tab α) (k : Nat) (a : α) : look (put t k a) k = some a := by simp [look_put]

theorem look_put_ne (t : Tab α) {k n : Nat} (h : k ≠ n) (a : α) : look (put t k a) n = look t n := by simp [look_put, h]

@[simp] theorem lookD_put_same (t : Tab α) (k : Nat) (a x : α) : lookD (put t k a) k x = a := by simp [lookD]

theorem lookD_put_ne (t : Tab α) {k n : Nat} (h : k ≠ n) (a x : α) : lookD (put t k a) n x = lookD t n x := by
  simp [lookD, look_put_ne t h]

@[simp] theorem lookD_adjD_same (t : Tab α) (k : Nat) (x : α) (f : α → α) : lookD (adjD t k x f) k x = f (lookD t k x) := by
  simp [adjD]

theorem lookD_adjD_ne (t : Tab α) {k n : Nat} (h : k ≠ n) (x : α) (f : α → α) : lookD (adjD t k x f) n x = lookD t n x := by
  simp [adjD, lookD_put_ne t h]

/-- A look-up after an update of an entry that is there. -/
theorem look_adj (t : Tab α) (k n : Nat) (f : α → α) : look (adj t k f) n = if k = n then (look t k).map f else look t n := by
  unfold adj
  by_cases h : k = n
  · subst h; cases hk : look t k <;> simp [hk]
  · cases hk : look t k <;> simp [h, look_put]

@[simp] theorem look_adj_same (t : Tab α) (k : Nat) (f : α → α) : look (adj t k f) k = (look t k).map f := by simp [look_adj]

theorem look_adj_ne (t : Tab α) {k n : Nat} (h : k ≠ n) (f : α → α) : look (adj t k f) n = look t n := by simp [look_adj, h]

/-- A look-up after a removal. -/
theorem look_del (t : Tab α) (k n : Nat) : look (del t k) n = if k = n then none else look t n := by
  induction t with
  | nil => simp [del]
  | cons p t ih =>
    obtain ⟨j, v⟩ := p
    unfold del
    by_cases hj : j = k
    · subst hj; rw [if_pos rfl, ih]; by_cases hn : j = n <;> simp [look, hn]
    · rw [if_neg hj]; simp only [look, ih]
      by_cases hn : j = n
      · subst hn; simp [Ne.symm hj]
      · simp [hn]

@[simp] theorem look_del_same (t : Tab α) (k : Nat) : look (del t k) k = none := by simp [look_del]

/-! ### Accessors -/

@[simp] theorem State.host_modHost (s : State) (p : Nat) (f : HostPort → HostPort) : (s.modHost p f).host p = f (s.host p) := by
  simp [State.host]

theorem State.host_modHost_ne (s : State) {p q : Nat} (h : p ≠ q) (f : HostPort → HostPort) : (s.modHost p f).host q = s.host q := by
  simp [State.host, lookD_adjD_ne _ h]

@[simp] theorem HostPort.sqAt_modSq (h : HostPort) (i : Nat) (f : SqState → SqState) : (h.modSq i f).sqAt i = f (h.sqAt i) := by
  simp [HostPort.sqAt, HostPort.modSq]

@[simp] theorem HostPort.cqAt_modCq (h : HostPort) (i : Nat) (f : CqState → CqState) : (h.modCq i f).cqAt i = f (h.cqAt i) := by
  simp [HostPort.cqAt, HostPort.modCq]

@[simp] theorem HostPort.eqAt_modEq (h : HostPort) (i : Nat) (f : EqState → EqState) : (h.modEq i f).eqAt i = f (h.eqAt i) := by
  simp [HostPort.eqAt, HostPort.modEq]

theorem HostPort.sqAt_modSq_ne (h : HostPort) {i j : Nat} (n : i ≠ j) (f : SqState → SqState) : (h.modSq i f).sqAt j = h.sqAt j := by
  simp [HostPort.sqAt, HostPort.modSq, lookD_adjD_ne _ n]

@[simp] theorem State.tb_modTb (s : State) (n : Nat) (f : TimeBase → TimeBase) : (s.modTb n f).tb n = f (s.tb n) := by simp [State.tb]

theorem State.tb_modTb_ne (s : State) {n m : Nat} (h : n ≠ m) (f : TimeBase → TimeBase) : (s.modTb n f).tb m = s.tb m := by
  simp [State.tb, lookD_adjD_ne _ h]

@[simp] theorem State.lport_modLport (s : State) (l : Nat) (f : LPort → LPort) : (s.modLport l f).lport l = f (s.lport l) := by
  simp [State.lport]

theorem State.lport_modLport_ne (s : State) {l m : Nat} (h : l ≠ m) (f : LPort → LPort) : (s.modLport l f).lport m = s.lport m := by
  simp [State.lport, lookD_adjD_ne _ h]

@[simp] theorem State.core_setCore (s : State) (c : Nat) (k : Core) : (s.setCore c k).core c = k := by simp [State.core]

theorem State.core_setCore_ne (s : State) {c e : Nat} (h : c ≠ e) (k : Core) : (s.setCore c k).core e = s.core e := by
  simp [State.core, lookD_put_ne _ h]

/-- A counter after an addition: 64 bits wide (04 R184). -/
theorem State.cntOf_addCnt (s : State) (k n j : Nat) (hk : s.cntOf k < 2 ^ 64) :
    (s.addCnt k n).cntOf j = if k = j then (s.cntOf j + n) % 2 ^ 64 else s.cntOf j := by
  unfold State.cntOf at *
  rw [State.addCnt_cnt]
  by_cases hn : n = 0
  · subst hn
    by_cases h : k = j
    · subst h; simp only [if_true, Nat.add_zero]; exact (Nat.mod_eq_of_lt hk).symm
    · simp [h]
  · by_cases h : k = j
    · subst h; simp [hn]
    · simp [hn, h, lookD_put_ne _ h]

@[simp] theorem State.cntOf_bump (s : State) (k : Nat) : (s.bump k).cntOf k = (s.cntOf k + 1) % 2 ^ 64 := by
  simp [State.cntOf]

end Sys2Proof.Machine
end

