-- ==== Sys2Proof/Laws/Frames.lean ====
section
/-! SUPPORT. What the operations that face the hosts can do: posting an event, deciding and posting completions, halting a ring and
counting touch the host ports, host memory, the event router and the counters, and nothing else. -/
namespace Sys2Proof.Machine

/-- Nothing but the host ports, host memory, the event router and the counters differs. -/
def HostOnly (s t : State) : Prop := t = { s with hosts := t.hosts, hostMem := t.hostMem, router := t.router, cnt := t.cnt }

theorem HostOnly.refl (s : State) : HostOnly s s := rfl

theorem HostOnly.trans {s t u : State} (h : HostOnly s t) (k : HostOnly t u) : HostOnly s u := by
  unfold HostOnly at *
  rw [k, h]

theorem HostOnly.pending {s t : State} (h : HostOnly s t) : t.pending = s.pending := by rw [h]
theorem HostOnly.now {s t : State} (h : HostOnly s t) : t.now = s.now := by rw [h]
theorem HostOnly.free {s t : State} (h : HostOnly s t) : t.free = s.free := by rw [h]
theorem HostOnly.tick {s t : State} (h : HostOnly s t) : t.tick = s.tick := by rw [h]
theorem HostOnly.tickAt {s t : State} (h : HostOnly s t) : t.tickAt = s.tickAt := by rw [h]
theorem HostOnly.tickVal {s t : State} (h : HostOnly s t) : t.tickVal = s.tickVal := by rw [h]
theorem HostOnly.waiting {s t : State} (h : HostOnly s t) : t.waiting = s.waiting := by rw [h]
theorem HostOnly.boundaryHeld {s t : State} (h : HostOnly s t) : t.boundaryHeld = s.boundaryHeld := by rw [h]
theorem HostOnly.dmas {s t : State} (h : HostOnly s t) : t.dmas = s.dmas := by rw [h]
theorem HostOnly.nextDma {s t : State} (h : HostOnly s t) : t.nextDma = s.nextDma := by rw [h]
theorem HostOnly.nextSeq {s t : State} (h : HostOnly s t) : t.nextSeq = s.nextSeq := by rw [h]
theorem HostOnly.gens {s t : State} (h : HostOnly s t) : t.gens = s.gens := by rw [h]
theorem HostOnly.flash {s t : State} (h : HostOnly s t) : t.flash = s.flash := by rw [h]
theorem HostOnly.objs {s t : State} (h : HostOnly s t) : t.objs = s.objs := by rw [h]
theorem HostOnly.objsBefore {s t : State} (h : HostOnly s t) : t.objsBefore = s.objsBefore := by rw [h]
theorem HostOnly.views {s t : State} (h : HostOnly s t) : t.views = s.views := by rw [h]
theorem HostOnly.net {s t : State} (h : HostOnly s t) : t.net = s.net := by rw [h]
theorem HostOnly.media {s t : State} (h : HostOnly s t) : t.media = s.media := by rw [h]
theorem HostOnly.thyme {s t : State} (h : HostOnly s t) : t.thyme = s.thyme := by rw [h]
theorem HostOnly.tbs {s t : State} (h : HostOnly s t) : t.tbs = s.tbs := by rw [h]
theorem HostOnly.dram {s t : State} (h : HostOnly s t) : t.dram = s.dram := by rw [h]
theorem HostOnly.power {s t : State} (h : HostOnly s t) : t.power = s.power := by rw [h]
theorem HostOnly.pins {s t : State} (h : HostOnly s t) : t.pins = s.pins := by rw [h]
theorem HostOnly.cntTick {s t : State} (h : HostOnly s t) : t.cntTick = s.cntTick := by rw [h]
theorem HostOnly.unitsTick {s t : State} (h : HostOnly s t) : t.unitsTick = s.unitsTick := by rw [h]
theorem HostOnly.clientMbps {s t : State} (h : HostOnly s t) : t.clientMbps = s.clientMbps := by rw [h]

theorem HostOnly.modHost (s : State) (p : Nat) (f : HostPort → HostPort) : HostOnly s (s.modHost p f) := rfl
theorem HostOnly.hostWrite (s : State) (p a : Nat) (b : Bytes) : HostOnly s (s.hostWrite p a b) := rfl
theorem HostOnly.modRouter (s : State) (f : Router → Router) : HostOnly s (s.modRouter f) := rfl
theorem HostOnly.addCnt (s : State) (k n : Nat) : HostOnly s (s.addCnt k n) := by
  unfold State.addCnt; split <;> rfl
theorem HostOnly.bump (s : State) (k : Nat) : HostOnly s (s.bump k) := HostOnly.addCnt s k 1

theorem HostOnly.forEach {α : Type} (f : α → State → State) (h : ∀ a s, HostOnly s (f a s)) :
    ∀ (l : List α) (s : State), HostOnly s (forEach l f s)
  | [], s => HostOnly.refl s
  | a :: l, s => (h a s).trans (HostOnly.forEach f h l (f a s))

/-- Writing one event entry. -/
theorem State.putEvent_hostOnly (s : State) (p q src sev tick payload : Nat) : HostOnly s (s.putEvent p q src sev tick payload) := by
  unfold State.putEvent
  dsimp only
  split
  · exact HostOnly.modHost s _ _
  · exact (HostOnly.forEach _ (fun _ s => HostOnly.hostWrite s _ _ _) _ _).trans (HostOnly.modHost _ _ _)

/-- Posting an event to one port. -/
theorem State.deliver_hostOnly (s : State) (p queue src sev tick payload : Nat) : HostOnly s (s.deliver p queue src sev tick payload) := by
  unfold State.deliver
  dsimp only
  split
  · exact HostOnly.bump s _
  · split
    · exact HostOnly.bump s _
    · split
      · exact HostOnly.modHost s _ _
      · exact State.putEvent_hostOnly ..

/-- Sending an event to its recipients. -/
theorem State.routed_hostOnly (s : State) (src sev cls payload tick who : Nat) : HostOnly s (s.routed src sev cls payload tick who) := by
  unfold State.routed
  refine HostOnly.forEach _ (fun p s => ?_) _ s
  split
  · exact State.deliver_hostOnly ..
  · exact HostOnly.bump s _

/-- An event arises (15 R607-R611). -/
theorem State.event_hostOnly (s : State) (src payload who : Nat) : HostOnly s (s.event src payload who) := by
  unfold State.event
  split
  · exact HostOnly.refl s
  · dsimp only
    have h := (HostOnly.bump s (ctr 0x0E 0 (16 * src))).trans (HostOnly.modRouter _ (fun x => x.roll s.tick))
    split
    · exact (h.trans (HostOnly.bump _ _)).trans (HostOnly.modRouter _ _)
    · refine h.trans ?_
      split
      · exact (HostOnly.modRouter _ _).trans (HostOnly.bump _ _)
      · split
        · exact (HostOnly.modRouter _ _).trans (HostOnly.modRouter _ _)
        · split
          · exact (HostOnly.modRouter _ _).trans (HostOnly.modRouter _ _)
          · exact (HostOnly.modRouter _ _).trans (State.routed_hostOnly ..)

/-- Writing one completion. -/
theorem State.putCompl_hostOnly (s : State) (p r : Nat) (o : Outstanding) (status result : Nat) (tick : Option Nat) :
    HostOnly s (s.putCompl p r o status result tick) := by
  unfold State.putCompl
  dsimp only
  split
  · exact HostOnly.modHost s _ _
  · split
    · exact HostOnly.modHost s _ _
    · exact (HostOnly.hostWrite s _ _ _).trans (HostOnly.modHost _ _ _)

theorem flushFrom_hostOnly (p r : Nat) : ∀ (l : List Outstanding) (s : State), HostOnly s (flushFrom p r l s)
  | [], s => HostOnly.refl s
  | o :: rest, s => by
    unfold flushFrom
    split
    · exact (State.putCompl_hostOnly ..).trans (flushFrom_hostOnly p r rest _)
    · exact HostOnly.refl s

/-- Posting what a ring can post. -/
theorem State.flush_hostOnly (s : State) (p r : Nat) : HostOnly s (s.flush p r) := flushFrom_hostOnly p r _ s

theorem State.resolve_hostOnly (s : State) (p r seq status result : Nat) (tick : Option Nat) (obj : Nat) :
    HostOnly s (s.resolve p r seq status result tick obj) := HostOnly.modHost s _ _

theorem settleFences_hostOnly (p : Nat) : ∀ (n : Nat) (s : State), HostOnly s (settleFences p n s)
  | 0, s => HostOnly.refl s
  | n + 1, s => by
    unfold settleFences
    dsimp only
    split
    · exact HostOnly.refl s
    · exact (((HostOnly.modHost s _ _).trans (State.resolve_hostOnly ..)).trans (State.flush_hostOnly ..)).trans (settleFences_hostOnly p n _)

/-- Deciding a descriptor (02 R93, R95). -/
theorem State.complete_hostOnly (s : State) (p r seq status result : Nat) (tick : Option Nat) (obj : Nat) :
    HostOnly s (s.complete p r seq status result tick obj) :=
  ((State.resolve_hostOnly ..).trans (State.flush_hostOnly ..)).trans (settleFences_hostOnly ..)

/-- Halting a ring or queue (02 R81, R82, R122). -/
theorem State.haltRing_hostOnly (s : State) (p kind i : Nat) : HostOnly s (s.haltRing p kind i) := HostOnly.modHost s _ _

theorem State.ringError_hostOnly (s : State) (p kind i idx : Nat) : HostOnly s (s.ringError p kind i idx) :=
  ((State.haltRing_hostOnly ..).trans (HostOnly.bump _ _)).trans (State.event_hostOnly ..)

theorem State.dmaError_hostOnly (s : State) (p kind i status tag : Nat) : HostOnly s (s.dmaError p kind i status tag) :=
  ((HostOnly.bump _ _).trans (HostOnly.modHost _ _ _)).trans (State.event_hostOnly ..)

/-! ### Fetching a descriptor -/

/-- Everything the fetch of a descriptor can do outside a batch (02 R92): nothing while the ring or its completion ring is closed; an
aborted tail, or the first failing check of 1-4, completes it; else its own action begins. -/
theorem fetchDesc_cases (op p r : Nat) (d : Desc) (act start : Nat → State → State) (s : State) (hb : s.batchOf p r = none) :
    fetchDesc op p r d act s start =
      if s.ringOpen p r = false ∨ s.cqFree p r = false then s
      else if (s.accept p r op d).2.tailOf p r then (s.accept p r op d).2.complete p r s.nextSeq stBatchAborted
      else match earlyStatus s.power.mode op d with
        | some st => (s.accept p r op d).2.complete p r s.nextSeq st (earlyResult op st)
        | none => act s.nextSeq (s.accept p r op d).2 := by
  have hb' : (s.accept p r op d).2.batchOf p r = none := by
    simpa [State.accept, State.batchOf, State.host, HostPort.sqAt, HostPort.modSq] using hb
  unfold fetchDesc
  split
  · rfl
  · have h2 : (s.accept p r op d).2.power = s.power := by simp [State.accept]
    rw [← h2]
    change (if (s.accept p r op d).2.tailOf p r = true then _ else match (s.accept p r op d).2.batchOf p r with | some b => _ | none => _) = _
    rw [hb']
    rfl

/-- The copy of a descriptor changes its ring, the fetch number and the counter of fetches (02 R121). -/
theorem State.accept_waiting (s : State) (p r op : Nat) (d : Desc) : (s.accept p r op d).2.waiting = s.waiting := by simp [State.accept]

end Sys2Proof.Machine
end

