-- ==== Sys2Proof/Laws/Descriptors.lean ====
section
/-! SUPPORT. Descriptors: what a ring that takes one does, and what deciding the only descriptor of an idle ring posts (02 R91-R95). -/
namespace Sys2Proof.Machine

/-- The parts of `State.takes`. -/
theorem State.takes_iff (s : State) (p r op : Nat) (d : Desc) : s.takes p r op d = true ↔
    s.ringOpen p r = true ∧ s.cqFree p r = true ∧ s.tailOf p r = false ∧ s.batchOf p r = none ∧
      earlyStatus s.power.mode op d = none := by
  simp [State.takes, and_assoc]

theorem State.host_bump (s : State) (k p : Nat) : (s.bump k).host p = s.host p := by simp [State.host]

theorem State.accept_host (s : State) (p r op : Nat) (d : Desc) :
    (s.accept p r op d).2.host p = (s.host p).modSq r (fun q => { q with
      fetched := q.fetched + 1, prod := max q.prod (q.fetched + 1)
      out := q.out ++ [{ seq := s.nextSeq, tag := d.tag, opcode := op, objKind := ((kindOf op).map (·.handle)).getD 0, obj := d.handle }] }) := by
  simp only [State.accept, State.host_bump, State.host_modHost]
  rfl

theorem State.accept_tailOf (s : State) (p r op : Nat) (d : Desc) : (s.accept p r op d).2.tailOf p r = s.tailOf p r := by
  have h : (s.accept p r op d).2.tick = s.tick := by simp [State.accept]
  simp only [State.tailOf, State.accept_host, HostPort.sqAt_modSq, h]

/-- A ring that takes a descriptor begins its own action. -/
theorem fetchDesc_takes (op p r : Nat) (d : Desc) (act start : Nat → State → State) (s : State) (h : s.takes p r op d = true) :
    fetchDesc op p r d act s start = act s.nextSeq (s.accept p r op d).2 := by
  rw [State.takes_iff] at h
  obtain ⟨h1, h2, h3, h4, h5⟩ := h
  rw [fetchDesc_cases op p r d act start s h4]
  simp [h1, h2, h5, State.accept_tailOf, h3]

theorem settleFences_none (p n : Nat) (s : State) (h : (s.host p).sq.all (fun kv => kv.2.fence.isNone) = true) :
    settleFences p n s = s := by
  cases n with
  | zero => rfl
  | succ n =>
    unfold settleFences
    dsimp only
    split
    · rfl
    · next r q heq =>
      have h1 := List.all_eq_true.mp h _ (List.mem_of_find?_eq_some heq)
      have h2 := List.find?_some heq
      cases hf : q.fence with
      | none => simp [hf] at h2
      | some x => simp [hf] at h1

/-- Rows of a table that all satisfy a test, one more among them. -/
theorem all_put {α : Type} (P : Nat × α → Bool) (k : Nat) (a : α) (ha : P (k, a) = true) :
    ∀ (t : Tab α), List.all t P = true → List.all (put t k a) P = true
  | [], _ => by simp [put, ha]
  | (j, v) :: t, h => by
    simp only [List.all_cons, Bool.and_eq_true] at h
    unfold put
    split
    · simp [ha, h.1, h.2]
    · split
      · simp [ha, h.2]
      · simp only [List.all_cons, Bool.and_eq_true]
        exact ⟨h.1, all_put P k a ha t h.2⟩

theorem all_lookD {α : Type} (P : α → Bool) (x : α) (hx : P x = true) (k : Nat) :
    ∀ (t : Tab α), List.all t (fun kv => P kv.2) = true → P (lookD t k x) = true
  | [], _ => by simpa [lookD, look] using hx
  | (j, v) :: t, h => by
    simp only [List.all_cons, Bool.and_eq_true] at h
    unfold lookD look
    split
    · simpa using h.1
    · exact all_lookD P x hx k t h.2

/-- A ring's change that leaves its fence leaves no ring at a fence. -/
theorem HostPort.modSq_fence (h : HostPort) (r : Nat) (f : SqState → SqState) (hf : ∀ q, (f q).fence = q.fence)
    (w : h.sq.all (fun kv => kv.2.fence.isNone) = true) : (h.modSq r f).sq.all (fun kv => kv.2.fence.isNone) = true := by
  simp only [HostPort.modSq, adjD]
  refine all_put _ r _ ?_ _ w
  rw [hf]
  exact all_lookD (fun q : SqState => q.fence.isNone) {} rfl r _ w

@[simp] theorem HostPort.modCq_sq (h : HostPort) (j : Nat) (f : CqState → CqState) : (h.modCq j f).sq = h.sq := rfl

@[simp] theorem HostPort.msi_sq (h : HostPort) (v : Nat) : (h.msi v).sq = h.sq := by
  unfold HostPort.msi
  split
  · rfl
  · split
    · rfl
    · split <;> rfl

@[simp] theorem HostPort.coalesce_sq (h : HostPort) (now j : Nat) : (h.coalesce now j).sq = h.sq := by
  unfold HostPort.coalesce
  dsimp only
  split
  · simp only [HostPort.modCq_sq, HostPort.msi_sq]
  · rfl

theorem HostPort.msi_cqAt (h : HostPort) (v j : Nat) : (h.msi v).cqAt j = h.cqAt j := by
  unfold HostPort.msi
  split
  · rfl
  · split
    · rfl
    · split <;> rfl

theorem HostPort.coalesce_entries (h : HostPort) (now j : Nat) : ((h.coalesce now j).cqAt j).entries = (h.cqAt j).entries := by
  unfold HostPort.coalesce
  dsimp only
  split <;> simp [HostPort.msi_cqAt]

@[simp] theorem HostPort.cqOf_modSq (h : HostPort) (i j : Nat) (f : SqState → SqState) : (h.modSq i f).cqOf j = h.cqOf j := rfl
@[simp] theorem HostPort.cqAt_modSq (h : HostPort) (i j : Nat) (f : SqState → SqState) : (h.modSq i f).cqAt j = h.cqAt j := rfl
@[simp] theorem HostPort.canIssue_modSq (h : HostPort) (i : Nat) (f : SqState → SqState) : (h.modSq i f).canIssue = h.canIssue := rfl
@[simp] theorem HostPort.cqCfg_modSq (h : HostPort) (i j : Nat) (f : SqState → SqState) : (h.modSq i f).cqCfg j = h.cqCfg j := rfl

/-- Nothing but the host ports and host memory differs. -/
def PortOnly (s t : State) : Prop := t = { s with hosts := t.hosts, hostMem := t.hostMem }

theorem PortOnly.trans {s t u : State} (h : PortOnly s t) (k : PortOnly t u) : PortOnly s u := by
  unfold PortOnly at *
  rw [k, h]

theorem PortOnly.modHost (s : State) (p : Nat) (f : HostPort → HostPort) : PortOnly s (s.modHost p f) := rfl

theorem State.putCompl_portOnly (s : State) (p r : Nat) (o : Outstanding) (status result : Nat) (tick : Option Nat) :
    PortOnly s (s.putCompl p r o status result tick) := by
  unfold State.putCompl
  dsimp only
  split
  · rfl
  · split <;> rfl

theorem flushFrom_portOnly (p r : Nat) : ∀ (l : List Outstanding) (s : State), PortOnly s (flushFrom p r l s)
  | [], s => rfl
  | o :: rest, s => by
    unfold flushFrom
    split
    · exact (State.putCompl_portOnly ..).trans (flushFrom_portOnly p r rest _)
    · rfl

theorem settleFences_portOnly (p : Nat) : ∀ (n : Nat) (s : State), PortOnly s (settleFences p n s)
  | 0, s => rfl
  | n + 1, s => by
    unfold settleFences
    dsimp only
    split
    · rfl
    · exact (((PortOnly.modHost s _ _).trans (PortOnly.modHost _ _ _)).trans (flushFrom_portOnly ..)).trans (settleFences_portOnly p n _)

/-- Deciding a descriptor changes the host ports and host memory alone (02 R93, R95). -/
theorem State.complete_portOnly (s : State) (p r seq status result : Nat) (tick : Option Nat) (obj : Nat) :
    PortOnly s (s.complete p r seq status result tick obj) :=
  ((PortOnly.modHost s _ _).trans (flushFrom_portOnly ..)).trans (settleFences_portOnly ..)

/-- Deciding the one descriptor of a ring posts its completion, while no ring of the port stands at a fence. -/
theorem State.complete_one (s : State) (p r seq st res : Nat) (tick : Option Nat) (o : Outstanding)
    (h1 : ((s.host p).sqAt r).out = [o]) (h2 : o.seq = seq) (h3 : o.done = none)
    (h4 : ((s.host p).cqAt ((s.host p).cqOf r)).halted = false) (h6 : (s.host p).canIssue = true) (h5 : (s.host p).sq.all (fun kv => kv.2.fence.isNone) = true) :
    s.answered (s.complete p r seq st res tick) p r o.tag st res := by
  unfold State.complete
  have key : ((s.resolve p r seq st res tick 0).flush p r) =
      (s.resolve p r seq st res tick 0).putCompl p r { o with done := some (st, res, tick) } st res tick := by
    have hq : ((s.resolve p r seq st res tick 0).host p) = (s.host p).modSq r (fun q => { q with
        out := q.out.map (fun o => if o.seq = seq ∧ o.done = none then
          { o with done := some (st, res, tick), obj := if (0 : Nat) = 0 then o.obj else 0 } else o) }) := by
      simp [State.resolve]
    unfold State.flush
    rw [hq, HostPort.sqAt_modSq, h1]
    simp [h2, h3, flushFrom]
  rw [key]
  have hq : ((s.resolve p r seq st res tick 0).host p) = (s.host p).modSq r (fun q => { q with
      out := q.out.map (fun o => if o.seq = seq ∧ o.done = none then
        { o with done := some (st, res, tick), obj := if (0 : Nat) = 0 then o.obj else 0 } else o) }) := by
    simp [State.resolve]
  have hput : ∀ z : State, z.host p = (s.host p).modSq r (fun q => { q with
      out := q.out.map (fun o => if o.seq = seq ∧ o.done = none then
        { o with done := some (st, res, tick), obj := if (0 : Nat) = 0 then o.obj else 0 } else o) }) →
      s.answered (z.putCompl p r { o with done := some (st, res, tick) } st res tick) p r o.tag st res ∧
      ((z.putCompl p r { o with done := some (st, res, tick) } st res tick).host p).sq.all (fun kv => kv.2.fence.isNone) = true := by
    intro z hz
    unfold State.putCompl
    dsimp only
    rw [hz]
    simp only [HostPort.cqOf_modSq, HostPort.cqAt_modSq, HostPort.canIssue_modSq, h4, h6]
    refine ⟨?_, ?_⟩
    · unfold State.answered
      simp only [Bool.false_eq_true, Bool.true_eq_false, if_false, State.host_modHost]
      rw [HostPort.coalesce_entries]
      simp only [HostPort.cqAt_modCq, HostPort.cqAt_modSq]
      exact ⟨_, rfl, rfl, rfl, rfl, rfl⟩
    · simp only [Bool.false_eq_true, Bool.true_eq_false, if_false, State.host_modHost, HostPort.coalesce_sq, HostPort.modCq_sq]
      exact HostPort.modSq_fence _ _ _ (fun _ => rfl) (HostPort.modSq_fence _ _ _ (fun _ => rfl) h5)
  obtain ⟨a, b⟩ := hput _ hq
  rw [settleFences_none p 64 _ b]
  exact a

/-- The same for the descriptor that an idle ring has just taken. -/
theorem State.complete_taken (s : State) (p r op st res : Nat) (d : Desc) (tick : Option Nat) (h : s.takes p r op d = true)
    (hi : s.idleRing p r = true) :
    s.answered ((s.accept p r op d).2.complete p r s.nextSeq st res tick) p r d.tag st res := by
  rw [State.takes_iff] at h
  have ho : s.ringOpen p r = true := h.1
  simp only [State.ringOpen, Bool.and_eq_true, Bool.not_eq_true'] at ho
  simp only [State.idleRing, Bool.and_eq_true, beq_iff_eq] at hi
  have e := State.complete_one (s.accept p r op d).2 p r s.nextSeq st res tick
    { seq := s.nextSeq, tag := d.tag, opcode := op, objKind := ((kindOf op).map (·.handle)).getD 0, obj := d.handle }
    (by simp [State.accept_host, hi.1.1]) rfl rfl (by simpa [State.accept_host] using ho.1.2) (by simp [State.accept_host, hi.2])
    (by rw [State.accept_host]; exact HostPort.modSq_fence _ _ _ (fun _ => rfl) hi.1.2)
  simpa [State.answered, State.accept_host] using e

end Sys2Proof.Machine
end

