-- ==== Sys2Proof/Laws/Memory.lean ====
section
/-! SUPPORT. The canonical memories: every operation keeps the form, a read after a write gives the value written, a write leaves every
other address alone, and two memories that read alike are the same data. -/
namespace Sys2Proof.Machine

variable {α : Type} [DecidableEq α] {d : α}

theorem memWfFrom_mono : ∀ {m : List (Nat × α)} {lo lo' : Nat}, lo' ≤ lo → memWfFrom d lo m = true → memWfFrom d lo' m = true
  | [], _, _, _, _ => rfl
  | (k, v) :: m, lo, lo', h, w => by
    simp only [memWfFrom, Bool.and_eq_true, decide_eq_true_eq] at w ⊢
    exact ⟨le_trans h w.1, w.2⟩

theorem memWfFrom_insert {a : Nat} {b : α} (hb : b ≠ d) :
    ∀ {m : List (Nat × α)} {lo : Nat}, lo ≤ a → memWfFrom d lo m = true → memWfFrom d lo (memInsert m a b) = true
  | [], lo, h, _ => by simp [memInsert, memWfFrom, h, hb]
  | (k, v) :: m, lo, h, w => by
    simp only [memWfFrom, Bool.and_eq_true, decide_eq_true_eq] at w
    obtain ⟨w1, w2, w3⟩ := w
    unfold memInsert
    split
    · next hk => simp [memWfFrom, h, hb, w2, w3, Nat.succ_le_of_lt hk]
    · split
      · next hk => subst hk; simp [memWfFrom, h, hb, w3]
      · next h1 h2 =>
        have : k + 1 ≤ a := by omega
        simp [memWfFrom, w1, w2, memWfFrom_insert hb this w3]

theorem memWfFrom_erase (a : Nat) :
    ∀ {m : List (Nat × α)} {lo : Nat}, memWfFrom d lo m = true → memWfFrom d lo (memErase m a) = true
  | [], _, _ => rfl
  | (k, v) :: m, lo, w => by
    simp only [memWfFrom, Bool.and_eq_true, decide_eq_true_eq] at w
    obtain ⟨w1, w2, w3⟩ := w
    unfold memErase
    split
    · exact memWfFrom_mono (by omega) (memWfFrom_erase a w3)
    · simp [memWfFrom, w1, w2, memWfFrom_erase a w3]

/-- A write keeps the canonical form. -/
theorem memWrite_wf {m : List (Nat × α)} (w : Memory.wf d m = true) (a : Nat) (b : α) : Memory.wf d (memWrite d m a b) = true := by
  unfold memWrite
  split
  · exact memWfFrom_erase a w
  · next h => exact memWfFrom_insert h (Nat.zero_le a) w

/-- Consecutive writes keep the canonical form. -/
theorem memWriteAll_wf : ∀ (bs : List α) {m : List (Nat × α)}, Memory.wf d m = true → ∀ a, Memory.wf d (memWriteAll d m a bs) = true
  | [], _, w, _ => w
  | b :: bs, _, w, a => memWriteAll_wf bs (memWrite_wf w a b) (a + 1)

/-- An address below every entry is not listed. -/
theorem memRead_of_lt : ∀ {m : List (Nat × α)} {lo a : Nat}, memWfFrom d lo m = true → a < lo → memRead d m a = d
  | [], _, _, _, _ => rfl
  | (k, v) :: m, lo, a, w, h => by
    simp only [memWfFrom, Bool.and_eq_true, decide_eq_true_eq] at w
    have : k ≠ a := by omega
    simp only [memRead, this, if_false]
    exact memRead_of_lt w.2.2 (by omega)

omit [DecidableEq α] in
theorem memRead_insert (m : List (Nat × α)) (a : Nat) (b : α) (x : Nat) :
    memRead d (memInsert m a b) x = if a = x then b else memRead d m x := by
  induction m with
  | nil => simp [memInsert, memRead]
  | cons p m ih =>
    obtain ⟨k, v⟩ := p
    unfold memInsert
    split
    · simp [memRead]
    · split
      · next h => subst h; by_cases hx : a = x <;> simp [memRead, hx]
      · next h1 h2 =>
        simp only [memRead, ih]
        by_cases hk : k = x <;> by_cases hx : a = x <;> simp_all

omit [DecidableEq α] in
theorem memRead_erase (m : List (Nat × α)) (a x : Nat) : memRead d (memErase m a) x = if a = x then d else memRead d m x := by
  induction m with
  | nil => simp [memErase, memRead]
  | cons p m ih =>
    obtain ⟨k, v⟩ := p
    unfold memErase
    by_cases hk : k = a
    · subst hk; rw [if_pos rfl, ih]; by_cases hx : k = x <;> simp [memRead, hx]
    · rw [if_neg hk]; simp only [memRead, ih]
      by_cases hx : k = x
      · subst hx; simp [Ne.symm hk]
      · simp [hx]

/-- A read after a write: the value written at its address, what was there everywhere else. -/
theorem memRead_memWrite (m : List (Nat × α)) (a : Nat) (b : α) (x : Nat) :
    memRead d (memWrite d m a b) x = if a = x then b else memRead d m x := by
  unfold memWrite
  split
  · next h => subst h; exact memRead_erase m a x
  · exact memRead_insert m a b x

/-- A read after consecutive writes. -/
theorem memRead_memWriteAll : ∀ (bs : List α) (m : List (Nat × α)) (a x : Nat),
    memRead d (memWriteAll d m a bs) x = if a ≤ x ∧ x < a + bs.length then bs.getD (x - a) d else memRead d m x
  | [], m, a, x => by
    have : ¬(a ≤ x ∧ x < a + 0) := by omega
    simp [memWriteAll]
  | b :: bs, m, a, x => by
    simp only [memWriteAll, memRead_memWriteAll bs (memWrite d m a b) (a + 1) x, memRead_memWrite m a b x, List.length_cons]
    by_cases h : a = x
    · subst h; simp
    · by_cases h2 : a + 1 ≤ x ∧ x < a + 1 + bs.length
      · have h3 : a ≤ x ∧ x < a + (bs.length + 1) := by omega
        have h4 : x - a = (x - (a + 1)) + 1 := by omega
        simp [h2, h3, h4]
      · have h3 : ¬(a ≤ x ∧ x < a + (bs.length + 1)) := by omega
        rw [if_neg h2, if_neg h3, if_neg h]

/-- Equal memories are equal data. -/
theorem memWf_ext : ∀ {m n : List (Nat × α)} {lo : Nat}, memWfFrom d lo m = true → memWfFrom d lo n = true →
    (∀ x, memRead d m x = memRead d n x) → m = n
  | [], [], _, _, _, _ => rfl
  | [], (k, v) :: n, _, _, w, h => by
    simp only [memWfFrom, Bool.and_eq_true, decide_eq_true_eq] at w
    exact absurd (h k).symm (by simp [memRead, w.2.1])
  | (k, v) :: m, [], _, w, _, h => by
    simp only [memWfFrom, Bool.and_eq_true, decide_eq_true_eq] at w
    exact absurd (h k) (by simp [memRead, w.2.1])
  | (k, v) :: m, (k', v') :: n, lo, w, w', h => by
    simp only [memWfFrom, Bool.and_eq_true, decide_eq_true_eq] at w w'
    obtain ⟨w1, w2, w3⟩ := w
    obtain ⟨w1', w2', w3'⟩ := w'
    have hk : k = k' := by
      rcases Nat.lt_trichotomy k k' with hlt | heq | hgt
      · have h1 := h k
        have : k' ≠ k := by omega
        simp only [memRead, if_true, this, if_false] at h1
        exact absurd (h1.trans (memRead_of_lt w3' (by omega))) w2
      · exact heq
      · have h1 := h k'
        have : k ≠ k' := by omega
        simp only [memRead, if_true, this, if_false] at h1
        exact absurd (h1.symm.trans (memRead_of_lt w3 (by omega))) w2'
    subst hk
    have hv : v = v' := by simpa [memRead] using h k
    subst hv
    congr 1
    refine memWf_ext w3 w3' (fun x => ?_)
    by_cases hx : k = x
    · subst hx; rw [memRead_of_lt w3 (by omega), memRead_of_lt w3' (by omega)]
    · simpa [memRead, hx] using h x

end Sys2Proof.Machine
end

