-- ==== Sys2Proof/Laws/Operations.lean ====
section
/-! SUPPORT. What running the work of an operation under what it sees can do (03 R140; 04 R170): nothing but the settings, the objects and
the waiting frames can differ from what the work itself leaves. -/
namespace Sys2Proof.Machine

/-- An operation that became ready in this tick sees what is in force. -/
theorem State.opSeen_now (s : State) (o : Op) (h : s.tickAt ≤ o.readyAt) : s.opSeen o = s := by
  simp [State.opSeen, State.opView, h]

/-- And its work is done as it stands. -/
theorem State.underOp_now (s : State) (o : Op) (work : State → State) (h : s.tickAt ≤ o.readyAt) : s.underOp o work = work s := by
  simp [State.underOp, State.opView, h]

/-- Nothing but the network state differs. -/
def NetOnly (s t : State) : Prop := t = { s with net := t.net }

theorem NetOnly.trans {s t u : State} (h : NetOnly s t) (k : NetOnly t u) : NetOnly s u := by
  unfold NetOnly at *
  rw [k, h]

/-- Moving the frames of a leg changes the network state alone. -/
theorem NetOnly.requeue (s : State) (i : Nat) : NetOnly s (s.requeue i) := by
  unfold NetOnly State.requeue
  split
  · split <;> rfl
  · rfl

/-- So does moving those of many legs, each on a condition. -/
theorem NetOnly.requeueAll (s : State) : ∀ (l : List Nat) (t : State),
    NetOnly t (forEach l (fun i t => if t.legq i = s.legq i then t else t.requeue i) t)
  | [], _ => rfl
  | i :: l, t => by
    have h : NetOnly t (if t.legq i = s.legq i then t else t.requeue i) := by
      split
      · rfl
      · exact NetOnly.requeue t i
    exact h.trans (NetOnly.requeueAll s l _)

theorem State.opSeen_thyme (s : State) (o : Op) : (s.opSeen o).thyme = s.thyme := by
  unfold State.opSeen; split <;> rfl
theorem State.opSeen_cnt (s : State) (o : Op) : (s.opSeen o).cnt = s.cnt := by
  unfold State.opSeen; split <;> rfl
theorem State.opSeen_net (s : State) (o : Op) : (s.opSeen o).net = s.net := by
  unfold State.opSeen; split <;> rfl

end Sys2Proof.Machine
end

