-- ==== Sys2Proof/Laws/PerInstr.lean ====
section
/-! SUPPORT. Families of statements that hold of each command of the table as syntax, one lemma a constructor. -/
namespace Sys2Proof.Laws.ThymeWord

/-- The thyme core that a command names; none for a command that is no thyme instruction. -/
def coreOf : Instr → Option Nat
  | .thNopp core _ _ => some core
  | .thMpy core _ _ _ _ _ => some core
  | .thMac core _ _ _ _ _ => some core
  | .thMsu core _ _ _ _ _ => some core
  | .thDmpy core _ _ _ _ _ => some core
  | .thDmac core _ _ _ _ _ => some core
  | .thDmsu core _ _ _ _ _ => some core
  | .thSqmac core _ _ _ _ => some core
  | .thAddg core _ _ _ _ => some core
  | .thSubg core _ _ _ _ => some core
  | .thLda core _ _ _ _ => some core
  | .thClra core _ _ _ => some core
  | .thAbsa core _ _ _ => some core
  | .thNega core _ _ _ => some core
  | .thAddaa core _ _ _ _ => some core
  | .thAsh core _ _ _ _ => some core
  | .thAbsmax core _ _ _ _ => some core
  | .thAdd core _ _ _ => some core
  | .thSub core _ _ _ => some core
  | .thAnd core _ _ _ => some core
  | .thOr core _ _ _ => some core
  | .thXor core _ _ _ => some core
  | .thShl core _ _ _ => some core
  | .thShr core _ _ _ => some core
  | .thSar core _ _ _ => some core
  | .thMul core _ _ _ => some core
  | .thMulh core _ _ _ => some core
  | .thMin core _ _ _ => some core
  | .thMax core _ _ _ => some core
  | .thAdds core _ _ _ => some core
  | .thSubs core _ _ _ => some core
  | .thCmp core _ _ => some core
  | .thLdi core _ _ => some core
  | .thLdiUpper core _ _ => some core
  | .thLdiRelative core _ _ => some core
  | .thStaSat core _ _ => some core
  | .thStaSat16 core _ _ => some core
  | .thStaRaw core _ _ => some core
  | .thStaGuard core _ _ => some core
  | .thStaNorm core _ _ => some core
  | .thDirectLoad core _ _ _ _ => some core
  | .thDirectStore core _ _ _ _ => some core
  | .thMove core _ _ => some core
  | .thBra core _ _ => some core
  | .thCall core _ _ => some core
  | .thJmp core _ => some core
  | .thCallg core _ => some core
  | .thRet core => some core
  | .thReti core => some core
  | .thRep core _ => some core
  | .thNop core => some core
  | .thEnd core => some core
  | .thEi core => some core
  | .thDi core => some core
  | .thBrk core => some core
  | _ => none

/-- The thyme instructions, and no other command, have a word of 32 bits (11 R485). -/
def Statement (i : Instr) : Prop := (encodeThyme i).isSome = (coreOf i).isSome

theorem nop (t p r : Nat) (d : Desc) : Statement (.nop t p r d) := rfl
theorem roomCreate (t p r : Nat) (d : Desc) : Statement (.roomCreate t p r d) := rfl
theorem roomModify (t p r : Nat) (d : Desc) : Statement (.roomModify t p r d) := rfl
theorem roomDelete (t p r : Nat) (d : Desc) : Statement (.roomDelete t p r d) := rfl
theorem legCreate (t p r : Nat) (d : Desc) : Statement (.legCreate t p r d) := rfl
theorem legModify (t p r : Nat) (d : Desc) : Statement (.legModify t p r d) := rfl
theorem legDelete (t p r : Nat) (d : Desc) : Statement (.legDelete t p r d) := rfl
theorem streamCreate (t p r : Nat) (d : Desc) : Statement (.streamCreate t p r d) := rfl
theorem streamModify (t p r : Nat) (d : Desc) : Statement (.streamModify t p r d) := rfl
theorem streamDelete (t p r : Nat) (d : Desc) : Statement (.streamDelete t p r d) := rfl
theorem batchBegin (t p r : Nat) (d : Desc) : Statement (.batchBegin t p r d) := rfl
theorem batchEnd (t p r : Nat) (d : Desc) : Statement (.batchEnd t p r d) := rfl
theorem fence (t p r : Nat) (d : Desc) : Statement (.fence t p r d) := rfl
theorem keyInstall (t p r : Nat) (d : Desc) : Statement (.keyInstall t p r d) := rfl
theorem tackSubmit (t p r : Nat) (d : Desc) : Statement (.tackSubmit t p r d) := rfl
theorem tackCommit (t p r : Nat) (d : Desc) : Statement (.tackCommit t p r d) := rfl
theorem tackAccept (t p r : Nat) (d : Desc) : Statement (.tackAccept t p r d) := rfl
theorem tackRollback (t p r : Nat) (d : Desc) : Statement (.tackRollback t p r d) := rfl
theorem kernelLoad (t p r : Nat) (d : Desc) : Statement (.kernelLoad t p r d) := rfl
theorem kernelUnload (t p r : Nat) (d : Desc) : Statement (.kernelUnload t p r d) := rfl
theorem statsSnapshot (t p r : Nat) (d : Desc) : Statement (.statsSnapshot t p r d) := rfl
theorem statsSnapshotCancel (t p r : Nat) (d : Desc) : Statement (.statsSnapshotCancel t p r d) := rfl
theorem puntPost (t p r : Nat) (d : Desc) : Statement (.puntPost t p r d) := rfl
theorem hostTx (t p r : Nat) (d : Desc) : Statement (.hostTx t p r d) := rfl
theorem logRead (t p r : Nat) (d : Desc) : Statement (.logRead t p r d) := rfl
theorem flashRead (t p r : Nat) (d : Desc) : Statement (.flashRead t p r d) := rfl
theorem flashWrite (t p r : Nat) (d : Desc) : Statement (.flashWrite t p r d) := rfl
theorem dramServiceRead (t p r : Nat) (d : Desc) : Statement (.dramServiceRead t p r d) := rfl
theorem dramServiceRetrain (t p r : Nat) (d : Desc) : Statement (.dramServiceRetrain t p r d) := rfl
theorem dramServiceRetire (t p r : Nat) (d : Desc) : Statement (.dramServiceRetire t p r d) := rfl
theorem dramServiceRestore (t p r : Nat) (d : Desc) : Statement (.dramServiceRestore t p r d) := rfl
theorem registerWrite (t p : Nat) (off : RegAt) (value width : Nat) : Statement (.registerWrite t p off value width) := rfl
theorem lock (t p off value width : Nat) : Statement (.lock t p off value width) := rfl
theorem sfCfgWrite (t p value : Nat) : Statement (.sfCfgWrite t p value) := rfl
theorem fwKekWrite (t p n w value : Nat) : Statement (.fwKekWrite t p n w value) := rfl
theorem loopWrite (t p n value : Nat) : Statement (.loopWrite t p n value) := rfl
theorem modeRequest (t p value : Nat) : Statement (.modeRequest t p value) := rfl
theorem pwrResetWrite (t p value : Nat) : Statement (.pwrResetWrite t p value) := rfl
theorem tripSeenClear (t p : Nat) : Statement (.tripSeenClear t p) := rfl
theorem tbNowRead (t p : Nat) (n : LatchRead) : Statement (.tbNowRead t p n) := rfl
theorem tbTickRead (t : Nat) (p : LatchRead) : Statement (.tbTickRead t p) := rfl
theorem faMigRead (t : Nat) (p : LatchRead) : Statement (.faMigRead t p) := rfl
theorem smbusWrite (t : Nat) (head data pec : List Byte) : Statement (.smbusWrite t head data pec) := rfl
theorem smbusRead (t : Nat) (frame : List Byte) : Statement (.smbusRead t frame) := rfl
theorem alertResponse (t : Nat) : Statement (.alertResponse t) := rfl
theorem smbusTimeout (t : Nat) : Statement (.smbusTimeout t) := rfl
theorem hostLinkUp (t : Nat) (p : LinkInfo) : Statement (.hostLinkUp t p) := rfl
theorem hostLinkDown (t p : Nat) : Statement (.hostLinkDown t p) := rfl
theorem flr (t p : Nat) : Statement (.flr t p) := rfl
theorem hotReset (t p : Nat) : Statement (.hotReset t p) := rfl
theorem perstAssert (t p : Nat) : Statement (.perstAssert t p) := rfl
theorem sweep (t p : Nat) (d : SweepData) : Statement (.sweep t p d) := rfl
theorem hostDmaCompletion (t : Nat) (a : DmaRef) (res : DmaResult) : Statement (.hostDmaCompletion t a res) := rfl
theorem attentionAge (t p q : Nat) : Statement (.attentionAge t p q) := rfl
theorem coalesceAge (t p j : Nat) : Statement (.coalesceAge t p j) := rfl
theorem orphanGraceExpiry (t p : Nat) : Statement (.orphanGraceExpiry t p) := rfl
theorem batchTimeout (t p r : Nat) : Statement (.batchTimeout t p r) := rfl
theorem abortedTailEnd (t p r : Nat) : Statement (.abortedTailEnd t p r) := rfl
theorem puntHoldExpiry (t p : Nat) : Statement (.puntHoldExpiry t p) := rfl
theorem tickBoundary (t : Nat) (m : TickMeas) : Statement (.tickBoundary t m) := rfl
theorem probationEnd (t : Nat) : Statement (.probationEnd t) := rfl
theorem automaticReturn (t : Nat) : Statement (.automaticReturn t) := rfl
theorem switchComplete (t : Nat) : Statement (.switchComplete t) := rfl
theorem validationEnd (t : Nat) : Statement (.validationEnd t) := rfl
theorem flashOperationDone (t : Nat) (res : FlashResult) : Statement (.flashOperationDone t res) := rfl
theorem tombstoneExpiry (t : Nat) : Statement (.tombstoneExpiry t) := rfl
theorem periodicCapture (t p addr : Nat) : Statement (.periodicCapture t p addr) := rfl
theorem eventWindowStart (t : Nat) : Statement (.eventWindowStart t) := rfl
theorem cutThroughStart (t lport : Nat) (f : RxFrame) : Statement (.cutThroughStart t lport f) := rfl
theorem completePacketNotice (t lport : Nat) (f : RxFrame) : Statement (.completePacketNotice t lport f) := rfl
theorem transmitFrameStart (t lport : Nat) : Statement (.transmitFrameStart t lport) := rfl
theorem transmitFrameEnd (t lport : Nat) : Statement (.transmitFrameEnd t lport) := rfl
theorem headAgeDrop (t queue : Nat) : Statement (.headAgeDrop t queue) := rfl
theorem logicalPortUp (t lport : Nat) : Statement (.logicalPortUp t lport) := rfl
theorem logicalPortDown (t lport : Nat) (cause : DownCause) : Statement (.logicalPortDown t lport cause) := rfl
theorem pauseTimerExpiry (t lport c : Nat) : Statement (.pauseTimerExpiry t lport c) := rfl
theorem pauseStorm (t lport c : Nat) : Statement (.pauseStorm t lport c) := rfl
theorem poolLevelCheck (t k : Nat) : Statement (.poolLevelCheck t k) := rfl
theorem xoffRepeat (t k lport : Nat) : Statement (.xoffRepeat t k lport) := rfl
theorem gateChange (t lport : Nat) : Statement (.gateChange t lport) := rfl
theorem gateListStart (t lport : Nat) : Statement (.gateListStart t lport) := rfl
theorem fecDegradedSet (t lport cw : Nat) : Statement (.fecDegradedSet t lport cw) := rfl
theorem fecDegradedClear (t lport : Nat) : Statement (.fecDegradedClear t lport) := rfl
theorem retrainEnd (t n : Nat) : Statement (.retrainEnd t n) := rfl
theorem keyOverlapEnd (t stream : Nat) : Statement (.keyOverlapEnd t stream) := rfl
theorem estimateTimeout (t leg : Nat) : Statement (.estimateTimeout t leg) := rfl
theorem keyWaitExpiry (t stream : Nat) : Statement (.keyWaitExpiry t stream) := rfl
theorem nackSend (t stream : Nat) : Statement (.nackSend t stream) := rfl
theorem rtcpReportTimer (t leg : Nat) : Statement (.rtcpReportTimer t leg) := rfl
theorem feedbackTimer (t leg : Nat) : Statement (.feedbackTimer t leg) := rfl
theorem historyShedRestore (t : Nat) : Statement (.historyShedRestore t) := rfl
theorem watermarkRearm (t k : Nat) : Statement (.watermarkRearm t k) := rfl
theorem operationDispatch (t yard cls : Nat) : Statement (.operationDispatch t yard cls) := rfl
theorem interruptEntry (core src : Nat) : Statement (.interruptEntry core src) := rfl
theorem stallYield (t : Nat) (stall : StallAt) : Statement (.stallYield t stall) := rfl
theorem watchdogOverrun (t : Nat) (op : Overrun) : Statement (.watchdogOverrun t op) := rfl
theorem pictureDue (t target : Nat) (info : PicInfo) : Statement (.pictureDue t target info) := rfl
theorem decodeComplete (t op : Nat) (res : DecodeResult) : Statement (.decodeComplete t op res) := rfl
theorem repairWindowEnd (t target : Nat) : Statement (.repairWindowEnd t target) := rfl
theorem keyRepeat (t target : Nat) : Statement (.keyRepeat t target) := rfl
theorem composedPictureReady (t room : Nat) : Statement (.composedPictureReady t room) := rfl
theorem composeComplete (t op cycles : Nat) : Statement (.composeComplete t op cycles) := rfl
theorem encodeComplete (t op : Nat) (res : EncodeResult) : Statement (.encodeComplete t op res) := rfl
theorem keyIntervalExpiry (t room rung : Nat) : Statement (.keyIntervalExpiry t room rung) := rfl
theorem rungRateUpdate (t room : Nat) : Statement (.rungRateUpdate t room) := rfl
theorem overlayPoll (t : Nat) (entries : List OverlayRead) : Statement (.overlayPoll t entries) := rfl
theorem overlayCopyDone (t host table index : Nat) (res : DmaResult) : Statement (.overlayCopyDone t host table index res) := rfl
theorem thymeOperationComplete (t op : Nat) (res : ThymeResult) : Statement (.thymeOperationComplete t op res) := rfl
theorem mixComplete (t op : Nat) (res : MixResult) : Statement (.mixComplete t op res) := rfl
theorem mixControlPoll (t : Nat) (entries : List MixCtlRead) : Statement (.mixControlPoll t entries) := rfl
theorem ptpMessageReceive (t lport : Nat) (msg : PtpFrame) : Statement (.ptpMessageReceive t lport msg) := rfl
theorem ptpMessageTransmit (t n : Nat) (kind : PtpKind) : Statement (.ptpMessageTransmit t n kind) := rfl
theorem holdoverEntry (t n : Nat) : Statement (.holdoverEntry t n) := rfl
theorem holdoverEnd (t n : Nat) : Statement (.holdoverEnd t n) := rfl
theorem slewLimitTimeout (t n : Nat) : Statement (.slewLimitTimeout t n) := rfl
theorem secondsSet (t n : Nat) : Statement (.secondsSet t n) := rfl
theorem ppsInputEdge (t n : Nat) : Statement (.ppsInputEdge t n) := rfl
theorem ppsInputLoss (t n : Nat) : Statement (.ppsInputLoss t n) := rfl
theorem ppsOutputRise (t n : Nat) : Statement (.ppsOutputRise t n) := rfl
theorem ppsOutputFall (t n : Nat) : Statement (.ppsOutputFall t n) := rfl
theorem referenceLoss (t : Nat) : Statement (.referenceLoss t) := rfl
theorem referenceReturn (t : Nat) : Statement (.referenceReturn t) := rfl
theorem refreshDue (t ch rank : Nat) : Statement (.refreshDue t ch rank) := rfl
theorem refreshBatch (t ch rank : Nat) : Statement (.refreshBatch t ch rank) := rfl
theorem mr4Read (t ch rank : Nat) (doubled : Bool) : Statement (.mr4Read t ch rank doubled) := rfl
theorem refreshModeReturn (t ch rank : Nat) : Statement (.refreshModeReturn t ch rank) := rfl
theorem dimmSensorRead (t ch slot : Nat) (temp : Int) : Statement (.dimmSensorRead t ch slot temp) := rfl
theorem dramRead (t client line obj item : Nat) (res : ReadEnd) : Statement (.dramRead t client line obj item res) := rfl
theorem contextPoisonDelete (t : Nat) : Statement (.contextPoisonDelete t) := rfl
theorem caParityError (t ch rank : Nat) (retryOk : Bool) (reads : List DramUse) (writes : List Nat) : Statement (.caParityError t ch rank retryOk reads writes) := rfl
theorem migrationStart (t : Nat) : Statement (.migrationStart t) := rfl
theorem migrationComplete (t : Nat) : Statement (.migrationComplete t) := rfl
theorem patrolScrub (t : Nat) (res : ReadResult) : Statement (.patrolScrub t res) := rfl
theorem pwrgoodLow (t : Nat) : Statement (.pwrgoodLow t) := rfl
theorem resetNLow (t : Nat) : Statement (.resetNLow t) := rfl
theorem vcoreLow (t mv : Nat) : Statement (.vcoreLow t mv) := rfl
theorem vsramLow (t mv : Nat) : Statement (.vsramLow t mv) := rfl
theorem walkoWatchdog (t : Nat) : Statement (.walkoWatchdog t) := rfl
theorem thermalTrip (t : Nat) : Statement (.thermalTrip t) := rfl
theorem resetRelease (t : Nat) : Statement (.resetRelease t) := rfl
theorem strapSample (t : Nat) (refsel svcBoot : Bool) (smbAddr : Nat) : Statement (.strapSample t refsel svcBoot smbAddr) := rfl
theorem bootStart (t : Nat) (facts : BootFacts) : Statement (.bootStart t facts) := rfl
theorem bootEnd (t : Nat) (failed : List (Nat × Nat)) (refOk : Bool) : Statement (.bootEnd t failed refOk) := rfl
theorem modeChange (t : Nat) : Statement (.modeChange t) := rfl
theorem keepNFall (t : Nat) : Statement (.keepNFall t) := rfl
theorem keepNRise (t : Nat) : Statement (.keepNRise t) := rfl
theorem keepWaitExpiry (t : Nat) : Statement (.keepWaitExpiry t) := rfl
theorem keepExit (t : Nat) : Statement (.keepExit t) := rfl
theorem drainTimeout (t : Nat) : Statement (.drainTimeout t) := rfl
theorem drainEnd (t : Nat) : Statement (.drainEnd t) := rfl
theorem safeEntry (t : Nat) (reason : SafeCause) : Statement (.safeEntry t reason) := rfl
theorem dipHoldStart (t rail mv : Nat) : Statement (.dipHoldStart t rail mv) := rfl
theorem dipHoldEnd (t : Nat) : Statement (.dipHoldEnd t) := rfl
theorem temperatureRead (t : Nat) (temps : List Int) : Statement (.temperatureRead t temps) := rfl
theorem throttleDecrease (t : Nat) : Statement (.throttleDecrease t) := rfl
theorem throttleLevelChange (t : Nat) : Statement (.throttleLevelChange t) := rfl
theorem thNopp (core : Nat) (xm ym : PMove) : Statement (.thNopp core xm ym) := rfl
theorem thMpy (core : Nat) (ad : BitVec 2) (sa sb : BitVec 3) (xm ym : PMove) : Statement (.thMpy core ad sa sb xm ym) := rfl
theorem thMac (core : Nat) (ad : BitVec 2) (sa sb : BitVec 3) (xm ym : PMove) : Statement (.thMac core ad sa sb xm ym) := rfl
theorem thMsu (core : Nat) (ad : BitVec 2) (sa sb : BitVec 3) (xm ym : PMove) : Statement (.thMsu core ad sa sb xm ym) := rfl
theorem thDmpy (core : Nat) (ad : BitVec 2) (sa sb : BitVec 3) (xm ym : PMove) : Statement (.thDmpy core ad sa sb xm ym) := rfl
theorem thDmac (core : Nat) (ad : BitVec 2) (sa sb : BitVec 3) (xm ym : PMove) : Statement (.thDmac core ad sa sb xm ym) := rfl
theorem thDmsu (core : Nat) (ad : BitVec 2) (sa sb : BitVec 3) (xm ym : PMove) : Statement (.thDmsu core ad sa sb xm ym) := rfl
theorem thSqmac (core : Nat) (ad : BitVec 2) (sa : BitVec 3) (xm ym : PMove) : Statement (.thSqmac core ad sa xm ym) := rfl
theorem thAddg (core : Nat) (ad : BitVec 2) (sa : BitVec 3) (xm ym : PMove) : Statement (.thAddg core ad sa xm ym) := rfl
theorem thSubg (core : Nat) (ad : BitVec 2) (sa : BitVec 3) (xm ym : PMove) : Statement (.thSubg core ad sa xm ym) := rfl
theorem thLda (core : Nat) (ad : BitVec 2) (sa : BitVec 3) (xm ym : PMove) : Statement (.thLda core ad sa xm ym) := rfl
theorem thClra (core : Nat) (ad : BitVec 2) (xm ym : PMove) : Statement (.thClra core ad xm ym) := rfl
theorem thAbsa (core : Nat) (ad : BitVec 2) (xm ym : PMove) : Statement (.thAbsa core ad xm ym) := rfl
theorem thNega (core : Nat) (ad : BitVec 2) (xm ym : PMove) : Statement (.thNega core ad xm ym) := rfl
theorem thAddaa (core : Nat) (ad sb : BitVec 2) (xm ym : PMove) : Statement (.thAddaa core ad sb xm ym) := rfl
theorem thAsh (core : Nat) (ad : BitVec 2) (n : BitVec 6) (xm ym : PMove) : Statement (.thAsh core ad n xm ym) := rfl
theorem thAbsmax (core : Nat) (ad : BitVec 2) (sa : BitVec 3) (xm ym : PMove) : Statement (.thAbsmax core ad sa xm ym) := rfl
theorem thAdd (core : Nat) (gd gs1 : BitVec 4) (b : AluSrc) : Statement (.thAdd core gd gs1 b) := rfl
theorem thSub (core : Nat) (gd gs1 : BitVec 4) (b : AluSrc) : Statement (.thSub core gd gs1 b) := rfl
theorem thAnd (core : Nat) (gd gs1 : BitVec 4) (b : AluSrc) : Statement (.thAnd core gd gs1 b) := rfl
theorem thOr (core : Nat) (gd gs1 : BitVec 4) (b : AluSrc) : Statement (.thOr core gd gs1 b) := rfl
theorem thXor (core : Nat) (gd gs1 : BitVec 4) (b : AluSrc) : Statement (.thXor core gd gs1 b) := rfl
theorem thShl (core : Nat) (gd gs1 : BitVec 4) (b : AluSrc) : Statement (.thShl core gd gs1 b) := rfl
theorem thShr (core : Nat) (gd gs1 : BitVec 4) (b : AluSrc) : Statement (.thShr core gd gs1 b) := rfl
theorem thSar (core : Nat) (gd gs1 : BitVec 4) (b : AluSrc) : Statement (.thSar core gd gs1 b) := rfl
theorem thMul (core : Nat) (gd gs1 : BitVec 4) (b : AluSrc) : Statement (.thMul core gd gs1 b) := rfl
theorem thMulh (core : Nat) (gd gs1 : BitVec 4) (b : AluSrc) : Statement (.thMulh core gd gs1 b) := rfl
theorem thMin (core : Nat) (gd gs1 : BitVec 4) (b : AluSrc) : Statement (.thMin core gd gs1 b) := rfl
theorem thMax (core : Nat) (gd gs1 : BitVec 4) (b : AluSrc) : Statement (.thMax core gd gs1 b) := rfl
theorem thAdds (core : Nat) (gd gs1 : BitVec 4) (b : AluSrc) : Statement (.thAdds core gd gs1 b) := rfl
theorem thSubs (core : Nat) (gd gs1 : BitVec 4) (b : AluSrc) : Statement (.thSubs core gd gs1 b) := rfl
theorem thCmp (core : Nat) (gs1 : BitVec 4) (b : AluSrc) : Statement (.thCmp core gs1 b) := rfl
theorem thLdi (core : Nat) (gd : BitVec 4) (imm : BitVec 16) : Statement (.thLdi core gd imm) := rfl
theorem thLdiUpper (core : Nat) (gd : BitVec 4) (imm : BitVec 16) : Statement (.thLdiUpper core gd imm) := rfl
theorem thLdiRelative (core : Nat) (gd : BitVec 4) (imm : BitVec 16) : Statement (.thLdiRelative core gd imm) := rfl
theorem thStaSat (core : Nat) (a : BitVec 2) (gd : BitVec 4) : Statement (.thStaSat core a gd) := rfl
theorem thStaSat16 (core : Nat) (a : BitVec 2) (gd : BitVec 4) : Statement (.thStaSat16 core a gd) := rfl
theorem thStaRaw (core : Nat) (a : BitVec 2) (gd : BitVec 4) : Statement (.thStaRaw core a gd) := rfl
theorem thStaGuard (core : Nat) (a : BitVec 2) (gd : BitVec 4) : Statement (.thStaGuard core a gd) := rfl
theorem thStaNorm (core : Nat) (a : BitVec 2) (gd : BitVec 4) : Statement (.thStaNorm core a gd) := rfl
theorem thDirectLoad (core : Nat) (y : Bool) (g : BitVec 4) (pn : BitVec 3) (off : BitVec 14) : Statement (.thDirectLoad core y g pn off) := rfl
theorem thDirectStore (core : Nat) (y : Bool) (g : BitVec 4) (pn : BitVec 3) (off : BitVec 14) : Statement (.thDirectStore core y g pn off) := rfl
theorem thMove (core : Nat) (dst src : MoveReg) : Statement (.thMove core dst src) := rfl
theorem thBra (core : Nat) (cond : Cond) (disp : BitVec 16) : Statement (.thBra core cond disp) := rfl
theorem thCall (core : Nat) (cond : Cond) (disp : BitVec 16) : Statement (.thCall core cond disp) := rfl
theorem thJmp (core : Nat) (gs : BitVec 4) : Statement (.thJmp core gs) := rfl
theorem thCallg (core : Nat) (gs : BitVec 4) : Statement (.thCallg core gs) := rfl
theorem thRet (core : Nat) : Statement (.thRet core) := rfl
theorem thReti (core : Nat) : Statement (.thReti core) := rfl
theorem thRep (core : Nat) (n : RepSrc) : Statement (.thRep core n) := rfl
theorem thNop (core : Nat) : Statement (.thNop core) := rfl
theorem thEnd (core : Nat) : Statement (.thEnd core) := rfl
theorem thEi (core : Nat) : Statement (.thEi core) := rfl
theorem thDi (core : Nat) : Statement (.thDi core) := rfl
theorem thBrk (core : Nat) : Statement (.thBrk core) := rfl
theorem returnLevelCrossing (t rail : Nat) : Statement (.returnLevelCrossing t rail) := rfl
theorem vauxLoss (t : Nat) : Statement (.vauxLoss t) := rfl
theorem announceReceiptTimeout (t n lport : Nat) : Statement (.announceReceiptTimeout t n lport) := rfl
theorem rankSweepDone (t ch rank : Nat) (reads writes : Bool) : Statement (.rankSweepDone t ch rank reads writes) := rfl
theorem snapshotWriteEnd (t p addr : Nat) : Statement (.snapshotWriteEnd t p addr) := rfl
theorem tckEdge (tms tdi trstN : Bool) (pins : List Bool) : Statement (.tckEdge tms tdi trstN pins) := rfl

end Sys2Proof.Laws.ThymeWord
end

