-- ==== Sys2Proof/Laws/Thyme.lean ====
section
/-! SUPPORT. A thyme core: what one instruction does to the state when nothing else happens with it. -/
namespace Sys2Proof.Machine

theorem takeInterrupt_none (core : Nat) (s : State) (h : (s.core core).ipend = 0#3) : takeInterrupt core s = s := by
  have ht : (s.core core).takes = none := by simp [Core.takes, h]
  unfold takeInterrupt
  simp only [ht]
  split <;> rfl

/-- An instruction that faults on no kernel, ends no block and leaves IPEND, the budget and the kernel block alone. -/
theorem thymeRun_goes {core cost : Nat} {i : Instr} {f : (Nat → Nat) → Core → ThymeEffect} {s : State} {dest : Ptr} (e : ThymeEffect)
    (he : e = f (fun k => Config.freeNat (s.free + k)) (s.core core)) (h : (s.core core).goes core i cost dest = true)
    (hf : (s.core core).km = true → e.fault = 0) (hend : (s.core core).km = true → e.ends = false)
    (hp : (e.advance (s.core core)).pc = dest)
    (hi : (e.advance (s.core core)).ipend = (s.core core).ipend) (hb : (e.advance (s.core core)).budget = (s.core core).budget) :
    thymeRun core i cost f s =
      { s.setCore core ((e.advance (s.core core)).charge (s.core core) cost) with free := s.free + e.draws } := by
  simp only [Core.goes, Bool.and_eq_true, lt, decide_eq_true_eq, beq_iff_eq] at h
  obtain ⟨⟨⟨h64, hip⟩, hfe⟩, hk⟩ := h
  unfold thymeRun
  rw [if_neg (by simp only [not_or, Nat.not_le, hfe]; exact ⟨h64, by decide⟩)]
  simp only [← he]
  have hcore : ∀ fr, ({ s.setCore core ((e.advance (s.core core)).charge (s.core core) cost) with free := fr } : State).core core =
      (e.advance (s.core core)).charge (s.core core) cost := fun fr => State.core_setCore s core _
  rw [takeInterrupt_none]
  · split
    · next k hkm hrun =>
      simp only [hkm, hrun, Bool.and_eq_true, decide_eq_true_eq] at hk
      have hcyc : ((e.advance (s.core core)).charge (s.core core) cost).cyc.toNat = (s.core core).cyc.toNat + cost := by
        have := (s.core core).budget.isLt
        simp only [Core.charge, hkm, if_true, BitVec.toNat_add, BitVec.toNat_ofNat]
        omega
      have hbud : ((e.advance (s.core core)).charge (s.core core) cost).budget = (s.core core).budget := hb
      have hpc : ((e.advance (s.core core)).charge (s.core core) cost).pc = dest := hp
      rw [if_neg (by simp [hf hkm]), if_neg (by simp [hend hkm]), if_neg (by rw [hcyc, hbud]; omega), if_neg (by rw [hpc]; omega)]
    · rfl
  · split
    · next k hkm hrun =>
      simp only [hkm, hrun, Bool.and_eq_true, decide_eq_true_eq] at hk
      have hcyc : ((e.advance (s.core core)).charge (s.core core) cost).cyc.toNat = (s.core core).cyc.toNat + cost := by
        have := (s.core core).budget.isLt
        simp only [Core.charge, hkm, if_true, BitVec.toNat_add, BitVec.toNat_ofNat]
        omega
      have hbud : ((e.advance (s.core core)).charge (s.core core) cost).budget = (s.core core).budget := hb
      have hpc : ((e.advance (s.core core)).charge (s.core core) cost).pc = dest := hp
      rw [if_neg (by simp [hf hkm]), if_neg (by simp [hend hkm]), if_neg (by rw [hcyc, hbud]; omega), if_neg (by rw [hpc]; omega)]
      rw [hcore]; exact hi.trans hip
    · rw [hcore]; exact hi.trans hip

/-- At a clean boundary execution goes on behind an instruction that leaves the line in no way. -/
theorem ThymeEffect.advance_clean (e : ThymeEffect) (c : Core) (hc : c.clean = true) (hj : e.jump = none) (hb : e.branch = none) (hr : e.rep = none) :
    e.advance c = { e.core with stale := e.stale, pc := c.pc + 1, rep := none } := by
  simp only [Core.clean, Bool.and_eq_true, Option.isNone_iff_eq_none] at hc
  simp [ThymeEffect.advance, hj, hb, hr, hc.1.1, hc.1.2]

end Sys2Proof.Machine
end

