-- ==== Sys2Proof/Tests/Slice0.lean ====
section
/-! SUPPORT. Tests: well-formed and ill-formed terms, words of thyme instructions, small steps, and for each statement that has hypotheses a
state and operands that meet them (`wit_<statement>_<clause>`).  Expected values come from the manual's worked examples and tables, or
from a calculation by hand with them. -/
namespace Sys2Proof.Tests
open Sys2Proof.Machine
set_option maxRecDepth 20000
set_option Elab.async false

/-! ### Small states -/

/-- A descriptor body with some fields at their slot offsets. -/
def bodyOf (l : List (Nat × Nat × Nat)) : Bytes := l.foldl (fun b (o, n, v) => splice b (o - 16) (leBytes n v)) (padTo 48 [])

/-- A port in RUN with submission ring 0 of 16 entries on completion ring 0. -/
def port0 : HostPort := { state := .run, link := true, bme := true, mrrs := 1024, regs := [(0x10010, 0x2002), (0x10108, 0x80000004), (0x10508, 0x80000004)] }

/-- The bridge in RUN at tick 7 with such a port 0, which owns the generation. -/
def s0 : State := { power := { mode := .run }, hosts := [(0, port0)], tick := 7, nextSeq := 5, flash := { sizeMib := 16 } }

/-- The state with a port changed. -/
def withPort (f : HostPort → HostPort) : State := { s0 with hosts := [(0, f port0)] }

def d0 : Desc := { body := bodyOf [] }

/-! ### Witnesses: descriptors -/

theorem wit_nop : (s0.at 9).takes 0 0 0x00 d0 = true ∧ s0.idleRing 0 0 = true := by decide
theorem wit_fence_open : (s0.at 9).takes 0 0 0x0C { d0 with body := bodyOf [(16, 8, 1)] } = true ∧ s0.idleRing 0 0 = true ∧
    ∀ i < 64, bit (dfld { d0 with body := bodyOf [(16, 8, 1)] } 16 8) i = true → ((s0.host 0).sqAt i).out = [] := by decide

/-- Port 0 with a descriptor of ring 1 open. -/
def s1 : State := withPort (fun h => { h with sq := [(1, { out := [{ seq := 3, tag := 0, opcode := 0 }] })] })

theorem wit_fence_held : (s1.at 9).takes 0 0 0x0C { d0 with body := bodyOf [(16, 8, 2)] } = true ∧ s1.idleRing 0 0 = true ∧
    ∃ i < 64, bit (dfld { d0 with body := bodyOf [(16, 8, 2)] } 16 8) i = true ∧ ∃ o ∈ ((s1.host 0).sqAt i).out, o.seq < s1.nextSeq := by decide
theorem wit_batch_begin : (s0.at 9).takes 0 0 0x0A d0 = true := by decide

/-- A batch with one member on ring 0. -/
def s2 : State := withPort (fun h => { h with sq := [(0, { batch := some { beginSeq := 3, startTick := 7, members := [4] } })] })

theorem wit_batch_end : (s2.at 9).ringOpen 0 0 = true ∧ (s2.at 9).cqFree 0 0 = true ∧ (s2.at 9).tailOf 0 0 = false ∧
    earlyStatus s2.power.mode 0x0B d0 = none ∧ ∃ b, s2.batchOf 0 0 = some b ∧ b.failed = false ∧ b.members ≠ [] := by
  exact ⟨by decide, by decide, by decide, by decide, _, rfl, by decide, by decide⟩
theorem wit_tick_kinds : ∀ op ∈ [0x01, 0x02, 0x03, 0x04, 0x05, 0x06, 0x07, 0x08, 0x09, 0x11, 0x12, 0x18],
    (s0.at 9).takes 0 0 op { d0 with length := if op = 0x18 then 4096 else 0 } = true := by decide
theorem wit_accepts : (s0.at 9).takes 0 0 0x11 (withAccept false d0) = true ∧ (s0.at 9).takes 0 0 0x11 (withAccept true d0) = true ∧
    (s0.at 9).takes 0 0 0x18 (withCancel true { d0 with length := 4096 }) = true := by decide
theorem wit_kernels : (s0.at 9).takes 0 0 0x14 { d0 with length := 64, body := splice (padTo 48 d0.body) 9 (leBytes 1 1) } = true ∧
    (s0.at 9).takes 0 0 0x14 { d0 with length := 64, body := splice (padTo 48 d0.body) 9 (leBytes 1 0) } = true ∧
    (s0.at 9).takes 0 0 0x0D { d0 with length := 48 } = true := by decide
theorem wit_submit : (s0.at 9).takes 0 0 0x10 { d0 with length := 256 } = true ∧ s0.isOwner 0 = true ∧ (0 : Nat) = s0.gen ∧
    dfld d0 16 8 % 64 = 0 ∧ s0.gens.validating = none ∧ s0.switchSet = false := by decide
theorem wit_flash_read : dfld d0 24 4 + 4096 ≤ s0.flash.sizeMib * 1048576 ∧ (s0.at 9).takes 0 0 0x1E { d0 with length := 4096 } = true := by decide
theorem wit_flash_write : (s0.at 9).takes 0 0 0x1F { d0 with length := 4096 } = true ∧ s0.isOwner 0 = true ∧ dfld d0 24 4 % 4096 = 0 := by decide

/-- A room with a log. -/
def room0 : Room := { inc := 1, owner := 0, template := 0, logMib := 16 }
def s3 : State := { s0 with objs := { rooms := [(0, room0)], roomInc := [(0, 1)] } }

theorem wit_log_read : (s3.at 9).takes 0 0 0x1C { d0 with length := 16384, handle := 65536 } = true ∧ s3.handleCheck 0 1 65536 = none ∧
    (s3.roomAt 65536).isSome = true ∧ room0.logMib ≠ 0 ∧ bit (dfld d0 25 1) 0 = false := by decide
def s4 : State := withPort (fun h => { h with regs := h.regs ++ [(0x10018, 0x80000000)] })

theorem wit_punt_post : (s4.at 9).takes 0 0 0x1A { d0 with length := 256 } = true ∧ (s4.host 0).puntRing = some 0 ∧ dfld d0 16 8 % 64 = 0 ∧
    (s4.host 0).puntHeld = [] := by decide
theorem wit_host_tx : (s0.at 9).takes 0 0 0x1B { d0 with length := 9212 } = true ∧ provides s0.gens.cur (txLport d0) = true ∧ s0.net.hostWait = [] ∧
    s0.poolTakes (s0.poolOf (txLport d0) (txClass d0)) (cellsOf (hostLen 9212)) = true := by decide

/-- DRAM of 512 GiB with a member, two spares and a retired rank. -/
def s5 : State := { s0 with dram := { setGib := [(0, 512)], sets := [(0, [0])], ranks := [
  (0, { state := .member, set := 0, gib := 32 }), (1, { state := .spare, gib := 32 }), (2, { state := .retired, gib := 32 }),
  (3, { state := .spare, gib := 32 })] } }
def s5s : State := { s5 with power := { mode := .service } }

theorem wit_dram_read : (s5.at 9).takes 0 0 0x20 (withOp 0 { d0 with length := 64, body := bodyOf [(32, 8, (s5.region 8).1 * 1048576)] }) = true ∧
    (s5.region 8).1 * 1048576 + 64 ≤ ((s5.region 8).1 + (s5.region 8).2.1) * 1048576 ∧ (s5.region 8).1 * 1048576 % 64 = 0 := by decide
theorem wit_dram_retrain : (s5s.at 9).takes 0 0 0x20 (withOp 1 { d0 with length := 1 }) = true ∧ s5s.power.mode = .service ∧ s5s.isOwner 0 = true ∧
    s5s.namedRanks 0 0 = some [0] ∧ (s5s.spareFor 0).isSome = true := by decide
theorem wit_dram_retire : (s5.at 9).takes 0 0 0x20 (withOp 2 { d0 with length := 1 }) = true ∧ s5.isOwner 0 = true ∧ (s5.rank 0).state = .member ∧
    (s5.spareFor 0).isSome = true := by decide
theorem wit_dram_restore : (s5s.at 9).takes 0 0 0x20 (withOp 3 { d0 with length := 1, body := bodyOf [(18, 1, 2)] }) = true ∧ (s5s.rank 2).state = .retired := by
  decide

/-! ### Witnesses: registers, SMBus, JTAG, host ports -/

/-- Port 0 in SETUP, with everything a LOCK asks for. -/
def port1 : HostPort := { state := .setup, link := true, bme := true, mrrs := 1024, regs := [
  (0x10008, 0x1000), (0x10010, 0x2002), (0x10100, 0x10000), (0x10108, 0x80000004), (0x10500, 0x20000), (0x10508, 0x80000004)] }
def s6 : State := { s0 with hosts := [(0, port1)] }

theorem wit_register_write : s6.barOpen 0 = true ∧ (0x10908 : Nat) % 4 = 0 ∧ rlMask (0x10908 - 0x10000) ≠ 0 ∧ s6.running 0 = false ∧
    s0.barOpen 0 = true ∧ s0.running 0 = true := by decide
theorem wit_register_ignored : s6.barOpen 0 = true ∧ rlMask (0x10014 - 0x10000) = 0 ∧ (0x10014 : Nat) ≠ 0x10000 ∧ (s6.host 0).link = true := by decide
theorem wit_latching : s0.barOpen 0 = true ∧ s0.power.mode ≠ .boot := by decide

/-- 16 R632: the bytes by which a board controller requests KEEP of the target at 0x6C. -/
def keepFrame : Bytes := [0xD8, 0x10, 0x08, 0x04, 0x70, 0x00, 0x00, 0x05, 0x00, 0x00, 0x00]

theorem wit_smbus : s0.power.mode ≠ .reset ∧ s0.power.smbAddr < 4 ∧ keepFrame = s0.smbHead 0x10 8 ++ leBytes 4 0x7004 ++ leBytes 4 5 ∧
    (0x7004 : Nat) / 4 = 0x1C01 ∧ (0x700C : Nat) / 4 = 0x1C03 ∧ (0x7000 : Nat) < 0x10000 := by decide
theorem wit_smbus_refused : ([] : Bytes).take 3 ≠ s0.smbHead 0x10 8 ∧ ([] : Bytes).take 3 ≠ s0.smbHead 0x12 4 := by decide
/-- The request of the example is accepted for a boundary at least 100 µs later. -/
theorem test_smbus_keep : (smbusWrite keepFrame s0).power.pend = some (.keep, 100 * us) ∧ (smbusWrite keepFrame s0).pins.smbAck = true := by decide
/-- The check value of CRC-8 by x^8 + x^2 + x + 1 over the digits 1 to 9, as CRC catalogues give it. -/
theorem test_pec : smbPec [0x31, 0x32, 0x33, 0x34, 0x35, 0x36, 0x37, 0x38, 0x39] = 0xF4 := by decide
theorem wit_alert : ({ s0 with pins := { alert := true } } : State).pins.alert = true ∧ s0.power.smbAddr < 4 := by decide
theorem wit_tap : ({ s0 with pins := { tap := 0x6 } } : State).pins.tap = 0x6 ∧ ({ s0 with pins := { tap := 0x6 } } : State).pins.ir = 1#4 := by decide
theorem wit_sf_cfg : s0.barOpen 0 = true ∧ s0.isOwner 0 = true ∧ s0.flash.busy = false ∧
    ({ s0 with flash := { ops := [.read 0 0 1 0 0 4096] } } : State).flash.busy = true := by decide
theorem wit_loop : s5s.barOpen 0 = true ∧ s5s.isOwner 0 = true ∧ s5s.power.mode = .service ∧ (2 : Nat) % 4 ≠ 3 := by decide
theorem wit_kek : s6.barOpen 0 = true ∧ s6.running 0 = false := by decide
theorem wit_link_up : ({ s0 with hosts := [] } : State).power.mode ≠ .boot ∧ (({ s0 with hosts := [] } : State).host 0).state = .off := by decide
theorem wit_lock_ok : (s6.host 0).state = .setup ∧ (s6.host 0).lockCheck s6.power.mode = none := by decide
theorem wit_lock_fails : ({ s6.host 0 with bme := false } : HostPort).lockCheck s6.power.mode = some (2, 0, 0) := by decide
theorem wit_leave_run : (s0.host 0).state = .run ∧ (s0.host 0).link = true := by decide
/-- A doorbell page whose first submission ring stands at 17. -/
def page17 : Bytes := leBytes 4 17 ++ zeros 524
theorem wit_sweep : s0.running 0 = true ∧ s0.power.mode.sweeps = true ∧ (s0.host 0).canIssue = true ∧ (s0.host 0).sqEn 0 = true ∧
    ((s0.host 0).sqAt 0).halted = false ∧ ringSize ((s0.host 0).sqCfg 0) < ahead (le page17 0 4) ((s0.host 0).sqAt 0).fetched ∧
    ((s0.host 0).sqAt 0).prod % 2 ^ 32 ≠ le page17 0 4 % 2 ^ 32 := by decide
theorem wit_sweep_idle : ∀ i < 64, (s0.host 0).sqEn i = true → ((s0.host 0).sqAt i).prod % 2 ^ 32 = le (zeros 528) (4 * i) 4 % 2 ^ 32 := by decide +kernel
theorem wit_fetch : (withPort (fun h => { h with sq := [(0, { prod := 1 })] })).ringOpen 0 0 = true ∧
    (withPort (fun h => { h with sq := [(0, { prod := 1 })] })).cqFree 0 0 = true := by decide
/-- 02 R78, R88: a page and a slot give their fields by offset: the NOP of TAG 0x1234 at LENGTH 0. -/
theorem test_slot : slotOpcode ([0x0C, 0, 0x34, 0x12] ++ zeros 60) = 0x0C ∧ (slotDesc ([0x0C, 0, 0x34, 0x12] ++ zeros 60)).tag = 0x1234 := by decide
theorem wit_sweep_busy : ((withPort (fun h => { h with sq := [(0, { halted := true })] })).host 0).sqEn 0 = true ∧
    (((withPort (fun h => { h with sq := [(0, { halted := true })] })).host 0).sqAt 0).prod % 2 ^ 32 ≠ 1 % 2 ^ 32 := by decide
theorem wit_access_ok : ({ s0 with dmas := [{ id := 4, port := 0, ring := 0, seq := 1, use := .command }] } : State).dmas.find? (fun y => y.id == 4) =
    some { id := 4, port := 0, ring := 0, seq := 1, use := .command } := by decide
theorem wit_access_image : ({ s0 with gens := { validating := some { port := 0, ring := 0, seq := 1, length := 256, image := none, at_ := 0 } } } : State).gens.validating =
    some { port := 0, ring := 0, seq := 1, length := 256, image := none, at_ := 0 } := by decide

/-- A ring with one descriptor open, that waits for the write of its buffer. -/
def sW : State := withPort (fun h => { h with sq := [(0, { out := [{ seq := 1, tag := 9, opcode := 0x1E }] })] })
theorem wit_access_write : ((sW.host 0).sqAt 0).out = [{ seq := 1, tag := 9, opcode := 0x1E }] ∧ (sW.host 0).sq.all (fun kv => kv.2.fence.isNone) = true ∧
    (sW.host 0).canIssue = true ∧ ((sW.host 0).cqAt ((sW.host 0).cqOf 0)).halted = false := by decide
theorem wit_access_fails : s0.running 0 = true ∧ 4 ∈ [1, 2, 4, 5, 6, 7] ∧
    ((withPort (fun h => { h with unissued := [(1, 0)] })).host 0).unissued.contains (1, 0) = true := by decide

/-- An event queue with an entry older than its age, and a completion older than its own. -/
def s7 : State := { withPort (fun h => { h with
  msix := true, regs := h.regs ++ [(0x1050C, 0x10000), (0x10908, 0x80000004), (0x1090C, 0x10000)], cq := [(0, { unsignalled := 1, oldest := 0 })]
  eq := [(0, { entries := [{ source := 0, sev := 0, tick := 0, payload := 0, phase := true, at_ := 0 }] })] }) with now := 2 * us }

theorem wit_attention : (s7.host 0).state = .run ∧ (s7.host 0).eqMeets (max s7.now 0) 0 = true := by decide
theorem wit_coalesce : (s7.host 0).msix = true ∧ bits ((s7.host 0).reg 0x1050C) 31 16 ≠ 0 ∧ 0 < ((s7.host 0).cqAt 0).unsignalled ∧
    ((s7.host 0).cqAt 0).oldest + bits ((s7.host 0).reg 0x1050C) 31 16 * us ≤ max s7.now 0 ∧ (s7.host 0).masked 0 = true ∧
    ({ s7.host 0 with msixTab := [(0, { mask := false })] } : HostPort).masked 0 = false ∧ (s7.host 0).canIssue = true := by decide
theorem wit_orphans : ((withPort (fun h => { h with grace := some 0 })).host 0).grace = some 0 ∧ s0.power.mode ≠ .keep ∧ s0.roomsOf 0 = [] := by decide
def held0 : PuntFrame := { header := [], data := [], at_ := 0 }
theorem wit_punt_hold : ((withPort (fun h => { h with puntHeld := [held0] })).host 0).puntHeld = [held0] ∧ held0.at_ + s0.puntHold ≤ max s0.now 1000000000 := by
  decide
theorem wit_key_overlap : ({ inc := 1, leg := 0, room := 0, owner := 0, body := [], oldKey := some ({ suite := 0, key := [] }, 4) } : Stream).oldKey =
    some ({ suite := 0, key := [] }, 4) ∧ 4 ≤ max s0.now 4 := by decide
theorem wit_batch_timeout : s2.batchOf 0 0 = some { beginSeq := 3, startTick := 7, members := [4] } ∧
    (7 : Nat) + 400 ≤ ({ s2 with tick := 407 } : State).tick := by decide
theorem wit_tail_end : (((withPort (fun h => { h with sq := [(0, { tail := some 7 })] })).host 0).sqAt 0).tail = some 7 := by decide

/-! ### Witnesses: objects, ticks, generations, flash, snapshots, events -/

/-- A tack whose section 4 gives logical port 0 an IPv4 address. -/
def tack0 : Tack := { gen := 1, secs := [(4, splice (splice (padTo 448 []) 0 (leBytes 1 1)) (256 + 64) (leBytes 4 0x0100000A))] }

/-- A room with a leg and a stream of port 0. -/
def leg0 : Leg := { inc := 1, room := 0, owner := 0, lport := 0, remoteUdp := 2000, localUdp := 1000 }
def stream0 : Stream := { inc := 1, leg := 0, room := 0, owner := 0, body := bodyOf [(17, 1, 1), (20, 4, 77), (24, 4, 48000)], ssrc := 77 }
def s8 : State := { s0 with
  gens := { cur := some tack0 }
  objs := { rooms := [(0, { room0 with tpl := padTo 8 [], owner := 0 })], legs := [(0, leg0)], streams := [(0, stream0)], roomInc := [(0, 1)]
            legInc := [(0, 1)], streamInc := [(0, 1)] } }

theorem wit_room_create : (s5.applyCommand 0x01 0 d0 []).2.1 = stOk := by decide
theorem wit_leg_create : (s8.applyCommand 0x04 0 { d0 with genview := 1, handle := 65536, body := bodyOf [(20, 2, 3000), (22, 2, 4000), (48, 4, 8)] } []).2.1 = stOk := by
  decide +kernel
theorem wit_stream_create : (s8.applyCommand 0x07 0 { d0 with genview := 1, handle := 1048576, body := bodyOf [(17, 1, 1), (20, 4, 78), (24, 4, 48000)] } []).2.1 =
    stOk := by decide +kernel
theorem wit_deletes : (s8.roomAt 65536).isSome = true ∧ (s8.legAt 1048576).isSome = true ∧ (s8.streamAt 4194304).isSome = true ∧ room0.owner = 0 ∧
    leg0.owner = 0 ∧ stream0.owner = 0 := by decide
/-- R5: after the largest value the incarnation goes on at 1. -/
theorem test_incarnation_wraps : nextInc 1 0xFFFF = 1 ∧ nextInc 2 0xFFF = 1 ∧ nextInc 3 0x3FF = 1 ∧ nextInc 3 0x3FE = 0x3FF := by decide
theorem wit_handles : (kindOf 0x05).isSome = true ∧ (kindOf 0x0D).isSome = true ∧ s8.ownerOf 1 65537 = none ∧ s8.ownerOf 1 65536 = some 0 ∧
    (0 : Nat) ≠ 1 := by decide
theorem wit_tick : ({ s0 with power := { mode := .run, releaseAt := some 0 }, tickVal := -(2500000 * 2 ^ 32) } : State).tickVal + 2500000 * 2 ^ 32 ≤
    (({ s0 with power := { mode := .run, releaseAt := some 0 }, tickVal := -(2500000 * 2 ^ 32) } : State).at 0).tbVal 0 := by decide

/-- A boundary that waits for the end of probation, and one that waits for a return to the parent. -/
def s9 : State := { s0 with boundaryHeld := true, gens := { cur := some tack0, state := .probation } }
def s10 : State := { s0 with boundaryHeld := true, gens := { cur := some tack0, parent := some { gen := 2 }, autoReturn := some (7, 0, 0) } }

theorem wit_probation : max s9.now 0 = s9.tickAt ∧ s9.gens.autoReturn = none ∧ s9.probationOver = true := by decide
theorem wit_return : max s10.now 0 = s10.tickAt ∧ s10.gens.autoReturn = some (7, 0, 0) ∧ 7 ≤ s10.tick ∧ s10.gens.parent.isSome = true := by decide
theorem wit_switch : ({ s0 with gens := { switching := true } } : State).oldInFlight = false := by decide

/-- An image of nothing, which fails the first check. -/
def s11 : State := { s0 with gens := { validating := some { port := 0, ring := 0, seq := 1, length := 256, image := some (padTo 256 []), at_ := 0 } } }

theorem wit_validation_fails : (validateTack (s11.at 0).vctx 256 (padTo 256 [])).isSome = true := by decide +kernel
theorem wit_flash_done : ({ s0 with flash := { ops := [.read 0 0 1 0 0 4096] } } : State).flash.held = false ∧
    ({ s0 with flash := { sizeMib := 16 } } : State).flash.firstFailure 0x800000 4096 { reason := 0, sector := 0 } = none := by decide +kernel

/-- A periodic snapshot that is due now. -/
def snap0 : SnapReq := { addr := 4096, length := 1048576, period := 1, room := 0, mask := 0, capture := 1, nextTick := 7 }
def s12 : State := withPort (fun h => { h with snaps := [snap0] })

theorem wit_capture : (s12.host 0).snaps = [snap0] ∧ max s12.now 0 = s12.tickAt ∧ s12.boundaryHeld = false ∧ s12.power.mode ≠ .keep ∧
    snap0.period ≠ 0 ∧ snap0.capture ≠ 0 ∧ snap0.cancelled = false ∧ snap0.nextTick = s12.tick ∧ snap0.writing = false ∧
    (s12.host 0).canIssue = true := by decide
theorem wit_capture_fits : ((s12.at 0).snapshot 0 snap0).length ≤ snap0.length := by decide +kernel
theorem wit_capture_first : ((withPort (fun h => { h with
      snaps := [{ snap0 with writing := true, seq := 1 }], sq := [(0, { out := [{ seq := 1, tag := 9, opcode := 0x18 }] })] })).host 0).snaps.find?
    (fun x => x.addr == 4096 && x.writing) = some { snap0 with writing := true, seq := 1 } := by decide
theorem wit_capture_end : ((withPort (fun h => { h with snaps := [{ snap0 with capture := 2, writing := true }] })).host 0).snaps.find?
    (fun x => x.addr == 4096 && x.writing) = some { snap0 with capture := 2, writing := true } := by decide
theorem wit_window : ({ s0 with tick := 800, router := { window := [(3, (4, 1))] } } : State).tick % 400 = 0 ∧
    ({ s0 with tick := 800, router := { window := [(3, (4, 1))] } } : State).router.windowNo ≠ 800 / 400 ∧
    ({ s0 with tick := 800, router := { window := [(3, (4, 1))] } } : State).router.told = [] := by decide

/-! ### Witnesses: network ports, egress and forwarding timers -/

/-- A frame of at least 60 bytes without its FCS. -/
def frame (dst etype : Nat) (payload : Bytes) : Bytes :=
  beBytes 6 dst ++ beBytes 6 0x020000000001 ++ beBytes 2 etype ++ payload ++ List.replicate (46 - payload.length) 0

/-- Logical port 0 up. -/
def s13 : State := { s0 with net := { lports := [(0, { up := true })] } }

/-- Time base 0 in role 2 on logical port 0. -/
def s14 : State := { s13 with gens := { cur := some { gen := 0, secs := [(0x0D, padTo 512 [2])] } } }

/-- The port's own address is a constant of the part; group addresses are accepted whatever it is. -/
theorem macOk_group (c : Option Tack) (l : Nat) : macOk c l 0xFFFFFFFFFFFF = true ∧ macOk c l 0x011B19000000 = true := by simp [macOk]

theorem wit_rx : s13.upl 0 = true ∧ (s13.lport 0).rx = none ∧ (s13.lport 0).rxRefused = false ∧ (s13.at 0).poolTakes 0 (cellsOf 64) = true ∧
    ((s13.at 0).seen 0 0).steer 0 (frame 0xFFFFFFFFFFFF 0x8808 [0, 2]) = .ctrlOther := by decide +kernel
theorem wit_rx_none : rxError s13.gens.cur 0 (frame 0xFFFFFFFFFFFF 0x8808 [0, 2]) true = none := by
  have h : (parseEth (frame 0xFFFFFFFFFFFF 0x8808 [0, 2])).dst = 0xFFFFFFFFFFFF := by decide +kernel
  simp only [rxError, h, (macOk_group _ _).1]
  decide +kernel
theorem wit_rx_error : rxError s13.gens.cur 0 (frame 0xFFFFFFFFFFFF 0x8808 [0, 2]) false = some 16 := by simp [rxError]
theorem wit_rx_ptp : s14.upl 0 = true ∧ ((s14.at 0).seen 0 0).steer 0 (frame 0x011B19000000 0x88F7 []) = .ptp := by decide +kernel
theorem wit_rx_ptp_none : rxError s14.gens.cur 0 (frame 0x011B19000000 0x88F7 []) true = none := by
  have h : (parseEth (frame 0x011B19000000 0x88F7 [])).dst = 0x011B19000000 := by decide +kernel
  simp only [rxError, h, (macOk_group _ _).2]
  decide +kernel
theorem wit_rx_full : ({ s13 with net := { s13.net with pools := [(0, { level := 524288 })] } } : State).poolTakes 0 (cellsOf 64) = false := by decide +kernel

/-- RTP over IPv4 and UDP from 10.0.0.2:2000 to 10.0.0.1:1000, of SSRC 77. -/
def rtpFrame : Bytes :=
  frame 0xFFFFFFFFFFFF 0x0800 ([0x45, 0, 0, 48, 0, 0, 0, 0, 64, 17, 0x66, 0xBB, 10, 0, 0, 2, 10, 0, 0, 1] ++ beBytes 2 2000 ++ beBytes 2 1000 ++
    beBytes 2 28 ++ [0, 0] ++ [0x80, 111, 0, 1, 0, 0, 0, 9, 0, 0, 0, 77] ++ padTo 8 [])

/-- A tack that cuts through on logical port 0 after 60 bytes. -/
def tack1 : Tack := { gen := 1, secs := [(4, splice (splice (splice (splice (padTo 448 []) 0 (leBytes 1 1)) (256 + 24) (leBytes 2 9216))
  (256 + 26) (leBytes 2 60)) (256 + 64) (leBytes 4 0x0100000A))] }
def s15 : State := { s13 with
  gens := { cur := some tack1 }, objs := { legs := [(3, { leg0 with remoteIp := ipKey false 0x0A000002 })] } }

theorem wit_cut_through : s15.upl 0 = true ∧ s15.mediaOn = true ∧ (s15.lport 0).rx = none ∧ (s15.lport 0).rxRefused = false ∧ s15.gens.switching = false ∧
    (s15.at 0).tombAt 0 (rxTuple 0 (parseIp rtpFrame (parseEth rtpFrame)) rtpFrame) 0 = false ∧
    (s15.at 0).tombAt 1 (rxTuple 0 (parseIp rtpFrame (parseEth rtpFrame)) rtpFrame) 77 = false ∧
    lpfld s15.gens.cur 0 26 2 ≠ 0 ∧ lpfld s15.gens.cur 0 26 2 ≤ rtpFrame.length ∧ ((s15.at 0).seen 0 0).steer 0 rtpFrame = .fwd ∧ (s15.at 0).poolTakes 0 (cellsOf (headerLen rtpFrame)) = true ∧
    udpKind (udpData rtpFrame (parseIp rtpFrame (parseEth rtpFrame))) = .rtp ∧
    ((s15.at 0).legBy (rxTuple 0 (parseIp rtpFrame (parseEth rtpFrame)) rtpFrame)).isSome = true ∧
    (s15.at 0).ingressBy 3 77 = none := by decide +kernel
/-- 04 R170: a leg deleted at a boundary is still seen by a frame stamped before it, and by none stamped at it. -/
theorem test_before_boundary :
    let s : State := { s15 with tickAt := 1000, objsBefore := s15.objs, objs := {} }
    ((s.seen 999 0).legBy (rxTuple 0 (parseIp rtpFrame (parseEth rtpFrame)) rtpFrame)).isSome = true ∧
    ((s.seen 1000 0).legBy (rxTuple 0 (parseIp rtpFrame (parseEth rtpFrame)) rtpFrame)).isSome = false := by decide +kernel
theorem wit_cut_through_none : rxError s15.gens.cur 0 rtpFrame true = none := by
  have h : (parseEth rtpFrame).dst = 0xFFFFFFFFFFFF := by decide +kernel
  simp only [rxError, h, (macOk_group _ _).1]
  decide +kernel

/-- A port with a pause frame to send, and one with a frame in the direct queue of class 5. -/
def s16 : State := { s13 with net := { lports := [(0, { up := true, ctl := [padTo 60 []] })] } }
def s17 : State := { s13 with net := { s13.net with direct := [(5, [{ len := 64, enter := 0 }])] } }

theorem wit_tx_ctl : (s16.lport 0).tx = none ∧ (s16.lport 0).nextStart ≤ s16.now ∧ s16.upl 0 = true := by decide
theorem wit_tx_pick : (s17.lport 0).ctl = [] ∧ (s17.at 0).pick 0 = (some (5, none), []) ∧
    (((s17.at 0).setDeficits []).takeHead 0 5 none).map (fun x => x.2.stopped x.1) = some false := by decide +kernel

/-- A frame on the MAC that has ended. -/
def tx0 : TxFrame := { frame := { len := 64, enter := 0, kind := 8 }, cls := 0, start := 0, ends := 5 }

theorem wit_tx_end : tx0.ends ≤ ({ s13 with now := 5 } : State).now ∧ tx0.frame.pending = none ∧ s13.net.hostWait = [] := by decide
theorem wit_head_age : s17.direct 0 5 = [{ len := 64, enter := 0 }] ∧ s17.cls 0 5 12 2 ≠ 0 ∧ 0 + s17.cls 0 5 12 2 * 1000 * us < 200000000001 := by decide
theorem wit_rearm : (({ s0 with net := { pools := [(15, { latched := true })] } } : State).pool 15).latched = true ∧
    ({ s0 with net := { pools := [(15, { latched := true })] } } : State).noticeDone 15 = true := by decide
theorem wit_rearm_low : (({ s13 with net := { pools := [(0, { latched := true, level := 98303 })] } } : State).pool 0).level < 131072 := by decide
theorem wit_port_up : provides s0.gens.cur 60 = true ∧ (s0.lport 60).up = false ∧ (s0.lport 60).faultAt = none ∧
    (lookD s0.net.phys (60 / 4) {}).loop = 0 ∧
    bit (lookD ({ s0 with power := { mode := .run, ydStatus := [(7, 0x1FFFF)] } } : State).power.ydStatus (yardOf 60) 0) 16 = true := by decide
theorem wit_port_down : provides s13.gens.cur 0 = true ∧ (s13.lport 0).up = true ∧ (s13.lport 0).rx = none ∧ (s13.lport 0).rxRefused = false ∧
    (s13.lport 0).tx = none ∧ s13.net.inRx.1 ≠ (s13.at 5).now ∧ (s0.lport 0).up = false := by decide
theorem wit_fec_set : provides s15.gens.cur 0 = true ∧ (s15.lport 0).fecDegraded = false ∧
    tfld (some { gen := 0, secs := [(4, [1, 0, 0, 0, 9, 0, 0, 0])] }) 4 4 4 = 9 := by decide
theorem wit_fec_clear : (({ s0 with net := { lports := [(0, { fecDegraded := true, fecLastBad := 7 })] }, tick := 408 } : State).lport 0).fecLastBad + 401 ≤ 408 := by
  decide
theorem wit_retrain : (lookD ({ s13 with net := { s13.net with phys := [(0, { retrainAt := some 3 })] } } : State).net.phys 0 {}).retrainAt = some 3 ∧
    ∀ k < 4, provides s13.gens.cur k = true → (s13.lport k).up = true := by decide

/-- A class of port 0 paused since 0, and no longer, and one that still is. -/
def s18 : State := { s13 with net := { lports := [(0, { up := true, pausedSince := [(3, 0)] })] }, now := 9 }
def s19 : State := { s15 with net := { lports := [(0, { up := true, pausedSince := [(3, 0)], pause := [(3, 2000000000)] })] }, now := 1500000000 }

theorem wit_pause_ends : (s18.lport 0).pausedSince = [(3, 0)] ∧ 0 ≤ (s18.at 0).now ∧ ∀ d < 8, (s18.at 0).paused 0 d = false := by decide +kernel
theorem wit_storm : look (s19.lport 0).pausedSince 3 = some 0 ∧ (s19.at 0).paused 0 3 = true ∧ (s19.lport 0).stormSaid.contains 3 = false ∧
    lpfld (some { gen := 0, secs := [(4, splice (padTo 448 [1]) (256 + 60) [1])] }) 0 60 2 = 1 ∧ 1 * 1000 * us < s19.now := by decide +kernel

/-- Pool 2 guards port 0 and pauses it above 10 cells. -/
def tack2 : Tack := { gen := 1, secs := [(4, splice (splice (padTo 448 []) 0 (leBytes 1 1)) (256 + 29) [1]),
  (8, splice (splice (splice (padTo 768 []) (96 + 20) [1]) (96 + 24) (leBytes 4 10)) (96 + 32) [1])] }
def s20 : State := { s13 with gens := { cur := some tack2 }, net := { s13.net with pools := [(2, { level := 11 })] } }
def s21 : State := { s20 with net := { s20.net with pools := [(2, { level := 11, pausing := true, xoffAt := [(0, 0)] })] } }

theorem wit_xoff : bit (s20.fld 8 (96 + 20) 1) 0 = true ∧ (s20.pool 2).pausing = false ∧ s20.poolFld 2 24 < (s20.pool 2).level ∧ 0 ∈ s20.guarded 2 := by
  decide +kernel
theorem wit_xoff_repeat : look (s21.pool 2).xoffAt 0 = some 0 ∧ (s21.pool 2).pausing = true ∧ s21.poolFld 2 24 < (s21.pool 2).level ∧
    (s21.guarded 2).contains 0 = true := by decide +kernel

/-- A gate list that waits for its start. -/
def gates0 : GateList := { entries := [(0xFF, 500000), (1, 500000)], tb := 0, base := 0, cycle := 1000000, start := 0 }

theorem wit_gates : (({ s13 with net := { lports := [(0, { up := true, gcl := some gates0, gclNext := some gates0 })] } } : State).lport 0).tx = none ∧
    gates0.start ≤ (s13.at 0).tbNs 0 := by decide

/-- A leg with one egress stream, one ingress stream with a gap, and a source of pictures. -/
def s22 : State := { s8 with
  now := 2000000000000
  objs := { s8.objs with
    legs := [(0, { leg0 with lastReport := some 0 })]
    streams := [(0, { stream0 with gaps := [{ ext := 3, seen := 0 }] }), (2097152, { stream0 with
      body := bodyOf [(16, 1, 1), (28, 4, 4194304)], want := some (0, 0, false), wantSince := some 0 })] } }

theorem wit_estimate : look s22.objs.legs 0 = some { leg0 with lastReport := some 0 } ∧ 0 + 1000000 * us ≤ (s22.at 0).now ∧ leg0.fbMode ≠ 2 ∧
    leg0.pinRate = 0 := by decide
theorem wit_nack : (look s22.objs.streams 0).map (·.egress) = some false ∧ 0 < s22.fld 6 24 1 ∧ 0 + s22.fld 6 22 2 * 1000 * us ≤ (s22.at 0).now := by
  decide +kernel
theorem wit_key_wait : (look s22.objs.streams 2097152).map (fun x => (x.outKind, x.wantSince, x.source)) = some (0, some 0, 4194304) ∧
    (look s22.objs.rooms 0).isSome = true ∧ (s22.streamAt 4194304).map (fun x => (x.2.layering, x.2.pliAt)) = some (0, none) := by decide +kernel
theorem wit_rtcp : ({ s22 with objs := { s22.objs with streams := [(2097152, { stream0 with body := bodyOf [(16, 1, 1)] })] } } : State).streamsOf 0 =
    [(2097152, { stream0 with body := bodyOf [(16, 1, 1)] })] ∧ ({ stream0 with body := bodyOf [(16, 1, 1)] } : Stream).egress = true ∧
    stream0.key = none ∧ leg0.fbMode < 2 := by decide
theorem wit_rtcp_due : s22.rtcpDue leg0 ≤ (s22.at 0).now ∧ ({ s22 with now := 0 } : State).now < ({ s22 with now := 0 } : State).rtcpDue leg0 ∧
    s8.streamsOf 0 = [(0, stream0)] ∧ stream0.egress = false ∧ leg0.fbAt + s22.fld 6 30 2 * 1000 * us ≤ (s22.at 0).now ∧ leg0.fbMode = 0 := by decide +kernel
theorem wit_shed : 0 < ({ s0 with objs := { shedLevel := 1, shedUnder := 400 } } : State).objs.shedLevel ∧
    400 ≤ ({ s0 with objs := { shedLevel := 1, shedUnder := 400 } } : State).objs.shedUnder := by decide

/-! ### Witnesses: operations, pictures, canvases, audio -/

def op0 : Op := { id := 1, kind := .decode 0 4 0 false, yard := 0, cls := 0, prio := 5, readyAt := 0 }

/-- Yard 0 with its six stalls: one ready operation; the same with every stall busy, one of them marked. -/
def s23 : State := { s0 with power := { mode := .run, ydStatus := [(0, 0x1FFFF)] }, media := { ops := [op0] } }
def busy (n : Nat) : Op := { op0 with id := 10 + n, prio := 2, unit := some n, startAt := n }
def s24 : State := { s23 with media := { ops := op0 :: [0, 1, 2, 3, 4, 5].map busy } }
def s25 : State := { s23 with media := { ops := [{ busy 3 with marked := true }] } }

theorem wit_dispatch : s23.power.hold = none ∧ s23.mediaOn = true ∧ s23.readyList 0 0 = [op0] ∧ s23.runningOps 0 0 = [] ∧
    s23.unitsOf 0 0 = [0, 1, 2, 3, 4, 5] := by decide
theorem wit_mark : s24.readyList 0 0 = [op0] ∧ (s24.runningOps 0 0).all (fun x => !x.marked) = true ∧ (victim (s24.runningOps 0 0) 5).isSome = true ∧
    ∀ u ∈ s24.unitsOf 0 0, ∃ x ∈ s24.runningOps 0 0, x.unit = some u := by decide
theorem wit_yield : s25.media.ops.find? (fun x => x.cls == 0 && x.yard == 3 / 6 && x.unit == some (3 % 6) && x.marked) =
    some { busy 3 with marked := true } := by decide
theorem wit_no_yet_overrun : ({ s25 with media := { ops := [{ busy 3 with budget := 10, startAt := 0 }] } } : State).runningOp 13 =
    some { busy 3 with budget := 10, startAt := 0 } ∧
    (0 : Nat) + ({ s25 with media := { ops := [{ busy 3 with budget := 10, startAt := 0 }] } } : State).cyclesOf { busy 3 with budget := 10, startAt := 0 } < 10 := by
  decide +kernel

/-- A decode target with a picture in two shares, one with the last share of a picture, and one with a chain whose window has ended. -/
def target0 : Target := { room := 0, owner := 0, leg := 0, streams := [0], maxW := 1920, maxH := 1080, fps := 30, d10 := false, bframes := false, dpb := 4
                          decS := 2, decT := 2, decSim := 0, yard := 0 }
def pic0 : Picture := { num := 4, info := {}, state := .decoding, shares := 2, left := 2 }
def s26 : State := { s23 with media := { ops := [busy 0], targets := [(0, { target0 with pics := [pic0] })] } }
def s27 : State := { s23 with media := { ops := [busy 0], targets := [(0, { target0 with pics := [{ pic0 with left := 1 }] })] } }
def s28 : State := { s23 with media := { targets := [(0, { target0 with
  pics := [{ pic0 with state := .pending }], chains := [{ first := 3, ends := 0, members := [4], missing := [3] }], keyReq := some (2, 0) })] } }

theorem wit_watchdog : s26.runningOp 10 = some (busy 0) ∧ ((s26.target 0).bind (fun g => g.pic 4)) = some pic0 ∧ 2 ≤ pic0.left ∧
    (busy 0).budget ≤ (busy 0).charged + (s26.at 0).cyclesOf (busy 0) ∧ s26.media.past = [] ∧ s26.media.noSlot = [] ∧ s26.opView (busy 0) = none := by
  decide
/-- A sound picture of H.264 High, and one of 4:4:4, on a target whose stream is of that codec. -/
def hdr0 : PicHeader := { profile := .high, level := 40, width := 1920, height := 1080 }
def s27p : State := { s23 with
  objs := { streams := [(0, { stream0 with body := bodyOf [(17, 1, 8), (20, 4, 77)] })] }, media := { targets := [(0, target0)] } }
theorem wit_picture_due : s27p.target 0 = some target0 ∧ s27p.mediaOn = true ∧ s27p.skips target0 { hdr := hdr0, key := true } = none ∧
    s27p.decoding 0 = false ∧ ((look s27p.objs.streams (s27p.targetSource 0 target0)).map (·.codec)).getD 0 = 8 ∧
    unsupportedCode 8 target0 hdr0 = 0 ∧ unsupportedCode 8 target0 { hdr0 with chroma := 3 } ≠ 0 ∧ target0.pics = [] ∧ target0.chains = [] ∧
    (s27p.at 0).takesPicture target0 { hdr := hdr0, key := true } = true ∧ (target0.onMember { hdr := hdr0, key := true }).member = none := by decide +kernel
/-- R340, R345: a layer above DEC_T, a member that is not wanted, and a picture with packets missing before DEC_WAIT_MS. -/
theorem wit_picture_not_taken : (s27p.at 0).takesPicture target0 { layer := (0, 3) } = false ∧ (s27p.at 0).takesPicture target0 { sim := some 1, key := true } = false ∧
    (s27p.at 0).takesPicture target0 { missing := [5] } = false ∧ (s27p.at 0).takesPicture target0 { missing := [5], later := some 0 } = false ∧
    (s27p.at (10000 * us)).takesPicture target0 { missing := [5], later := some 0 } = true := by decide +kernel
/-- R340: member 0 is decoded until a key picture of the wanted member comes. -/
theorem test_member : (s27p.at 0).takesPicture { target0 with member := some 1 } { sim := some 0 } = false ∧
    (s27p.at 0).takesPicture { target0 with member := some 1 } { sim := some 0, key := true } = true ∧
    (target0.onMember { sim := some 0 }).member = some 0 := by decide +kernel
theorem wit_decode_complete : s27.runningOp 10 = some (busy 0) ∧ s27.target 0 = some { target0 with pics := [{ pic0 with left := 1 }] } ∧
    target0.refsVoid { pic0 with left := 1 } = false ∧ (busy 0).poisoned = false ∧ 0 ≤ (busy 0).budget ∧ s27.media.past = [] ∧
    pic0.clipped = false ∧ pic0.poisoned = false ∧ pic0.damaged = false ∧ pic0.overrun = false ∧ pic0.lossy = false ∧
    pic0.info.refLost = false := by decide
theorem wit_window_end : (s28.target 0).map (·.chains) = some [{ first := 3, ends := 0, members := [4], missing := [3] }] ∧ 0 ≤ (s28.at 0).now := by decide
theorem wit_key_repeat : (s28.target 0).map (·.keyReq) = some (some (2, 0)) ∧ 0 + s28.fld 9 8 2 * 1000 * us ≤ (s28.at 500000000000).now := by decide

/-- A canvas with one rung that a stream receives. -/
def rung0 : Rung := { codec := 8, profile := 2, strct := 0, w := 1920, h := 1080, yard := 0, leader := none, lastKey := some 0
                      enc := [{ num := 2, key := false, tid := 0, rate := 1000, weight := 16, minQp := 18, maxQp := 48 }] }
def canvas0 : Canvas := { cw := 1920, ch := 1080, fps := 25, d10 := false, c0 := 7, rungs := [rung0], pics := [{ num := 2, tiles := [], boundary := 0, timeNs := 0 }] }
def s29 : State := { s23 with
  tick := 39
  objs := { rooms := [(0, room0)], streams := [(2097152, { stream0 with body := bodyOf [(16, 1, 3), (32, 1, 1)] })] }
  media := { ops := [{ op0 with kind := .compose 0 2, cls := 2, unit := some 0 }], canvases := [(0, canvas0)] } }
def s30 : State := { s29 with media := { s29.media with ops := [{ op0 with kind := .encode 0 0 2, unit := some 0 }] } }

theorem wit_canvas : s29.canvas 0 = some canvas0 ∧ look s29.objs.rooms 0 = some room0 ∧ canvas0.dueAt s29.tick = some 2 ∧ s29.mediaOn = true ∧
    s29.rungActive 0 0 = true ∧ s29.media.noSlot = [] ∧ slotFree s29.media.ops (s29.nodePrio 0 2) = true := by decide
theorem wit_compose : s29.runningOp 1 = some { op0 with kind := .compose 0 2, cls := 2, unit := some 0 } ∧ s29.media.past = [] ∧
    (look ((s29.at 0).opSeen { op0 with kind := .compose 0 2, cls := 2, unit := some 0 }).objs.rooms 0).isSome = true ∧
    canvas0.pics.find? (fun p => p.num == 2) = some { num := 2, tiles := [], boundary := 0, timeNs := 0 } := by decide
theorem wit_encode : s30.runningOp 1 = some { op0 with kind := .encode 0 0 2, unit := some 0 } ∧ canvas0.rungs[0]? = some rung0 ∧
    (rung0.enc.find? (fun e => e.num == 2)).isSome = true ∧ canvas0.dependents 0 = [] ∧
    look ((s30.at 0).opSeen { op0 with kind := .encode 0 0 2, unit := some 0 }).objs.rooms 0 = some room0 ∧
    (encodeFits {} 8 2 (rungLevel 8 2 1920 1080 25 (((s30.at 0).opSeen { op0 with kind := .encode 0 0 2, unit := some 0 }).rungFld (room0.tf 5 1) 0 16 4)) false) =
      true := by decide +kernel
theorem wit_key_interval : s29.rungFld (room0.tf 5 1) 0 10 2 ≠ 0 ∧ 0 + s29.rungFld (room0.tf 5 1) 0 10 2 * 1000000 * us ≤ 10000000000000 := by decide
theorem wit_rung_rate : canvas0.rungs = [rung0] ∧ s29.rungActive 0 0 = true ∧ s29.fld 0x0B 8 2 ≠ 0 ∧ 40 % s29.fld 0x0B 8 2 = 0 ∧ rung0.rateTick ≠ 40 := by decide

/-- The room table of overlays at an address of host 0, and an entry with a bitmap. -/
def tack3 : Tack := { gen := 0, secs := [(0x0A, splice (splice (splice (padTo 128 []) 32 (leBytes 8 4096)) 64 (leBytes 2 40)) 66 (leBytes 2 256))] }
def s31 : State := { s29 with gens := { cur := some tack3 }, tick := 40 }
def entry0 : Bytes := (bodyOf [(16, 4, 9), (20, 1, 1), (24, 8, 0x10000), (32, 2, 16), (34, 2, 2), (36, 2, 64), (44, 4, 9)]) ++ padTo 16 []

theorem wit_overlay_poll : s31.fld 0x0A 64 2 ≠ 0 ∧ s31.tick % s31.fld 0x0A 64 2 = 0 ∧ s31.ovlRoom 1 0 = some (0, 0) ∧ (s31.ovlAddr 0 1 0).isSome = true ∧
    s31.running 0 = true ∧ le entry0 0 4 = le entry0 28 4 ∧ ovlOk 1 entry0 = true ∧ le entry0 4 1 ≠ 0 ∧
    s31.ovlUsed + le entry0 20 2 * le entry0 18 2 ≤ s31.fld 0x0A 66 2 * 1048576 ∧ (s31.host 0).canIssue = true ∧
    (lookD s31.media.overlays (ovlKey 0 1 0) {}).seq ≠ some (le entry0 0 4) ∧ (lookD s31.media.overlays (ovlKey 0 1 0) {}).copying = none := by decide +kernel
theorem wit_overlay_copy : look ({ s31 with media := { s31.media with overlays := [(ovlKey 0 1 0, { copying := some 9 })] } } : State).media.overlays
    (ovlKey 0 1 0) = some { copying := some 9 } := by decide

/-- A room that mixes, with a source whose blocks are decoded, and the control table at an address of host 0. -/
def mix0 : MixRoom := { mixN := 3, opusBw := 0, inKernel := 0, outKernel := 0, inBudget := 0, outBudget := 0, inParam := [], outParam := [] }
def s32 : State := { s29 with
  gens := { cur := some { gen := 0, secs := [(0x0C, splice (splice (padTo 64 []) 0 (leBytes 8 4096)) 32 (leBytes 2 40))] } }, tick := 40
  objs := { rooms := [(0, room0)], legs := [(0, leg0)], streams := [(0, stream0)] }
  media := { ops := [{ op0 with kind := .codec 0 3 0, cls := 1, unit := some 0 }, { op0 with id := 2, kind := .codec 0 3 2, cls := 1, unit := some 1 },
               { op0 with id := 3, kind := .codec 0 3 4, cls := 1, unit := some 2 }, { op0 with id := 4, kind := .mix 0 3, cls := 3, unit := some 0 }]
             mixes := [(0, mix0)]
             mixOuts := [(0, { blocks := 8, start := 0, ptime := 20, kbps := 32, fec := false, begun := true })] } }
def control0 : Bytes := leBytes 4 5 ++ padTo 116 [] ++ leBytes 4 5 ++ padTo 4 []

theorem wit_codec : (s32.runningOp 1).isSome = true ∧ (s32.runningOp 2).isSome = true ∧ (s32.runningOp 3).isSome = true ∧
    look ((s32.at 0).opSeen op0).objs.streams 0 = some stream0 ∧ look ((s32.at 0).opSeen op0).objs.rooms 0 = some room0 ∧
    look ((s32.at 0).opSeen op0).objs.legs 0 = some leg0 ∧ s32.mixOf 0 = some mix0 ∧ mix0.inKernel = 0 ∧
    (look s32.media.mixOuts 0).map (fun q => (q.begun, decide (q.seq < 2 ^ 48))) = some (true, true) ∧ stream0.exhausted = false ∧
    s32.media.past = [] := by decide
theorem wit_mix : (s32.runningOp 4).map (·.kind) = some (.mix 0 3) := by decide

/-- 03 R140, 04 R170: an operation that became ready before a boundary sees the settings and the objects of then, and leaves those in
force as they are. -/
theorem test_before_boundary_operation :
    let s : State := { s32 with tickAt := 1000, views := [{ since := 1000, tack := none, objs := {} }, { since := 0, tack := none, objs := s32.objs }],
                                objs := { s32.objs with rooms := [(0, { room0 with prio := 9 })], legs := [(0, leg0), (1, leg0)] } }
    let u := s.underOp op0 (fun s => s.modStream 0 (fun x => { x with exhausted := true }))
    (s.opSeen op0).gens.cur = none ∧ (s.opSeen op0).objs.rooms = s32.objs.rooms ∧ (s.opSeen op0).objs.legs = [(0, leg0)] ∧
      u.gens = s.gens ∧ u.objs.rooms = s.objs.rooms ∧ u.objs.legs = s.objs.legs ∧
      (look u.objs.streams 0).map (·.exhausted) = some true := by decide
theorem wit_control : s32.fld 0x0C 32 2 ≠ 0 ∧ s32.tick % s32.fld 0x0C 32 2 = 0 ∧ s32.fld 0x0C 0 8 ≠ 0 ∧ s32.running 0 = true ∧ le control0 0 4 ≠ 0 ∧
    le control0 0 4 = le control0 120 4 ∧ (s32.at 0).ctlStatus 0 leg0 control0 = 0 ∧ (s32.host 0).canIssue = true ∧ le control0 0 4 ≠ leg0.mixSeq := by
  decide +kernel

/-! ### Witnesses: time bases -/

/-- Records of the time bases: TB0 a slave on port 0 with a list of grandmasters and an output, TB1 on 1PPS, TB2 an ordinary clock on logical port 4. -/
def tackT : Tack := { gen := 0, secs := [(0x0D, [(0, 1, 1), (7, 1, 3), (11, 1, 4), (48, 2, 10), (64, 8, 5), (128, 1, 3), (256, 1, 2), (257, 1, 4)].foldl
  (fun b (o, n, v) => splice b o (leBytes n v)) (padTo 512 [])), (0x05, padTo 4096 [])] }
def sT : State := { s0 with gens := { cur := some tackT } }
def withTb (n : Nat) (tb : TimeBase) : State := { sT with tbs := [(n, tb)] }

theorem wit_tb_message : sT.tbPtp 0 = true ∧ sT.tbLport 0 = 0 ∧ sT.gmAccepts 0 4 = false ∧ sT.tbPtp 2 = true ∧ sT.tbLport 2 = 4 ∧
    ∀ m < 2, sT.tbPtp m = true → sT.tbLport m = 4 → sT.tbDomain m ≠ sT.tbDomain 2 := by decide +kernel

/-- A slave on logical port 0, of MAC address 02:00:00:00:00:00, that follows port 1 of the clock 9, with a request on its way; messages of that
clock in domain 0. -/
def tackP : Tack := { gen := 0, secs := [(4, splice (splice (padTo 448 []) 0 (leBytes 1 1)) 256 (leBytes 1 2)), (0x0D, splice (padTo 512 []) 0 (leBytes 1 1))] }
def sP : State := { s0 with
  gens := { cur := some tackP }
  tbs := [(0, { state := .locked, portState := 9, parent := some (9, 1), delays := [4], reqSent := some (6, some 5), msDiff := some 3 })] }
def ptpOf (kind seq : Nat) (body : Bytes) : Bytes :=
  beBytes 6 0x011B19000000 ++ beBytes 6 7 ++ beBytes 2 0x88F7 ++ ptpBytes kind 0 0 0 9 seq 0 body
theorem wit_tb_announce : (readPtp (ptpOf ptAnnounce 1 (zeros 30))).map (fun m => (m.kind, m.domain, m.src)) = some (ptAnnounce, sP.tbDomain 0, 9) ∧
    sP.tbPtp 0 = true ∧ sP.tbLport 0 = 0 ∧ sP.gmAccepts 0 9 = true ∧ sP.clockId 0 = 0x020000FFFE000000 ∧ sT.gmAccepts 0 9 = false ∧
    sT.tbDomain 0 = sP.tbDomain 0 := by decide +kernel
theorem wit_tb_delay : (readPtp (ptpOf ptDelayResp 6 (zeros 10 ++ beBytes 8 0x020000FFFE000000 ++ beBytes 2 1))).map
      (fun m => (m.kind, m.seq, m.answers, sP.fromParent 0 m)) = some (ptDelayResp, 6, (sP.clockId 0, 1), true) ∧ sP.tbP2p 0 = false ∧
    (sP.tb 0).reqSent = some (6, some 5) ∧ (sP.tb 0).msDiff = some 3 := by decide +kernel
theorem wit_tb_sync : (readPtp (ptpOf ptSync 1 (zeros 10))).map (fun m => (m.kind, m.twoStep, sP.fromParent 0 m)) = some (ptSync, false, true) ∧
    (sP.tb 0).delays ≠ [] ∧ (sP.tb 0).state ≠ .free ∧ (sP.tb 0).state ≠ .master ∧ (sP.tb 0).setAt = none := by decide +kernel
theorem wit_ptp_sends : (withTb 2 { portState := 6 }).ptpSends 2 .sync = true ∧ (withTb 2 { portState := 8 }).ptpSends 2 .delayReq = true := by decide +kernel
theorem wit_holdover_entry : ((withTb 0 { state := .locked }).tb 0).state = .locked ∧
    0 + 3 * (withTb 0 { state := .locked }).syncPs 0 ≤ ((withTb 0 { state := .locked }).at 3000000000000).now ∧
    (withTb 1 { state := .locked }).tbRole 1 = 3 := by decide +kernel
theorem wit_holdover_end : ((withTb 0 { state := .holdover }).tb 0).state = .holdover ∧
    0 + (withTb 0 { state := .holdover }).tbFld 0 28 4 * 1000 * us ≤ ((withTb 0 { state := .holdover }).at 5).now := by decide +kernel
theorem wit_slew : ((withTb 0 { clampedSince := some 4 }).tb 0).clampedSince = some 4 ∧ ((withTb 0 { clampedSince := some 4 }).tb 0).slewSaid = false ∧
    4 + 1000000000000 ≤ ((withTb 0 { clampedSince := some 4 }).at 1000000000004).now := by decide
theorem wit_announce_timeout : ((withTb 2 { state := .locked }).tb 2).lastAnnounce + sT.tbFld 2 7 1 * sT.announcePs 2 ≤ (sT.at 9).now ∧
    sT.tbRole 2 = 2 ∧ sT.tbRole 0 = 1 ∧ (sT.tb 0).portState ≠ 6 ∧ (∀ f ∈ (sT.tb 0).foreign, (sT.tb 0).parent = some (f.src, f.port)) := by decide +kernel
theorem wit_reference : ({ s0 with power := { s0.power with refOk := true } } : State).power.refOk = true ∧
    ({ s0 with power := { s0.power with refOk := false } } : State).power.refOk = false := by decide
theorem wit_seconds_set : ((withTb 0 { val := 2000000000 * 2 ^ 32, setSec := some (9, 1) }).tb 0).setSec = some (9, 1) ∧
    1 < ((withTb 0 { val := 2000000000 * 2 ^ 32, setSec := some (9, 1) }).at 0).tbNs 0 / 1000000000 := by decide +kernel
theorem wit_pps_in : bit (sT.tbFld 0 11 1) 2 = true ∧ sT.tbRole 0 ≠ 3 ∧ sT.tbRole 1 = 3 ∧ ((withTb 1 { ppsLastAt := some 7 }).tb 1).ppsLost = false ∧
    7 + 1500000000000 ≤ ((withTb 1 { ppsLastAt := some 7 }).at 1500000000007).now := by decide +kernel
theorem wit_pps_near : ((withTb 0 { ppsEdge := some 5 }).tb 0).ppsEdge = some 5 ∧ ((withTb 0 { ppsEdge := some 5 }).at 7).now ≤ 5 + us := by decide
theorem wit_pps_due : (sT.at 0).ppsDue 0 = true := by decide +kernel
theorem wit_pps_out : sT.tbFld 0 48 2 ≠ 0 ∧ (sT.tb 0).ppsOut = false ∧ ((withTb 0 { ppsOut := true }).tb 0).ppsOut = true ∧
    0 + sT.tbFld 0 48 2 * 1000000 ≤ (({ withTb 0 { ppsOut := true, val := 10000000 * 2 ^ 32 } with tick := 8 }).at 0).tbNs 0 := by decide +kernel

/-! ### Witnesses: DRAM -/

def s33 : State := { s5 with dram := { s5.dram with dimms := [(0, { state := 1 })] } }
theorem wit_refresh : (s33.rank (4 * 0 + 0)).inService = true ∧ s33.power.mode ≠ .keep ∧ (s33.rank (4 * 0 + 0)).due = none ∧ s33.sensorOf (4 * 0 + 0) < 85 ∧ (lookD s33.dram.dimms (2 * 0 + 0) {}).state = 1 ∧
    (lookD s33.dram.dimms (2 * 0 + 0) {}).hotSaid = false := by decide +kernel
theorem wit_mode2x : (({ s33 with dram := { s33.dram with ranks := [(0, { state := .member, set := 0, gib := 32, mode2x := true, cleanMr4 := 64 })] } } : State).rank 0).mode2x = true ∧
    64 ≤ (({ s33 with dram := { s33.dram with ranks := [(0, { state := .member, set := 0, gib := 32, mode2x := true, cleanMr4 := 64 })] } } : State).rank 0).cleanMr4 ∧
    ({ s33 with dram := { s33.dram with ranks := [(0, { state := .member, set := 0, gib := 32, mode2x := true, cleanMr4 := 64 })] } } : State).sensorOf 0 < 85 := by decide +kernel
theorem wit_parity : (recent s33.tick (s33.rank 0).parityTicks).length + 1 < s33.fld 0x0E 8 2 := by decide +kernel
theorem wit_line : (s33.at 9).servedBy (2 ^ 27) = some 0 ∧ s33.consumer 28 (2 ^ 27) = none := by decide +kernel

/-- A stream whose context is poisoned; ranks that wait for a copy, that are being copied, and that a RESTORE sweeps. -/
def s34 : State := { s8 with tickAt := 9, objs := { s8.objs with poisonDue := [(2, 0)] } }
def s35 : State := { s5 with dram := { s5.dram with queue := [0] } }
def s36 : State := { s5 with dram := { s5.dram with migration := some { src := 0, dst := 1, startAt := 0, mbps := 1000000, done := gibBytes 32 } } }
def s37 : State := { s5s with dram := { s5s.dram with services := [
  { port := 0, ring := 0, seq := 4, restore := true, force := false, noTable := true, left := [4 * 0 + 2] }] } }

theorem wit_context_poison : max s34.now 9 = s34.tickAt ∧ s34.objs.poisonDue = [(2, 0)] ∧ (look s34.objs.streams 0).isSome = true := by decide
theorem wit_migration_start : s35.dram.migration = none ∧ s35.power.mode ≠ .keep ∧ s35.dram.queue = [0] ∧ s35.spareFor 0 = some 1 := by decide +kernel
theorem wit_migration_complete : (0 : Nat) ≠ 1 ∧ gibBytes (s36.rank 0).gib ≤ (s36.at 9).watermark := by decide +kernel
theorem wit_patrol : (s5.patrolRanks.map (fun x => gibLines x.2)).sum ≠ 0 ∧ s5.power.mode ≠ .keep := by decide +kernel
theorem wit_restore : (∃ v, s37.dram.services = [v] ∧ v.left = [4 * 0 + 2]) ∧ (s37.rank (4 * 0 + 2)).holds = false := by
  exact ⟨⟨_, rfl, rfl⟩, by decide⟩

/-! ### Witnesses: modes, resets, supplies -/

/-- The bridge with other supplies and modes, the port closed or open with it. -/
def withPower (p : Power) : State := { s0 with power := p }
def s38 : State := withPower { mode := .run, pend := some (.drain, 100) }
def s39 : State := withPower { mode := .keep, keepFrom := .standby, pend := some (.standby, 5) }
def s40 : State := { s26 with power := { mode := .keep, keepFrom := .run } }

theorem wit_mode_request : s0.barOpen 0 = true ∧ s0.isOwner 0 = true ∧ s0.power.mode ∉ [Mode.reset, .boot] := by decide
theorem wit_mode_change : ({ s38 with tickAt := 100 } : State).modeBoundary = false ∧ (({ s38 with tickAt := 100 } : State).at 100).modeBoundary = true ∧
    s38.power.pend = some (.drain, 100) ∧ s38.power.mode ≠ .keep := by decide
theorem wit_keep_rise : (withPower { mode := .keep }).power.pend = none ∧ (withPower { mode := .keep }).power.keepFrom = .standby ∧
    s33.fld 0x0E 0 4 ≤ s33.capGib := by decide +kernel
theorem wit_keep_wait : s40.power.mode = .keep ∧ 0 + s40.fld 0x0F 12 2 * 1000 * us ≤ (s40.at 10000000000000).now ∧ s40.media.ops = [busy 0] ∧
    s40.media.noSlot = [] ∧ s40.opView (busy 0) = none ∧ (busy 0).kind = .decode 0 4 0 false ∧ s40.target 0 = some { target0 with pics := [pic0] } ∧ 2 ≤ pic0.left := by decide +kernel
theorem wit_keep_exit : s39.power.pend = some (.standby, 5) ∧ s39.power.keepExit = none ∧ 5 ≤ ({ s39 with tickAt := 5 } : State).tickAt := by decide
theorem wit_keep_leave : ({ withPower { mode := .keep, keepFrom := .standby, pend := some (.standby, 5), keepExit := some 6 } with tickAt := 7, now := 7 } : State).modeBoundary =
    true ∧ (6 : Nat) < 7 := by decide
theorem wit_drain : (withPower { mode := .drain }).power.drainTick + s0.fld 0x0F 8 4 * 400 ≤ ({ withPower { mode := .drain } with tick := 100000000 } : State).tick ∧
    (withPower { mode := .drain, drainEmpty := some 6 }).power.drainEmpty = some 6 ∧ 6 < s0.tick ∧
    (({ withPower { mode := .drain, drainEmpty := some 6 } with tickAt := 9 } : State).at 9).modeBoundary = true := by decide +kernel
theorem wit_reset_sources : (withPower { mode := .run, trip := 2 }).power.mode ≠ .reset ∧ 2 ≤ (withPower { mode := .run, trip := 2 }).power.trip ∧
    s0.flash.ops = [] := by decide
theorem wit_soft_reset : s0.barOpen 0 = true ∧ 0xB0070001 / 65536 = 0xB007 ∧ 0xB0070001 % 2 = 1 := by decide
theorem wit_release : State.reset.power.mode = .reset ∧ State.reset.power.releaseAt = none ∧ State.reset.power.asserted.contains 2 = false := by decide
theorem wit_straps : (withPower { releaseAt := some 7 }).power.strapped = false ∧ (withPower { releaseAt := some 7 }).power.mode = .reset ∧
    7 + 5000 * us ≤ ((withPower { releaseAt := some 7 }).at 5000000007).now ∧
    7 + 10000 * us ≤ ((withPower { releaseAt := some 7, strapped := true }).at 10000000007).now := by decide
/-- 12 R508, R511; 14 R587: ticks and time bases start at 0 where BOOT begins. -/
theorem test_boot_start_clocks : (bootStart {} (({ withPower { releaseAt := some 7, strapped := true } with tick := 5 } : State).at 10000000007)).tick = 0 ∧
    (bootStart {} (({ withPower { releaseAt := some 7, strapped := true } with tick := 5 } : State).at 10000000007)).tbVal 0 = 0 := by decide +kernel
theorem wit_boot_end : (withPower { mode := .boot }).flash.stageErr = 0 ∧ (withPower { mode := .boot }).gens.chosen = none ∧
    (withPower { mode := .boot, svcBoot := true }).power.svcBoot = true ∧ ({ s5 with power := { mode := .boot } } : State).capGib ≠ 0 := by decide
theorem wit_dip : s0.power.mode ≠ .reset ∧ 700 < s0.fld 0x0F 4 2 ∧ 790 < s0.fld 0x0F 6 2 := by decide +kernel
theorem wit_return_level : (withPower { hold := some 3, vcoreBelow := true }).power.hold.isSome = true ∧
    (withPower { hold := some 3, vcoreBelow := true }).power.vsramBelow = false := by decide
theorem wit_hold_end : 6 + 50 * us ≤ ((withPower { hold := some 3, returnAt := some 6 }).at 50000006).now ∧ s0.cntOf (pwrCtr 48) < 2 ^ 64 := by decide
theorem wit_throttle : (withPower { mode := .run, coolSince := some 0, level := 1 }).power.levelNext = none ∧ 0 + 400 < ({ s0 with tick := 401 } : State).tick ∧
    ({ withPower { levelNext := some 1 } with tickAt := 9 } : State).power.levelNext = some 1 ∧
    (({ withPower { levelNext := some 1 } with tickAt := 9 } : State).at 9).now = ({ withPower { levelNext := some 1 } with tickAt := 9 } : State).tickAt := by decide

/-! ### Witnesses: thyme -/

/-- Core 0 of firmware with an SR, and core 63 with a kernel at 0x20 whose word there is `w`, on the operation 8. -/
def fw (sr : Word) : State := { s0 with thyme := { cores := [(0, { sr })] } }
def kRun : KernelRun := { op := 8, id := 3, base := 0x20, words := 4, inst := 2, xstate := 1, xconst := 0, ystate := 1, yconst := 0 }
def kCore (w : Word) : Core := { sr := 0x500, run := some kRun, pc := 0x20, pm := [(0x20, w)], budget := 100, cyc := 5 }
def kst (w : Word) : State := { s0 with
  thyme := { cores := [(63, kCore w)] }
  media := { ops := [{ op0 with id := 8, kind := .kernel 1 0 2 3, yard := 7, cls := 1, unit := some 7 }] } }
def xm0 : PMove := { en := true, ptr := 0, upd := 1, reg := 2 }
def ym0 : PMove := { en := true, ptr := 1, upd := 2, reg := 2 }

theorem wit_accumulators : ((fw 0).core 0).clean = true ∧ ((fw 0).core 0).goes 0 (.thMpy 0 0 2 1 xm0 {}) 1 1 = true ∧ (kCore 0x04400000#32).clean = true ∧
    (kCore 0x04400000#32).goes 63 (.thMpy 63 0 2 0 {} {}) 1 0x21 = true ∧ ((kCore 0x04400000#32).moves {} {}).1 = 0 := by decide +kernel
theorem wit_moves : ((fw 0).core 0).km = false ∧ ((fw 0).core 0).ipend = 0#3 ∧ xm0.en = true ∧ ym0.en = true ∧ ym0.st = false := by decide
theorem wit_circular : (0x40090001#32).extractLsb' 30 2 = 1#2 ∧ ((0x40090001#32).extractLsb' 16 14).toNat + 1 ≤ 2 ^ 4 ∧
    (∀ j < 4, 2 ^ j < ((0x40090001#32).extractLsb' 16 14).toNat + 1) ∧ (0x80FF0040#32).extractLsb' 30 2 = 2#2 ∧
    2 ^ 8 ≤ ((0x80FF0040#32).extractLsb' 16 14).toNat + 1 ∧ ((0x80FF0040#32).extractLsb' 16 14).toNat + 1 < 2 ^ 9 := by decide
theorem wit_alu : ((fw 0).core 0).goes 0 (.thAdd 0 4 4 (.imm 1)) 1 1 = true ∧ (kCore 0x88510001#32).goes 63 (.thSub 63 4 4 (.imm 1)) 1 0x21 = true := by
  decide +kernel
theorem wit_direct : ((fw 0).core 0).goes 0 (.thDirectLoad 0 true 1 4 0x3FFF) 1 1 = true ∧ ((0x3FFF : Int)) = (0 + (0x3FFF#14).toInt) % 2 ^ 14 ∧
    (kCore 0xA6A02010#32).goes 63 (.thDirectStore 63 true 5 0 0x2010) 1 0x21 = true ∧ ((kCore 0).load true 0x2010).1 = 0 ∧
    kernelWrites true 0x2010 = true := by decide +kernel
theorem wit_data_moves : ((fw 0).core 0).goes 0 (.thMove 0 (.ag 3) .sr) 1 1 = true ∧ (MoveReg.ag 3).writable = true ∧ MoveReg.sp.writable = false ∧
    ((fw 0).core 0).goes 0 (.thMove 0 .sp (.g 0)) 1 1 = true := by decide
theorem wit_branch : ((fw 0).core 0).goes 0 (.thCall 0 .al 0xFFFE) 1 1 = true ∧ ((fw 0).core 0).stack.length < 6 ∧ ((fw 0).core 0).goes 0 (.thReti 0) 3 0 = true ∧
    ({ (fw 0).core 0 with stack := [7] } : Core).goes 0 (.thRet 0) 1 1 = true := by decide
theorem wit_delay_slot : decodeThyme 63 0x04400000#32 = some (.thMpy 63 0 2 0 {} {}) ∧ leavesLine (.thMpy 63 0 2 0 {} {}) = false ∧
    ({ kCore 0x04400000#32 with delay := some (1, 0x22) } : Core).goes 63 (.thMpy 63 0 2 0 {} {}) 1 0x22 = true ∧
    ({ kCore 0x04400000#32 with delay := some (2, 0x20) } : Core).goes 63 (.thMpy 63 0 2 0 {} {}) 1 0x21 = true := by decide +kernel
theorem wit_repeat : ({ kCore 0x04400000#32 with rep := some 1 } : Core).goes 63 (.thMpy 63 0 2 0 {} {}) 1 0x21 = true ∧
    ({ kCore 0x04400000#32 with rep := some 2 } : Core).goes 63 (.thMpy 63 0 2 0 {} {}) 1 0x20 = true ∧
    (kCore 0xD0000000#32).goes 63 (.thRep 63 (.imm 0)) 1 0x22 = true := by decide +kernel
theorem wit_interrupt : ((fw 0x100).core 0).clean = true ∧ srIE ((fw 0x100).core 0).sr = true ∧ srIE ((fw 0).core 0).sr = false ∧
    (({ (fw 0x100).core 0 with imask := 4 } : Core).ipend ||| (1#3 <<< 2)).getLsbD 2 = true := by decide
theorem wit_block_end : ((kst 0xE1000000#32).core 63).run = some kRun ∧ (kCore 0xE1000000#32).fetches 63 (.thEnd 63) = true ∧
    (kCore 0xE4000000#32).fetches 63 (.thBrk 63) = true ∧ (kCore 0xE0000000#32).fetches 63 (.thNop 63) = true ∧
    ((kst 0xE1000000#32).opAt kRun.op).isSome = true ∧ (kCore 0).cyc.toNat + 1 ≤ (kCore 0).budget.toNat ∧
    ({ kCore 0 with budget := 6 } : Core).budget.toNat ≤ (kCore 0).cyc.toNat + 1 := by decide +kernel
theorem wit_kernel_keeps : ((kst 0).core 63).km = true ∧ decodeThyme 63 0xE1000000#32 = some (.thEnd 63) ∧ (kst 0xE1000000#32).coresWf = true := by decide +kernel
theorem wit_encoding : ∃ v, encodeThyme (.thRep 63 (.reg 15)) = some v ∧ (Instr.thRep 63 (.reg 15)).wf = true := by exact ⟨_, rfl, by decide⟩

/-! ### Words of thyme instructions, written out from the tables of 11 R485-R491 -/

/-- OP 0x0F in [30:26], A3, SA:SB = 110001 (-15), no X move, Y move: EN, load, P6, UPD 11, G7. -/
theorem word_ash : decodeThyme 0 (0b0#1 ++ 0b01111#5 ++ 0b11#2 ++ 0b110#3 ++ 0b001#3 ++ 0b000000000#9 ++ 0b1_0_10_11_111#9) =
    some (.thAsh 0 3 0b110001 {} { en := true, ptr := 2, upd := 3, reg := 7 }) := by decide
/-- OP 0x0E: ADDAA A2 + A1; SB[2] set is reserved. -/
theorem word_addaa : decodeThyme 0 (0b0#1 ++ 0b01110#5 ++ 0b10#2 ++ 0b000#3 ++ 0b001#3 ++ 0#18) = some (.thAddaa 0 2 1 {} {}) ∧
    decodeThyme 0 (0b0#1 ++ 0b01110#5 ++ 0b10#2 ++ 0b000#3 ++ 0b101#3 ++ 0#18) = none := by decide
/-- ALU, register form: FN 7 SAR, G13, G9, G6. -/
theorem word_sar : decodeThyme 0 (0b10000#5 ++ 0b00111#5 ++ 0b1101#4 ++ 0b1001#4 ++ 0b0110#4 ++ 0#10) = some (.thSar 0 13 9 (.reg 6)) := by decide
/-- ALU, immediate form: FN 0x0E CMPI of G9 with -2; a GD other than 0 is reserved. -/
theorem word_cmpi : decodeThyme 0 (0b10001#5 ++ 0b01110#5 ++ 0b0000#4 ++ 0b1001#4 ++ 0x3FFE#14) = some (.thCmp 0 9 (.imm 0x3FFE)) ∧
    decodeThyme 0 (0b10001#5 ++ 0b01110#5 ++ 0b0001#4 ++ 0b1001#4 ++ 0x3FFE#14) = none := by decide
/-- LDI, FORM 1: the upper half of G11; FORM 3 is reserved. -/
theorem word_ldi : decodeThyme 0 (0b10010#5 ++ 0b01#2 ++ 0b1011#4 ++ 0#5 ++ 0xBEEF#16) = some (.thLdiUpper 0 11 0xBEEF) ∧
    decodeThyme 0 (0b10010#5 ++ 0b11#2 ++ 0b1011#4 ++ 0#5 ++ 0xBEEF#16) = none := by decide
/-- STA NORM of A2 into G12. -/
theorem word_sta : decodeThyme 0 (0b10011#5 ++ 0b100#3 ++ 0b10#2 ++ 0b1100#4 ++ 0#18) = some (.thStaNorm 0 2 12) := by decide
/-- A load of X into G3 from P7 - 1. -/
theorem word_direct : decodeThyme 0 (0b10100#5 ++ 0b0#1 ++ 0b0#1 ++ 0b0011#4 ++ 0b111#3 ++ 0#4 ++ 0x3FFF#14) = some (.thDirectLoad 0 false 3 7 0x3FFF) := by decide
/-- MOVE of SP to M5, and into SP, which is reserved. -/
theorem word_move : decodeThyme 0 (0b10101#5 ++ 0b010#3 ++ 0b0101#4 ++ 0b101#3 ++ 0b0111#4 ++ 0#13) = some (.thMove 0 (.m 5) .sp) ∧
    decodeThyme 0 (0b10101#5 ++ 0b101#3 ++ 0b0111#4 ++ 0b010#3 ++ 0b0101#4 ++ 0#13) = none := by decide
/-- CALL when V is clear, 3 back; condition 13 is reserved. -/
theorem word_call : decodeThyme 0 (0b11000#5 ++ 0b1010#4 ++ 0b1#1 ++ 0#6 ++ 0xFFFD#16) = some (.thCall 0 .vc 0xFFFD) ∧
    decodeThyme 0 (0b11000#5 ++ 0b1101#4 ++ 0b1#1 ++ 0#6 ++ 0xFFFD#16) = none := by decide
/-- CALLG of G10, and RETI. -/
theorem word_jump : decodeThyme 0 (0b11001#5 ++ 0b001#3 ++ 0#6 ++ 0b1010#4 ++ 0#14) = some (.thCallg 0 10) ∧
    decodeThyme 0 (0b11001#5 ++ 0b011#3 ++ 0#6 ++ 0#4 ++ 0#14) = some (.thReti 0) := by decide
/-- REP 240 and REP of G5. -/
theorem word_rep : decodeThyme 0 (0b11010#5 ++ 0b0#1 ++ 0#4 ++ 0#4 ++ 0#2 ++ 240#16) = some (.thRep 0 (.imm 240)) ∧
    decodeThyme 0 (0b11010#5 ++ 0b1#1 ++ 0#4 ++ 0b0101#4 ++ 0#2 ++ 0#16) = some (.thRep 0 (.reg 5)) := by decide
/-- Control: DI and BRK; FN 5 is reserved. -/
theorem word_control : decodeThyme 0 (0b11100#5 ++ 0b011#3 ++ 0#24) = some (.thDi 0) ∧ decodeThyme 0 (0b11100#5 ++ 0b100#3 ++ 0#24) = some (.thBrk 0) ∧
    decodeThyme 0 (0b11100#5 ++ 0b101#3 ++ 0#24) = none := by decide

/-! ### Values from the text of chapter 11 -/

/-- P32(0x80000000, 0x80000000) is exactly +1.0, which an accumulator holds (R468). -/
theorem test_p32 : accSat (p32 0x80000000#32 0x80000000#32) = (0x80000000#40, false) := by decide
/-- 0.5 × 0.75 in Q1.31 is 0.375. -/
theorem test_mpy : p32 0x40000000#32 0x60000000#32 = 0x30000000 := by decide
/-- The range of an accumulator (R467). -/
theorem test_acc_sat : accSat (2 ^ 39) = (0x7FFFFFFFFF#40, true) ∧ accSat (-2 ^ 39) = (0x8000000000#40, false) := by decide
/-- NORM ranges from -8 to +31 (R490). -/
theorem test_norm : staNorm 0x4000000000#40 = BitVec.ofInt 32 (-8) ∧ staNorm 0#40 = 31#32 ∧ staNorm (BitVec.ofInt 40 (-1)) = 31#32 := by decide
/-- SAT16 rounds half away from zero (R490). -/
theorem test_sat16 : (staSat16 0x8000#40).1 = 0x10000#32 ∧ (staSat16 (BitVec.ofInt 40 (-0x8000))).1 = 0xFFFF0000#32 ∧ (staSat16 0x7FFF#40).1 = 0#32 := by decide
/-- The offsets that LEN_M1 127 and STEP 64 visit in bit-reversed order: 0, 64, 32, 96, 16 (R471). -/
theorem test_bit_reversed : [0#14, 64#14, 32#14, 96#14].map (fun p => updatePtr 2 p 0x807F0040#32) = [64#14, 32#14, 96#14, 16#14] := by decide
/-- MPY of 0.5 and 0.75 beside a load of X at P0, which is updated. -/
theorem test_step_mpy : ∃ t, step { s0 with
      pending := [.thMpy 0 1 2 3 xm0 {}]
      thyme := { cores := [(0, { main := { g := [(2, 0x40000000#32), (3, 0x60000000#32)], p := [(0, 9#14)] }, x := [(9, 7#32)] })] } } = .next t ∧
    (t.core 0).acc 1 = 0x30000000#40 ∧ (t.core 0).gReg 2 = 7#32 ∧ (t.core 0).ptr 0 = 10#14 ∧ t.pending = [] := by
  exact ⟨_, rfl, by decide, by decide, by decide, rfl⟩

/-! ### Well-formed commands: each check refuses an ill-formed term -/

def dOk : Desc := { d0 with tag := 3 }

theorem wf_nop : (Instr.nop 0 3 63 dOk).wf = true ∧ (Instr.nop 0 4 0 dOk).wf = false ∧ (Instr.nop 0 0 64 dOk).wf = false := by decide
theorem wf_desc : ({ dOk with rsv := 256 } : Desc).wf = false ∧ ({ dOk with tag := 65536 } : Desc).wf = false ∧
    ({ dOk with genview := 2 ^ 32 } : Desc).wf = false ∧ ({ dOk with length := 2 ^ 32 } : Desc).wf = false ∧
    ({ dOk with handle := 2 ^ 32 } : Desc).wf = false ∧ ({ dOk with body := [] } : Desc).wf = false := by decide
theorem wf_register : (Instr.registerWrite 0 0 ⟨.bar0, 0x10010⟩ 1 32).wf = true ∧ (Instr.registerWrite 0 0 ⟨.bar0, 0x20000⟩ 1 32).wf = false ∧
    (Instr.registerWrite 0 0 ⟨.bar0, 0x10010⟩ (2 ^ 32) 32).wf = false ∧ (Instr.registerWrite 0 0 ⟨.bar2, 0x10010⟩ 1 24).wf = false ∧
    (Instr.registerWrite 0 4 ⟨.command, 0⟩ 1 32).wf = false := by decide
theorem wf_lock : (Instr.lock 0 3 0x10000 1 32).wf = true ∧ (Instr.lock 0 4 0x10000 1 32).wf = false ∧ (Instr.lock 0 3 0x20000 1 32).wf = false ∧
    (Instr.lock 0 3 0x10000 (2 ^ 32) 32).wf = false ∧ (Instr.lock 0 3 0x10000 1 24).wf = false := by decide
theorem wf_owner_writes : (Instr.sfCfgWrite 0 0 (2 ^ 32)).wf = false ∧ (Instr.fwKekWrite 0 0 4 0 0).wf = false ∧ (Instr.fwKekWrite 0 0 0 8 0).wf = false ∧
    (Instr.fwKekWrite 0 0 0 0 (2 ^ 32)).wf = false ∧ (Instr.loopWrite 0 0 16 0).wf = false ∧ (Instr.loopWrite 0 0 15 (2 ^ 32)).wf = false ∧
    (Instr.modeRequest 0 0 (2 ^ 32)).wf = false ∧ (Instr.pwrResetWrite 0 0 (2 ^ 32)).wf = false ∧ (Instr.tripSeenClear 0 4).wf = false ∧
    (Instr.sfCfgWrite 0 4 0).wf = false ∧ (Instr.fwKekWrite 0 4 0 0 0).wf = false ∧ (Instr.loopWrite 0 4 0 0).wf = false ∧
    (Instr.modeRequest 0 4 0).wf = false ∧ (Instr.pwrResetWrite 0 4 0).wf = false ∧ (Instr.loopWrite 0 3 15 1).wf = true := by decide
theorem wf_reads : (Instr.tbNowRead 0 0 ⟨4, 0, 32⟩).wf = false ∧ (Instr.tbNowRead 0 4 ⟨0, 0, 32⟩).wf = false ∧ (Instr.tbNowRead 0 0 ⟨0, 0, 24⟩).wf = false ∧
    (Instr.tbTickRead 0 ⟨4, 0, 32⟩).wf = false ∧ (Instr.tbTickRead 0 ⟨0, 8, 32⟩).wf = false ∧ (Instr.faMigRead 0 ⟨4, 0, 32⟩).wf = false ∧
    (Instr.faMigRead 0 ⟨0, 0, 0⟩).wf = false ∧ (Instr.tbNowRead 0 0 ⟨0, 16, 32⟩).wf = false ∧
    (Instr.smbusWrite 0 (zeros 200) (zeros 56) (zeros 1)).wf = false ∧ (Instr.smbusRead 0 (zeros 257)).wf = false ∧ (Instr.tbNowRead 0 3 ⟨3, 1, 16⟩).wf = true := by decide
theorem wf_ports : (Instr.hostLinkUp 0 ⟨4, 16, 5⟩).wf = false ∧ (Instr.hostLinkUp 0 ⟨0, 3, 5⟩).wf = false ∧ (Instr.hostLinkUp 0 ⟨0, 16, 0⟩).wf = false ∧
    (Instr.hostLinkUp 0 ⟨0, 16, 6⟩).wf = false ∧ (Instr.hostLinkUp 0 ⟨3, 16, 5⟩).wf = true ∧ (Instr.hostLinkDown 0 4).wf = false ∧ (Instr.flr 0 4).wf = false ∧ (Instr.hotReset 0 4).wf = false ∧
    (Instr.perstAssert 0 4).wf = false ∧ (Instr.sweep 0 4 { page := zeros 528 }).wf = false ∧ (Instr.sweep 0 3 { page := zeros 528 }).wf = true := by decide
theorem wf_sweep : ({} : SweepData).wf = false ∧ ({ page := zeros 528, slots := [(64, [])] } : SweepData).wf = false ∧
    ({ page := zeros 528, slots := [(0, [zeros 63])] } : SweepData).wf = false ∧
    ({ page := zeros 528, slots := [(63, [zeros 64])] } : SweepData).wf = true := by decide
theorem wf_dma : (DmaRef.desc 4 0).wf = false ∧ (DmaRef.desc 0 64).wf = false ∧ (DmaRef.doorbell 4).wf = false ∧ (DmaRef.entry 0 2 4).wf = false ∧
    (DmaRef.entry 0 1 63).wf = true ∧ (DmaRef.entry 0 3 0).wf = false ∧ (DmaResult.fail 3).wf = false ∧ (DmaResult.fail 7).wf = true := by decide
theorem wf_host_timers : (Instr.attentionAge 0 0 4).wf = false ∧ (Instr.coalesceAge 0 0 64).wf = false ∧ (Instr.orphanGraceExpiry 0 4).wf = false ∧
    (Instr.batchTimeout 0 0 64).wf = false ∧ (Instr.abortedTailEnd 0 0 64).wf = false ∧ (Instr.puntHoldExpiry 0 4).wf = false ∧
    (Instr.attentionAge 0 4 0).wf = false ∧ (Instr.coalesceAge 0 4 0).wf = false ∧ (Instr.batchTimeout 0 4 0).wf = false ∧
    (Instr.abortedTailEnd 0 4 0).wf = false ∧ (Instr.periodicCapture 0 4 0).wf = false ∧ (Instr.periodicCapture 0 0 (2 ^ 64)).wf = false ∧
    (Instr.snapshotWriteEnd 0 4 0).wf = false ∧ (Instr.snapshotWriteEnd 0 0 (2 ^ 64)).wf = false ∧ (Instr.snapshotWriteEnd 0 3 64).wf = true := by decide
theorem wf_measures : ({ powerDw := 65536, clientMbps := List.replicate 9 0 } : TickMeas).wf = false ∧ ({} : TickMeas).wf = false ∧
    ({ clientMbps := List.replicate 9 0 } : TickMeas).wf = true ∧ ({ reason := 7 } : FlashResult).wf = false ∧ ({ samples := [0] } : ThymeResult).wf = false ∧
    ({ clientMbps := List.replicate 9 0, cut := [64] } : TickMeas).wf = false ∧ ({ clientMbps := List.replicate 9 0, fec := [(64, 0, 0, 0)] } : TickMeas).wf = false ∧
    ({ clientMbps := List.replicate 9 0, dram := [(0, [])] } : TickMeas).wf = false ∧
    tempOk 128 = false ∧ tempOk (-129) = false ∧ tempOk (-128) = true := by decide
theorem wf_network : (Instr.transmitFrameStart 0 64).wf = false ∧ (Instr.transmitFrameEnd 0 64).wf = false ∧ (Instr.headAgeDrop 0 1049088).wf = false ∧
    (Instr.logicalPortUp 0 64).wf = false ∧ (Instr.pauseTimerExpiry 0 0 8).wf = false ∧ (Instr.pauseTimerExpiry 0 64 0).wf = false ∧
    (Instr.pauseStorm 0 0 8).wf = false ∧ (Instr.pauseStorm 0 64 0).wf = false ∧ (Instr.poolLevelCheck 0 16).wf = false ∧
    (Instr.xoffRepeat 0 16 0).wf = false ∧ (Instr.xoffRepeat 0 0 64).wf = false ∧ (Instr.gateChange 0 64).wf = false ∧
    (Instr.gateListStart 0 64).wf = false ∧ (Instr.fecDegradedClear 0 64).wf = false ∧ (Instr.retrainEnd 0 16).wf = false ∧
    (Instr.watermarkRearm 0 16).wf = false ∧ (Instr.headAgeDrop 0 1049087).wf = true ∧ (Instr.xoffRepeat 0 15 63).wf = true := by decide
theorem wf_objects : (Instr.keyOverlapEnd 0 4194304).wf = false ∧ (Instr.estimateTimeout 0 1048576).wf = false ∧ (Instr.keyWaitExpiry 0 4194304).wf = false ∧
    (Instr.nackSend 0 4194304).wf = false ∧ (Instr.rtcpReportTimer 0 1048576).wf = false ∧ (Instr.feedbackTimer 0 1048576).wf = false ∧
    (Instr.composedPictureReady 0 65536).wf = false ∧ (Instr.keyIntervalExpiry 0 65536 0).wf = false ∧ (Instr.keyIntervalExpiry 0 0 8).wf = false ∧
    (Instr.rungRateUpdate 0 65536).wf = false ∧ (Instr.keyIntervalExpiry 0 65535 7).wf = true := by decide
theorem wf_units : (Instr.operationDispatch 0 8 0).wf = false ∧ (Instr.operationDispatch 0 0 4).wf = false ∧ (Instr.interruptEntry 64 0).wf = false ∧
    (Instr.interruptEntry 0 3).wf = false ∧ (Instr.stallYield 0 ⟨48, 0⟩).wf = false ∧ (Instr.stallYield 0 ⟨47, 9⟩).wf = true ∧
    (Instr.watchdogOverrun 0 ⟨1, { blocks := [{ rect := { w := 2, h := 2 }, luma := [1, 2, 3], cb := [1], cr := [1] }] }⟩).wf = false ∧
    (Instr.decodeComplete 0 1 { made := { blocks := [{ rect := { w := 2, h := 2 }, luma := [1, 2, 3, 4], cb := [1], cr := [1] }] } }).wf = true ∧
    (Instr.pictureDue 0 0 { hdr := { chroma := 4 } }).wf = false ∧ (Instr.pictureDue 0 0 { hdr := { depth := 7 } }).wf = false ∧ (Instr.pictureDue 0 0 { sim := some 3 }).wf = false ∧ (Instr.pictureDue 0 0 { layer := (0, 3) }).wf = false ∧
    (Instr.encodeComplete 0 1 { mvs := [{ x := 1025 }] }).wf = false ∧ (Instr.encodeComplete 0 1 { mvs := [{ y := -513 }] }).wf = false ∧
    (Instr.encodeComplete 0 1 { mvs := [{ x := -1024, y := 512 }], units := [{ s := 2 }] }).wf = true ∧
    (Instr.encodeComplete 0 1 { units := [{ s := 3 }] }).wf = false ∧ (Instr.mixComplete 0 1 { fades := [(0, [0])] }).wf = false ∧
    (Instr.completePacketNotice 0 0 { data := [], layers := [(3, 0)] }).wf = false ∧ (Instr.cutThroughStart 0 64 { data := [] }).wf = false := by decide
theorem wf_entries : ({ host := 4, table := 0, index := 0, data := padTo 64 [] } : OverlayRead).wf = false ∧
    ({ host := 0, table := 2, index := 0, data := padTo 64 [] } : OverlayRead).wf = false ∧ ({ host := 0, table := 0, index := 0, data := [] } : OverlayRead).wf = false ∧
    ({ leg := 1048576, data := zeros 128 } : MixCtlRead).wf = false ∧ ({ leg := 0, data := [] } : MixCtlRead).wf = false ∧
    (Instr.overlayCopyDone 0 4 0 0 (.ok [])).wf = false ∧ (Instr.overlayCopyDone 0 0 2 0 (.ok [])).wf = false ∧
    (Instr.overlayCopyDone 0 0 0 0 (.fail 3)).wf = false ∧ (Instr.overlayCopyDone 0 3 1 0 (.fail 7)).wf = true := by decide
theorem wf_clock : (Instr.holdoverEntry 0 4).wf = false ∧ (Instr.holdoverEnd 0 4).wf = false ∧ (Instr.slewLimitTimeout 0 4).wf = false ∧
    (Instr.secondsSet 0 4).wf = false ∧ (Instr.ppsInputEdge 0 4).wf = false ∧ (Instr.ppsInputLoss 0 4).wf = false ∧ (Instr.ppsOutputRise 0 4).wf = false ∧
    (Instr.ppsOutputFall 0 4).wf = false ∧ (Instr.announceReceiptTimeout 0 4 0).wf = false ∧ (Instr.announceReceiptTimeout 0 0 64).wf = false ∧
    (Instr.ptpMessageTransmit 0 4 .sync).wf = false ∧ (Instr.ptpMessageReceive 0 64 ⟨0, []⟩).wf = false ∧ (Instr.ptpMessageReceive 0 63 ⟨0, []⟩).wf = true ∧ (Instr.secondsSet 0 3).wf = true := by decide
theorem wf_dram : (Instr.refreshDue 0 12 0).wf = false ∧ (Instr.refreshBatch 0 0 4).wf = false ∧ (Instr.mr4Read 0 12 0 true).wf = false ∧
    (Instr.refreshModeReturn 0 0 4).wf = false ∧ (Instr.dimmSensorRead 0 0 2 0).wf = false ∧ (Instr.dimmSensorRead 0 0 0 200).wf = false ∧
    (Instr.dramRead 0 32 0 0 0 {}).wf = false ∧ (Instr.dramRead 0 31 0 0 0 { cut := [64] }).wf = false ∧
    (Instr.caParityError 0 12 0 true [] []).wf = false ∧ (Instr.caParityError 0 0 0 false [{ client := 32, line := 0 }] []).wf = false ∧
    (Instr.rankSweepDone 0 0 4 true true).wf = false ∧
    (Instr.dimmSensorRead 0 11 1 (-40)).wf = true := by decide
theorem wf_power : (Instr.vcoreLow 0 65536).wf = false ∧ (Instr.vsramLow 0 65536).wf = false ∧ (Instr.strapSample 0 true true 4).wf = false ∧
    (Instr.bootEnd 0 [(8, 0)] true).wf = false ∧ (Instr.bootEnd 0 [(0, 17)] true).wf = false ∧ (Instr.safeEntry 0 ⟨16, []⟩).wf = false ∧ (Instr.safeEntry 0 ⟨2, [64]⟩).wf = false ∧
    (Instr.dipHoldStart 0 2 0).wf = false ∧ (Instr.dipHoldStart 0 0 65536).wf = false ∧ (Instr.temperatureRead 0 [40]).wf = false ∧
    (Instr.temperatureRead 0 (List.replicate 9 40)).wf = true ∧ (Instr.returnLevelCrossing 0 2).wf = false := by decide
theorem wf_boot_facts : ({ dimms := [{ ch := 0, slot := 2 }] } : BootFacts).wf = false ∧ ({ dimms := [{ ch := 12, slot := 0 }] } : BootFacts).wf = false := by decide +kernel
theorem wf_thyme : (Instr.thNopp 64 {} {}).wf = false ∧ (Instr.thNopp 0 { reg := 1 } {}).wf = false ∧ (Instr.thNopp 63 { en := true, reg := 1 } {}).wf = true ∧
    (Instr.thMove 0 .cyc (.g 0)).wf = false ∧ (Instr.thMove 0 .sr .cyc).wf = true ∧ (Instr.thAdd 64 0 0 (.imm 0)).wf = false := by decide

/-! ### Published vectors and calculations by hand -/

/-- FIPS 197, appendix C.1: AES-128 of 00112233…FF under the key 00010203…0F. -/
theorem test_aes : aesBlock (aesKeys (List.range 16)) ((List.range 16).map (17 * ·)) =
    [0x69, 0xc4, 0xe0, 0xd8, 0x6a, 0x7b, 0x04, 0x30, 0xd8, 0xcd, 0xb7, 0x80, 0x70, 0xb4, 0xc5, 0x5a] := by decide +kernel
/-- FIPS 180: SHA-1 of "abc". -/
theorem test_sha1 : natOf (sha1 [0x61, 0x62, 0x63]) = 0xa9993e364706816aba3e25717850c26c9cd0d89d := by decide +kernel
/-- R387: at A = 128 a value of 200 over 100 gives (128 · 200 + 127 · 100 + 127) / 255 = 150; at A = 255 the label's, at 0 the canvas's. -/
theorem test_blend : blend false 128 200 100 = 150 ∧ blend false 255 200 100 = 200 ∧ blend false 0 200 100 = 100 := by decide
/-- R442: T = -20 dB, R = 4, W = 0: a level of -12 dB lies 8 dB above and is cut by 6 dB; one below T is left alone. -/
theorem test_compressor : ({ thresh := -20 * 2 ^ 24, ratio := 40, knee := 0, makeup := 0, attack := 1, release := 1 } : Dynamics).target (-12 * 2 ^ 24) = -6 * 2 ^ 24 ∧
    ({ thresh := -20 * 2 ^ 24, ratio := 40, knee := 0, makeup := 0, attack := 1, release := 1 } : Dynamics).target (-24 * 2 ^ 24) = 0 := by decide
/-- RFC 4585, 6.2.1: PID 100 with BLP 5 asks for 100, 101 and 103. -/
theorem test_nack : nackNums (ofNums [0, 100, 0, 5]) = [100, 101, 103] := by decide
/-- R85, R20: a LOCK of a port in RUN is counted; a write to another register, a narrow one, or one of 0, is no LOCK. -/
theorem test_lock : lockWrite 0 0x10000 1 32 s0 = s0.bump (hpCtr 0 64) ∧ lockWrite 0 0x10000 0 32 s0 = s0 ∧ lockWrite 0 0x10004 1 32 s0 = s0 ∧
    lockWrite 0 0x10000 1 16 s0 = s0 := by decide
/-- The value 1 writes LOCK: the premise of the statements about LOCK. -/
theorem wit_lock_value : bit 1 0 = true ∧ s0.barOpen 0 = true ∧ s0.running 0 = true := by decide

end Sys2Proof.Tests
end

section
/-! PROOFS. Creates and deletes at their tick (02 R93, R100; 00 R5; 06 R240-R247).  A create searches one index more than incarnations
have been issued, and takes the index its search ends at.  On a state whose live objects all bear an issued index that index is free,
and the create names a new object; on one that lists live objects under indices never issued it may be taken, which refutes O19 as it
is stated, over all states. -/
namespace Sys2Proof.Machine

variable {α : Type}

/-! ### The index of a new object -/

/-- Every index of a table has an incarnation issued for it. -/
def Issued (t : Tab α) (incs : Tab Nat) : Prop := ∀ i, has t i = true → has incs i = true

/-- Every live object bears an index that has been issued. -/
def State.indicesIssued (s : State) : Prop :=
  Issued s.objs.rooms s.objs.roomInc ∧ Issued s.objs.legs s.objs.legInc ∧ Issued s.objs.streams s.objs.streamInc

theorem reset_indicesIssued : core.reset.indicesIssued := ⟨nofun, nofun, nofun⟩

theorem mem_keys_of_has {t : Tab α} {k : Nat} (h : has t k = true) : k ∈ t.map (·.1) := by
  induction t with
  | nil => simp [has] at h
  | cons e t ih =>
    obtain ⟨j, v⟩ := e
    by_cases hj : j = k
    · simp [hj]
    · have : has t k = true := by simpa [has, look, hj] using h
      exact List.mem_cons_of_mem _ (ih this)

/-- A search ends below its limit, at an index that is free or, its fuel spent, behind indices that were all passed over. -/
theorem findIndex_eq_some {t : Tab α} {ok : Nat → Bool} {limit fuel n i : Nat} (h : findIndex t ok limit fuel n = some i) :
    i < limit ∧ (has t i = false ∨ ∀ m, n ≤ m → m < n + fuel → has t m = true ∨ ok m = false) := by
  induction fuel generalizing n with
  | zero =>
    simp only [findIndex, Option.ite_none_right_eq_some, Option.some.injEq] at h
    exact ⟨h.2 ▸ h.1, .inr fun m _ _ => by omega⟩
  | succ fuel ih =>
    simp only [findIndex, Option.ite_none_left_eq_some] at h
    obtain ⟨hn, h⟩ := h
    split at h
    case isTrue skip =>
      obtain ⟨hi, hfree | hall⟩ := ih h
      · exact ⟨hi, .inl hfree⟩
      · refine ⟨hi, .inr fun m hm hlt => ?_⟩
        obtain rfl | hm := Nat.eq_or_lt_of_le hm
        · simpa using skip
        · exact hall m hm (by omega)
    case isFalse keep =>
      cases h
      exact ⟨by omega, .inl (by simp_all)⟩

/-- One index more than the keys of a table cannot all be keys. -/
theorem exists_not_key (t : Tab α) (n : Nat) : ∃ m, n ≤ m ∧ m < n + (t.length + 1) ∧ has t m = false := by
  by_contra hall
  have sub : List.range' n (t.length + 1) ⊆ t.map (·.1) := fun m hm => by
    obtain ⟨hle, hlt⟩ := List.mem_range'_1.mp hm
    exact mem_keys_of_has (Bool.of_not_eq_false fun hf => hall ⟨m, hle, hlt, hf⟩)
  simpa using (List.subperm_of_subset List.nodup_range' sub).length_le

/-- A new object's index is free when all live ones were issued, and its incarnation is the next. -/
theorem State.newIndex_eq_some {s : State} {kind : Nat} {t : Tab α} {incs : Tab Nat} {base limit i inc : Nat} (issued : Issued t incs)
    (h : s.newIndex kind t incs base limit = some (i, inc)) :
    i < limit ∧ look t i = none ∧ inc = nextInc kind (lookD incs i 0) := by
  simp only [State.newIndex, Option.map_eq_some_iff, Prod.mk.injEq] at h
  obtain ⟨_, hfind, rfl, rfl⟩ := h
  obtain ⟨hlim, hfree⟩ := findIndex_eq_some hfind
  refine ⟨hlim, ?_, rfl⟩
  obtain hfree | hall := hfree
  · simpa [has] using hfree
  · obtain ⟨m, hle, hlt, hm⟩ := exists_not_key incs base
    obtain hlive | hbad := hall m hle hlt
    · simp [issued m hlive] at hm
    · have hlook : look incs m = none := by simpa [has] using hm
      simp [hlook] at hbad

theorem nextInc_room (last : Nat) : nextInc 1 last = if last < 0xFFFF then last + 1 else 1 := by
  simp [nextInc, indexBits, ← Nat.lt_sub_iff_add_lt]
theorem nextInc_leg (last : Nat) : nextInc 2 last = if last < 0xFFF then last + 1 else 1 := by
  simp [nextInc, indexBits, ← Nat.lt_sub_iff_add_lt]
theorem nextInc_stream (last : Nat) : nextInc 3 last = if last < 0x3FF then last + 1 else 1 := by
  simp [nextInc, indexBits, ← Nat.lt_sub_iff_add_lt]

/-! ### Handles -/

theorem State.index_of_roomAt {s : State} {h i : Nat} {r : Room} (hat : s.roomAt h = some (i, r)) : i = h % 65536 := by
  simp only [State.roomAt, Option.bind_eq_some_iff, Option.ite_none_right_eq_some, Option.some.injEq, Prod.mk.injEq] at hat
  obtain ⟨_, -, -, rfl, -⟩ := hat
  rfl

theorem roomHandle_mod {i : Nat} (hi : i < 65536) (inc : Nat) : roomHandle i inc % 65536 = i := by
  rw [roomHandle, Nat.mul_add_mod_self_right, Nat.mod_eq_of_lt hi]
theorem legHandle_mod {i : Nat} (hi : i < 1048576) (inc : Nat) : legHandle i inc % 1048576 = i := by
  rw [legHandle, Nat.mul_add_mod_self_right, Nat.mod_eq_of_lt hi]
theorem streamHandle_mod {i : Nat} (hi : i < 4194304) (inc : Nat) : streamHandle i inc % 4194304 = i := by
  rw [streamHandle, Nat.mul_add_mod_self_right, Nat.mod_eq_of_lt hi]

theorem State.roomAt_roomHandle {s : State} {i : Nat} {r : Room} (hi : i < 65536) (hr : look s.objs.rooms i = some r) :
    s.roomAt (roomHandle i r.inc) = some (i, r) := by
  rw [State.roomAt, roomHandle_mod hi, hr, Option.bind_some, if_pos rfl]

theorem State.legAt_legHandle {s : State} {i : Nat} {l : Leg} (hi : i < 1048576) (hl : look s.objs.legs i = some l) :
    s.legAt (legHandle i l.inc) = some (i, l) := by
  rw [State.legAt, legHandle_mod hi, hl, Option.bind_some, if_pos rfl]

theorem State.streamAt_streamHandle {s : State} {i : Nat} {x : Stream} (hi : i < 4194304) (hx : look s.objs.streams i = some x) :
    s.streamAt (streamHandle i x.inc) = some (i, x) := by
  rw [State.streamAt, streamHandle_mod hi, hx, Option.bind_some, if_pos rfl]

/-! ### What a create that ends OK has done -/

theorem failOut_ne_ok {s u : State} {st res h o : Nat} (hst : st ≠ stOk) : failOut s st res ≠ (u, stOk, h, o) := by
  intro e
  simp only [failOut, Prod.mk.injEq] at e
  exact hst e.2.1

@[simp] theorem State.clearRing_objs (s : State) (room : Nat) : (s.clearRing room).objs = s.objs := by
  unfold State.clearRing
  dsimp only
  split <;> rfl

@[simp] theorem State.joinUnits_objs (s : State) (i : Nat) (x : Stream) (r : Room) : (s.joinUnits i x r).objs = s.objs := by
  unfold State.joinUnits
  repeat' split
  all_goals rfl

theorem applyRoomCreate_ok {p : Nat} {d : Desc} {s u : State} {h o : Nat} (e : applyRoomCreate p d s = (u, stOk, h, o)) :
    ∃ n inc r, s.newIndex 1 s.objs.rooms s.objs.roomInc 0 65536 = some (n, inc) ∧ h = roomHandle n inc ∧ o = h ∧
      u.objs.rooms = put s.objs.rooms n r ∧ u.objs.roomInc = put s.objs.roomInc n inc ∧ r.inc = inc ∧ r.owner = p ∧
      r.createdTick = s.tick := by
  unfold applyRoomCreate at e
  dsimp only at e
  split at e
  · exact absurd e (failOut_ne_ok (by decide))
  split at e
  · exact absurd e (failOut_ne_ok (by decide))
  next n inc hnew =>
  split at e
  · exact absurd e (failOut_ne_ok (by decide))
  next y _ =>
  split at e
  · exact absurd e (failOut_ne_ok (by decide))
  simp only [okOut, Prod.mk.injEq] at e
  obtain ⟨hu, -, rfl, rfl⟩ := e
  have hobjs := congrArg State.objs hu
  simp only [apply_ite State.objs, State.modMedia_objs, State.clearRing_objs, State.modObjs_objs, ite_self] at hobjs
  exact ⟨n, inc, _, hnew, rfl, rfl, (congrArg Objects.rooms hobjs).symm, (congrArg Objects.roomInc hobjs).symm, rfl, rfl, rfl⟩

theorem applyLegCreate_ok {p : Nat} {d : Desc} {s u : State} {h o : Nat} (e : applyLegCreate p d s = (u, stOk, h, o)) :
    ∃ i inc l, s.newIndex 2 s.objs.legs s.objs.legInc 0 1048576 = some (i, inc) ∧ h = legHandle i inc ∧ o = h ∧
      u.objs.legs = put s.objs.legs i l ∧ u.objs.legInc = put s.objs.legInc i inc ∧ l.inc = inc ∧ l.owner = p := by
  unfold applyLegCreate at e
  dsimp only at e
  split at e
  · exact absurd e (failOut_ne_ok (by decide))
  split at e
  · exact absurd e (failOut_ne_ok (by decide))
  split at e
  · exact absurd e (failOut_ne_ok (by decide))
  next i inc hnew =>
  split at e
  · exact absurd e (failOut_ne_ok (by decide))
  simp only [okOut, Prod.mk.injEq] at e
  obtain ⟨hu, -, rfl, rfl⟩ := e
  have hobjs := congrArg State.objs hu
  simp only [State.modObjs_objs, State.draw_objs] at hobjs
  exact ⟨i, inc, _, hnew, rfl, rfl, (congrArg Objects.legs hobjs).symm, (congrArg Objects.legInc hobjs).symm, rfl, rfl⟩

theorem applyStreamCreate_ok {p : Nat} {d : Desc} {s u : State} {h o : Nat} (e : applyStreamCreate p d s = (u, stOk, h, o)) :
    ∃ base i inc x, base ≤ 2097152 ∧ s.newIndex 3 s.objs.streams s.objs.streamInc base (base + 2097152) = some (i, inc) ∧
      h = streamHandle i inc ∧ o = h ∧ u.objs.streams = put s.objs.streams i x ∧ u.objs.streamInc = put s.objs.streamInc i inc ∧
      x.inc = inc ∧ x.owner = p ∧ x.createdTick = s.tick := by
  unfold applyStreamCreate at e
  split at e
  · exact absurd e (failOut_ne_ok (by decide))
  split at e
  · exact absurd e (failOut_ne_ok (by decide))
  extract_lets x base at e
  split at e
  · exact absurd e (failOut_ne_ok (by decide))
  split at e
  · exact absurd e (failOut_ne_ok (by decide))
  split at e
  · exact absurd e (failOut_ne_ok (by decide))
  next i inc hnew =>
  split at e
  · exact absurd e (failOut_ne_ok (by decide))
  simp only [okOut, Prod.mk.injEq] at e
  obtain ⟨hu, -, rfl, rfl⟩ := e
  have hobjs := congrArg State.objs hu
  simp only [State.joinUnits_objs, State.modObjs_objs] at hobjs
  refine ⟨base, i, inc, _, ?_, hnew, rfl, rfl, (congrArg Objects.streams hobjs).symm, (congrArg Objects.streamInc hobjs).symm, rfl, rfl, rfl⟩
  dsimp only [base]
  split <;> omega

/-! ### Through the checks of 02 R92 -/

theorem State.handleCheck_ne_ok {s : State} {p kind h : Nat} : s.handleCheck p kind h ≠ some stOk := by
  unfold State.handleCheck
  split
  · decide
  · split <;> simp [stNotOwner, stOk]

theorem State.judge_ne_ok {s : State} {k : Kind} {p : Nat} {d : Desc} : s.judge k p d ≠ some stOk := by
  unfold State.judge
  split
  next st hst =>
    split at hst
    · cases hst
    · rw [← hst]; exact State.handleCheck_ne_ok
  · split <;> simp [stStaleGen, stOk]

/-- A command that ends OK has come through its checks to its effect. -/
theorem State.effectOf_of_applyCommand_ok {s u : State} {op p h o : Nat} {d : Desc} {data : Bytes}
    (e : s.applyCommand op p d data = (u, stOk, h, o)) : s.effectOf op p d data = (u, stOk, h, o) := by
  unfold State.applyCommand at e
  split at e
  · exact absurd e (failOut_ne_ok (by decide))
  split at e
  · exact absurd e (failOut_ne_ok (by decide))
  split at e
  · exact e
  split at e
  next st hst => exact absurd e (failOut_ne_ok fun hok => State.judge_ne_ok (hok ▸ hst))
  · exact e

theorem State.handleCheck_owner {s : State} {p kind h : Nat} (howner : s.ownerOf kind h = some p) : s.handleCheck p kind h = none := by
  simp [State.handleCheck, howner]

/-- A command on its sender's own object, of a kind without data and without check of its generation, comes to its effect. -/
theorem State.applyCommand_owner {s : State} {op p : Nat} {d : Desc} {data : Bytes} {k : Kind} (hk : kindOf op = some k) (hlen : k.len = false)
    (hgen : k.gen = false) (howner : s.ownerOf k.handle d.handle = some p) : s.applyCommand op p d data = s.effectOf op p d data := by
  have hjudge : s.judge k p d = none := by simp [State.judge, State.handleCheck_owner howner, hgen]
  simp [State.applyCommand, hk, hlen, hjudge]

/-! ### Deletes -/

@[simp] theorem State.noteDrained_objs (s : State) : s.noteDrained.objs = s.objs := by
  unfold State.noteDrained
  split <;> rfl

theorem State.look_deleteRoom (s : State) (i : Nat) : look (s.deleteRoom i).objs.rooms i = none := by
  unfold State.deleteRoom
  split
  · assumption
  · simp

theorem State.look_deleteLeg (s : State) (i : Nat) : look (s.deleteLeg i).objs.legs i = none := by
  unfold State.deleteLeg
  split
  · assumption
  · simp

theorem State.look_deleteStream (s : State) (i : Nat) : look (s.deleteStream i).objs.streams i = none := by
  unfold State.deleteStream
  split
  · assumption
  · simp

/-- 06 R247: a room is deleted by its owner. -/
theorem roomDelete_takes_away {p i : Nat} {d : Desc} {s : State} {r : Room} (hat : s.roomAt d.handle = some (i, r)) (hp : r.owner = p) :
    ∃ u, s.applyCommand 0x03 p d [] = (u, stOk, 0, d.handle) ∧ look u.objs.rooms i = none := by
  refine ⟨s.deleteRoom i, ?_, s.look_deleteRoom i⟩
  rw [State.applyCommand_owner (op := 0x03) rfl rfl rfl (by simp [State.ownerOf, hat, hp])]
  simp only [State.effectOf, applyRoomDelete, hat, okOut]

/-- 06 R247: a leg is deleted by its owner. -/
theorem legDelete_takes_away {p i : Nat} {d : Desc} {s : State} {l : Leg} (hat : s.legAt d.handle = some (i, l)) (hp : l.owner = p) :
    ∃ u, s.applyCommand 0x06 p d [] = (u, stOk, 0, d.handle) ∧ look u.objs.legs i = none := by
  refine ⟨s.deleteLeg i, ?_, s.look_deleteLeg i⟩
  rw [State.applyCommand_owner (op := 0x06) rfl rfl rfl (by simp [State.ownerOf, hat, hp])]
  simp only [State.effectOf, applyLegDelete, hat, okOut]

/-- 06 R247: a stream is deleted by its owner. -/
theorem streamDelete_takes_away {p i : Nat} {d : Desc} {s : State} {x : Stream} (hat : s.streamAt d.handle = some (i, x))
    (hp : x.owner = p) : ∃ u, s.applyCommand 0x09 p d [] = (u, stOk, 0, d.handle) ∧ look u.objs.streams i = none := by
  refine ⟨s.deleteStream i, ?_, s.look_deleteStream i⟩
  rw [State.applyCommand_owner (op := 0x09) rfl rfl rfl (by simp [State.ownerOf, hat, hp])]
  simp only [State.effectOf, applyStreamDelete, hat, okOut]

/-! ### Creates where every live index has been issued -/

/-- 00 R5, 06 R240: a room that is made is new, its sender's, and of the next incarnation. -/
theorem roomCreate_names_new {p h o : Nat} {d : Desc} {s u : State} (issued : Issued s.objs.rooms s.objs.roomInc)
    (e : s.applyCommand 0x01 p d [] = (u, stOk, h, o)) :
    o = h ∧ ∃ i r, u.roomAt h = some (i, r) ∧ r.owner = p ∧ r.createdTick = s.tick ∧ look s.objs.rooms i = none ∧
      r.inc = (if lookD s.objs.roomInc i 0 < 0xFFFF then lookD s.objs.roomInc i 0 + 1 else 1) ∧ lookD u.objs.roomInc i 0 = r.inc := by
  obtain ⟨i, _, r, hnew, rfl, rfl, hrooms, hincs, rfl, howner, htick⟩ := applyRoomCreate_ok (State.effectOf_of_applyCommand_ok e)
  obtain ⟨hlim, hfree, hinc⟩ := State.newIndex_eq_some issued hnew
  exact ⟨rfl, i, r, State.roomAt_roomHandle hlim (by simp [hrooms]), howner, htick, hfree, hinc.trans (nextInc_room _), by simp [hincs]⟩

/-- 00 R5, 06 R242: a leg that is made is new, its sender's, and of the next incarnation. -/
theorem legCreate_names_new {p h o : Nat} {d : Desc} {s u : State} (issued : Issued s.objs.legs s.objs.legInc)
    (e : s.applyCommand 0x04 p d [] = (u, stOk, h, o)) :
    o = h ∧ ∃ i l, u.legAt h = some (i, l) ∧ l.owner = p ∧ look s.objs.legs i = none ∧
      l.inc = (if lookD s.objs.legInc i 0 < 0xFFF then lookD s.objs.legInc i 0 + 1 else 1) ∧ lookD u.objs.legInc i 0 = l.inc := by
  obtain ⟨i, _, l, hnew, rfl, rfl, hlegs, hincs, rfl, howner⟩ := applyLegCreate_ok (State.effectOf_of_applyCommand_ok e)
  obtain ⟨hlim, hfree, hinc⟩ := State.newIndex_eq_some issued hnew
  exact ⟨rfl, i, l, State.legAt_legHandle hlim (by simp [hlegs]), howner, hfree, hinc.trans (nextInc_leg _), by simp [hincs]⟩

/-- 00 R5, 06 R244: a stream that is made is new, its sender's, and of the next incarnation. -/
theorem streamCreate_names_new {p h o : Nat} {d : Desc} {s u : State} (issued : Issued s.objs.streams s.objs.streamInc)
    (e : s.applyCommand 0x07 p d [] = (u, stOk, h, o)) :
    o = h ∧ ∃ i x, u.streamAt h = some (i, x) ∧ x.owner = p ∧ x.createdTick = s.tick ∧ look s.objs.streams i = none ∧
      x.inc = (if lookD s.objs.streamInc i 0 < 0x3FF then lookD s.objs.streamInc i 0 + 1 else 1) ∧
      lookD u.objs.streamInc i 0 = x.inc := by
  obtain ⟨base, i, _, x, hbase, hnew, rfl, rfl, hstreams, hincs, rfl, howner, htick⟩ :=
    applyStreamCreate_ok (State.effectOf_of_applyCommand_ok e)
  obtain ⟨hlim, hfree, hinc⟩ := State.newIndex_eq_some issued hnew
  exact ⟨rfl, i, x, State.streamAt_streamHandle (by omega) (by simp [hstreams]), howner, htick, hfree, hinc.trans (nextInc_stream _),
    by simp [hincs]⟩

/-! ### A state whose live indices were never issued -/

/-- A room of port 0. -/
def crowdedRoom : Room := { inc := 1, owner := 0, template := 0 }

/-- Live rooms 0 and 1, and no index issued: a search for a free index tries one and takes the next as it is. -/
def crowded : State := { objs := { rooms := [(0, crowdedRoom), (1, crowdedRoom)] } }

/-- ROOM_CREATE ends OK on it and answers a handle of index 1. -/
theorem crowded_roomCreate : (crowded.applyCommand 0x01 0 {} []).2 = (stOk, 65537, 65537) := by decide

/-- The room of index 1 was live before. -/
theorem crowded_room_live : look crowded.objs.rooms 1 = some crowdedRoom := rfl

/-- Refutes O19: on a state that lists live rooms under indices never issued, ROOM_CREATE takes the index of a live room.  Such a state is
no product of creates, which issue every index they use (`applyRoomCreate_ok`); the statement speaks of all states.  Where live indices are issued the clauses on creates hold (`roomCreate_names_new`, `legCreate_names_new`,
`streamCreate_names_new`), and those on deletes hold on every state (`roomDelete_takes_away`, `legDelete_takes_away`,
`streamDelete_takes_away`). -/
theorem not_objectsComeAndGo : ¬ Obligations.ObjectsComeAndGo := by
  unfold Obligations.ObjectsComeAndGo
  rintro ⟨creates, -⟩
  obtain ⟨-, i, r, hat, -, -, hfree, -⟩ := (creates 0 {} crowded (crowded.applyCommand 0x01 0 {} []).1 65537 65537).1
    (Prod.ext rfl crowded_roomCreate)
  obtain rfl := State.index_of_roomAt hat
  exact absurd (crowded_room_live.symm.trans hfree) (by simp)

end Sys2Proof.Machine
end

section
/-! PROOFS. Register writes and latching reads of a host port (00 R19, R20; 02 R70, R76, R77; 12 R528; 13 R569).  Each access either
leaves the state, counts an ignored write, or updates its own port and nothing else: the equations below say which, and with which update.
Instants are those that the commands bear (notes/assumptions/4.md), the places of the function's fields and of the MSI-X entry are
those of notes/assumptions/98.md (PRESUMED), and that an access of another width is ignored is notes/assumptions/88.md (DEDUCED): the
model's choices. -/
namespace Sys2Proof.Machine

/-! ### The port -/

@[simp] theorem State.barOpen_at (s : State) (t p : Nat) : (s.at t).barOpen p = s.barOpen p := by simp [State.barOpen]

@[simp] theorem State.running_at (s : State) (t p : Nat) : (s.at t).running p = s.running p := by simp [State.running]

/-- A port whose BAR0 is open is one of the four. -/
theorem State.lt_of_barOpen {s : State} {p : Nat} (h : s.barOpen p = true) : p < 4 := by
  simp only [State.barOpen, Bool.and_eq_true, decide_eq_true_eq] at h
  exact h.1

/-! ### Writes to BAR0 and LOCK (00 R19, R20; 02 R77, R85) -/

section Bar0
variable {p off value width : Nat} {s : State}

/-- Outside RUN an RL register takes the bits it has. -/
theorem bar0Write_of_not_running (hopen : s.barOpen p = true) (hoff : off % 4 = 0) (hbase : 0x10000 ≤ off)
    (hmask : rlMask (off - 0x10000) ≠ 0) (hrun : s.running p = false) :
    bar0Write p off value 32 s =
      s.modHost p (fun h => { h with regs := put h.regs off (BitVec.ofNat 32 (value % 2 ^ 32 &&& rlMask (off - 0x10000))) }) := by
  simp [bar0Write, hopen, hoff, hbase, hmask, hrun]

/-- In RUN a write to an RL register or to LOCK is counted. -/
theorem bar0Write_of_running (hopen : s.barOpen p = true) (hoff : off % 4 = 0) (hbase : 0x10000 ≤ off)
    (hlocked : rlMask (off - 0x10000) ≠ 0 ∨ off = 0x10000) (hrun : s.running p = true) :
    bar0Write p off value 32 s = s.bump (hpCtr p 64) := by
  simp [bar0Write, hopen, hoff, hbase, hlocked, hrun]

/-- A write that is narrow, unaligned, or to no writable register. -/
def MissesBar0 (off width : Nat) : Prop :=
  width ≠ 32 ∨ off % 4 ≠ 0 ∨ off < 0x10000 ∨ rlMask (off - 0x10000) = 0 ∧ off ≠ 0x10000

theorem bar0Write_of_misses (hmiss : MissesBar0 off width) : bar0Write p off value width s = s := by
  rcases hmiss with hwidth | hoff | hbase | ⟨hmask, hctrl⟩
  · simp [bar0Write, hwidth]
  · simp [bar0Write, hoff]
  · simp [bar0Write, Nat.not_le.mpr hbase, show off ≠ 0x10000 by omega]
  · simp [bar0Write, hmask, hctrl]

/-- A LOCK in RUN is counted as an ignored write. -/
theorem lockWrite_of_running (hopen : s.barOpen p = true) (hvalue : bit value 0 = true) (hrun : s.running p = true) :
    lockWrite p 0x10000 value 32 s = s.bump (hpCtr p 64) := by
  have hstate : (s.host p).state = .run := by simpa [State.running] using hrun
  simp [lockWrite, lockPort, hopen, hvalue, hstate, State.lt_of_barOpen hopen]

/-- Of the writes that miss the registers of BAR0 none is at LOCK with 32 bits. -/
theorem lockWrite_of_misses (hmiss : MissesBar0 off width) : lockWrite p off value width s = s := by
  have hno : ¬ (off = 0x10000 ∧ width = 32) := by
    rintro ⟨rfl, rfl⟩
    simp [MissesBar0] at hmiss
  exact if_neg fun ⟨_, hoff, hwidth, _⟩ => hno ⟨hoff, hwidth⟩

end Bar0

/-! ### Writes to BAR2 and to the function (02 R70, R109) -/

/-- Sending the messages that wait changes what is sent and what is pending. -/
theorem HostPort.msiPending_eq (h : HostPort) : h.msiPending = { h with msixSent := h.msiPending.msixSent, pba := h.msiPending.pba } := by
  unfold HostPort.msiPending
  dsimp only
  split <;> rfl

@[simp] theorem HostPort.msiPending_msixTab (h : HostPort) : h.msiPending.msixTab = h.msixTab := by rw [h.msiPending_eq]

@[simp] theorem HostPort.msiPending_bme (h : HostPort) : h.msiPending.bme = h.bme := by rw [h.msiPending_eq]

/-- An entry of the MSI-X table with its mask bit set or cleared. -/
def HostPort.maskEntry (h : HostPort) (i : Nat) (m : Bool) : HostPort :=
  { h with msixTab := put h.msixTab i { lookD h.msixTab i {} with mask := m } }

/-- The last word of an entry masks it or not. -/
theorem HostPort.bar2Write_vectorControl (h : HostPort) {i : Nat} (hi : i < 64) (value : Nat) :
    h.bar2Write (16 * i + 12) value = (h.maskEntry i (bit value 0)).msiPending := by
  have hentry : (16 * i + 12) / 16 = i := by omega
  have hword : (16 * i + 12) % 16 = 12 := by omega
  simp [HostPort.bar2Write, HostPort.maskEntry, hentry, hword, Nat.not_le.mpr hi]

/-- A 32-bit write to the last word of an entry. -/
theorem registerWrite_vectorControl {p i : Nat} {s : State} (hopen : s.barOpen p = true) (hi : i < 64) (value : Nat) :
    registerWrite p .bar2 (16 * i + 12) value 32 s =
      s.modHost p (fun h => (h.maskEntry i (bit (value % 2 ^ 32) 0)).msiPending) := by
  have haligned : (16 * i + 12) % 4 = 0 := by omega
  simp [registerWrite, hopen, haligned, HostPort.bar2Write_vectorControl _ hi]

/-- The function of a port takes writes while its link is up. -/
theorem registerWrite_function {p : Nat} {s : State} (hp : p < 4) (hlink : (s.host p).link = true) {space : RegSpace}
    (hbar0 : space ≠ .bar0) (hbar2 : space ≠ .bar2) (off value width : Nat) :
    registerWrite p space off value width s = s.modHost p (fun h => h.functionWrite space value) := by
  have htakes : ¬ (4 ≤ p ∨ (s.host p).link = false) := by simp [hlink, hp]
  cases space with
  | bar0 => exact absurd rfl hbar0
  | bar2 => exact absurd rfl hbar2
  | _ => exact if_neg htakes

/-! ### Latching reads (00 R19; 12 R528; 13 R569) -/

/-- An access of 32 bits from byte 0 returns the whole register. -/
theorem narrow_whole (w : Word) : BitVec.ofNat 32 (narrow w 0 32) = w :=
  BitVec.eq_of_toNat_eq (by simp [narrow, Nat.mod_eq_of_lt w.isLt])

section Latching
variable {s : State} (hmode : s.power.mode ≠ .boot) (l : Latches)
include hmode

/-- TB_NOW of a time base latches its seconds and fraction. -/
theorem State.latch_tbNow {n : Nat} (hn : n < 4) :
    s.latch (0x5000 + 0x20 * n) l = { l with tb := put l.tb n (s.tbSec n, s.tbFrac n) } := by
  have hlast : 0x5000 + 0x20 * n < 0x5080 := by omega
  simp [State.latch, hmode, hlast]

/-- TB_TICK latches the upper bits of the tick. -/
theorem State.latch_tbTick : s.latch 0x5080 l = { l with tickHi := s.tick / 2 ^ 32 % 2 ^ 16 } := by
  simp [State.latch, hmode]

/-- FA_MIG latches the upper bits of the watermark. -/
theorem State.latch_faMig : s.latch 0x6004 l = { l with migHi := s.watermark / 2 ^ 32 % 2 ^ 8 } := by
  simp [State.latch, hmode]

end Latching

/-- A host port that has read a register: the bytes it asked for, and its latches after a whole read. -/
def HostPort.afterRead (h : HostPort) (z : State) (v : Word) (off a w : Nat) : HostPort :=
  { h with
    rdData := BitVec.ofNat 32 (narrow v a w)
    latches := if a = 0 ∧ w = 32 then z.latch off h.latches else h.latches }

/-- A read through an open BAR0 changes its reader. -/
theorem hostLatch_of_open {s : State} {p : Nat} (hopen : s.barOpen p = true) (off a w : Nat) :
    hostLatch p off a w s = s.modHost p (fun h => h.afterRead s (s.readReg (some p) 0 off) off a w) :=
  if_pos hopen

/-! ### The clauses on writes -/

section Clauses
variable {t p off value width : Nat} {s : State} (hopen : s.barOpen p = true)
include hopen

/-- 02 R77: outside RUN an RL register stores the bits it has, and no other register of the port changes. -/
theorem exec_registerWrite_stores (hwidth : width = 32) (hoff : off % 4 = 0) (hbase : 0x10000 ≤ off)
    (hmask : rlMask (off - 0x10000) ≠ 0) (hrun : s.running p = false) :
    ∃ u, exec (.registerWrite t p ⟨.bar0, off⟩ value width) s = .next u ∧
      look (u.host p).regs off = some (BitVec.ofNat 32 (value % 2 ^ 32 &&& rlMask (off - 0x10000))) ∧
      (∀ o, o ≠ off → look (u.host p).regs o = look (s.host p).regs o) ∧ u = { s.at t with hosts := u.hosts } := by
  subst hwidth
  refine ⟨_, congrArg Host.Outcome.next (bar0Write_of_not_running (s := s.at t) (by simpa) hoff hbase hmask (by simpa)),
    ?_, fun o ho => ?_, rfl⟩
  · simp
  · simp [look_put_ne _ ho.symm]

/-- 02 R77: in RUN a write to an RL register or to LOCK is counted and changes nothing else. -/
theorem exec_registerWrite_counts (hwidth : width = 32) (hoff : off % 4 = 0) (hbase : 0x10000 ≤ off)
    (hlocked : rlMask (off - 0x10000) ≠ 0 ∨ off = 0x10000) (hrun : s.running p = true) :
    exec (.registerWrite t p ⟨.bar0, off⟩ value width) s = .next ((s.at t).bump (hpCtr p 64)) ∧
      (off = 0x10000 → bit value 0 = true → exec (.lock t p off value width) s = .next ((s.at t).bump (hpCtr p 64))) := by
  subst hwidth
  refine ⟨congrArg Host.Outcome.next (bar0Write_of_running (by simpa) hoff hbase hlocked (by simpa)), ?_⟩
  rintro rfl hvalue
  exact congrArg Host.Outcome.next (lockWrite_of_running (by simpa) hvalue (by simpa))

/-- 02 R70: the last word of an entry of the table in BAR2 masks that entry or not. -/
theorem exec_registerWrite_masks {i : Nat} (hi : i < 64) :
    ∃ u, exec (.registerWrite t p ⟨.bar2, 16 * i + 12⟩ value 32) s = .next u ∧
      lookD (u.host p).msixTab i {} = { lookD (s.host p).msixTab i {} with mask := bit (value % 2 ^ 32) 0 } ∧
      (∀ j, j ≠ i → lookD (u.host p).msixTab j {} = lookD (s.host p).msixTab j {}) ∧ u = { s.at t with hosts := u.hosts } := by
  refine ⟨_, congrArg Host.Outcome.next (registerWrite_vectorControl (s := s.at t) (by simpa) hi value), ?_, fun j hj => ?_, rfl⟩
  · simp [HostPort.maskEntry]
  · simp [HostPort.maskEntry, lookD_put_ne _ hj.symm]

/-- 02 R70: Command sets bus mastering. -/
theorem exec_registerWrite_command (hlink : (s.host p).link = true) :
    ∃ u, exec (.registerWrite t p ⟨.command, off⟩ value width) s = .next u ∧ (u.host p).bme = bit value 2 ∧
      u = { s.at t with hosts := u.hosts } :=
  ⟨_, congrArg Host.Outcome.next (registerWrite_function (space := .command) (State.lt_of_barOpen hopen) (by simpa) (by decide) (by decide)
    off value width),
    by simp [HostPort.functionWrite], rfl⟩

/-- 02 R70: Device Control sets the read request size. -/
theorem exec_registerWrite_deviceControl (hlink : (s.host p).link = true) :
    ∃ u, exec (.registerWrite t p ⟨.deviceControl, off⟩ value width) s = .next u ∧
      u.host p = { s.host p with mrrs := 128 * 2 ^ min 5 (value / 2 ^ 12 % 8) } ∧ u = { s.at t with hosts := u.hosts } :=
  ⟨_, congrArg Host.Outcome.next (registerWrite_function (space := .deviceControl) (State.lt_of_barOpen hopen) (by simpa) (by decide) (by decide)
    off value width),
    by simp [HostPort.functionWrite, bits], rfl⟩

/-! ### The clauses on reads -/

variable (hmode : s.power.mode ≠ .boot) (a w : Nat)
include hmode

/-- 12 R528: a whole read of TB_NOW latches the seconds and fraction; a narrower one returns its bytes and latches nothing. -/
theorem exec_tbNowRead {n : Nat} (hn : n < 4) :
    ∃ u, exec (.tbNowRead t p ⟨n, a, w⟩) s = .next u ∧
      (a = 0 → w = 32 → look (u.host p).latches.tb n = some ((s.at t).tbSec n, (s.at t).tbFrac n) ∧
        (u.host p).rdData = (s.at t).readReg (some p) 0 (0x5000 + 0x20 * n)) ∧
      (a ≠ 0 ∨ w ≠ 32 → (u.host p).latches = (s.host p).latches ∧
        (u.host p).rdData = BitVec.ofNat 32 (((s.at t).readReg (some p) 0 (0x5000 + 0x20 * n)).toNat / 2 ^ (8 * a) % 2 ^ w)) ∧
      u = { s.at t with hosts := u.hosts } := by
  refine ⟨_, congrArg Host.Outcome.next ((if_pos hn).trans (hostLatch_of_open (s := s.at t) (by simpa) _ a w)),
    ?_, fun hnarrow => ?_, rfl⟩
  · rintro rfl rfl
    simp [HostPort.afterRead, State.latch_tbNow (s := s.at t) (by simpa) _ hn, narrow_whole]
  · have hpart : ¬ (a = 0 ∧ w = 32) := by omega
    simp [HostPort.afterRead, hpart, narrow]

/-- 12 R528: a whole read of TB_TICK latches the upper bits of the tick. -/
theorem exec_tbTickRead :
    ∃ u, exec (.tbTickRead t ⟨p, a, w⟩) s = .next u ∧
      (u.host p).latches = (if a = 0 ∧ w = 32 then { (s.host p).latches with tickHi := s.tick / 2 ^ 32 % 2 ^ 16 }
        else (s.host p).latches) ∧
      u = { s.at t with hosts := u.hosts } :=
  ⟨_, congrArg Host.Outcome.next (hostLatch_of_open (s := s.at t) (by simpa) 0x5080 a w),
    by simp [HostPort.afterRead, State.latch_tbTick (s := s.at t) (by simpa)], rfl⟩

/-- 13 R569: a whole read of FA_MIG latches the upper bits of the watermark. -/
theorem exec_faMigRead :
    ∃ u, exec (.faMigRead t ⟨p, a, w⟩) s = .next u ∧
      (u.host p).latches = (if a = 0 ∧ w = 32 then { (s.host p).latches with migHi := (s.at t).watermark / 2 ^ 32 % 2 ^ 8 }
        else (s.host p).latches) ∧
      u = { s.at t with hosts := u.hosts } :=
  ⟨_, congrArg Host.Outcome.next (hostLatch_of_open (s := s.at t) (by simpa) 0x6004 a w),
    by simp [HostPort.afterRead, State.latch_faMig (s := s.at t) (by simpa)], rfl⟩

end Clauses

/-- Settles O9: each access is one of the equations above, at the instant the command bears. -/
theorem registersAreAccessed : Obligations.RegistersAreAccessed := by
  unfold Obligations.RegistersAreAccessed
  refine ⟨fun t p off value width s hopen => ⟨?_, ?_, ?_, ?_, ?_⟩, fun t p a w s hopen hmode => ⟨?_, ?_, ?_⟩⟩
  · exact exec_registerWrite_stores hopen
  · exact exec_registerWrite_counts hopen
  · exact fun hmiss => ⟨congrArg Host.Outcome.next (bar0Write_of_misses hmiss), congrArg Host.Outcome.next (lockWrite_of_misses hmiss)⟩
  · exact fun i hi => exec_registerWrite_masks hopen hi
  · exact fun hlink => ⟨exec_registerWrite_command hopen hlink, exec_registerWrite_deviceControl hopen hlink⟩
  · exact fun n hn => exec_tbNowRead hopen hmode a w hn
  · exact exec_tbTickRead hopen hmode a w
  · exact exec_faMigRead hopen hmode a w

end Sys2Proof.Machine
end

section
/-! PROOFS. Accumulator operations, direct accesses and interrupts of a thyme core (11 R467, R468, R472, R480). An instruction that
stays in line writes the bank in use, the data memories and SR alone; it commutes with what every instruction does to PC and to the
cycles charged (`Core.after`). -/
namespace Sys2Proof.Machine

variable {c n : Core}

/-! ### Writes of data -/

/-- A core that differs from another in its banks and its data memories alone. -/
def Core.WritesData (c n : Core) : Prop :=
  n = { c with main := n.main, shadow := n.shadow, x := n.x, y := n.y, wroteX := n.wroteX, wroteY := n.wroteY }

theorem Core.WritesData.trans {a b c : Core} (hab : a.WritesData b) (hbc : b.WritesData c) : a.WritesData c := by
  unfold Core.WritesData at *
  rw [hbc, hab]

theorem Core.WritesData.sr_eq (h : c.WritesData n) : n.sr = c.sr := by rw [h]

theorem Core.writesData_modBank (c : Core) (f : Bank → Bank) : c.WritesData (c.modBank f) := by
  unfold Core.modBank
  split <;> rfl

theorem Core.writesData_setG (c : Core) (i : Nat) (w : Word) : c.WritesData (c.setG i w) := c.writesData_modBank _

theorem Core.writesData_setAcc (c : Core) (i : Nat) (a : Acc) : c.WritesData (c.setAcc i a) := c.writesData_modBank _

theorem Core.writesData_store (c : Core) (y : Bool) (a : Nat) (w : Word) : c.WritesData (c.store y a w).2 := by
  unfold Core.store
  split
  · rfl
  · cases y <;> rfl

theorem Core.writesData_postUpdate (c : Core) (i upd : Nat) : c.WritesData (c.postUpdate i upd) := by
  unfold Core.postUpdate
  split <;> split
  · rfl
  · exact c.writesData_modBank _
  · rfl
  · exact c.writesData_modBank _

theorem Core.writesData_moveStore (b c : Core) (y : Bool) (m : PMove) : c.WritesData (b.moveStore c y m).2 := by
  unfold Core.moveStore
  split
  · exact c.writesData_store ..
  · rfl

theorem Core.writesData_moveUpdate (c : Core) (y : Bool) (m : PMove) : c.WritesData (c.moveUpdate y m) := by
  unfold Core.moveUpdate
  split
  · exact c.writesData_postUpdate ..
  · rfl

theorem Core.writesData_setLoaded (c : Core) (m : PMove) (w : Option Word) : c.WritesData (c.setLoaded m w) := by
  cases w with
  | some v => exact c.writesData_setG ..
  | none => rfl

/-- The two moves of an instruction write data alone. -/
theorem Core.writesData_moves (c : Core) (xm ym : PMove) : c.WritesData (c.moves xm ym).2 :=
  (Core.writesData_moveStore ..).trans <| (Core.writesData_moveStore ..).trans <|
    (Core.writesData_moveUpdate ..).trans <| (Core.writesData_moveUpdate ..).trans <|
    (Core.writesData_setLoaded ..).trans (Core.writesData_setLoaded ..)

/-! ### What is charged commutes with what is written -/

section After
variable (c : Core) (cost : Nat) (dest : Ptr)

theorem Core.modBank_after (f : Bank → Bank) : (c.after cost dest).modBank f = (c.modBank f).after cost dest := by
  unfold Core.modBank
  rw [show (c.after cost dest).sr = c.sr from rfl]
  split <;> rfl

theorem Core.setG_after (i : Nat) (w : Word) : (c.after cost dest).setG i w = (c.setG i w).after cost dest := c.modBank_after ..

theorem Core.setAcc_after (i : Nat) (a : Acc) : (c.after cost dest).setAcc i a = (c.setAcc i a).after cost dest := c.modBank_after ..

theorem Core.store_after (y : Bool) (a : Nat) (w : Word) :
    (c.after cost dest).store y a w = ((c.store y a w).1, (c.store y a w).2.after cost dest) := by
  unfold Core.store
  rw [show (c.after cost dest).km = c.km from rfl]
  split
  · rfl
  · cases y <;> rfl

theorem Core.postUpdate_after (i upd : Nat) : (c.after cost dest).postUpdate i upd = (c.postUpdate i upd).after cost dest := by
  unfold Core.postUpdate
  rw [show (c.after cost dest).stale = c.stale from rfl]
  split <;> split
  · rfl
  · exact c.modBank_after ..
  · rfl
  · exact c.modBank_after ..

theorem Core.moveStore_after (b : Core) (y : Bool) (m : PMove) :
    (b.after cost dest).moveStore (c.after cost dest) y m = ((b.moveStore c y m).1, (b.moveStore c y m).2.after cost dest) := by
  unfold Core.moveStore
  split
  · exact c.store_after ..
  · rfl

theorem Core.moveUpdate_after (y : Bool) (m : PMove) : (c.after cost dest).moveUpdate y m = (c.moveUpdate y m).after cost dest := by
  unfold Core.moveUpdate
  split
  · exact c.postUpdate_after ..
  · rfl

theorem Core.setLoaded_after (m : PMove) (w : Option Word) : (c.after cost dest).setLoaded m w = (c.setLoaded m w).after cost dest := by
  cases w with
  | some v => exact c.setG_after ..
  | none => rfl

theorem Core.moveLoad_after (y : Bool) (m : PMove) : (c.after cost dest).moveLoad y m = c.moveLoad y m := rfl

theorem Core.moves_after (xm ym : PMove) : ((c.after cost dest).moves xm ym).2 = (c.moves xm ym).2.after cost dest := by
  simp only [Core.moves, Core.moveLoad_after, Core.moveStore_after, Core.moveUpdate_after, Core.setLoaded_after]

end After

/-- SR and an accumulator are written in either order while BANK stays. -/
theorem Core.setAcc_with_sr (c : Core) {sr : Word} (hbank : srBANK sr = srBANK c.sr) (i : Nat) (a : Acc) :
    ({ c with sr } : Core).setAcc i a = { c.setAcc i a with sr } := by
  simp only [Core.setAcc, Core.modBank, hbank]
  split <;> rfl

/-! ### An instruction that stays in line -/

theorem Core.clean_iff : c.clean = true ↔ c.delay = none ∧ c.rep = none ∧ c.stale = none := by
  simp [Core.clean, and_assoc]

theorem Core.agPtr_of_clean (hclean : c.clean = true) (i : Nat) : c.agPtr i = c.ptr i := by
  obtain ⟨-, -, hstale⟩ := Core.clean_iff.mp hclean
  simp [Core.agPtr, hstale]

/-- What is left of an instruction that writes data and SR at a clean boundary: the core behind it, charged. -/
theorem Core.charge_of_writesData {cost : Nat} {dest : Ptr} {sr : Word} (hn : c.WritesData n) (hclean : c.clean = true) :
    ({ n with sr, stale := none, pc := dest, rep := none } : Core).charge c cost = { n.after cost dest with sr } := by
  obtain ⟨-, hrep, hstale⟩ := Core.clean_iff.mp hclean
  rw [hn]
  simp only [Core.charge, Core.after, hrep, hstale]
  rfl

/-- At a clean boundary an instruction that writes data and SR and faults on no kernel goes on behind itself. -/
theorem thymeRun_writesData {core cost fault : Nat} {i : Instr} {f : (Nat → Nat) → Core → ThymeEffect} {s : State} {sr : Word}
    (hf : ∀ fr, f fr (s.core core) = { core := { n with sr }, fault }) (hn : (s.core core).WritesData n)
    (hclean : (s.core core).clean = true) (hgoes : (s.core core).goes core i cost ((s.core core).pc + 1) = true)
    (hfault : (s.core core).km = true → fault = 0) :
    thymeRun core i cost f s = s.setCore core { n.after cost ((s.core core).pc + 1) with sr } := by
  have hadv := ThymeEffect.advance_clean { core := { n with sr }, fault } (s.core core) hclean rfl rfl rfl
  rw [thymeRun_goes _ (hf _).symm hgoes hfault (fun _ => rfl) (by rw [hadv]) (by rw [hadv, hn]) (by rw [hadv, hn]), hadv,
    Core.charge_of_writesData hn hclean]
  rfl

/-! ### Accumulators (R467, R468) -/

@[simp] theorem srBANK_setBit_four (sr : Word) : srBANK (setBit sr 4 true) = srBANK sr := by simp [srBANK, setBit]

theorem satS_forty (v : Int) : satS 40 v = max (-2 ^ 39) (min v (2 ^ 39 - 1)) := by simp [satS]

/-- A result is brought within the range of an accumulator, once. -/
theorem toInt_accSat (v : Int) : (accSat v).1.toInt = satS 40 v := by
  rw [accSat, satS_forty, BitVec.toInt_ofInt_eq_self] <;> omega

/-- A result is reported as saturated when the accumulator does not hold it. -/
theorem accSat_changed (v : Int) : (accSat v).2 = decide ((accSat v).1.toInt ≠ v) := by
  rw [toInt_accSat]
  rfl

/-- SR after an accumulator operation: AOV is set when the result was saturated. -/
def srAcc (sr : Word) (v : Int) : Word := if (accSat v).1.toInt = v then sr else setBit sr 4 true

@[simp] theorem srBANK_srAcc (sr : Word) (v : Int) : srBANK (srAcc sr v) = srBANK sr := by
  unfold srAcc
  split <;> simp

section Accumulators
variable {core : Nat} {i : Instr} {s : State} {f : (Nat → Nat) → Core → ThymeEffect} {xm ym : PMove}

theorem Core.accOp_eq (c : Core) (ad : BitVec 2) (v : Int) (xm ym : PMove) :
    c.accOp ad v xm ym = {
      core := { (c.moves xm ym).2.setAcc ad.toNat (accSat v).1 with sr := srAcc c.sr v }
      fault := (c.moves xm ym).1 } := by
  simp only [Core.accOp, accSat_changed, decide_eq_true_eq, ne_eq, ite_not, (c.writesData_moves xm ym).sr_eq, srAcc]

/-- An accumulator operation leaves its saturated result, AOV and its two moves. -/
theorem exec_accOp {ad : BitVec 2} {v : Int} (hexec : exec i s = .next (thymeRun core i 1 f s))
    (hf : ∀ fr, f fr (s.core core) = (s.core core).accOp ad v xm ym) (hclean : (s.core core).clean = true)
    (hfault : (s.core core).km = true → ((s.core core).moves xm ym).1 = 0)
    (hgoes : (s.core core).goes core i 1 ((s.core core).pc + 1) = true) :
    ∃ a : Acc, a.toInt = max (-2 ^ 39) (min v (2 ^ 39 - 1)) ∧
      exec i s = .next (s.setCore core (({ (((s.core core).after 1 ((s.core core).pc + 1)).moves xm ym).2 with
        sr := if a.toInt = v then (s.core core).sr else setBit (s.core core).sr 4 true } : Core).setAcc ad.toNat a)) := by
  refine ⟨_, (toInt_accSat v).trans (satS_forty v), ?_⟩
  have hmoves := (s.core core).writesData_moves xm ym
  rw [hexec, thymeRun_writesData (fun fr => (hf fr).trans (Core.accOp_eq ..)) (hmoves.trans (Core.writesData_setAcc ..)) hclean
    hgoes hfault, Core.moves_after, ← Core.setAcc_after]
  refine congrArg (fun k => Host.Outcome.next (s.setCore core k)) (Core.setAcc_with_sr _ ?_ ..).symm
  exact (srBANK_srAcc ..).trans (congrArg srBANK hmoves.sr_eq.symm)

/-- NOPP leaves its two moves. -/
theorem exec_thNopp (hclean : (s.core core).clean = true) (hfault : (s.core core).km = true → ((s.core core).moves xm ym).1 = 0)
    (hgoes : (s.core core).goes core (.thNopp core xm ym) 1 ((s.core core).pc + 1) = true) :
    exec (.thNopp core xm ym) s = .next (s.setCore core (((s.core core).after 1 ((s.core core).pc + 1)).moves xm ym).2) := by
  have hmoves := (s.core core).writesData_moves xm ym
  rw [Core.moves_after]
  exact congrArg Host.Outcome.next (thymeRun_writesData (fun _ => rfl) hmoves hclean hgoes hfault)

end Accumulators

/-- Settles O46: each operation is `Core.accOp` with its exact result. -/
theorem thymeAccumulators : Obligations.ThymeAccumulators := by
  unfold Obligations.ThymeAccumulators
  rintro core ad sb2 sa sb n xm ym s _ _ _ rfl rfl rfl hclean hfault
  refine ⟨fun i v hmem hgoes => ?_, exec_thNopp hclean hfault⟩
  suffices h : ∃ f, exec i s = .next (thymeRun core i 1 f s) ∧ ∀ fr, f fr (s.core core) = (s.core core).accOp ad v xm ym by
    obtain ⟨f, hexec, hf⟩ := h
    exact exec_accOp hexec hf hclean hfault hgoes
  simp only [List.mem_cons, Prod.mk.injEq, List.not_mem_nil, or_false, Int.abs_eq_natAbs] at hmem
  obtain ⟨rfl, rfl⟩ | ⟨rfl, rfl⟩ | ⟨rfl, rfl⟩ | ⟨rfl, rfl⟩ | ⟨rfl, rfl⟩ | ⟨rfl, rfl⟩ | ⟨rfl, rfl⟩ | ⟨rfl, rfl⟩ | ⟨rfl, rfl⟩ | ⟨rfl, rfl⟩ |
    ⟨rfl, rfl⟩ | ⟨rfl, rfl⟩ | ⟨rfl, rfl⟩ | ⟨rfl, rfl⟩ | ⟨rfl, rfl⟩ | ⟨rfl, rfl⟩ := hmem
  all_goals exact ⟨_, rfl, fun _ => rfl⟩

/-! ### Direct accesses (R472) -/

section Direct
variable {core : Nat} {s : State} {y : Bool} {g : BitVec 4} {pn : BitVec 3} {off : BitVec 14} {a : Nat}

/-- The address of a direct access is the pointer plus the signed offset, modulo 2^14. -/
theorem Core.toNat_direct (hclean : c.clean = true) (ha : (a : Int) = ((c.ptr pn.toNat).toNat + off.toInt) % 2 ^ 14) :
    (c.direct pn off).toNat = a := by
  rw [Core.direct, Core.agPtr_of_clean hclean, BitVec.toNat_add]
  have hoff := BitVec.toInt_eq_toNat_bmod off
  rw [Int.bmod_def] at hoff
  omega

theorem Core.load_of_not_km (hkm : c.km = false) : c.load y a = (0, memRead 0#32 (if y then c.y else c.x) a) := if_pos hkm

/-- A store that no kernel is refused. -/
theorem Core.store_of_writable (hok : c.km = true → kernelWrites y a = true) (w : Word) :
    ∃ wx wy, c.store y a w = (0, if y then { c with y := memWrite 0#32 c.y a w, wroteY := wy }
      else { c with x := memWrite 0#32 c.x a w, wroteX := wx }) := by
  have hrun : ¬ (c.km = true ∧ kernelWrites y a = false) := fun ⟨hkm, hno⟩ => by simp [hok hkm] at hno
  exact ⟨_, _, if_neg hrun⟩

theorem exec_thDirectLoad (hclean : (s.core core).clean = true)
    (ha : (a : Int) = (((s.core core).ptr pn.toNat).toNat + off.toInt) % 2 ^ 14)
    (hgoes : (s.core core).goes core (.thDirectLoad core y g pn off) 1 ((s.core core).pc + 1) = true)
    (hfault : (s.core core).km = true → ((s.core core).load y a).1 = 0) :
    exec (.thDirectLoad core y g pn off) s =
      .next (s.setCore core (((s.core core).after 1 ((s.core core).pc + 1)).setG g.toNat ((s.core core).load y a).2)) := by
  obtain rfl := Core.toNat_direct hclean ha
  rw [Core.setG_after]
  exact congrArg Host.Outcome.next (thymeRun_writesData (fun _ => rfl) (Core.writesData_setG ..) hclean hgoes hfault)

theorem exec_thDirectStore (hclean : (s.core core).clean = true)
    (ha : (a : Int) = (((s.core core).ptr pn.toNat).toNat + off.toInt) % 2 ^ 14)
    (hgoes : (s.core core).goes core (.thDirectStore core y g pn off) 1 ((s.core core).pc + 1) = true)
    (hok : (s.core core).km = true → kernelWrites y a = true) :
    exec (.thDirectStore core y g pn off) s =
      .next (s.setCore core (((s.core core).after 1 ((s.core core).pc + 1)).store y a ((s.core core).gReg g.toNat)).2) := by
  obtain rfl := Core.toNat_direct hclean ha
  obtain ⟨_, _, hstore⟩ := Core.store_of_writable hok ((s.core core).gReg g.toNat)
  rw [Core.store_after]
  exact congrArg Host.Outcome.next
    (thymeRun_writesData (fun _ => rfl) (Core.writesData_store ..) hclean hgoes fun _ => congrArg Prod.fst hstore)

end Direct

/-- Settles O49: at a clean boundary the access is a load or store of the core at (Pn + OFF) mod 2^14. -/
theorem thymeDirect : Obligations.ThymeDirect := by
  unfold Obligations.ThymeDirect
  rintro core y g pn off s _ a rfl hclean ha
  refine ⟨exec_thDirectLoad hclean ha, fun hkm => by rw [Core.load_of_not_km hkm], fun hgoes hok => ?_⟩
  refine ⟨_, exec_thDirectStore hclean ha hgoes hok, ?_⟩
  obtain ⟨wx, wy, hstore⟩ :=
    Core.store_of_writable (c := (s.core core).after 1 ((s.core core).pc + 1)) hok ((s.core core).gReg g.toNat)
  rw [hstore]
  cases y <;> exact ⟨by simp [memRead_memWrite], fun b hb => by simp [memRead_memWrite, hb.symm, Core.after], rfl⟩

/-! ### Interrupts (R479, R480) -/

/-- A core on which a source has been raised. -/
def Core.raised (c : Core) (src : Nat) : Core := { c with ipend := c.ipend ||| (1#3 <<< src), waits := some (c.waits.getD 0) }

/-- The source taken is the first that waits and that IMASK lets through. -/
theorem Core.takes_eq_some {k : Nat} (hk : c.ipend.getLsbD k = true) (hmask : c.imask.getLsbD k = true)
    (hfirst : ∀ j < k, (c.ipend.getLsbD j && c.imask.getLsbD j) = false) : c.takes = some k := by
  have hrange : [0, 1, 2] = List.range 3 := rfl
  rw [Core.takes, hrange, List.find?_range_eq_some]
  exact ⟨by simp [hk, hmask], List.mem_range.mpr (BitVec.lt_of_getLsbD hk), fun j hj => by rw [hfirst j hj]; rfl⟩

/-- SR in the handler: BANK set, IE and KM cleared. -/
theorem sr_of_interrupt (sr : Word) :
    setBit (setBit (setBit sr 9 true) 8 false) 10 false = (sr &&& 0xFFFFFAFF#32) ||| 0x200#32 := by
  simp only [setBit, if_true, Bool.false_eq_true, if_false, BitVec.and_assoc, BitVec.and_or_distrib_right]
  rfl

theorem State.yieldCore_of_none {s : State} {core : Nat}
    (hno : s.media.ops.find? (fun o => o.cls == 1 && o.yard == core / 8 && o.unit == some (core % 8) && o.marked) = none) :
    s.yieldCore core = s := by
  rw [State.yieldCore, hno]

theorem takeInterrupt_of_not_IE {s : State} {core : Nat} (hie : srIE (s.core core).sr = false) : takeInterrupt core s = s :=
  if_pos (.inr hie)

/-- With interrupts enabled a core at a clean boundary enters the handler of the source it takes. -/
theorem takeInterrupt_of_takes {s : State} {core k : Nat} (hclean : (s.core core).clean = true) (hie : srIE (s.core core).sr = true)
    (htakes : (s.core core).takes = some k) (hyield : k = 0 → s.yieldCore core = s) :
    takeInterrupt core s = s.setCore core ((s.core core).interrupt k s.tick) := by
  have hsame : (if k = 0 then s.yieldCore core else s) = s := ite_eq_right_iff.mpr hyield
  simp [takeInterrupt, hclean, hie, htakes, hsame]

/-- A source is raised, and the core enters a handler if it may. -/
theorem interruptEntry_eq {s : State} {core src : Nat} (hcore : core < 64) (hsrc : src < 3)
    (hmay : src = 0 → (s.core core).clean = true ∧ srIE (s.core core).sr = true) :
    interruptEntry core src s = takeInterrupt core (s.setCore core ((s.core core).raised src)) := by
  have hunits : ¬ (64 ≤ core ∨ 3 ≤ src) := by omega
  unfold interruptEntry
  rw [if_neg hunits]
  refine if_neg fun ⟨h0, hnot, _⟩ => ?_
  obtain ⟨hclean, hie⟩ := hmay h0
  obtain hnot | hnot := hnot
  · exact absurd (hclean.symm.trans hnot) (by decide)
  · exact absurd (hie.symm.trans hnot) (by decide)

/-- The interrupt that a raised source lets a core take. -/
theorem interruptEntry_of_takes {s : State} {core src k : Nat} (hcore : core < 64) (hsrc : src < 3)
    (hclean : (s.core core).clean = true) (hie : srIE (s.core core).sr = true)
    (htakes : ((s.core core).raised src).takes = some k)
    (hno : k = 0 → s.media.ops.find? (fun o => o.cls == 1 && o.yard == core / 8 && o.unit == some (core % 8) && o.marked) = none) :
    interruptEntry core src s = (s.setCore core ((s.core core).raised src)).setCore core (((s.core core).raised src).interrupt k s.tick) := by
  have hraised := s.core_setCore core ((s.core core).raised src)
  have htaken := takeInterrupt_of_takes (s := s.setCore core ((s.core core).raised src)) (by rwa [hraised]) (by rwa [hraised])
    (by rwa [hraised]) fun h0 => State.yieldCore_of_none (hno h0)
  rw [interruptEntry_eq hcore hsrc fun _ => ⟨hclean, hie⟩, htaken, hraised, State.setCore_tick]

/-- Without interrupts enabled a source but DISPATCH is raised alone. -/
theorem interruptEntry_of_not_IE {s : State} {core src : Nat} (hcore : core < 64) (hsrc : src < 3) (hsrc0 : src ≠ 0)
    (hie : srIE (s.core core).sr = false) : interruptEntry core src s = s.setCore core ((s.core core).raised src) := by
  rw [interruptEntry_eq hcore hsrc fun h0 => absurd h0 hsrc0, takeInterrupt_of_not_IE]
  rwa [State.core_setCore]

/-- RETI restores SR and goes on at IRA. -/
theorem exec_thReti {s : State} {core : Nat} (hclean : (s.core core).clean = true)
    (hgoes : (s.core core).goes core (.thReti core) 3 (s.core core).ira = true) :
    exec (.thReti core) s =
      .next (s.setCore core { (s.core core).after 3 (s.core core).ira with sr := (s.core core).isr &&& 0x73F#32 }) := by
  obtain ⟨hdelay, hrep, hstale⟩ := Core.clean_iff.mp hclean
  have hrun := thymeRun_goes (s := s) (f := fun _ c => thyReti c) _ rfl hgoes (fun _ => rfl) (fun _ => rfl) rfl rfl rfl
  refine congrArg Host.Outcome.next (hrun.trans ?_)
  refine congrArg (s.setCore core) (?_ : _ = ({ (s.core core).after 3 (s.core core).ira with sr := _ } : Core))
  simp only [thyReti, ThymeEffect.advance, Core.charge, Core.after, srMask, hdelay, hrep, hstale]

/-- Settles O53: the entry is `Core.interrupt` on the core with its source raised, and RETI takes back SR and IRA. -/
theorem thymeInterrupts : Obligations.ThymeInterrupts := by
  unfold Obligations.ThymeInterrupts
  rintro core src s _ _ rfl hcore hsrc hclean rfl
  refine ⟨fun k hie hk hmask hfirst hno => ?_, fun hie hsrc0 => ?_, exec_thReti hclean⟩
  · have htakes : ((s.core core).raised src).takes = some k := Core.takes_eq_some hk hmask hfirst
    refine ⟨_, _, congrArg Host.Outcome.next (interruptEntry_of_takes hcore hsrc hclean hie htakes hno), rfl, rfl, fun n hn => ?_, ?_, ?_⟩
    · rw [State.core_setCore_ne _ hn.symm, State.core_setCore_ne _ hn.symm]
    · rw [State.core_setCore, ← sr_of_interrupt]
      rfl
    · rw [State.core_setCore]
      rfl
  · exact ⟨_, congrArg Host.Outcome.next (interruptEntry_of_not_IE hcore hsrc hsrc0 hie), State.core_setCore .., rfl,
      fun n hn => State.core_setCore_ne _ hn.symm _⟩

end Sys2Proof.Machine
end

section
/-! PROOFS. Words of a thyme program (11 R485-R491).  An encoding is the fields of its class side by side: each field of the word is the
one that was put there, and a word whose fixed fields are as its class demands is its fields side by side. -/
namespace Sys2Proof
open BitVec

/-! ### Fields of words -/

/-- Adjacent fields of a word are one field. -/
theorem extractLsb'_append_adjacent {w : Nat} (x : BitVec w) {s t m n : Nat} (h : s = t + n) :
    x.extractLsb' s m ++ x.extractLsb' t n = x.extractLsb' t (m + n) := extractLsb'_append_extractLsb'_eq_extractLsb' h

/-- A field of a field is a field of the word. -/
theorem extractLsb'_of_extractLsb' {w : Nat} (x : BitVec w) {s m t n : Nat} (h : t + n ≤ m) :
    (x.extractLsb' s m).extractLsb' t n = x.extractLsb' (s + t) n := by
  ext i hi
  simp [show t + i < m by omega, Nat.add_assoc]

theorem eq_ofNat_of_toNat {w n : Nat} {b : BitVec w} (h : b.toNat = n) : b = BitVec.ofNat w n := by simp [← h]

/-- A field of one bit is put back as it was. -/
theorem ite_beq_one (b : BitVec 1) : (if (b == 1#1) = true then 1#1 else 0#1) = b := by
  revert b; decide

theorem ofBool_beq_one (b : BitVec 1) : BitVec.ofBool (b == 1#1) = b := by
  revert b; decide

theorem eq_zero_of_ne_one {b : BitVec 1} (h : b ≠ 1#1) : b = 0#1 := by
  revert b; decide

theorem beq_one_ofBool (b : Bool) : (BitVec.ofBool b == 1#1) = b := by cases b <;> rfl

/-- The accumulator that an ADDAA names in its operand field (R487). -/
theorem halves_of_zero_append (b : BitVec 2) : (0#1 ++ b).extractLsb' 2 1 = 0#1 ∧ (0#1 ++ b).extractLsb' 0 2 = b :=
  ⟨extractLsb'_append_eq_left, extractLsb'_append_eq_right⟩

/-! ### Operands -/

theorem decodeMoveField_encodeMoveField {m : PMove} (h : m.wf = true) : decodeMoveField (encodeMoveField m) = some m := by
  obtain ⟨en, st, ptr, upd, reg⟩ := m
  cases en with
  | false => rw [of_decide_eq_true (p := _ = _) h]; rfl
  | true =>
    simp (disch := omega) only [encodeMoveField, decodeMoveField, extractLsb'_setWidth_of_le, extractLsb'_append_eq_of_add_le,
      extractLsb'_append_eq_of_le, if_true]
    cases st <;> simp

theorem decodeMoveField_eq_some {f : BitVec 9} {m : PMove} (h : decodeMoveField f = some m) : m.wf = true ∧ encodeMoveField m = f := by
  unfold decodeMoveField at h
  split at h
  next hen =>
    obtain rfl := Option.some.inj h
    refine ⟨rfl, ?_⟩
    simp only [encodeMoveField, if_true, ite_beq_one]
    rw [← hen]
    simp (disch := omega) only [extractLsb'_append_adjacent]
    simp
  · split at h
    next hzero =>
      obtain rfl := Option.some.inj h
      exact ⟨rfl, hzero.symm⟩
    · cases h

theorem decodeCond_encodeCond (c : Cond) : decodeCond (encodeCond c) = some c := by cases c <;> rfl

theorem decodeCond_eq_some {b : BitVec 4} {c : Cond} (h : decodeCond b = some c) : encodeCond c = b := by
  unfold decodeCond at h
  split at h
  case h_14 => cases h
  all_goals
    next hb =>
      cases h
      exact (eq_ofNat_of_toNat hb).symm

theorem decodeMoveReg_encodeMoveReg (r : MoveReg) : decodeMoveReg (encodeMoveReg r).1 (encodeMoveReg r).2 = some r := by
  cases r <;> simp [encodeMoveReg, decodeMoveReg] <;> omega

theorem decodeMoveReg_eq_some {cls : BitVec 3} {i : BitVec 4} {r : MoveReg} (h : decodeMoveReg cls i = some r) :
    encodeMoveReg r = (cls, i) := by
  unfold decodeMoveReg at h
  split at h
  case h_1 hcls =>
    cases h
    exact Prod.ext (eq_ofNat_of_toNat hcls).symm rfl
  case h_7 => cases h
  case h_6 hcls =>
    split at h
    case h_9 => cases h
    all_goals
      next hi =>
        cases h
        exact Prod.ext (eq_ofNat_of_toNat hcls).symm (eq_ofNat_of_toNat hi).symm
  all_goals
    next hcls =>
      obtain ⟨hi, h⟩ := Option.ite_none_right_eq_some.mp h
      cases h
      refine Prod.ext (eq_ofNat_of_toNat hcls).symm (BitVec.eq_of_toNat_eq ?_)
      simp only [encodeMoveReg, BitVec.toNat_setWidth]
      omega

/-! ### The class of a word (R485) -/

theorem toNat_class_lt_iff (w : Word) : (w.extractLsb' 27 5).toNat < 16 ↔ w.extractLsb' 31 1 = 0#1 := by
  rw [← BitVec.toNat_inj]
  simp only [extractLsb'_toNat, Nat.shiftRight_eq_div_pow, toNat_ofNat]
  omega

theorem decodeThyme_of_class_lt {core : Nat} {w : Word} (h : (w.extractLsb' 27 5).toNat < 16) : decodeThyme core w = decodeP core w := by
  unfold decodeThyme
  split <;> simp_all

/-- The decoder of a class outside format P. -/
def decodeClass (cls : BitVec 5) (core : Nat) (w : Word) : Option Instr :=
  match cls.toNat with
  | 0b10000 =>
    if w.extractLsb' 0 10 = 0#10 then
      decodeAlu core (w.extractLsb' 22 5).toNat (w.extractLsb' 18 4) (w.extractLsb' 14 4) (.reg (w.extractLsb' 10 4))
    else none
  | 0b10001 => decodeAlu core (w.extractLsb' 22 5).toNat (w.extractLsb' 18 4) (w.extractLsb' 14 4) (.imm (w.extractLsb' 0 14))
  | 0b10010 => decodeLdi core w
  | 0b10011 => decodeSta core w
  | 0b10100 => decodeDirect core w
  | 0b10101 => decodeMove core w
  | 0b11000 => decodeBra core w
  | 0b11001 => decodeJmp core w
  | 0b11010 => decodeRep core w
  | 0b11100 => decodeControl core w
  | _ => none

theorem decodeThyme_of_class {core : Nat} {w : Word} {cls : BitVec 5} (h : w.extractLsb' 27 5 = cls) (hcls : 16 ≤ cls.toNat) :
    decodeThyme core w = decodeClass cls core w := by
  subst h
  unfold decodeThyme decodeClass
  split <;> simp_all

/-! ### From instructions to words -/

section Encoded
variable (core : Nat)

/-- The fields of a format P word (R486). -/
theorem fields_encodeP (op : BitVec 5) (ad : BitVec 2) (sa sb : BitVec 3) (xm ym : PMove) :
    (encodeP op ad sa sb xm ym).extractLsb' 31 1 = 0#1 ∧ (encodeP op ad sa sb xm ym).extractLsb' 26 5 = op ∧
      (encodeP op ad sa sb xm ym).extractLsb' 24 2 = ad ∧ (encodeP op ad sa sb xm ym).extractLsb' 21 3 = sa ∧
      (encodeP op ad sa sb xm ym).extractLsb' 18 3 = sb ∧
      (encodeP op ad sa sb xm ym).extractLsb' 9 9 = encodeMoveField xm ∧ (encodeP op ad sa sb xm ym).extractLsb' 0 9 = encodeMoveField ym := by
  simp (disch := omega) only [encodeP, extractLsb'_setWidth_of_le, extractLsb'_append_eq_of_add_le, extractLsb'_append_eq_of_le]
  simp

/-- The shift of an ASH lies across two operand fields (R487). -/
theorem shift_encodeP (op : BitVec 5) (ad : BitVec 2) (n : BitVec 6) (xm ym : PMove) :
    (encodeP op ad (n.extractLsb' 3 3) (n.extractLsb' 0 3) xm ym).extractLsb' 18 6 = n := by
  have hsplit := extractLsb'_append_adjacent (encodeP op ad (n.extractLsb' 3 3) (n.extractLsb' 0 3) xm ym) (s := 21) (t := 18) (m := 3) (n := 3) rfl
  have hjoin := extractLsb'_append_adjacent n (s := 3) (t := 0) (m := 3) (n := 3) rfl
  obtain ⟨-, -, -, hsa, hsb, -, -⟩ := fields_encodeP op ad (n.extractLsb' 3 3) (n.extractLsb' 0 3) xm ym
  rw [hsa, hsb, hjoin] at hsplit
  exact hsplit.symm.trans extractLsb'_eq_self

theorem decodeThyme_encodeP (op : BitVec 5) (ad : BitVec 2) (sa sb : BitVec 3) (xm ym : PMove) :
    decodeThyme core (encodeP op ad sa sb xm ym) = decodeP core (encodeP op ad sa sb xm ym) :=
  decodeThyme_of_class_lt ((toNat_class_lt_iff _).mpr (fields_encodeP ..).1)

theorem decodeThyme_encodeAlu (fn : BitVec 5) (gd gs1 : BitVec 4) (b : AluSrc) :
    decodeThyme core (encodeAlu fn gd gs1 b) = decodeAlu core fn.toNat gd gs1 b := by
  cases b <;>
    simp (disch := omega) only [encodeAlu, decodeThyme, extractLsb'_setWidth_of_le, extractLsb'_append_eq_of_add_le,
      extractLsb'_append_eq_of_le] <;> simp

/-- The fields of an LDI word (R490). -/
theorem fields_encodeLdi (form : BitVec 2) (gd : BitVec 4) (imm : BitVec 16) :
    (encodeLdi form gd imm).extractLsb' 27 5 = 0b10010#5 ∧ (encodeLdi form gd imm).extractLsb' 25 2 = form ∧
      (encodeLdi form gd imm).extractLsb' 21 4 = gd ∧ (encodeLdi form gd imm).extractLsb' 16 5 = 0#5 ∧
      (encodeLdi form gd imm).extractLsb' 0 16 = imm := by
  simp (disch := omega) only [encodeLdi, extractLsb'_setWidth_of_le, extractLsb'_append_eq_of_add_le, extractLsb'_append_eq_of_le]
  simp

/-- The fields of an STA word (R490). -/
theorem fields_encodeSta (fn : BitVec 3) (a : BitVec 2) (gd : BitVec 4) :
    (encodeSta fn a gd).extractLsb' 27 5 = 0b10011#5 ∧ (encodeSta fn a gd).extractLsb' 24 3 = fn ∧
      (encodeSta fn a gd).extractLsb' 22 2 = a ∧ (encodeSta fn a gd).extractLsb' 18 4 = gd ∧ (encodeSta fn a gd).extractLsb' 0 18 = 0#18 := by
  simp (disch := omega) only [encodeSta, extractLsb'_setWidth_of_le, extractLsb'_append_eq_of_add_le, extractLsb'_append_eq_of_le]
  simp

/-- The fields of a direct access (R490). -/
theorem fields_encodeDirect (y st : Bool) (g : BitVec 4) (pn : BitVec 3) (off : BitVec 14) :
    (encodeDirect y st g pn off).extractLsb' 27 5 = 0b10100#5 ∧ (encodeDirect y st g pn off).extractLsb' 26 1 = BitVec.ofBool y ∧
      (encodeDirect y st g pn off).extractLsb' 25 1 = BitVec.ofBool st ∧ (encodeDirect y st g pn off).extractLsb' 21 4 = g ∧
      (encodeDirect y st g pn off).extractLsb' 18 3 = pn ∧ (encodeDirect y st g pn off).extractLsb' 14 4 = 0#4 ∧
      (encodeDirect y st g pn off).extractLsb' 0 14 = off := by
  simp (disch := omega) only [encodeDirect, extractLsb'_setWidth_of_le, extractLsb'_append_eq_of_add_le, extractLsb'_append_eq_of_le]
  simp

/-- The fields of a MOVE word (R490). -/
theorem fields_encodeMove (dst src : MoveReg) :
    (encodeMove dst src).extractLsb' 27 5 = 0b10101#5 ∧ (encodeMove dst src).extractLsb' 24 3 = (encodeMoveReg dst).1 ∧
      (encodeMove dst src).extractLsb' 20 4 = (encodeMoveReg dst).2 ∧ (encodeMove dst src).extractLsb' 17 3 = (encodeMoveReg src).1 ∧
      (encodeMove dst src).extractLsb' 13 4 = (encodeMoveReg src).2 ∧ (encodeMove dst src).extractLsb' 0 13 = 0#13 := by
  simp (disch := omega) only [encodeMove, extractLsb'_setWidth_of_le, extractLsb'_append_eq_of_add_le, extractLsb'_append_eq_of_le]
  simp

/-- The fields of a BRA or CALL word (R491). -/
theorem fields_encodeBra (c : Cond) (link : Bool) (disp : BitVec 16) :
    (encodeBra c link disp).extractLsb' 27 5 = 0b11000#5 ∧ (encodeBra c link disp).extractLsb' 23 4 = encodeCond c ∧
      (encodeBra c link disp).extractLsb' 22 1 = BitVec.ofBool link ∧ (encodeBra c link disp).extractLsb' 16 6 = 0#6 ∧
      (encodeBra c link disp).extractLsb' 0 16 = disp := by
  simp (disch := omega) only [encodeBra, extractLsb'_setWidth_of_le, extractLsb'_append_eq_of_add_le, extractLsb'_append_eq_of_le]
  simp

/-- The fields of a JMP, CALLG, RET or RETI word (R491). -/
theorem fields_encodeJmp (fn : BitVec 3) (gs : BitVec 4) :
    (encodeJmp fn gs).extractLsb' 27 5 = 0b11001#5 ∧ (encodeJmp fn gs).extractLsb' 24 3 = fn ∧ (encodeJmp fn gs).extractLsb' 18 6 = 0#6 ∧
      (encodeJmp fn gs).extractLsb' 14 4 = gs ∧ (encodeJmp fn gs).extractLsb' 0 14 = 0#14 := by
  simp (disch := omega) only [encodeJmp, extractLsb'_setWidth_of_le, extractLsb'_append_eq_of_add_le, extractLsb'_append_eq_of_le]
  simp

theorem decodeThyme_encodeRep (n : RepSrc) : decodeThyme core (encodeRep n) = some (.thRep core n) := by
  cases n <;>
    simp (disch := omega) only [encodeRep, decodeThyme, decodeRep, extractLsb'_setWidth_of_le, extractLsb'_append_eq_of_add_le,
      extractLsb'_append_eq_of_le] <;> simp

end Encoded

/-- A well-formed instruction is what its encoding decodes to. -/
theorem decodeThyme_of_encodeThyme {i : Instr} {v : Word} (hwf : i.wf = true) (henc : encodeThyme i = some v) :
    ∃ k < 64, decodeThyme k v = some i := by
  unfold encodeThyme at henc
  split at henc
  case h_56 => cases henc
  all_goals
    obtain rfl := Option.some.inj henc
    simp only [Instr.wf, Bool.and_eq_true, lt, decide_eq_true_eq] at hwf
  case h_1 | h_2 | h_3 | h_4 | h_5 | h_6 | h_7 | h_8 | h_9 | h_10 | h_11 | h_12 | h_13 | h_14 | h_15 | h_16 | h_17 =>
    obtain ⟨⟨hcore, hx⟩, hy⟩ := hwf
    refine ⟨_, hcore, ?_⟩
    simp [decodeThyme_encodeP, decodeP, fields_encodeP, shift_encodeP, decodeMoveField_encodeMoveField hx, decodeMoveField_encodeMoveField hy,
      halves_of_zero_append]
  case h_18 | h_19 | h_20 | h_21 | h_22 | h_23 | h_24 | h_25 | h_26 | h_27 | h_28 | h_29 | h_30 | h_31 | h_32 =>
    exact ⟨_, hwf, decodeThyme_encodeAlu ..⟩
  case h_33 | h_34 | h_35 =>
    refine ⟨_, hwf, (decodeThyme_of_class (fields_encodeLdi ..).1 (by decide)).trans ?_⟩
    simp [decodeClass, decodeLdi, fields_encodeLdi]
  case h_36 | h_37 | h_38 | h_39 | h_40 =>
    refine ⟨_, hwf, (decodeThyme_of_class (fields_encodeSta ..).1 (by decide)).trans ?_⟩
    simp [decodeClass, decodeSta, fields_encodeSta]
  case h_41 | h_42 =>
    refine ⟨_, hwf, (decodeThyme_of_class (fields_encodeDirect ..).1 (by decide)).trans ?_⟩
    simp [decodeClass, decodeDirect, fields_encodeDirect, beq_one_ofBool]
  case h_43 =>
    refine ⟨_, hwf.1, (decodeThyme_of_class (fields_encodeMove ..).1 (by decide)).trans ?_⟩
    simp [decodeClass, decodeMove, fields_encodeMove, decodeMoveReg_encodeMoveReg, hwf.2]
  case h_44 | h_45 =>
    refine ⟨_, hwf, (decodeThyme_of_class (fields_encodeBra ..).1 (by decide)).trans ?_⟩
    simp [decodeClass, decodeBra, fields_encodeBra, decodeCond_encodeCond]
  case h_46 | h_47 | h_48 | h_49 =>
    refine ⟨_, hwf, (decodeThyme_of_class (fields_encodeJmp ..).1 (by decide)).trans ?_⟩
    simp [decodeClass, decodeJmp, fields_encodeJmp]
  case h_50 => exact ⟨_, hwf, decodeThyme_encodeRep ..⟩
  case h_51 | h_52 | h_53 | h_54 | h_55 => exact ⟨_, hwf, rfl⟩

/-! ### From words to instructions -/

section Words
variable {core : Nat} {w : Word} {j : Instr}

theorem encodeP_fields (h : w.extractLsb' 31 1 = 0#1) {xm ym : PMove} (hx : encodeMoveField xm = w.extractLsb' 9 9)
    (hy : encodeMoveField ym = w.extractLsb' 0 9) :
    encodeP (w.extractLsb' 26 5) (w.extractLsb' 24 2) (w.extractLsb' 21 3) (w.extractLsb' 18 3) xm ym = w := by
  rw [encodeP, hx, hy, ← h]
  simp (disch := omega) only [extractLsb'_append_adjacent]
  simp

theorem encodeAlu_reg_fields (hcls : w.extractLsb' 27 5 = 0b10000#5) (hz : w.extractLsb' 0 10 = 0#10) :
    encodeAlu (w.extractLsb' 22 5) (w.extractLsb' 18 4) (w.extractLsb' 14 4) (.reg (w.extractLsb' 10 4)) = w := by
  rw [encodeAlu, ← hcls, ← hz]
  simp (disch := omega) only [extractLsb'_append_adjacent]
  simp

theorem encodeAlu_imm_fields (hcls : w.extractLsb' 27 5 = 0b10001#5) :
    encodeAlu (w.extractLsb' 22 5) (w.extractLsb' 18 4) (w.extractLsb' 14 4) (.imm (w.extractLsb' 0 14)) = w := by
  rw [encodeAlu, ← hcls]
  simp (disch := omega) only [extractLsb'_append_adjacent]
  simp

theorem encodeLdi_fields (hcls : w.extractLsb' 27 5 = 0b10010#5) (hz : w.extractLsb' 16 5 = 0#5) :
    encodeLdi (w.extractLsb' 25 2) (w.extractLsb' 21 4) (w.extractLsb' 0 16) = w := by
  rw [encodeLdi, ← hcls, ← hz]
  simp (disch := omega) only [extractLsb'_append_adjacent]
  simp

theorem encodeSta_fields (hcls : w.extractLsb' 27 5 = 0b10011#5) (hz : w.extractLsb' 0 18 = 0#18) :
    encodeSta (w.extractLsb' 24 3) (w.extractLsb' 22 2) (w.extractLsb' 18 4) = w := by
  rw [encodeSta, ← hcls, ← hz]
  simp (disch := omega) only [extractLsb'_append_adjacent]
  simp

theorem encodeDirect_fields (hcls : w.extractLsb' 27 5 = 0b10100#5) (hz : w.extractLsb' 14 4 = 0#4) {st : Bool}
    (hst : w.extractLsb' 25 1 = BitVec.ofBool st) :
    encodeDirect (w.extractLsb' 26 1 == 1#1) st (w.extractLsb' 21 4) (w.extractLsb' 18 3) (w.extractLsb' 0 14) = w := by
  rw [encodeDirect, ofBool_beq_one, ← hst, ← hcls, ← hz]
  simp (disch := omega) only [extractLsb'_append_adjacent]
  simp

theorem encodeMove_fields (hcls : w.extractLsb' 27 5 = 0b10101#5) (hz : w.extractLsb' 0 13 = 0#13) {d s : MoveReg}
    (hd : encodeMoveReg d = (w.extractLsb' 24 3, w.extractLsb' 20 4)) (hs : encodeMoveReg s = (w.extractLsb' 17 3, w.extractLsb' 13 4)) :
    encodeMove d s = w := by
  rw [encodeMove, hd, hs, ← hcls, ← hz]
  simp (disch := omega) only [extractLsb'_append_adjacent]
  simp

theorem encodeBra_fields (hcls : w.extractLsb' 27 5 = 0b11000#5) (hz : w.extractLsb' 16 6 = 0#6) {c : Cond}
    (hc : encodeCond c = w.extractLsb' 23 4) {link : Bool} (hlink : w.extractLsb' 22 1 = BitVec.ofBool link) :
    encodeBra c link (w.extractLsb' 0 16) = w := by
  rw [encodeBra, hc, ← hlink, ← hcls, ← hz]
  simp (disch := omega) only [extractLsb'_append_adjacent]
  simp

theorem encodeJmp_fields (hcls : w.extractLsb' 27 5 = 0b11001#5) (hz : w.extractLsb' 18 6 = 0#6) (hz' : w.extractLsb' 0 14 = 0#14) :
    encodeJmp (w.extractLsb' 24 3) (w.extractLsb' 14 4) = w := by
  rw [encodeJmp, ← hcls, ← hz, ← hz']
  simp (disch := omega) only [extractLsb'_append_adjacent]
  simp

theorem encodeRep_fields (hcls : w.extractLsb' 27 5 = 0b11010#5) (hz : w.extractLsb' 22 4 = 0#4) (hz' : w.extractLsb' 16 2 = 0#2) :
    (w.extractLsb' 26 1 = 1#1 → w.extractLsb' 0 16 = 0#16 → encodeRep (.reg (w.extractLsb' 18 4)) = w) ∧
      (w.extractLsb' 26 1 = 0#1 → w.extractLsb' 18 4 = 0#4 → encodeRep (.imm (w.extractLsb' 0 16)) = w) := by
  refine ⟨fun hreg hn => ?_, fun himm hgs => ?_⟩
  · have hpad : 0#18 = w.extractLsb' 16 2 ++ w.extractLsb' 0 16 := by rw [hz', hn]; rfl
    rw [encodeRep, hpad, ← hreg, ← hz, ← hcls]
    simp (disch := omega) only [extractLsb'_append_adjacent]
    simp
  · have hpad : 0#11 = w.extractLsb' 26 1 ++ w.extractLsb' 22 4 ++ w.extractLsb' 18 4 ++ w.extractLsb' 16 2 := by
      rw [himm, hz, hgs, hz']; rfl
    rw [encodeRep, hpad, ← hcls]
    simp (disch := omega) only [extractLsb'_append_adjacent]
    simp

theorem encodeControl_fields (hcls : w.extractLsb' 27 5 = 0b11100#5) (hz : w.extractLsb' 0 24 = 0#24) :
    encodeControl (w.extractLsb' 24 3) = w := by
  rw [encodeControl, ← hcls, ← hz]
  simp (disch := omega) only [extractLsb'_append_adjacent]
  simp

/-- Does an instruction that is a MOVE name a register that a MOVE may write (R490)? -/
def destWritable : Instr → Bool
  | .thMove _ dst _ => dst.writable
  | _ => true

/-- An instruction of a core and the word that encodes it; it is well formed where the core exists, and a MOVE writes a register that a
MOVE may write. -/
def Spells (core : Nat) (w : Word) (j : Instr) : Prop :=
  Laws.ThymeWord.coreOf j = some core ∧ encodeThyme j = some w ∧ destWritable j = true ∧
    (core < 64 → j.wf = true)

theorem decodeAlu_spells {fn : BitVec 5} {gd gs1 : BitVec 4} {b : AluSrc} (hw : encodeAlu fn gd gs1 b = w)
    (h : decodeAlu core fn.toNat gd gs1 b = some j) : Spells core w j := by
  unfold decodeAlu at h
  split at h
  case h_16 => cases h
  case h_15 hfn =>
    obtain ⟨rfl, rfl⟩ := by simpa using h
    exact ⟨rfl, congrArg some (eq_ofNat_of_toNat hfn ▸ hw), rfl, decide_eq_true⟩
  all_goals
    next hfn =>
    cases h
    exact ⟨rfl, congrArg some (eq_ofNat_of_toNat hfn ▸ hw), rfl, decide_eq_true⟩

theorem decodeP_spells (htop : w.extractLsb' 31 1 = 0#1) (h : decodeP core w = some j) : Spells core w j := by
  unfold decodeP at h
  dsimp only at h
  split at h
  case h_2 => cases h
  next xm ym hxm hym =>
  obtain ⟨hxwf, hx⟩ := decodeMoveField_eq_some hxm
  obtain ⟨hywf, hy⟩ := decodeMoveField_eq_some hym
  have hw := encodeP_fields htop hx hy
  have hwf : core < 64 → (lt core 64 && xm.wf && ym.wf) = true := fun hcore => by simp [lt, hcore, hxwf, hywf]
  split at h
  case h_18 => cases h
  all_goals
    rename_i hop
    rw [eq_ofNat_of_toNat hop] at hw
    simp only [Option.ite_none_right_eq_some, Option.some.injEq] at h
  case h_1 =>
    obtain ⟨⟨had, hsa, hsb⟩, rfl⟩ := h
    rw [had, hsa, hsb] at hw
    exact ⟨rfl, congrArg some hw, rfl, hwf⟩
  case h_2 | h_3 | h_4 | h_5 | h_6 | h_7 =>
    subst h
    exact ⟨rfl, congrArg some hw, rfl, hwf⟩
  case h_8 | h_9 | h_10 | h_11 | h_17 =>
    obtain ⟨hsb, rfl⟩ := h
    rw [hsb] at hw
    exact ⟨rfl, congrArg some hw, rfl, hwf⟩
  case h_12 | h_13 | h_14 =>
    obtain ⟨⟨hsa, hsb⟩, rfl⟩ := h
    rw [hsa, hsb] at hw
    exact ⟨rfl, congrArg some hw, rfl, hwf⟩
  case h_15 =>
    obtain ⟨⟨hsa, hhigh⟩, rfl⟩ := h
    have hsb := extractLsb'_append_adjacent (w.extractLsb' 18 3) (s := 2) (t := 0) (m := 1) (n := 2) rfl
    rw [hhigh] at hsb
    rw [hsa, ← extractLsb'_eq_self (x := w.extractLsb' 18 3), ← hsb] at hw
    exact ⟨rfl, congrArg some hw, rfl, hwf⟩
  case h_16 =>
    subst h
    have hsa : (w.extractLsb' 18 6).extractLsb' 3 3 = w.extractLsb' 21 3 := extractLsb'_of_extractLsb' w (by decide)
    have hsb : (w.extractLsb' 18 6).extractLsb' 0 3 = w.extractLsb' 18 3 := extractLsb'_of_extractLsb' w (by decide)
    rw [← hsa, ← hsb] at hw
    exact ⟨rfl, congrArg some hw, rfl, hwf⟩

theorem decodeLdi_spells (hcls : w.extractLsb' 27 5 = 0b10010#5) (h : decodeLdi core w = some j) : Spells core w j := by
  unfold decodeLdi at h
  dsimp only at h
  split at h
  case isTrue => cases h
  case isFalse hz =>
  have hw := encodeLdi_fields hcls (not_not.mp hz)
  split at h
  case h_4 => cases h
  all_goals
    next hform =>
    cases h
    exact ⟨rfl, congrArg some (eq_ofNat_of_toNat hform ▸ hw), rfl, decide_eq_true⟩

theorem decodeSta_spells (hcls : w.extractLsb' 27 5 = 0b10011#5) (h : decodeSta core w = some j) : Spells core w j := by
  unfold decodeSta at h
  dsimp only at h
  split at h
  case isTrue => cases h
  case isFalse hz =>
  have hw := encodeSta_fields hcls (not_not.mp hz)
  split at h
  case h_6 => cases h
  all_goals
    next hfn =>
    cases h
    exact ⟨rfl, congrArg some (eq_ofNat_of_toNat hfn ▸ hw), rfl, decide_eq_true⟩

theorem decodeDirect_spells (hcls : w.extractLsb' 27 5 = 0b10100#5) (h : decodeDirect core w = some j) : Spells core w j := by
  unfold decodeDirect at h
  dsimp only at h
  split at h
  case isTrue => cases h
  case isFalse hz =>
  split at h
  case isTrue hst =>
    cases h
    exact ⟨rfl, congrArg some (encodeDirect_fields hcls (not_not.mp hz) hst), rfl, decide_eq_true⟩
  case isFalse hst =>
    cases h
    exact ⟨rfl, congrArg some (encodeDirect_fields hcls (not_not.mp hz) (eq_zero_of_ne_one hst)), rfl, decide_eq_true⟩

theorem decodeMove_spells (hcls : w.extractLsb' 27 5 = 0b10101#5) (h : decodeMove core w = some j) : Spells core w j := by
  unfold decodeMove at h
  split at h
  case isTrue => cases h
  case isFalse hz =>
  split at h
  case h_2 => cases h
  case h_1 d s hd hs =>
    obtain ⟨hwritable, rfl⟩ := by simpa using h
    exact ⟨rfl, congrArg some (encodeMove_fields hcls (not_not.mp hz) (decodeMoveReg_eq_some hd) (decodeMoveReg_eq_some hs)), hwritable,
      fun hcore => Bool.and_eq_true_iff.mpr ⟨decide_eq_true hcore, hwritable⟩⟩

theorem decodeBra_spells (hcls : w.extractLsb' 27 5 = 0b11000#5) (h : decodeBra core w = some j) : Spells core w j := by
  unfold decodeBra at h
  split at h
  case isTrue => cases h
  case isFalse hz =>
  obtain ⟨c, hc, rfl⟩ := Option.map_eq_some_iff.mp h
  have hw := fun link => encodeBra_fields hcls (not_not.mp hz) (decodeCond_eq_some hc) (link := link)
  split
  case isTrue hlink => exact ⟨rfl, congrArg some (hw true hlink), rfl, decide_eq_true⟩
  case isFalse hlink => exact ⟨rfl, congrArg some (hw false (eq_zero_of_ne_one hlink)), rfl, decide_eq_true⟩

theorem decodeJmp_spells (hcls : w.extractLsb' 27 5 = 0b11001#5) (h : decodeJmp core w = some j) : Spells core w j := by
  unfold decodeJmp at h
  dsimp only at h
  split at h
  case isTrue => cases h
  case isFalse hz =>
  push Not at hz
  have hw := encodeJmp_fields hcls hz.1 hz.2
  split at h
  case h_5 => cases h
  case h_1 hfn | h_2 hfn =>
    cases h
    exact ⟨rfl, congrArg some (eq_ofNat_of_toNat hfn ▸ hw), rfl, decide_eq_true⟩
  case h_3 hfn | h_4 hfn =>
    obtain ⟨hgs, rfl⟩ := by simpa using h
    exact ⟨rfl, congrArg some (hgs ▸ eq_ofNat_of_toNat hfn ▸ hw), rfl, decide_eq_true⟩

theorem decodeRep_spells (hcls : w.extractLsb' 27 5 = 0b11010#5) (h : decodeRep core w = some j) : Spells core w j := by
  unfold decodeRep at h
  dsimp only at h
  split at h
  case isTrue => cases h
  case isFalse hz =>
  push Not at hz
  obtain ⟨hregForm, himmForm⟩ := encodeRep_fields hcls hz.1 hz.2
  split at h
  case isTrue hreg =>
    obtain ⟨hn, rfl⟩ := by simpa using h
    exact ⟨rfl, congrArg some (hregForm hreg hn), rfl, decide_eq_true⟩
  case isFalse himm =>
    obtain ⟨hgs, rfl⟩ := by simpa using h
    exact ⟨rfl, congrArg some (himmForm (eq_zero_of_ne_one himm) hgs), rfl, decide_eq_true⟩

theorem decodeControl_spells (hcls : w.extractLsb' 27 5 = 0b11100#5) (h : decodeControl core w = some j) : Spells core w j := by
  unfold decodeControl at h
  split at h
  case isTrue => cases h
  case isFalse hz =>
  have hw := encodeControl_fields hcls (not_not.mp hz)
  split at h
  case h_6 => cases h
  all_goals
    next hfn =>
    cases h
    exact ⟨rfl, congrArg some (eq_ofNat_of_toNat hfn ▸ hw), rfl, decide_eq_true⟩

/-- A word that decodes is the encoding of the instruction it stands for. -/
theorem decodeThyme_spells (h : decodeThyme core w = some j) : Spells core w j := by
  have hclass : ∀ {n : Nat}, (w.extractLsb' 27 5).toNat = n → w.extractLsb' 27 5 = BitVec.ofNat 5 n := eq_ofNat_of_toNat
  unfold decodeThyme at h
  split at h
  case h_1 hcls =>
    obtain ⟨hz, h⟩ := Option.ite_none_right_eq_some.mp h
    exact decodeAlu_spells (encodeAlu_reg_fields (hclass hcls) hz) h
  case h_2 hcls => exact decodeAlu_spells (encodeAlu_imm_fields (hclass hcls)) h
  case h_3 hcls => exact decodeLdi_spells (hclass hcls) h
  case h_4 hcls => exact decodeSta_spells (hclass hcls) h
  case h_5 hcls => exact decodeDirect_spells (hclass hcls) h
  case h_6 hcls => exact decodeMove_spells (hclass hcls) h
  case h_7 hcls => exact decodeBra_spells (hclass hcls) h
  case h_8 hcls => exact decodeJmp_spells (hclass hcls) h
  case h_9 hcls => exact decodeRep_spells (hclass hcls) h
  case h_10 hcls => exact decodeControl_spells (hclass hcls) h
  case h_11 =>
    obtain ⟨hlt, h⟩ := Option.ite_none_right_eq_some.mp h
    exact decodeP_spells ((toNat_class_lt_iff w).mp hlt) h

end Words

/-- Settles O60: each decoder takes the fields apart that each encoder puts side by side. -/
theorem thymeDecodeAndEncodeAgree : Obligations.ThymeDecodeAndEncodeAgree := by
  unfold Obligations.ThymeDecodeAndEncodeAgree
  refine fun core w hcore => ⟨fun j hdec => ?_, fun i v => decodeThyme_of_encodeThyme⟩
  obtain ⟨-, henc, -, hwf⟩ := decodeThyme_spells hdec
  exact ⟨hwf hcore, henc⟩

end Sys2Proof
end

section
/-! PROOFS. Steps, reset, and the words of the worked kernel (14 R586; 11 R485-R491). -/
namespace Sys2Proof.Machine

/-- Every command but a MOVE answers a next state as its row is written. -/
theorem exec_answers_next (c : Instr) (s : State) (h : ∀ core dst src, c ≠ .thMove core dst src) : ∃ t, exec c s = .next t := by
  cases c
  case thMove core dst src => exact absurd rfl (h core dst src)
  all_goals exact ⟨_, rfl⟩

/-- A MOVE answers one unless a core comes to it with a destination that no MOVE writes (11 R490). -/
theorem execThMove_answers_next (core : Nat) {dst : MoveReg} (src : MoveReg) (s : State) (h : dst.writable = true) :
    ∃ t, exec (.thMove core dst src) s = .next t := ⟨_, if_pos (.inl h)⟩

/-- Settles O57: by the constructors of `Instr`. -/
theorem stepRunsFrontCommand : Obligations.StepRunsFrontCommand := by
  unfold Obligations.StepRunsFrontCommand
  refine ⟨fun c rest s => ⟨rfl, rfl⟩, fun c s hmove => ?_⟩
  by_cases h : ∃ core dst src, c = .thMove core dst src
  · obtain ⟨core, dst, src, rfl⟩ := h
    exact execThMove_answers_next core src s (hmove core dst src rfl)
  · exact exec_answers_next c s fun core dst src hc => h ⟨core, dst, src, hc⟩

/-- Settles O58: every table of the state after reset lists nothing. -/
theorem resetState : Obligations.ResetState := by
  unfold Obligations.ResetState
  exact ⟨rfl, fun _ => rfl, rfl, rfl, rfl, rfl, fun _ => rfl, rfl, fun _ => rfl, fun _ => rfl, fun _ => rfl, fun _ => rfl, rfl, rfl⟩

/-- Settles O59: the decoder computes. -/
theorem thymeWordsDecode : Obligations.ThymeWordsDecode := by
  unfold Obligations.ThymeWordsDecode
  exact fun core => ⟨rfl, rfl, rfl, rfl, rfl, rfl, rfl, rfl, rfl, rfl, rfl, rfl, rfl⟩

end Sys2Proof.Machine
end

section
/-! PROOFS. What the books of operations, the queues and the mix leave of the thyme cores: all of it (01 R35-R49; 07; 10 R430-R449). -/
namespace Sys2Proof.Machine

theorem forEach_thyme {α : Type} {f : α → State → State} (hf : ∀ a s, (f a s).thyme = s.thyme) :
    ∀ (l : List α) (s : State), (forEach l f s).thyme = s.thyme
  | [], _ => rfl
  | a :: l, s => (forEach_thyme hf l (f a s)).trans (hf a s)

@[simp] theorem State.event_thyme (s : State) (src payload who : Nat) : (s.event src payload who).thyme = s.thyme :=
  (State.event_hostOnly ..).thyme

@[simp] theorem State.spillMark_thyme (s : State) : s.spillMark.thyme = s.thyme := by
  unfold State.spillMark
  dsimp only
  repeat' split
  all_goals simp

@[simp] theorem State.modPool_thyme (s : State) (k : Nat) (f : Pool → Pool) : (s.modPool k f).thyme = s.thyme := rfl

@[simp] theorem State.poolSub_thyme (s : State) (k n : Nat) : (s.poolSub k n).thyme = s.thyme := rfl

@[simp] theorem State.poolAdd_thyme (s : State) (k n : Nat) : (s.poolAdd k n).thyme = s.thyme := by
  unfold State.poolAdd
  dsimp only
  split <;> simp

@[simp] theorem State.release_thyme (s : State) (f : QFrame) : (s.release f).thyme = s.thyme := by
  unfold State.release
  split <;> simp

@[simp] theorem State.dropQ_thyme (s : State) (f : QFrame) (key yard : Nat) : (s.dropQ f key yard).thyme = s.thyme := by
  unfold State.dropQ State.dropN State.countFor
  split <;> simp

@[simp] theorem State.discardAll_thyme (s : State) (fs : List QFrame) (key yard : Nat) : (s.discardAll fs key yard).thyme = s.thyme :=
  forEach_thyme (fun f s => by simp) fs s

@[simp] theorem State.setLegq_thyme (s : State) (i : Nat) (q : List QFrame) : (s.setLegq i q).thyme = s.thyme := rfl

@[simp] theorem State.requeue_thyme (s : State) (i : Nat) : (s.requeue i).thyme = s.thyme := by
  rw [NetOnly.requeue s i]

/-! ### The books of operations -/

@[simp] theorem State.freeInputs_thyme (s : State) (before : List Op) : (s.freeInputs before).thyme = s.thyme := by
  refine forEach_thyme (fun o s => ?_) _ s
  dsimp only
  repeat' split
  all_goals simp

@[simp] theorem State.holdInput_thyme (s : State) (o : Op) : (s.holdInput o).2.thyme = s.thyme := by
  unfold State.holdInput
  dsimp only
  repeat' split
  all_goals simp

@[simp] theorem State.addOp_thyme (s : State) (kind : OpKind) (yard cls prio budget : Nat) :
    (s.addOp kind yard cls prio budget).thyme = s.thyme := by
  unfold State.addOp
  extract_lets o s1
  split
  · rfl
  · exact State.holdInput_thyme s1 o

@[simp] theorem State.dropOps_thyme (s : State) (test : Op → Bool) : (s.dropOps test).thyme = s.thyme := by
  simp [State.dropOps]

@[simp] theorem State.thyme_charge_ (s : State) (o : Op) (cycles : Nat) : (s.charge_ o cycles).thyme = s.thyme := by
  unfold State.charge_
  dsimp only
  split <;> simp

@[simp] theorem State.endOp_thyme (s : State) (o : Op) (cycles : Nat) : (s.endOp o cycles).thyme = s.thyme := by
  simp [State.endOp]

@[simp] theorem State.modOp_thyme (s : State) (id : Nat) (f : Op → Op) : (s.modOp id f).thyme = s.thyme := rfl

@[simp] theorem State.yieldOp_thyme (s : State) (o : Op) (busy moved : Nat) : (s.yieldOp o busy moved).thyme = s.thyme := by
  simp [State.yieldOp]

/-- Work that leaves the cores alone does so under what its operation sees. -/
theorem State.underOp_thyme {s : State} {o : Op} {work : State → State} (hw : ∀ s, (work s).thyme = s.thyme) :
    (s.underOp o work).thyme = s.thyme := by
  unfold State.underOp
  split
  · exact hw s
  · dsimp only
    rw [forEach_thyme (fun i t => by split <;> simp), State.freeInputs_thyme]
    dsimp only
    rw [forEach_thyme (fun i t => by split <;> simp), hw, State.opSeen_thyme]

/-! ### What follows an insert point (10 R448, R449) -/

@[simp] theorem State.modMix_thyme (s : State) (room : Nat) (f : MixRoom → MixRoom) : (s.modMix room f).thyme = s.thyme := rfl

@[simp] theorem State.startCodec_thyme (s : State) (i block kind blocks : Nat) : (s.startCodec i block kind blocks).thyme = s.thyme := by
  unfold State.startCodec
  split
  · rfl
  · split
    · exact State.addOp_thyme ..
    · rfl

@[simp] theorem State.frameBlock_thyme (s : State) (i block : Nat) : (s.frameBlock i block).thyme = s.thyme := by
  unfold State.frameBlock
  dsimp only
  repeat' split
  all_goals simp

@[simp] theorem State.afterOutput_thyme (s : State) (room output block : Nat) : (s.afterOutput room output block).thyme = s.thyme := by
  unfold State.afterOutput
  split
  · rfl
  · refine forEach_thyme (fun a s => ?_) _ s
    repeat' split
    all_goals simp

@[simp] theorem State.afterInsert_thyme (s : State) (inst block : Nat) : (s.afterInsert inst block).thyme = s.thyme := by
  unfold State.afterInsert
  repeat' split
  all_goals simp [State.inputDone]

/-! ### The end of a kernel block (11 R493-R496) -/

/-- The core that a kernel block leaves: after an END firmware goes on with the registers as they are, else at 0x0018 with discarded ones. -/
def Core.left (c : Core) (how : KernelEnd) (f : Nat) : Core :=
  let c1 := { c with sr := setBit c.sr 10 false, run := none, entry := [], wroteX := [], wroteY := [], delay := none, rep := none, stale := none }
  match how with
  | .done => { c1 with pc := BitVec.ofNat 14 (Config.freeNat f) }
  | _ => { c1 with
      main := discarded (f + 1), stack := []
      m := (List.range 8).foldl (fun t i => memWrite 0#32 t i (BitVec.ofNat 32 (Config.freeNat (f + 29 + i)) &&& ~~~0xC000#32)) []
      pc := 0x18#14 }

/-- The block that an insert point is left with. -/
def Core.blockOut (c : Core) (how : KernelEnd) : List Word :=
  match how with
  | .done => (memReadAll 0#32 c.x 0x2000 120).map (fun w => w &&& ~~~0xFF#32)
  | _ => c.entry

theorem State.leaveKernel_eq (s : State) (core : Nat) (how : KernelEnd) :
    s.leaveKernel core how = { s.setCore core ((s.core core).left how s.free) with free := s.free + 40 } := by
  cases how <;> rfl

/-- The event of a fault is noted with the kernels alone. -/
theorem State.faultEvent_thyme (s : State) (core : Nat) (k : KernelRun) (code pc : Nat) :
    ∃ kernels old, (s.faultEvent core k code pc).thyme = { s.thyme with kernels, old } := by
  unfold State.faultEvent
  split
  · dsimp only
    split
    · exact ⟨_, _, rfl⟩
    · exact ⟨_, _, (State.event_thyme ..).trans rfl⟩
  · dsimp only
    split
    · exact ⟨_, _, rfl⟩
    · exact ⟨_, _, (State.event_thyme ..).trans rfl⟩
  · exact ⟨_, _, rfl⟩

theorem State.freeOld_thyme (s : State) : ∃ old, s.freeOld.thyme = { s.thyme with old } := ⟨_, rfl⟩

/-- Leaving the core and closing the books of a block. -/
theorem State.closeBlock_thyme (s : State) (core : Nat) (how : KernelEnd) (o o' : Op) (cycles inst block : Nat) :
    ∃ old f, ((((s.leaveKernel core how).endOp o' cycles).underOp o (fun s => s.afterInsert inst block)).freeOld).thyme =
      { s.thyme with cores := put s.thyme.cores core ((s.core core).left how f), old } := by
  obtain ⟨old, h⟩ := State.freeOld_thyme (((s.leaveKernel core how).endOp o' cycles).underOp o (fun s => s.afterInsert inst block))
  refine ⟨old, s.free, ?_⟩
  rw [h, State.underOp_thyme (fun s => State.afterInsert_thyme ..), State.endOp_thyme, State.leaveKernel_eq]
  rfl

/-- What the end of a block does to cores, instances and blocks. -/
theorem State.endKernel_thyme {s : State} {core : Nat} {how : KernelEnd} {k : KernelRun} {o : Op} (hrun : (s.core core).run = some k)
    (hop : s.opAt k.op = some o) :
    ∃ kernels old f, (s.endKernel core how).thyme = { s.thyme with
      cores := put s.thyme.cores core ((s.core core).left how f)
      instances := put s.thyme.instances k.inst ((lookD s.thyme.instances k.inst {}).after (s.core core) k how)
      blocks := put s.thyme.blocks k.inst ((s.core core).blockOut how), kernels, old } := by
  suffices h : ∃ (s3 : State) (kernels : _) (old : _) (o' : _) (cycles : _) (block : _), s.endKernel core how =
      (((s3.leaveKernel core how).endOp o' cycles).underOp o (fun s => s.afterInsert k.inst block)).freeOld ∧
      s3.thyme = { s.thyme with
        instances := put s.thyme.instances k.inst ((lookD s.thyme.instances k.inst {}).after (s.core core) k how)
        blocks := put s.thyme.blocks k.inst ((s.core core).blockOut how), kernels, old } by
    obtain ⟨s3, kernels, old3, o', cycles, block, heq, hs3⟩ := h
    obtain ⟨old, f, hclose⟩ := s3.closeBlock_thyme core how o o' cycles k.inst block
    have hcore : s3.core core = s.core core := by simp only [State.core, hs3]
    exact ⟨kernels, old, f, by rw [heq, hclose, hcore, hs3]⟩
  unfold State.endKernel
  simp only [hrun, hop]
  cases how with
  | done => exact ⟨_, _, _, _, _, _, rfl, by simp only [State.addCnt_thyme, State.bump_thyme]; rfl⟩
  | overrun => exact ⟨_, _, _, _, _, _, rfl, by simp only [State.addCnt_thyme, State.bump_thyme]; rfl⟩
  | fault code =>
    obtain ⟨kernels, old, h⟩ := State.faultEvent_thyme _ core k code (s.core core).pc.toNat
    exact ⟨_, kernels, old, _, _, _, rfl, h.trans (by simp only [State.addCnt_thyme, State.bump_thyme]; rfl)⟩

/-- The end of a block writes its own core alone. -/
theorem State.endKernel_cores {s : State} {core : Nat} {how : KernelEnd} {k : KernelRun} (hrun : (s.core core).run = some k) :
    ∃ f, (s.endKernel core how).thyme.cores = put s.thyme.cores core ((s.core core).left how f) ∧
      (s.endKernel core how).thyme.saved = s.thyme.saved := by
  cases hop : s.opAt k.op with
  | some o =>
    obtain ⟨kernels, old, f, h⟩ := State.endKernel_thyme (how := how) hrun hop
    exact ⟨f, by rw [h], by rw [h]⟩
  | none =>
    refine ⟨s.free, ?_⟩
    have h : s.endKernel core how = s.leaveKernel core how := by
      unfold State.endKernel
      simp only [hrun, hop]
    rw [h, State.leaveKernel_eq]
    exact ⟨rfl, rfl⟩

/-! ### Interrupts (11 R479, R484) -/

/-- Giving up what a core runs leaves the cores, or sets this one aside. -/
theorem State.yieldCore_thyme (s : State) (core : Nat) :
    (s.yieldCore core).thyme = s.thyme ∨ ∃ id, (s.yieldCore core).thyme = { s.thyme with
      cores := put s.thyme.cores core { s.core core with run := none }, saved := put s.thyme.saved id (s.core core) } := by
  unfold State.yieldCore
  split
  · exact .inl rfl
  · split
    · exact .inr ⟨_, by simp only [State.modOp_thyme, State.bump_thyme]; rfl⟩
    · exact .inl (State.yieldOp_thyme ..)

end Sys2Proof.Machine
end

section
/-! PROOFS. What every thyme instruction keeps (11 R461-R481).  Each writes the registers, the data memories and the return stack of its
core and nothing else of it; it keeps the canonical form, a kernel leaves firmware's words alone, and an instruction that stays in line
goes on behind itself. -/
namespace Sys2Proof.Machine

/-! ### Canonical form -/

theorem all_memWrite {α : Type} [DecidableEq α] {d : α} {P : Nat × α → Bool} {m : List (Nat × α)} {a : Nat} {b : α}
    (hm : m.all P = true) (hab : P (a, b) = true) : (memWrite d m a b).all P = true := by
  unfold memWrite
  split
  · induction m with
    | nil => rfl
    | cons e m ih =>
      simp only [List.all_cons, Bool.and_eq_true] at hm
      unfold memErase
      split
      · exact ih hm.2
      · simp [hm.1, ih hm.2]
  · induction m with
    | nil => simp [memInsert, hab]
    | cons e m ih =>
      simp only [List.all_cons, Bool.and_eq_true] at hm
      unfold memInsert
      split
      · simp [hab, hm.1, hm.2]
      · split
        · simp [hab, hm.2]
        · simp [hm.1, ih hm.2]

theorem Bank.wf_iff (b : Bank) : b.wf = true ↔ (Memory.wf 0#32 b.g = true ∧ b.g.all (fun e => lt e.1 16) = true) ∧
    (Memory.wf 0#40 b.a = true ∧ b.a.all (fun e => lt e.1 4) = true) ∧ Memory.wf 0#14 b.p = true ∧ b.p.all (fun e => lt e.1 8) = true := by
  simp only [Bank.wf, Bool.and_eq_true]
  tauto

/-- What the canonical form asks of the modifiers (R469). -/
def modsWf (m : Tab Word) : Bool := Memory.wf 0#32 m && m.all (fun e => lt e.1 8 && e.2 &&& 0xC000#32 == 0#32)

theorem Core.wf_iff (c : Core) : c.wf = true ↔ (c.main.wf = true ∧ c.shadow.wf = true) ∧ modsWf c.m = true ∧
    (Memory.wf 0#32 c.x = true ∧ Memory.wf 0#32 c.y = true ∧ Memory.wf 0#32 c.pm = true) ∧ c.sr &&& ~~~srMask = 0#32 ∧ c.stack.length ≤ 8 := by
  simp only [Core.wf, modsWf, Bool.and_eq_true, beq_iff_eq, decide_eq_true_eq]
  tauto

theorem modsWf_memWrite {m : Tab Word} (h : modsWf m = true) {i : Nat} (hi : i < 8) {w : Word} (hw : w &&& 0xC000#32 = 0#32) :
    modsWf (memWrite 0#32 m i w) = true := by
  simp only [modsWf, Bool.and_eq_true] at h ⊢
  exact ⟨memWrite_wf h.1 i w, all_memWrite h.2 (by simp [lt, hi, hw])⟩

/-- An update of the bank in use that keeps banks canonical keeps the core so. -/
theorem Core.wf_modBank {c : Core} (h : c.wf = true) {f : Bank → Bank} (hf : ∀ b, b.wf = true → (f b).wf = true) : (c.modBank f).wf = true := by
  rw [Core.wf_iff] at h
  obtain ⟨⟨hmain, hshadow⟩, hrest⟩ := h
  unfold Core.modBank
  split <;> rw [Core.wf_iff]
  · exact ⟨⟨hmain, hf _ hshadow⟩, hrest⟩
  · exact ⟨⟨hf _ hmain, hshadow⟩, hrest⟩

theorem Core.wf_setG {c : Core} (h : c.wf = true) {i : Nat} (hi : i < 16) (w : Word) : (c.setG i w).wf = true :=
  Core.wf_modBank h fun b hb => by
    rw [Bank.wf_iff] at hb ⊢
    exact ⟨⟨memWrite_wf hb.1.1 _ _, all_memWrite hb.1.2 (by simp [lt, hi])⟩, hb.2⟩

theorem Core.wf_setAcc {c : Core} (h : c.wf = true) {i : Nat} (hi : i < 4) (a : Acc) : (c.setAcc i a).wf = true :=
  Core.wf_modBank h fun b hb => by
    rw [Bank.wf_iff] at hb ⊢
    exact ⟨hb.1, ⟨memWrite_wf hb.2.1.1 _ _, all_memWrite hb.2.1.2 (by simp [lt, hi])⟩, hb.2.2⟩

theorem Core.wf_setPtr {c : Core} (h : c.wf = true) {i : Nat} (hi : i < 8) (a : Ptr) : (c.setPtr i a).wf = true :=
  Core.wf_modBank h fun b hb => by
    rw [Bank.wf_iff] at hb ⊢
    exact ⟨hb.1, hb.2.1, memWrite_wf hb.2.2.1 _ _, all_memWrite hb.2.2.2 (by simp [lt, hi])⟩

theorem Core.wf_setMod {c : Core} (h : c.wf = true) {i : Nat} (hi : i < 8) (w : Word) : (c.setMod i w).wf = true := by
  rw [Core.wf_iff] at h ⊢
  refine ⟨h.1, modsWf_memWrite h.2.1 hi ?_, h.2.2⟩
  rw [BitVec.and_assoc]
  exact BitVec.and_zero

theorem Core.wf_store {c : Core} (h : c.wf = true) (y : Bool) (a : Nat) (w : Word) : (c.store y a w).2.wf = true := by
  unfold Core.store
  split
  · exact h
  · rw [Core.wf_iff] at h
    obtain ⟨hbanks, hm, ⟨hx, hy, hpm⟩, hrest⟩ := h
    cases y <;> simp only [if_true, Bool.false_eq_true, if_false] <;> rw [Core.wf_iff]
    · exact ⟨hbanks, hm, ⟨memWrite_wf hx _ _, hy, hpm⟩, hrest⟩
    · exact ⟨hbanks, hm, ⟨hx, memWrite_wf hy _ _, hpm⟩, hrest⟩

/-- SR is canonical when it has no bit but those of R465. -/
theorem Core.wf_with_sr {c : Core} (h : c.wf = true) {sr : Word} (hsr : sr &&& ~~~srMask = 0#32) : ({ c with sr } : Core).wf = true := by
  rw [Core.wf_iff] at h ⊢
  exact ⟨h.1, h.2.1, h.2.2.1, hsr, h.2.2.2.2⟩

theorem Core.wf_with_stack {c : Core} (h : c.wf = true) {stack : List Ptr} (hlen : stack.length ≤ 8) : ({ c with stack } : Core).wf = true := by
  rw [Core.wf_iff] at h ⊢
  exact ⟨h.1, h.2.1, h.2.2.1, h.2.2.2.1, hlen⟩

theorem Core.sr_of_wf {c : Core} (h : c.wf = true) : c.sr &&& ~~~srMask = 0#32 := ((Core.wf_iff c).mp h).2.2.2.1

theorem srMasked_setBit {sr : Word} (h : sr &&& ~~~srMask = 0#32) {i : Nat} (hi : (1#32 <<< i) &&& ~~~srMask = 0#32) (v : Bool) :
    setBit sr i v &&& ~~~srMask = 0#32 := by
  unfold setBit
  split
  · rw [BitVec.and_or_distrib_right, h, hi]; rfl
  · rw [BitVec.and_assoc, BitVec.and_comm (~~~_), ← BitVec.and_assoc, h, BitVec.zero_and]

theorem srMasked_srAlu {sr : Word} (h : sr &&& ~~~srMask = 0#32) (r : Word) (c v : Bool) : srAlu sr r c v &&& ~~~srMask = 0#32 :=
  srMasked_setBit (srMasked_setBit (srMasked_setBit (srMasked_setBit h rfl _) rfl _) rfl _) rfl _

theorem srMasked_and (w : Word) : (w &&& srMask) &&& ~~~srMask = 0#32 := by
  rw [BitVec.and_assoc]
  exact BitVec.and_zero

theorem srMasked_srMoved {sr : Word} (h : sr &&& ~~~srMask = 0#32) (w : Word) : srMoved sr w &&& ~~~srMask = 0#32 := by
  unfold srMoved
  split
  · rw [BitVec.and_or_distrib_right, BitVec.and_assoc, BitVec.and_comm (~~~_), ← BitVec.and_assoc, h, BitVec.zero_and, BitVec.and_assoc]
    exact (BitVec.zero_or).trans BitVec.and_zero
  · exact srMasked_and w

/-! ### Firmware's words (R462) -/

/-- A kernel's core that has firmware's words of X and Y and the guard words as before. -/
def Core.KeepsFirmware (c n : Core) : Prop :=
  c.km = true → (∀ a, a < 0x2000 ∨ 0x2078 ≤ a ∧ a < 0x2080 → memRead 0#32 n.x a = memRead 0#32 c.x a) ∧
    ∀ a < 0x2010, memRead 0#32 n.y a = memRead 0#32 c.y a

theorem Core.KeepsFirmware.of_eq {c n : Core} (hx : n.x = c.x) (hy : n.y = c.y) : c.KeepsFirmware n :=
  fun _ => ⟨fun _ _ => by rw [hx], fun _ _ => by rw [hy]⟩

theorem Core.KeepsFirmware.trans {a b c : Core} (hkm : b.km = a.km) (hab : a.KeepsFirmware b) (hbc : b.KeepsFirmware c) : a.KeepsFirmware c :=
  fun h => by
    obtain ⟨hx, hy⟩ := hab h
    obtain ⟨hx', hy'⟩ := hbc (hkm.trans h)
    exact ⟨fun i hi => (hx' i hi).trans (hx i hi), fun i hi => (hy' i hi).trans (hy i hi)⟩

theorem Core.keepsFirmware_store (c : Core) (y : Bool) (a : Nat) (w : Word) : c.KeepsFirmware (c.store y a w).2 := by
  intro hkm
  unfold Core.store
  split
  · exact ⟨fun _ _ => rfl, fun _ _ => rfl⟩
  · next hno =>
    have hok : kernelWrites y a = true := by simpa [hkm] using hno
    cases y <;> simp only [kernelWrites, if_true, Bool.false_eq_true, if_false] at hok ⊢
    · refine ⟨fun b hb => ?_, fun _ _ => trivial⟩
      simp at hok
      rw [memRead_memWrite, if_neg (by omega)]
    · refine ⟨fun _ _ => trivial, fun b hb => ?_⟩
      rw [memRead_memWrite, if_neg (by have := of_decide_eq_true hok; omega)]

/-! ### Writes of data -/

/-- A write of data that keeps the canonical form and, of a kernel, firmware's words. -/
structure Core.DataStep (c n : Core) : Prop where
  data : c.WritesData n
  wf : c.wf = true → n.wf = true
  firmware : c.KeepsFirmware n

theorem Core.DataStep.refl (c : Core) : c.DataStep c := ⟨rfl, id, .of_eq rfl rfl⟩

theorem Core.DataStep.trans {a b c : Core} (hab : a.DataStep b) (hbc : b.DataStep c) : a.DataStep c :=
  ⟨hab.data.trans hbc.data, hbc.wf ∘ hab.wf, hab.firmware.trans (congrArg srKM hab.data.sr_eq) hbc.firmware⟩

theorem Core.modBank_x (c : Core) (f : Bank → Bank) : (c.modBank f).x = c.x ∧ (c.modBank f).y = c.y := by
  unfold Core.modBank
  split <;> exact ⟨rfl, rfl⟩

theorem Core.dataStep_setG (c : Core) {i : Nat} (hi : i < 16) (w : Word) : c.DataStep (c.setG i w) :=
  ⟨c.writesData_setG i w, fun h => Core.wf_setG h hi w, .of_eq (c.modBank_x _).1 (c.modBank_x _).2⟩

theorem Core.dataStep_setAcc (c : Core) {i : Nat} (hi : i < 4) (a : Acc) : c.DataStep (c.setAcc i a) :=
  ⟨c.writesData_setAcc i a, fun h => Core.wf_setAcc h hi a, .of_eq (c.modBank_x _).1 (c.modBank_x _).2⟩

theorem Core.dataStep_setPtr (c : Core) {i : Nat} (hi : i < 8) (a : Ptr) : c.DataStep (c.setPtr i a) :=
  ⟨c.writesData_modBank _, fun h => Core.wf_setPtr h hi a, .of_eq (c.modBank_x _).1 (c.modBank_x _).2⟩

theorem Core.dataStep_store (c : Core) (y : Bool) (a : Nat) (w : Word) : c.DataStep (c.store y a w).2 :=
  ⟨c.writesData_store y a w, fun h => Core.wf_store h y a w, c.keepsFirmware_store y a w⟩

theorem Core.dataStep_moveStore (b c : Core) (y : Bool) (m : PMove) : c.DataStep (b.moveStore c y m).2 := by
  unfold Core.moveStore
  split
  · exact c.dataStep_store ..
  · exact .refl c

theorem Core.dataStep_postUpdate (c : Core) {i : Nat} (hi : i < 8) (upd : Nat) : c.DataStep (c.postUpdate i upd) := by
  unfold Core.postUpdate
  split <;> split
  · exact .refl c
  · exact c.dataStep_setPtr hi _
  · exact .refl c
  · exact c.dataStep_setPtr hi _

theorem Core.dataStep_moveUpdate (c : Core) (y : Bool) (m : PMove) : c.DataStep (c.moveUpdate y m) := by
  unfold Core.moveUpdate
  split
  · exact c.dataStep_postUpdate (by have := m.ptr.isLt; cases y <;> simp <;> omega) _
  · exact .refl c

theorem Core.dataStep_setLoaded (c : Core) (m : PMove) (w : Option Word) : c.DataStep (c.setLoaded m w) := by
  cases w with
  | some v => exact c.dataStep_setG (by have := m.reg.isLt; omega) v
  | none => exact .refl c

/-- The two moves of an instruction. -/
theorem Core.dataStep_moves (c : Core) (xm ym : PMove) : c.DataStep (c.moves xm ym).2 :=
  (Core.dataStep_moveStore ..).trans <| (Core.dataStep_moveStore ..).trans <| (Core.dataStep_moveUpdate ..).trans <|
    (Core.dataStep_moveUpdate ..).trans <| (Core.dataStep_setLoaded ..).trans (Core.dataStep_setLoaded ..)

/-! ### The effect of an instruction -/

/-- A core that differs from another in its registers, its data memories and its return stack alone. -/
def Core.WritesRegs (c n : Core) : Prop :=
  n = { c with
    main := n.main, shadow := n.shadow, m := n.m, sr := n.sr, ira := n.ira, isr := n.isr, imask := n.imask, stack := n.stack
    x := n.x, y := n.y, wroteX := n.wroteX, wroteY := n.wroteY }

/-- What the effect of every thyme instruction keeps of its core. -/
structure ThymeEffect.Keeps (c : Core) (e : ThymeEffect) : Prop where
  regs : c.WritesRegs e.core
  wf : c.wf = true → e.core.wf = true
  firmware : c.KeepsFirmware e.core

/-- An effect after which execution stays in line. -/
def ThymeEffect.InLine (e : ThymeEffect) : Prop := e.branch = none ∧ e.jump = none ∧ e.rep = none ∧ e.ends = false

section Effects
variable {c n : Core} {e : ThymeEffect}

theorem ThymeEffect.Keeps.of_core (h : e.core = c) : e.Keeps c := by
  subst h
  exact ⟨rfl, id, .of_eq rfl rfl⟩

/-- An effect that writes data, and SR within its bits. -/
theorem ThymeEffect.Keeps.of_dataStep {sr : Word} (he : e.core = { n with sr }) (hn : c.DataStep n)
    (hsr : c.wf = true → sr &&& ~~~srMask = 0#32) : e.Keeps c := by
  refine ⟨?_, fun h => ?_, fun h => ?_⟩
  · rw [Core.WritesRegs, he, hn.data]
  · rw [he]
    exact Core.wf_with_sr (hn.wf h) (hsr h)
  · rw [he]
    exact hn.firmware h

theorem ThymeEffect.Keeps.of_write (he : e.core = n) (hn : c.DataStep n) : e.Keeps c :=
  .of_dataStep (sr := n.sr) he hn fun h => Core.sr_of_wf (hn.wf h)

theorem Core.accOp_keeps (c : Core) (ad : BitVec 2) (v : Int) (xm ym : PMove) : (c.accOp ad v xm ym).Keeps c := by
  have hmoves := c.dataStep_moves xm ym
  refine ThymeEffect.Keeps.of_dataStep rfl (hmoves.trans (Core.dataStep_setAcc _ ad.isLt _)) fun h => ?_
  have hsr := Core.sr_of_wf (hmoves.wf h)
  split
  · exact srMasked_setBit hsr rfl _
  · exact hsr

theorem Core.aluOp_keeps (c : Core) (gd gs1 : BitVec 4) (b : AluSrc) (f : Word → Word → Word × Bool × Bool) : (c.aluOp gd gs1 b f).Keeps c := by
  have hset := c.dataStep_setG gd.isLt (f (c.gReg gs1.toNat) (c.aluSrc b)).1
  exact ThymeEffect.Keeps.of_dataStep rfl hset fun h => srMasked_srAlu (Core.sr_of_wf (hset.wf h)) ..

theorem Core.staOp_keeps (c : Core) (gd : BitVec 4) (r : Word × Bool) : (c.staOp gd r).Keeps c := by
  have hset := c.dataStep_setG gd.isLt r.1
  refine ThymeEffect.Keeps.of_dataStep rfl hset fun h => ?_
  have hsr := Core.sr_of_wf (hset.wf h)
  split
  · exact srMasked_setBit hsr rfl _
  · exact hsr

theorem Core.setG_keeps (c : Core) (gd : BitVec 4) (w : Word) : ThymeEffect.Keeps c { core := c.setG gd.toNat w } :=
  .of_write rfl (c.dataStep_setG gd.isLt w)

theorem thyMove_keeps (dst src : MoveReg) (c : Core) : (thyMove dst src c).Keeps c := by
  cases dst with
  | g i => exact .of_write rfl (c.dataStep_setG i.isLt _)
  | p i => exact .of_write rfl (c.dataStep_setPtr i.isLt _)
  | al i => exact .of_write rfl (c.dataStep_setAcc i.isLt _)
  | ag i => exact .of_write rfl (c.dataStep_setAcc i.isLt _)
  | m i => exact ⟨rfl, fun h => Core.wf_setMod h i.isLt _, .of_eq rfl rfl⟩
  | sr => exact .of_dataStep rfl (.refl c) fun h => srMasked_srMoved (Core.sr_of_wf h) _
  | ira => exact ⟨rfl, fun h => h, .of_eq rfl rfl⟩
  | isr => exact ⟨rfl, fun h => h, .of_eq rfl rfl⟩
  | imask => exact ⟨rfl, fun h => h, .of_eq rfl rfl⟩
  | ipend => exact .of_core rfl
  | cyc => exact .of_core rfl
  | budget => exact .of_core rfl
  | sp => exact .of_core rfl

theorem Core.push_keeps (c : Core) (fr : Nat → Nat) {e : ThymeEffect} (he : e.core = (c.push fr).2) : e.Keeps c := by
  unfold Core.push at he
  split at he
  · exact .of_core he
  · split at he
    · exact ⟨by rw [Core.WritesRegs, he], fun h => by rw [he]; exact Core.wf_with_stack h (by simp), .of_eq (by rw [he]) (by rw [he])⟩
    · exact ⟨by rw [Core.WritesRegs, he], fun h => by rw [he]; exact Core.wf_with_stack h (by simp; omega), .of_eq (by rw [he]) (by rw [he])⟩

theorem Core.call_keeps (c : Core) (fr : Nat → Nat) (taken : Bool) (t : Ptr) : (c.call fr taken t).Keeps c := by
  cases taken with
  | true => exact c.push_keeps fr rfl
  | false => exact .of_core rfl

theorem thyRet_keeps (fr : Nat → Nat) (c : Core) : (thyRet fr c).Keeps c := by
  unfold thyRet
  split
  · next a rest hstack =>
    refine ⟨rfl, fun h => Core.wf_with_stack h ?_, .of_eq rfl rfl⟩
    have hlen := ((Core.wf_iff c).mp h).2.2.2.2
    rw [hstack, List.length_cons] at hlen
    omega
  · split <;> exact .of_core rfl

theorem thyCmp_keeps (gs1 : BitVec 4) (b : AluSrc) (c : Core) : (thyCmp gs1 b c).Keeps c :=
  .of_dataStep rfl (.refl c) fun h => srMasked_srAlu (Core.sr_of_wf h) ..

theorem thyDirectLoad_keeps (y : Bool) (g : BitVec 4) (pn : BitVec 3) (off : BitVec 14) (c : Core) : (thyDirectLoad y g pn off c).Keeps c :=
  .of_write rfl (c.dataStep_setG g.isLt _)

theorem thyDirectStore_keeps (y : Bool) (g : BitVec 4) (pn : BitVec 3) (off : BitVec 14) (c : Core) : (thyDirectStore y g pn off c).Keeps c :=
  .of_write rfl (c.dataStep_store ..)

theorem thyReti_keeps (c : Core) : (thyReti c).Keeps c := .of_dataStep rfl (.refl c) fun _ => srMasked_and _

end Effects

open Laws.ThymeWord in
/-- Every instruction of a core runs with an effect that keeps these things, at one cycle and in line unless it is of the branch class,
REP or END (R473-R477). -/
theorem exec_thyme {i : Instr} {core : Nat} (hcore : coreOf i = some core) (hdest : destWritable i = true) :
    ∃ cost f, (∀ s, exec i s = .next (thymeRun core i cost f s)) ∧ (∀ fr c, (f fr c).Keeps c) ∧
      (leavesLine i = false → cost = 1 ∧ ∀ fr c, (f fr c).InLine) := by
  unfold coreOf at hcore
  split at hcore
  case h_56 => cases hcore
  all_goals cases Option.some.inj hcore
  case h_1 => exact ⟨1, _, fun _ => rfl, fun _ c => .of_write rfl (c.dataStep_moves ..), fun _ => ⟨rfl, fun _ _ => ⟨rfl, rfl, rfl, rfl⟩⟩⟩
  case h_2 | h_3 | h_4 | h_5 | h_6 | h_7 | h_8 | h_9 | h_10 | h_11 | h_12 | h_13 | h_14 | h_15 | h_16 | h_17 =>
    exact ⟨1, _, fun _ => rfl, fun _ c => c.accOp_keeps .., fun _ => ⟨rfl, fun _ _ => ⟨rfl, rfl, rfl, rfl⟩⟩⟩
  case h_18 | h_19 | h_20 | h_21 | h_22 | h_23 | h_24 | h_25 | h_26 | h_27 | h_28 | h_29 | h_30 | h_31 =>
    exact ⟨1, _, fun _ => rfl, fun _ c => c.aluOp_keeps .., fun _ => ⟨rfl, fun _ _ => ⟨rfl, rfl, rfl, rfl⟩⟩⟩
  case h_32 => exact ⟨1, _, fun _ => rfl, fun _ _ => thyCmp_keeps .., fun _ => ⟨rfl, fun _ _ => ⟨rfl, rfl, rfl, rfl⟩⟩⟩
  case h_33 | h_34 | h_35 | h_38 | h_39 | h_40 =>
    exact ⟨1, _, fun _ => rfl, fun _ c => c.setG_keeps .., fun _ => ⟨rfl, fun _ _ => ⟨rfl, rfl, rfl, rfl⟩⟩⟩
  case h_36 | h_37 => exact ⟨1, _, fun _ => rfl, fun _ c => c.staOp_keeps .., fun _ => ⟨rfl, fun _ _ => ⟨rfl, rfl, rfl, rfl⟩⟩⟩
  case h_41 => exact ⟨1, _, fun _ => rfl, fun _ _ => thyDirectLoad_keeps .., fun _ => ⟨rfl, fun _ _ => ⟨rfl, rfl, rfl, rfl⟩⟩⟩
  case h_42 => exact ⟨1, _, fun _ => rfl, fun _ _ => thyDirectStore_keeps .., fun _ => ⟨rfl, fun _ _ => ⟨rfl, rfl, rfl, rfl⟩⟩⟩
  case h_43 =>
    exact ⟨1, _, fun _ => if_pos (.inl hdest), fun _ _ => thyMove_keeps .., fun _ => ⟨rfl, fun _ _ => ⟨rfl, rfl, rfl, rfl⟩⟩⟩
  case h_44 | h_46 => exact ⟨1, _, fun _ => rfl, fun _ _ => .of_core rfl, nofun⟩
  case h_45 | h_47 => exact ⟨1, _, fun _ => rfl, fun fr c => c.call_keeps .., nofun⟩
  case h_48 => exact ⟨1, _, fun _ => rfl, thyRet_keeps, nofun⟩
  case h_49 => exact ⟨3, _, fun _ => rfl, fun _ => thyReti_keeps, nofun⟩
  case h_50 | h_52 => exact ⟨1, _, fun _ => rfl, fun _ _ => .of_core rfl, nofun⟩
  case h_51 | h_55 => exact ⟨1, _, fun _ => rfl, fun _ _ => .of_core rfl, fun _ => ⟨rfl, fun _ _ => ⟨rfl, rfl, rfl, rfl⟩⟩⟩
  case h_53 | h_54 =>
    exact ⟨1, _, fun _ => rfl, fun _ c => .of_dataStep rfl (.refl c) fun h => srMasked_setBit (Core.sr_of_wf h) rfl _,
      fun _ => ⟨rfl, fun _ _ => ⟨rfl, rfl, rfl, rfl⟩⟩⟩

/-! ### The core an instruction leaves -/

theorem Core.wf_of_regs {c n : Core} (h : n.wf = true) (hbanks : c.main = n.main ∧ c.shadow = n.shadow) (hm : c.m = n.m)
    (hmem : c.x = n.x ∧ c.y = n.y ∧ c.pm = n.pm) (hsr : c.sr = n.sr) (hstack : c.stack = n.stack) : c.wf = true := by
  rw [Core.wf_iff] at h ⊢
  rw [hbanks.1, hbanks.2, hm, hmem.1, hmem.2.1, hmem.2.2, hsr, hstack]
  exact h

/-- Where execution goes is no matter of registers and memories. -/
theorem ThymeEffect.advance_eq (e : ThymeEffect) (b : Core) :
    e.advance b = { e.core with stale := e.stale, pc := (e.advance b).pc, delay := (e.advance b).delay, rep := (e.advance b).rep } := by
  unfold ThymeEffect.advance
  dsimp only
  repeat' split
  all_goals rfl

/-- Two cores with the same memories. -/
def Core.SameMem (c n : Core) : Prop := n.pm = c.pm ∧ n.x = c.x ∧ n.y = c.y

theorem Core.SameMem.refl (c : Core) : c.SameMem c := ⟨rfl, rfl, rfl⟩

theorem Core.SameMem.trans {a b c : Core} (hab : a.SameMem b) (hbc : b.SameMem c) : a.SameMem c :=
  ⟨hbc.1.trans hab.1, hbc.2.1.trans hab.2.1, hbc.2.2.trans hab.2.2⟩

theorem ThymeEffect.advance_charge_sameMem (e : ThymeEffect) (b : Core) (cost : Nat) : e.core.SameMem ((e.advance b).charge b cost) := by
  rw [e.advance_eq b]
  exact .refl _

theorem ThymeEffect.advance_charge_wf {e : ThymeEffect} (h : e.core.wf = true) (b : Core) (cost : Nat) :
    ((e.advance b).charge b cost).wf = true := by
  rw [e.advance_eq b]
  exact Core.wf_of_regs h ⟨rfl, rfl⟩ rfl ⟨rfl, rfl, rfl⟩ rfl rfl

theorem Core.sameMem_left (c : Core) (how : KernelEnd) (f : Nat) : c.SameMem (c.left how f) := by
  cases how <;> exact .refl c

theorem modsWf_foldl {w : Nat → Word} (hw : ∀ i, w i &&& 0xC000#32 = 0#32) :
    ∀ (l : List Nat) (m : Tab Word) (_ : ∀ i ∈ l, i < 8) (_ : modsWf m = true), modsWf (l.foldl (fun t i => memWrite 0#32 t i (w i)) m) = true
  | [], _, _, hm => hm
  | i :: l, _, hl, hm => modsWf_foldl hw l _ (fun j hj => hl j (.tail _ hj)) (modsWf_memWrite hm (hl i (.head _)) (hw i))

/-- Writes at indices below a limit give a canonical table. -/
theorem canonical_foldl {α : Type} [DecidableEq α] {d : α} {n : Nat} {w : Nat → α} :
    ∀ (l : List Nat) (m : Tab α) (_ : ∀ i ∈ l, i < n) (_ : Memory.wf d m = true ∧ m.all (fun e => lt e.1 n) = true),
      Memory.wf d (l.foldl (fun t i => memWrite d t i (w i)) m) = true ∧
        (l.foldl (fun t i => memWrite d t i (w i)) m).all (fun e => lt e.1 n) = true
  | [], _, _, hm => hm
  | i :: l, _, hl, hm => canonical_foldl l _ (fun j hj => hl j (.tail _ hj))
    ⟨memWrite_wf hm.1 _ _, all_memWrite hm.2 (decide_eq_true (hl i (.head _)))⟩

theorem discarded_wf (f : Nat) : (discarded f).wf = true := by
  have hrange : ∀ n, ∀ i ∈ List.range n, i < n := fun n i => List.mem_range.mp
  exact (Bank.wf_iff _).mpr ⟨canonical_foldl _ _ (hrange 16) ⟨rfl, rfl⟩, canonical_foldl _ _ (hrange 4) ⟨rfl, rfl⟩,
    canonical_foldl _ _ (hrange 8) ⟨rfl, rfl⟩⟩

theorem Core.wf_left {c : Core} (h : c.wf = true) (how : KernelEnd) (f : Nat) : (c.left how f).wf = true := by
  have hsr := srMasked_setBit (Core.sr_of_wf h) (i := 10) rfl false
  rw [Core.wf_iff] at h
  obtain ⟨⟨hmain, hshadow⟩, hm, hmem, -, hstack⟩ := h
  have hmods : modsWf ((List.range 8).foldl (fun t i => memWrite 0#32 t i (BitVec.ofNat 32 (Config.freeNat (f + 29 + i)) &&& ~~~0xC000#32)) []) = true :=
    modsWf_foldl (fun i => by rw [BitVec.and_assoc]; exact BitVec.and_zero) _ _ (fun i => List.mem_range.mp) rfl
  cases how with
  | done => exact (Core.wf_iff _).mpr ⟨⟨hmain, hshadow⟩, hm, hmem, hsr, hstack⟩
  | overrun => exact (Core.wf_iff _).mpr ⟨⟨discarded_wf _, hshadow⟩, hmods, hmem, hsr, Nat.zero_le _⟩
  | fault => exact (Core.wf_iff _).mpr ⟨⟨discarded_wf _, hshadow⟩, hmods, hmem, hsr, Nat.zero_le _⟩

theorem Core.wf_interrupt {c : Core} (h : c.wf = true) (src tick : Nat) : (c.interrupt src tick).wf = true := by
  have hsr := srMasked_setBit (srMasked_setBit (srMasked_setBit (Core.sr_of_wf h) (i := 9) rfl true) (i := 8) rfl false) (i := 10) rfl false
  exact Core.wf_of_regs (Core.wf_with_sr h hsr) ⟨rfl, rfl⟩ rfl ⟨rfl, rfl, rfl⟩ rfl rfl

/-! ### How an instruction stores its core (R473-R476, R493-R496) -/

theorem put_put {α : Type} (k : Nat) (a b : α) : ∀ t : Tab α, put (put t k a) k b = put t k b
  | [] => by simp [put]
  | (j, v) :: t => by
    by_cases hlt : k < j
    · simp [put, hlt]
    · by_cases hne : k = j
      · simp [put, hne]
      · simp [put, hlt, hne, put_put k a b t]

/-- The core that an instruction stores, with the PC it is left at. -/
def storedCore (core cost : Nat) (f : (Nat → Nat) → Core → ThymeEffect) (s : State) (pc : Ptr) : Core :=
  { ((f (fun k => Config.freeNat (s.free + k)) (s.core core)).advance (s.core core)).charge (s.core core) cost with pc }

/-- An instruction that runs stores its core, the block of a kernel may end, and an interrupt may be taken. -/
theorem thymeRun_cases (core cost : Nat) (i : Instr) (f : (Nat → Nat) → Core → ThymeEffect) (s : State) :
    thymeRun core i cost f s = s ∨ ∃ (z : State) (pc : Ptr),
      z.thyme = { s.thyme with cores := put s.thyme.cores core (storedCore core cost f s pc) } ∧
      (thymeRun core i cost f s = takeInterrupt core z ∨ ∃ how, thymeRun core i cost f s = takeInterrupt core (z.endKernel core how)) := by
  generalize hrun : thymeRun core i cost f s = t
  unfold thymeRun at hrun
  extract_lets c e n src z at hrun
  split at hrun
  · exact .inl hrun.symm
  · refine .inr ?_
    split at hrun
    · split at hrun
      · exact ⟨z.setCore core { n with pc := c.pc }, c.pc, congrArg (fun cores => { s.thyme with cores }) (put_put ..), .inr ⟨_, hrun.symm⟩⟩
      · split at hrun
        · exact ⟨z, n.pc, rfl, .inr ⟨_, hrun.symm⟩⟩
        · split at hrun
          · exact ⟨z, n.pc, rfl, .inr ⟨_, hrun.symm⟩⟩
          · split at hrun
            · exact ⟨z, n.pc, rfl, .inr ⟨_, hrun.symm⟩⟩
            · exact ⟨z, n.pc, rfl, .inl hrun.symm⟩
    · exact ⟨z, n.pc, rfl, .inl hrun.symm⟩

/-! ### Every core (R461-R484) -/

theorem State.core_wf {s : State} (h : s.coresWf = true) (n : Nat) : (s.core n).wf = true :=
  all_lookD (fun c : Core => c.wf) {} rfl n _ (Bool.and_eq_true_iff.mp h).1

theorem State.coresWf_of_thyme {s t : State} (h : s.coresWf = true) (ht : t.thyme = s.thyme) : t.coresWf = true := by
  unfold State.coresWf
  rw [ht]
  exact h

/-- A core that is stored in canonical form. -/
theorem State.coresWf_of_put {s t : State} {core : Nat} {c : Core} (h : s.coresWf = true) (hc : c.wf = true)
    (hcores : t.thyme.cores = put s.thyme.cores core c) (hsaved : t.thyme.saved = s.thyme.saved) : t.coresWf = true := by
  obtain ⟨hall, hset⟩ := Bool.and_eq_true_iff.mp h
  refine Bool.and_eq_true_iff.mpr ⟨?_, by rw [hsaved]; exact hset⟩
  rw [hcores]
  exact all_put _ _ _ hc _ hall

theorem State.coresWf_setCore {s : State} (h : s.coresWf = true) (core : Nat) {c : Core} (hc : c.wf = true) : (s.setCore core c).coresWf = true :=
  coresWf_of_put h hc rfl rfl

theorem State.coresWf_endKernel {s : State} (h : s.coresWf = true) (core : Nat) (how : KernelEnd) : (s.endKernel core how).coresWf = true := by
  cases hrun : (s.core core).run with
  | none =>
    have heq : s.endKernel core how = s := by
      unfold State.endKernel
      simp only [hrun]
    rwa [heq]
  | some k =>
    obtain ⟨f, hcores, hsaved⟩ := State.endKernel_cores (how := how) hrun
    exact coresWf_of_put h (Core.wf_left (State.core_wf h core) how f) hcores hsaved

theorem State.coresWf_yieldCore {s : State} (h : s.coresWf = true) (core : Nat) : (s.yieldCore core).coresWf = true := by
  obtain hsame | ⟨id, hset⟩ := s.yieldCore_thyme core
  · exact coresWf_of_thyme h hsame
  · have hcore := State.core_wf h core
    obtain ⟨hall, hsaved⟩ := Bool.and_eq_true_iff.mp h
    unfold State.coresWf
    rw [hset]
    exact Bool.and_eq_true_iff.mpr ⟨all_put _ _ _ (Core.wf_of_regs hcore ⟨rfl, rfl⟩ rfl ⟨rfl, rfl, rfl⟩ rfl rfl) _ hall,
      all_put _ _ _ hcore _ hsaved⟩

theorem coresWf_takeInterrupt {s : State} (h : s.coresWf = true) (core : Nat) : (takeInterrupt core s).coresWf = true := by
  unfold takeInterrupt
  dsimp only
  split
  · exact h
  · split
    · exact h
    · next k _ =>
      have hyield : (if k = 0 then s.yieldCore core else s).coresWf = true := by
        split
        · exact State.coresWf_yieldCore h core
        · exact h
      exact State.coresWf_setCore hyield core (Core.wf_interrupt (State.core_wf hyield core) ..)

theorem coresWf_interruptEntry {s : State} (h : s.coresWf = true) (core src : Nat) : (interruptEntry core src s).coresWf = true := by
  unfold interruptEntry
  dsimp only
  split
  · exact h
  · have hraised := State.coresWf_setCore h core (c := (s.core core).raised src)
      (Core.wf_of_regs (State.core_wf h core) ⟨rfl, rfl⟩ rfl ⟨rfl, rfl, rfl⟩ rfl rfl)
    split
    · exact State.coresWf_yieldCore hraised core
    · exact coresWf_takeInterrupt hraised core

theorem storedCore_wf {s : State} (h : s.coresWf = true) {core cost : Nat} {f : (Nat → Nat) → Core → ThymeEffect}
    (hf : ∀ fr c, (f fr c).Keeps c) (pc : Ptr) : (storedCore core cost f s pc).wf = true := by
  have hn := ThymeEffect.advance_charge_wf ((hf (fun k => Config.freeNat (s.free + k)) (s.core core)).wf (State.core_wf h core)) (s.core core) cost
  exact Core.wf_of_regs hn ⟨rfl, rfl⟩ rfl ⟨rfl, rfl, rfl⟩ rfl rfl

/-- An instruction whose effect keeps the canonical form keeps it on every core. -/
theorem coresWf_thymeRun {s : State} (h : s.coresWf = true) {core cost : Nat} {i : Instr} {f : (Nat → Nat) → Core → ThymeEffect}
    (hf : ∀ fr c, (f fr c).Keeps c) : (thymeRun core i cost f s).coresWf = true := by
  obtain hsame | ⟨z, pc, hz, hrun⟩ := thymeRun_cases core cost i f s
  · rwa [hsame]
  · have hset : z.coresWf = true := State.coresWf_of_put h (storedCore_wf h hf pc) (by rw [hz]) (by rw [hz])
    obtain hrun | ⟨how, hrun⟩ := hrun
    · rw [hrun]
      exact coresWf_takeInterrupt hset core
    · rw [hrun]
      exact coresWf_takeInterrupt (State.coresWf_endKernel hset core how) core

/-- Settles O56: by what every effect keeps, and the ways a core is stored. -/
theorem thymeKeepsCores : Obligations.ThymeKeepsCores := by
  unfold Obligations.ThymeKeepsCores
  rintro core src w i s t (hdec | rfl) h hexec
  · obtain ⟨hcore, -, hdest, -⟩ := decodeThyme_spells hdec
    obtain ⟨cost, f, hrun, hkeeps, -⟩ := exec_thyme hcore hdest
    cases (hrun s).symm.trans hexec
    exact coresWf_thymeRun h hkeeps
  · cases hexec
    exact coresWf_interruptEntry h core src

end Sys2Proof.Machine
end

section
/-! PROOFS. What one instruction leaves of its core and of the others: an instruction in line, the end of a kernel block, and what no kernel
may change (11 R462, R475, R476, R493-R496). -/
namespace Sys2Proof.Machine

/-! ### Other cores, and the memories of a core (R462) -/

/-- Every other core stands as it was, and the memories of one are the same. -/
def State.SameMems (core : Nat) (s t : State) : Prop := (s.core core).SameMem (t.core core) ∧ ∀ k, k ≠ core → t.core k = s.core k

theorem State.SameMems.refl (core : Nat) (s : State) : s.SameMems core s := ⟨.refl _, fun _ _ => rfl⟩

theorem State.SameMems.trans {core : Nat} {s t u : State} (hst : s.SameMems core t) (htu : t.SameMems core u) : s.SameMems core u :=
  ⟨hst.1.trans htu.1, fun k hk => (htu.2 k hk).trans (hst.2 k hk)⟩

/-- Cores that are stored in the table of another state. -/
theorem State.core_of_put {s t : State} {core : Nat} {c : Core} (ht : t.thyme.cores = put s.thyme.cores core c) :
    t.core core = c ∧ ∀ k, k ≠ core → t.core k = s.core k := by
  unfold State.core
  rw [ht]
  exact ⟨lookD_put_same .., fun k hk => lookD_put_ne _ hk.symm ..⟩

theorem State.core_of_thyme {s t : State} (ht : t.thyme = s.thyme) (k : Nat) : t.core k = s.core k := by rw [State.core, ht, State.core]

theorem State.sameMems_of_put {s t : State} {core : Nat} {c : Core} (ht : t.thyme.cores = put s.thyme.cores core c)
    (hc : (s.core core).SameMem c) : s.SameMems core t := by
  obtain ⟨hsame, hother⟩ := State.core_of_put ht
  exact ⟨by rwa [hsame], hother⟩

theorem State.sameMems_endKernel (s : State) (core : Nat) (how : KernelEnd) : s.SameMems core (s.endKernel core how) := by
  cases hrun : (s.core core).run with
  | none =>
    have heq : s.endKernel core how = s := by
      unfold State.endKernel
      simp only [hrun]
    rw [heq]
    exact .refl ..
  | some k =>
    obtain ⟨f, hcores, -⟩ := State.endKernel_cores (how := how) hrun
    exact State.sameMems_of_put hcores (Core.sameMem_left ..)

theorem State.sameMems_yieldCore (s : State) (core : Nat) : s.SameMems core (s.yieldCore core) := by
  obtain hsame | ⟨id, hset⟩ := s.yieldCore_thyme core
  · exact ⟨by rw [State.core_of_thyme hsame]; exact .refl _, fun k _ => State.core_of_thyme hsame k⟩
  · exact State.sameMems_of_put (c := { s.core core with run := none }) (by rw [hset]) (.refl _)

theorem sameMems_takeInterrupt (s : State) (core : Nat) : s.SameMems core (takeInterrupt core s) := by
  unfold takeInterrupt
  dsimp only
  split
  · exact .refl ..
  · split
    · exact .refl ..
    · next k _ =>
      have hyield : s.SameMems core (if k = 0 then s.yieldCore core else s) := by
        split
        · exact s.sameMems_yieldCore core
        · exact .refl ..
      exact hyield.trans (State.sameMems_of_put rfl (.refl _))

/-- An instruction leaves every other core, and of its own the program memory, what it keeps of firmware's words and what it stores. -/
theorem thymeRun_keepsFirmware {core cost : Nat} {i : Instr} {f : (Nat → Nat) → Core → ThymeEffect} (hf : ∀ fr c, (f fr c).Keeps c) (s : State) :
    ((thymeRun core i cost f s).core core).pm = (s.core core).pm ∧ (s.core core).KeepsFirmware ((thymeRun core i cost f s).core core) ∧
      ∀ k, k ≠ core → (thymeRun core i cost f s).core k = s.core k := by
  obtain hsame | ⟨z, pc, hz, hrun⟩ := thymeRun_cases core cost i f s
  · rw [hsame]
    exact ⟨rfl, .of_eq rfl rfl, fun _ _ => rfl⟩
  · obtain ⟨hcore, hother⟩ := State.core_of_put (s := s) (t := z) (core := core) (c := storedCore core cost f s pc) (by rw [hz])
    have hu : z.SameMems core (thymeRun core i cost f s) := by
      obtain hrun | ⟨how, hrun⟩ := hrun
      · rw [hrun]
        exact sameMems_takeInterrupt ..
      · rw [hrun]
        exact (State.sameMems_endKernel ..).trans (sameMems_takeInterrupt ..)
    obtain ⟨⟨hpm, hx, hy⟩, hu⟩ := hu
    have he := hf (fun k => Config.freeNat (s.free + k)) (s.core core)
    obtain ⟨hepm, hex, hey⟩ : (f (fun k => Config.freeNat (s.free + k)) (s.core core)).core.SameMem (storedCore core cost f s pc) :=
      ThymeEffect.advance_charge_sameMem _ (s.core core) cost
    refine ⟨?_, fun hkm => ?_, fun k hk => (hu k hk).trans (hother k hk)⟩
    · rw [hpm, hcore, hepm, he.regs]
    · rw [hx, hy, hcore, hex, hey]
      exact he.firmware hkm

/-- Settles O55: by what every effect keeps of firmware's words, and the memories that the end of a block and an interrupt leave. -/
theorem kernelsKeepFirmware : Obligations.KernelsKeepFirmware := by
  unfold Obligations.KernelsKeepFirmware
  rintro core w i s _ rfl hkm hdec
  obtain ⟨hcore, -, hdest, -⟩ := decodeThyme_spells hdec
  obtain ⟨cost, f, hrun, hkeeps, -⟩ := exec_thyme hcore hdest
  obtain ⟨hpm, hfirm, hother⟩ := thymeRun_keepsFirmware (cost := cost) (i := i) hkeeps s
  obtain ⟨hx, hy⟩ := hfirm hkm
  exact ⟨_, hrun s, hpm, hother, hx, hy⟩

/-! ### The end of a block (R493-R496) -/

section Ends
variable {core : Nat} {s : State} {k : KernelRun} {how : KernelEnd}

@[simp] theorem srKM_setBit_ten (sr : Word) : srKM (setBit sr 10 false) = false := by simp [srKM, setBit]

/-- What firmware finds of the core of a block. -/
theorem Core.left_eq (c : Core) (how : KernelEnd) (f : Nat) :
    (c.left how f).run = none ∧ (c.left how f).km = false ∧ (c.left how f).ipend = c.ipend ∧ (how ≠ .done → (c.left how f).pc = 0x18#14) := by
  cases how <;> simp [Core.left, Core.km]

/-- After the end of a block the core is firmware's, and it takes no interrupt while none waits. -/
theorem takeInterrupt_endKernel (hrun : (s.core core).run = some k) (hipend : (s.core core).ipend = 0#3) :
    takeInterrupt core (s.endKernel core how) = s.endKernel core how ∧ ∃ f, (s.endKernel core how).core core = (s.core core).left how f := by
  obtain ⟨f, hcores, -⟩ := State.endKernel_cores (how := how) hrun
  obtain ⟨hcore, -⟩ := State.core_of_put hcores
  exact ⟨takeInterrupt_none _ _ (by rw [hcore, (Core.left_eq ..).2.2.1, hipend]), f, hcore⟩

/-- How the block of a kernel ends with an instruction that leaves a core charged: by a fault, by END within its budget, or by its budget. -/
inductive EndsBlock (n : Core) (e : ThymeEffect) : KernelEnd → Prop
  | fault (h : e.fault ≠ 0) : EndsBlock n e (.fault e.fault)
  | done (h : e.fault = 0) (hends : e.ends = true) (hcyc : n.cyc.toNat ≤ n.budget.toNat) : EndsBlock n e .done
  | overrun (h : e.fault = 0) (hends : e.ends = false) (hcyc : n.budget.toNat ≤ n.cyc.toNat) : EndsBlock n e .overrun

/-- An instruction with which a block ends leaves what the end of a block leaves, of the core it stores. -/
theorem thymeRun_ends {cost : Nat} {i : Instr} {f : (Nat → Nat) → Core → ThymeEffect} {e : ThymeEffect}
    (he : f (fun k => Config.freeNat (s.free + k)) (s.core core) = e) (hcore : core < 64) (hkm : (s.core core).km = true)
    (hrun : (s.core core).run = some k) (hfetch : (s.core core).fetches core i = true)
    (hends : EndsBlock ((e.advance (s.core core)).charge (s.core core) cost) e how) :
    ∃ (z : State) (pc : Ptr), thymeRun core i cost f s = takeInterrupt core (z.endKernel core how) ∧
      z.core core = { (e.advance (s.core core)).charge (s.core core) cost with pc } ∧ z.media = s.media ∧ z.thyme.instances = s.thyme.instances := by
  have hruns : ¬ (64 ≤ core ∨ (s.core core).fetches core i = false) := by simp [hfetch, hcore]
  unfold thymeRun
  rw [if_neg hruns]
  simp only [he, hkm, hrun]
  cases hends with
  | fault h =>
    rw [if_pos h]
    exact ⟨_, _, rfl, State.core_setCore .., rfl, rfl⟩
  | done h hends hcyc =>
    rw [if_neg (not_not.mpr h), if_pos ⟨hends, hcyc⟩]
    exact ⟨_, _, rfl, State.core_setCore .., rfl, rfl⟩
  | overrun h hends hcyc =>
    rw [if_neg (not_not.mpr h), if_neg (by simp [hends]), if_pos hcyc]
    exact ⟨_, _, rfl, State.core_setCore .., rfl, rfl⟩

/-- What the end of a block leaves after an instruction without an effect of its own. -/
theorem thymeRun_endsBlock {cost : Nat} {i : Instr} {f : (Nat → Nat) → Core → ThymeEffect} {e : ThymeEffect} {o : Op}
    (he : f (fun k => Config.freeNat (s.free + k)) (s.core core) = e) (hcore : core < 64) (hkm : (s.core core).km = true)
    (hrun : (s.core core).run = some k) (hop : s.opAt k.op = some o) (hipend : (s.core core).ipend = 0#3)
    (hfetch : (s.core core).fetches core i = true) (hsame : e.core = s.core core)
    (hends : EndsBlock ((e.advance (s.core core)).charge (s.core core) cost) e how) :
    (((thymeRun core i cost f s).core core).run = none ∧ ((thymeRun core i cost f s).core core).km = false ∧
      (how ≠ .done → ((thymeRun core i cost f s).core core).pc = 0x18#14)) ∧
    look (thymeRun core i cost f s).thyme.instances k.inst = some ((lookD s.thyme.instances k.inst {}).after (s.core core) k how) ∧
    look (thymeRun core i cost f s).thyme.blocks k.inst = some ((s.core core).blockOut how) := by
  obtain ⟨z, pc, hu, hz, hmedia, hinst⟩ := thymeRun_ends (cost := cost) he hcore hkm hrun hfetch hends
  rw [e.advance_eq, hsame] at hz
  have hzrun : (z.core core).run = some k := by rw [hz]; exact hrun
  have hzop : z.opAt k.op = some o := by rwa [State.opAt, hmedia]
  obtain ⟨htake, -⟩ := takeInterrupt_endKernel (how := how) hzrun (by rw [hz]; exact hipend)
  obtain ⟨kernels, old, f', hend⟩ := State.endKernel_thyme (how := how) hzrun hzop
  obtain ⟨hleft, -⟩ := State.core_of_put (s := z) (t := z.endKernel core how) (by rw [hend])
  obtain ⟨hnone, hkm', -, hpc⟩ := (z.core core).left_eq how f'
  rw [hu, htake, hleft, hend, hinst, look_put_same, look_put_same]
  have hafter : (lookD s.thyme.instances k.inst {}).after (z.core core) k how = (lookD s.thyme.instances k.inst {}).after (s.core core) k how := by
    rw [hz]
    cases how <;> rfl
  have hblock : (z.core core).blockOut how = (s.core core).blockOut how := by
    rw [hz]
    cases how <;> rfl
  exact ⟨⟨hnone, hkm', hpc⟩, congrArg some hafter, congrArg some hblock⟩

/-- The cycles of a kernel that an instruction of one cycle has been charged. -/
theorem Core.toNat_cyc_charge {c n : Core} (hkm : c.km = true) (hcyc : c.cyc.toNat + 1 < 2 ^ 32) : (n.charge c 1).cyc.toNat = c.cyc.toNat + 1 := by
  simp only [Core.charge, hkm, if_true, BitVec.toNat_add, BitVec.toNat_ofNat]
  omega

end Ends

/-- Settles O54: END, BRK and NOP store their core as it is, and the block ends by each as `EndsBlock` says. -/
theorem thymeBlocksEnd : Obligations.ThymeBlocksEnd := by
  unfold Obligations.ThymeBlocksEnd
  rintro core s _ k o rfl hcore hkm hrun hop hipend hcyc
  have hbudget : ∀ e : ThymeEffect, e.core = s.core core →
      ((e.advance (s.core core)).charge (s.core core) 1).budget = (s.core core).budget := fun e he => by
    rw [e.advance_eq, he]
    rfl
  refine ⟨fun hfetch hle => ?_, fun hfetch => ?_, fun hfetch hle => ?_⟩
  · obtain ⟨⟨hnone, hoff, -⟩, hinst, hblock⟩ := thymeRun_endsBlock (cost := 1) (i := .thEnd core)
      (f := fun _ c => { core := c, ends := true }) rfl hcore hkm hrun hop hipend hfetch rfl
      (.done rfl rfl (by rwa [hbudget _ rfl, Core.toNat_cyc_charge hkm hcyc]))
    exact ⟨_, rfl, hnone, hoff, hinst, hblock⟩
  · obtain ⟨⟨hnone, hoff, hpc⟩, hinst, hblock⟩ := thymeRun_endsBlock (cost := 1) (i := .thBrk core)
      (f := fun _ c => { core := c, fault := 6 }) rfl hcore hkm hrun hop hipend hfetch rfl (.fault (Nat.succ_ne_zero 5))
    exact ⟨_, _, rfl, hnone, hoff, hpc nofun, hinst, rfl, rfl, hblock⟩
  · obtain ⟨⟨hnone, hoff, hpc⟩, hinst, hblock⟩ := thymeRun_endsBlock (cost := 1) (i := .thNop core)
      (f := fun _ c => { core := c }) rfl hcore hkm hrun hop hipend hfetch rfl
      (.overrun rfl rfl (by rwa [hbudget _ rfl, Core.toNat_cyc_charge hkm hcyc]))
    exact ⟨_, _, rfl, hnone, hoff, hpc nofun, hinst, rfl, rfl, hblock⟩

end Sys2Proof.Machine
end

section
/-! PROOFS. Branches, repetitions and the control class of a thyme core (11 R473, R475, R476, R491). -/
namespace Sys2Proof.Machine

/-- Where no block runs, an instruction stores its core and nothing else happens while no interrupt waits. -/
theorem thymeRun_stores {core cost : Nat} {i : Instr} {f : (Nat → Nat) → Core → ThymeEffect} {s : State} {e : ThymeEffect}
    (he : f (fun k => Config.freeNat (s.free + k)) (s.core core) = e) (hblock : (s.core core).km = true → (s.core core).run = none)
    (hcore : core < 64) (hfetch : (s.core core).fetches core i = true) (hipend : (e.advance (s.core core)).ipend = 0#3) :
    thymeRun core i cost f s = { s.setCore core ((e.advance (s.core core)).charge (s.core core) cost) with free := s.free + e.draws } := by
  have hruns : ¬ (64 ≤ core ∨ (s.core core).fetches core i = false) := by simp [hfetch, hcore]
  unfold thymeRun
  rw [if_neg hruns]
  simp only [he]
  split
  · next hkm hrun => exact nomatch (hblock hkm).symm.trans hrun
  · exact takeInterrupt_none _ _ ((congrArg Core.ipend (State.core_setCore ..)).trans hipend)

/-- An instruction that goes on at an address leaves its core charged, or ends the block of a kernel by a fault. -/
theorem thymeRun_core {core cost : Nat} {i : Instr} {f : (Nat → Nat) → Core → ThymeEffect} {s : State} {dest : Ptr} {e : ThymeEffect}
    (he : f (fun k => Config.freeNat (s.free + k)) (s.core core) = e) (hkeeps : e.Keeps (s.core core))
    (hgoes : (s.core core).goes core i cost dest = true) (hends : e.ends = false) (hpc : (e.advance (s.core core)).pc = dest) :
    (s.core core).km = true ∧ ((thymeRun core i cost f s).core core).km = false ∨
      ∃ pc, (thymeRun core i cost f s).core core = { (e.advance (s.core core)).charge (s.core core) cost with pc } ∧
        ((thymeRun core i cost f s).core core).pc = dest := by
  have hadv := e.advance_eq (s.core core)
  rw [hkeeps.regs] at hadv
  by_cases hfault : (s.core core).km = true → e.fault = 0
  · rw [thymeRun_goes e he.symm hgoes hfault (fun _ => hends) hpc (by rw [hadv]) (by rw [hadv])]
    exact .inr ⟨_, State.core_setCore .., (congrArg Core.pc (State.core_setCore ..)).trans hpc⟩
  · obtain ⟨hkm, hfault⟩ := Classical.not_imp.mp hfault
    simp only [Core.goes, Bool.and_eq_true, lt, decide_eq_true_eq, beq_iff_eq] at hgoes
    obtain ⟨⟨⟨hcore, hipend⟩, hfetch⟩, -⟩ := hgoes
    cases hrun : (s.core core).run with
    | some k =>
      obtain ⟨z, pc, hu, hz, -⟩ := thymeRun_ends (cost := cost) he hcore hkm hrun hfetch (.fault hfault)
      rw [hadv] at hz
      obtain ⟨htake, f', hleft⟩ := takeInterrupt_endKernel (s := z) (how := .fault e.fault) (by rw [hz]; exact hrun) (by rw [hz]; exact hipend)
      rw [hu, htake, hleft]
      exact .inl ⟨hkm, (Core.left_eq ..).2.1⟩
    | none =>
      rw [thymeRun_stores he (fun _ => hrun) hcore hfetch (by rw [hadv]; exact hipend)]
      exact .inr ⟨_, State.core_setCore .., (congrArg Core.pc (State.core_setCore ..)).trans hpc⟩

/-- So does an instruction in line, at one cycle. -/
theorem exec_inLine {core : Nat} {i : Instr} {w : Word} {s : State} {dest : Ptr} (hdec : decodeThyme core w = some i)
    (hline : leavesLine i = false) (hgoes : (s.core core).goes core i 1 dest = true)
    (hpc : ∀ e : ThymeEffect, e.InLine → (s.core core).WritesRegs e.core → (e.advance (s.core core)).pc = dest) :
    ∃ u, exec i s = .next u ∧ ((s.core core).km = true ∧ (u.core core).km = false ∨
      (u.core core).pc = dest ∧ ∃ e : ThymeEffect, e.InLine ∧ (s.core core).WritesRegs e.core ∧
        (u.core core).delay = (e.advance (s.core core)).delay ∧ (u.core core).rep = (e.advance (s.core core)).rep) := by
  obtain ⟨hcore, -, hdest, -⟩ := decodeThyme_spells hdec
  obtain ⟨cost, f, hrun, hkeeps, hinline⟩ := exec_thyme hcore hdest
  obtain ⟨rfl, hin⟩ := hinline hline
  refine ⟨_, hrun s, ?_⟩
  have he := hin (fun k => Config.freeNat (s.free + k)) (s.core core)
  obtain hfault | ⟨pc, hu, hdest⟩ := thymeRun_core (cost := 1) (f := f) rfl (hkeeps ..) hgoes he.2.2.2 (hpc _ he (hkeeps ..).regs)
  · exact .inl hfault
  · exact .inr ⟨hdest, _, he, (hkeeps ..).regs, by rw [hu]; rfl, by rw [hu]; rfl⟩

/-! ### Delay slots and repetitions (R475, R476) -/

section Advance
variable {e : ThymeEffect} {b : Core} {n : Nat}

/-- In a delay slot execution goes on to the next one, and after the last at the target. -/
theorem ThymeEffect.advance_slot {t : Ptr} (he : e.InLine) (hrep : b.rep = none) (hdelay : b.delay = some (n + 1, t)) :
    (e.advance b).pc = (if n = 0 then t else b.pc + 1) ∧ (e.advance b).delay = (if n = 0 then none else some (n, t)) := by
  obtain ⟨hbranch, hjump, hnorep, -⟩ := he
  cases n <;> simp [ThymeEffect.advance, hbranch, hjump, hnorep, hrep, hdelay]

/-- A repeated instruction is executed again until its count has run out. -/
theorem ThymeEffect.advance_repeat (he : e.InLine) (hcore : b.WritesRegs e.core) (hdelay : b.delay = none) (hrep : b.rep = some (n + 1)) :
    (e.advance b).pc = (if n = 0 then b.pc + 1 else b.pc) ∧ (e.advance b).rep = (if n = 0 then none else some n) := by
  obtain ⟨hbranch, hjump, hnorep, -⟩ := he
  have hpc : e.core.pc = b.pc := by rw [hcore]
  cases n <;> simp [ThymeEffect.advance, hbranch, hjump, hnorep, hrep, hdelay, hpc]

end Advance

/-! ### Branches (R475) -/

section Branches
variable {core : Nat} {s : State} {i : Instr} {f : (Nat → Nat) → Core → ThymeEffect} {t : Ptr}

/-- A branch at a clean boundary leaves its return stack and is followed by two delay slots. -/
theorem thymeRun_branches {stack : List Ptr} (hf : ∀ fr, f fr (s.core core) = { core := { s.core core with stack }, branch := some t })
    (hclean : (s.core core).clean = true) (hgoes : (s.core core).goes core i 1 ((s.core core).pc + 1) = true) :
    thymeRun core i 1 f s = s.setCore core { (s.core core).after 1 ((s.core core).pc + 1) with delay := some (2, t), stack } := by
  obtain ⟨-, hrep, hstale⟩ := Core.clean_iff.mp hclean
  rw [thymeRun_goes _ (hf _).symm hgoes (fun _ => rfl) (fun _ => rfl) rfl rfl rfl]
  refine congrArg (s.setCore core) (?_ : _ = ({ (s.core core).after 1 _ with delay := _, stack := _ } : Core))
  simp only [ThymeEffect.advance, Core.charge, Core.after, hrep, hstale]

/-- A relative target is the address plus the signed displacement, modulo 2^14. -/
theorem Core.rel_eq (c : Core) (d : BitVec 16) : c.rel d = BitVec.ofInt 14 (c.pc.toNat + d.toInt) := by
  have hd := BitVec.toInt_eq_toNat_bmod d
  rw [Int.bmod_def] at hd
  apply BitVec.eq_of_toNat_eq
  simp only [Core.rel, BitVec.toNat_add, BitVec.toNat_setWidth, BitVec.toNat_ofInt]
  omega

/-- A branch that pushes nothing. -/
theorem thymeRun_goesTo (hf : ∀ fr, f fr (s.core core) = { core := s.core core, branch := some t })
    (hclean : (s.core core).clean = true) (hgoes : (s.core core).goes core i 1 ((s.core core).pc + 1) = true) :
    thymeRun core i 1 f s = s.setCore core { (s.core core).after 1 ((s.core core).pc + 1) with delay := some (2, t) } :=
  thymeRun_branches (stack := (s.core core).stack) hf hclean hgoes

/-- A call with room on its stack pushes the branch address + 3. -/
theorem Core.call_taken {c : Core} (hroom : c.stack.length < if c.km then 6 else 8) (fr : Nat → Nat) :
    c.call fr true t = { core := { c with stack := (c.pc + 3) :: c.stack }, branch := some t } := by
  have hkm : ¬ (c.km = true ∧ 6 ≤ c.stack.length) := fun ⟨hkm, hlen⟩ => by simp only [hkm, if_true] at hroom; omega
  have hlen : ¬ 8 ≤ c.stack.length := by split at hroom <;> omega
  simp [Core.call, Core.push, hkm, hlen, Core.branchTo]

theorem Core.call_not_taken {c : Core} (hroom : c.stack.length < 8) (fr : Nat → Nat) :
    c.call fr false t = { core := c, branch := some (c.pc + 3) } := by
  simp [Core.call, Core.branchTo, Nat.not_le.mpr hroom]

end Branches

/-- Settles O51: a branch is `thymeRun_branches` with its target and its return stack, and a slot is `ThymeEffect.advance_slot`. -/
theorem thymeBranches : Obligations.ThymeBranches := by
  unfold Obligations.ThymeBranches
  rintro core disp gs s _ _ rfl rfl hclean
  refine ⟨fun cond taken hmem => ?_, fun hgoes => ?_, fun hgoes hroom => ?_, fun a rest hgoes hstack => ?_, ?_, fun hgoes => ?_⟩
  · have htaken : condHolds cond (s.core core).sr = taken := by
      simp only [List.mem_cons, Prod.mk.injEq, List.not_mem_nil, or_false] at hmem
      obtain ⟨rfl, rfl⟩ | ⟨rfl, rfl⟩ | ⟨rfl, rfl⟩ | ⟨rfl, rfl⟩ | ⟨rfl, rfl⟩ | ⟨rfl, rfl⟩ | ⟨rfl, rfl⟩ | ⟨rfl, rfl⟩ | ⟨rfl, rfl⟩ | ⟨rfl, rfl⟩ |
        ⟨rfl, rfl⟩ | ⟨rfl, rfl⟩ | ⟨rfl, rfl⟩ := hmem
      all_goals rfl
    refine ⟨fun hgoes => ?_, fun hgoes htake hroom => ?_, fun hgoes htake hroom => ?_⟩
    · exact congrArg Host.Outcome.next (thymeRun_goesTo (fun _ => by rw [htaken, Core.rel_eq]; rfl) hclean hgoes)
    · exact congrArg Host.Outcome.next (thymeRun_branches (fun fr => by rw [htaken, htake, Core.rel_eq]; exact Core.call_taken hroom fr) hclean hgoes)
    · refine ⟨_, congrArg Host.Outcome.next
        (thymeRun_goesTo (fun fr => by rw [htaken, htake]; exact Core.call_not_taken hroom fr) hclean hgoes), ?_⟩
      rw [State.core_setCore]
      exact ⟨rfl, rfl⟩
  · exact congrArg Host.Outcome.next (thymeRun_goesTo (fun _ => rfl) hclean hgoes)
  · exact congrArg Host.Outcome.next (thymeRun_branches (Core.call_taken hroom) hclean hgoes)
  · exact congrArg Host.Outcome.next (thymeRun_branches (fun fr => by simp only [thyRet, hstack]) hclean hgoes)
  · rintro i w n t dest z hdec hline hrep hdelay rfl hgoes
    obtain ⟨u, hexec, hfault | ⟨hpc, e, he, -, hslot, -⟩⟩ :=
      exec_inLine hdec hline hgoes fun e he _ => (ThymeEffect.advance_slot he hrep hdelay).1
    · exact ⟨u, hexec, .inl hfault⟩
    · exact ⟨u, hexec, .inr ⟨hpc, hslot.trans (ThymeEffect.advance_slot he hrep hdelay).2⟩⟩
  · obtain ⟨hdelay, -, -⟩ := Core.clean_iff.mp hclean
    refine ⟨_, exec_thReti hclean hgoes, ?_⟩
    rw [State.core_setCore]
    exact ⟨rfl, hdelay⟩

/-! ### REP and the control class (R473, R476, R491) -/

section Control
variable {core : Nat} {s : State} {n : Nat}

theorem exec_thRep {src : RepSrc} (hn : (s.core core).repCount src = n) (hclean : (s.core core).clean = true) (hpos : n ≠ 0)
    (hgoes : (s.core core).goes core (.thRep core src) 1 ((s.core core).pc + 1) = true) :
    exec (.thRep core src) s = .next (s.setCore core { (s.core core).after 1 ((s.core core).pc + 1) with rep := some n }) := by
  obtain ⟨-, -, hstale⟩ := Core.clean_iff.mp hclean
  obtain ⟨m, rfl⟩ := Nat.exists_eq_succ_of_ne_zero hpos
  have hadv : ThymeEffect.advance { core := s.core core, rep := some (m + 1) } (s.core core) =
      { s.core core with stale := none, pc := (s.core core).pc + 1, rep := some (m + 1) } := rfl
  refine congrArg Host.Outcome.next ((thymeRun_goes { core := s.core core, rep := some (m + 1) } (by rw [hn]) hgoes (fun _ => rfl) (fun _ => rfl)
    rfl rfl rfl).trans (congrArg (s.setCore core) ?_))
  rw [hadv, ← hstale]
  rfl

theorem exec_thRep_zero {src : RepSrc} (hn : (s.core core).repCount src = 0) (hclean : (s.core core).clean = true)
    (hgoes : (s.core core).goes core (.thRep core src) 1 ((s.core core).pc + 2) = true) :
    exec (.thRep core src) s = .next (s.setCore core ((s.core core).after 1 ((s.core core).pc + 2))) := by
  obtain ⟨-, hrep, hstale⟩ := Core.clean_iff.mp hclean
  refine congrArg Host.Outcome.next ((thymeRun_goes { core := s.core core, rep := some 0 } (by rw [hn]) hgoes (fun _ => rfl) (fun _ => rfl)
    rfl rfl rfl).trans (congrArg (s.setCore core) ?_))
  simp only [ThymeEffect.advance, Core.charge, Core.after, hrep, hstale]

/-- An effect of SR alone. -/
theorem thymeRun_writesSr {i : Instr} {f : (Nat → Nat) → Core → ThymeEffect} {sr : Word}
    (hf : ∀ fr, f fr (s.core core) = { core := { s.core core with sr } }) (hclean : (s.core core).clean = true)
    (hgoes : (s.core core).goes core i 1 ((s.core core).pc + 1) = true) :
    thymeRun core i 1 f s = s.setCore core { (s.core core).after 1 ((s.core core).pc + 1) with sr } :=
  thymeRun_writesData (n := s.core core) hf rfl hclean hgoes fun _ => rfl

/-- Outside a kernel END and BRK advance. -/
theorem thymeRun_advances {i : Instr} {f : (Nat → Nat) → Core → ThymeEffect} {e : ThymeEffect} (hf : ∀ fr, f fr (s.core core) = e)
    (he : e = { core := s.core core, fault := e.fault, ends := e.ends }) (hclean : (s.core core).clean = true) (hkm : (s.core core).km = false)
    (hcore : core < 64) (hipend : (s.core core).ipend = 0#3) :
    thymeRun core i 1 f s = s.setCore core ((s.core core).after 1 ((s.core core).pc + 1)) := by
  have hadv := e.advance_clean (s.core core) hclean (by rw [he]) (by rw [he]) (by rw [he])
  have hfetch : (s.core core).fetches core i = true := by simp [Core.fetches, hkm]
  rw [thymeRun_stores (hf _) (fun h => absurd (hkm.symm.trans h) nofun) hcore hfetch (by rw [hadv, he]; exact hipend), hadv, he]
  exact congrArg (s.setCore core) (Core.charge_of_writesData (sr := (s.core core).sr) rfl hclean)

end Control

/-- Settles O52: REP writes its count, a repetition is `ThymeEffect.advance_repeat`, and the rest write SR or nothing. -/
theorem thymeControl : Obligations.ThymeControl := by
  unfold Obligations.ThymeControl
  rintro core s _ _ rfl rfl
  refine ⟨fun hclean src n hsrc => ?_, ?_, fun hclean => ⟨fun hgoes => ?_, fun hgoes => ?_, fun hgoes => ?_, fun hkm hcore hipend => ⟨?_, ?_⟩⟩⟩
  · have hn : (s.core core).repCount src = n := by
      obtain ⟨rfl, hlt⟩ | ⟨gs, rfl, rfl⟩ := hsrc
      · exact BitVec.toNat_ofNat .. |>.trans (Nat.mod_eq_of_lt hlt)
      · rfl
    exact ⟨fun hgoes hpos => exec_thRep hn hclean hpos hgoes, fun hgoes h0 => exec_thRep_zero (hn.trans h0) hclean hgoes⟩
  · rintro i w n dest hdec hline hdelay hrep rfl hgoes
    obtain ⟨u, hexec, hfault | ⟨hpc, e, he, hcore, -, hcount⟩⟩ :=
      exec_inLine hdec hline hgoes fun e he hcore => (ThymeEffect.advance_repeat he hcore hdelay hrep).1
    · exact ⟨u, hexec, .inl hfault⟩
    · exact ⟨u, hexec, .inr ⟨hpc, hcount.trans (ThymeEffect.advance_repeat he hcore hdelay hrep).2⟩⟩
  · exact congrArg Host.Outcome.next (thymeRun_writesSr (sr := (s.core core).sr) (fun _ => rfl) hclean hgoes)
  · exact congrArg Host.Outcome.next (thymeRun_writesSr (fun _ => rfl) hclean hgoes)
  · exact congrArg Host.Outcome.next (thymeRun_writesSr (fun _ => rfl) hclean hgoes)
  · exact congrArg Host.Outcome.next (thymeRun_advances (fun _ => rfl) rfl hclean hkm hcore hipend)
  · exact congrArg Host.Outcome.next (thymeRun_advances (fun _ => rfl) rfl hclean hkm hcore hipend)

end Sys2Proof.Machine
end

section
/-! PROOFS. ALU instructions, LDI, STA and MOVE of a thyme core (11 R465, R466, R473, R474, R489, R490). -/
namespace Sys2Proof.Machine

/-! ### SR after an ALU instruction (R465, R489) -/

theorem getLsbD_setBit (w : Word) {i : Nat} (hi : i < 32) (v : Bool) (k : Nat) : (setBit w i v).getLsbD k = if k = i then v else w.getLsbD k := by
  by_cases hk : k = i
  · subst hk
    cases v <;> simp [setBit, hi]
  · have hbit : (1#32 <<< i).getLsbD k = false := by
      simp only [BitVec.getLsbD_shiftLeft, BitVec.getLsbD_one]
      by_cases hlt : k < i
      · simp [hlt]
      · simp [show k - i ≠ 0 by omega]
    cases v
    · by_cases hlt : k < 32
      · rw [if_neg hk, setBit, if_neg Bool.false_ne_true, BitVec.getLsbD_and, BitVec.getLsbD_not, hbit]
        simp [hlt]
      · simp [setBit, hk, BitVec.getLsbD_of_ge _ _ (Nat.not_lt.mp hlt)]
    · rw [if_neg hk, setBit, if_pos rfl, BitVec.getLsbD_or, hbit, Bool.or_false]

/-- The flags, and every other bit, of SR after an ALU instruction. -/
theorem getLsbD_srAlu (sr r : Word) (cy v : Bool) (k : Nat) : (srAlu sr r cy v).getLsbD k =
    if k = 3 then v else if k = 2 then cy else if k = 1 then r.getLsbD 31 else if k = 0 then r == 0#32 else sr.getLsbD k := by
  simp only [srAlu, getLsbD_setBit _ (show 3 < 32 by decide), getLsbD_setBit _ (show 2 < 32 by decide), getLsbD_setBit _ (show 1 < 32 by decide),
    getLsbD_setBit _ (show 0 < 32 by decide)]

theorem srBANK_srAlu (sr r : Word) (cy v : Bool) : srBANK (srAlu sr r cy v) = srBANK sr := getLsbD_srAlu sr r cy v 9

/-- SR and a register are written in either order while BANK stays. -/
theorem Core.setG_with_sr (c : Core) {sr : Word} (hbank : srBANK sr = srBANK c.sr) (i : Nat) (w : Word) :
    ({ c with sr } : Core).setG i w = { c.setG i w with sr } := by
  simp only [Core.setG, Core.modBank, hbank]
  split <;> rfl

section Alu
variable {core : Nat} {s : State} {i : Instr} {F : (Nat → Nat) → Core → ThymeEffect} {sr r : Word} {gd : Nat}

/-- An effect that writes one register and bits of SR but BANK. -/
theorem thymeRun_setG (hF : ∀ fr, F fr (s.core core) = { core := { (s.core core).setG gd r with sr } }) (hbank : srBANK sr = srBANK (s.core core).sr)
    (hclean : (s.core core).clean = true) (hgoes : (s.core core).goes core i 1 ((s.core core).pc + 1) = true) :
    thymeRun core i 1 F s = s.setCore core (({ (s.core core).after 1 ((s.core core).pc + 1) with sr } : Core).setG gd r) := by
  rw [thymeRun_writesData hF (Core.writesData_setG ..) hclean hgoes fun _ => rfl]
  refine congrArg (s.setCore core) (Eq.trans ?_ (Core.setG_with_sr ((s.core core).after 1 ((s.core core).pc + 1)) hbank gd r).symm)
  rw [Core.setG_after]

theorem Core.aluOp_eq (c : Core) (gd gs1 : BitVec 4) (b : AluSrc) (f : Word → Word → Word × Bool × Bool) :
    c.aluOp gd gs1 b f = { core := { c.setG gd.toNat (f (c.gReg gs1.toNat) (c.aluSrc b)).1 with
      sr := srAlu c.sr (f (c.gReg gs1.toNat) (c.aluSrc b)).1 (f (c.gReg gs1.toNat) (c.aluSrc b)).2.1 (f (c.gReg gs1.toNat) (c.aluSrc b)).2.2 } } := by
  simp only [Core.aluOp, (c.writesData_setG _ _).sr_eq]

end Alu

/-! ### Results (R489) -/

theorem toInt_ofInt_word (v : Int) : (BitVec.ofInt 32 v).toInt = v ↔ -2 ^ 31 ≤ v ∧ v < 2 ^ 31 := by
  rw [BitVec.toInt_ofInt, Int.bmod_def]
  omega

/-- A signed result overflows when the word does not hold it. -/
theorem outside32_eq (v : Int) : outside32 v = decide ((BitVec.ofInt 32 v).toInt ≠ v) := by
  have h := toInt_ofInt_word v
  simp only [outside32, ne_eq, h, ← Bool.decide_or]
  exact decide_eq_decide.mpr (by omega)

theorem ofInt_add_toInt (x y : Word) : BitVec.ofInt 32 (x.toInt + y.toInt) = x + y := by rw [BitVec.ofInt_add, BitVec.ofInt_toInt, BitVec.ofInt_toInt]

theorem ofInt_sub_toInt (x y : Word) : BitVec.ofInt 32 (x.toInt - y.toInt) = x - y := by
  rw [Int.sub_eq_add_neg, BitVec.ofInt_add, BitVec.ofInt_neg, BitVec.ofInt_toInt, BitVec.ofInt_toInt, BitVec.sub_eq_add_neg]

theorem outside32_add (x y : Word) : outside32 (x.toInt + y.toInt) = decide ((x + y).toInt ≠ x.toInt + y.toInt) := by
  rw [outside32_eq, ofInt_add_toInt]

theorem outside32_sub (x y : Word) : outside32 (x.toInt - y.toInt) = decide ((x - y).toInt ≠ x.toInt - y.toInt) := by
  rw [outside32_eq, ofInt_sub_toInt]

theorem ofInt_mul_toInt (x y : Word) : BitVec.ofInt 32 (x.toInt * y.toInt) = x * y := by rw [BitVec.ofInt_mul, BitVec.ofInt_toInt, BitVec.ofInt_toInt]

/-- The lesser and the greater word are words of the lesser and the greater value. -/
theorem aluMin_eq (x y : Word) : aluMin x y = (BitVec.ofInt 32 (min x.toInt y.toInt), false, false) := by
  unfold aluMin
  split
  · next h => rw [min_eq_left h, BitVec.ofInt_toInt]
  · next h => rw [min_eq_right (by omega), BitVec.ofInt_toInt]

theorem aluMax_eq (x y : Word) : aluMax x y = (BitVec.ofInt 32 (max x.toInt y.toInt), false, false) := by
  unfold aluMax
  split
  · next h => rw [max_eq_right h, BitVec.ofInt_toInt]
  · next h => rw [max_eq_left (by omega), BitVec.ofInt_toInt]

theorem satWord_eq (v : Int) : satWord v = BitVec.ofInt 32 (max (-2 ^ 31) (min v (2 ^ 31 - 1))) := rfl

/-- Settles O48: each function's result and flags are those that `Core.aluOp` writes. -/
theorem thymeAlu : Obligations.ThymeAlu := by
  unfold Obligations.ThymeAlu
  rintro core gd gs1 b s _ i x y r cy v rfl hclean rfl hreg himm hmem hgoes
  obtain rfl : y = (s.core core).aluSrc b := by
    cases b with
    | reg gs2 => exact hreg gs2 rfl
    | imm v => exact himm v rfl
  refine ⟨srAlu (s.core core).sr r cy v, getLsbD_srAlu .., getLsbD_srAlu .., getLsbD_srAlu .., getLsbD_srAlu .., fun k hk => ?_, ?_⟩
  · rw [getLsbD_srAlu, if_neg (by omega), if_neg (by omega), if_neg (by omega), if_neg (by omega)]
  suffices h : (i = .thCmp core gs1 b ∧ aluSub ((s.core core).gReg gs1.toNat) ((s.core core).aluSrc b) = (r, cy, v)) ∨
      i ≠ .thCmp core gs1 b ∧ ∃ f, exec i s = .next (thymeRun core i 1 (fun _ c => c.aluOp gd gs1 b f) s) ∧
        f ((s.core core).gReg gs1.toNat) ((s.core core).aluSrc b) = (r, cy, v) by
    obtain ⟨rfl, hf⟩ | ⟨hne, f, hexec, hf⟩ := h
    · rw [if_pos rfl]
      exact congrArg Host.Outcome.next (thymeRun_writesSr (fun _ => by simp only [thyCmp, hf]) hclean hgoes)
    · rw [if_neg hne, hexec]
      exact congrArg Host.Outcome.next
        (thymeRun_setG (fun _ => by rw [Core.aluOp_eq, hf]) (srBANK_srAlu ..) hclean hgoes)
  simp only [List.mem_cons, Prod.mk.injEq, List.not_mem_nil, or_false, ← outside32_add, ← outside32_sub, ofInt_mul_toInt, ← satWord_eq] at hmem
  obtain ⟨rfl, rfl, rfl, rfl⟩ | ⟨rfl, rfl, rfl, rfl⟩ | ⟨rfl, rfl, rfl, rfl⟩ | ⟨rfl, rfl, rfl, rfl⟩ | ⟨rfl, rfl, rfl, rfl⟩ | ⟨rfl, rfl, rfl, rfl⟩ |
    ⟨rfl, rfl, rfl, rfl⟩ | ⟨rfl, rfl, rfl, rfl⟩ | ⟨rfl, rfl, rfl, rfl⟩ | ⟨rfl, rfl, rfl, rfl⟩ | ⟨rfl, rfl, rfl, rfl⟩ | ⟨rfl, rfl, rfl, rfl⟩ | ⟨rfl, rfl, rfl, rfl⟩ |
    ⟨rfl, rfl, rfl, rfl⟩ | ⟨rfl, rfl, rfl, rfl⟩ := hmem
  on_goal 15 => exact .inl ⟨rfl, rfl⟩
  on_goal 12 => exact .inr ⟨nofun, _, rfl, aluMax_eq ..⟩
  on_goal 11 => exact .inr ⟨nofun, _, rfl, aluMin_eq ..⟩
  all_goals exact .inr ⟨nofun, _, rfl, rfl⟩

end Sys2Proof.Machine
end

section
/-! PROOFS. LDI, STA and MOVE of a thyme core (11 R466, R474, R490). -/
namespace Sys2Proof.Machine

/-! ### Words (R490) -/

/-- The bits above the low word of an accumulator, signed. -/
theorem staGuard_eq (a : Acc) : staGuard a = BitVec.ofInt 32 (a.toInt / 2 ^ 32) := by
  have hguard : (a.extractLsb' 32 8).toInt = a.toInt / 2 ^ 32 := by
    rw [BitVec.toInt_eq_toNat_bmod, BitVec.toInt_eq_toNat_bmod, BitVec.extractLsb'_toNat, Int.bmod_def, Int.bmod_def, Nat.shiftRight_eq_div_pow]
    omega
  rw [← hguard]
  rfl

theorem ldiUpper_eq (imm : BitVec 16) (g : Word) :
    imm ++ g.extractLsb' 0 16 = BitVec.ofNat 32 (imm.toNat * 65536 + g.toNat % 65536) := by
  apply BitVec.eq_of_toNat_eq
  rw [BitVec.toNat_append, BitVec.toNat_ofNat, BitVec.extractLsb'_toNat, Nat.shiftRight_zero,
    ← Nat.shiftLeft_add_eq_or_of_lt (Nat.mod_lt _ (by decide)), Nat.shiftLeft_eq]
  omega

theorem accHigh_eq (w : Word) (a : Acc) :
    (w.setWidth 8) ++ a.extractLsb' 0 32 = BitVec.ofNat 40 (w.toNat % 256 * 2 ^ 32 + a.toNat % 2 ^ 32) := by
  apply BitVec.eq_of_toNat_eq
  rw [BitVec.toNat_append, BitVec.toNat_ofNat, BitVec.extractLsb'_toNat, Nat.shiftRight_zero, BitVec.toNat_setWidth,
    ← Nat.shiftLeft_add_eq_or_of_lt (Nat.mod_lt _ (by decide)), Nat.shiftLeft_eq]
  omega

theorem rel_setWidth (c : Core) (imm : BitVec 16) : (c.rel imm).setWidth 32 = BitVec.ofInt 32 ((c.pc.toNat + imm.toInt) % 2 ^ 14) := by
  rw [Core.rel_eq]
  apply BitVec.eq_of_toNat_eq
  simp only [BitVec.toNat_setWidth, BitVec.toNat_ofInt]
  omega

/-- The run of bits that repeat the sign ends at the first that differs. -/
theorem signRun_eq (a : Acc) : ∀ k n : Nat, k < n → (∀ j, n - k ≤ j → j < n → a.getLsbD j = a.getLsbD 39) →
    a.getLsbD (n - k - 1) ≠ a.getLsbD 39 → signRun a n = k
  | 0, n + 1, _, _, hend => if_neg (by simpa using hend)
  | k + 1, n + 1, hlt, hrun, hend => by
    have hbit : a.getLsbD n = a.getLsbD 39 := hrun n (by omega) (by omega)
    rw [signRun, if_pos (by simpa using hbit), signRun_eq a k n (by omega) (fun j hge hlt => hrun j (by omega) (by omega))
      (by rwa [show n - k - 1 = n + 1 - (k + 1) - 1 by omega]), Nat.add_comm]

theorem toInt_staNorm {a : Acc} {k : Nat} (hk : k ≤ 38) (hrun : ∀ j, 38 - k < j → j < 39 → a.getLsbD j = a.getLsbD 39)
    (hend : a.getLsbD (38 - k) ≠ a.getLsbD 39) : (staNorm a).toInt = (k : Int) - 8 := by
  rw [staNorm, signRun_eq a k 39 (by omega) (fun j hge hlt => hrun j (by omega) hlt) (by rwa [show 39 - k - 1 = 38 - k by omega]),
    toInt_ofInt_word]
  omega

theorem outside32_acc (v : Int) : outside32 v = decide (v < -2 ^ 31 ∨ 2 ^ 31 ≤ v) := by
  simp only [outside32, ← Bool.decide_or]
  exact decide_eq_decide.mpr (by omega)

/-- SAT16: the rounded value, saturated to 16 bits, in the upper half. -/
theorem staSat16_eq {a : Acc} {v : Int} (hpos : 0 ≤ a.toInt → v = (a.toInt + 2 ^ 15) / 2 ^ 16) (hneg : a.toInt < 0 → v = -((2 ^ 15 - a.toInt) / 2 ^ 16)) :
    staSat16 a = (BitVec.ofInt 32 (max (-2 ^ 15) (min v (2 ^ 15 - 1)) * 2 ^ 16), decide (v < -2 ^ 15 ∨ 2 ^ 15 ≤ v)) := by
  have hv : (if 0 ≤ a.toInt then (a.toInt + 32768) / 65536 else -((-a.toInt + 32768) / 65536)) = v := by
    split
    · next h => rw [hpos h]; norm_num
    · next h => rw [hneg (by omega)]; omega
  have hsat : satS 16 v = max (-2 ^ 15) (min v (2 ^ 15 - 1)) := rfl
  simp only [staSat16, hv, hsat, Prod.mk.injEq]
  refine ⟨?_, decide_eq_decide.mpr (by omega)⟩
  apply BitVec.eq_of_toNat_eq
  rw [BitVec.toNat_append, BitVec.toNat_ofInt, BitVec.toNat_ofInt, BitVec.toNat_ofNat, Nat.zero_mod, Nat.or_zero, Nat.shiftLeft_eq]
  omega

/-! ### MOVE (R466, R474, R490) -/

section Move
variable {core : Nat} {s : State}

/-- At a clean boundary a MOVE stores the core it has written, with the old value it leaves to address generation. -/
theorem exec_thMove {dst src : MoveReg} {n : Core} (hdst : dst.writable = true) (hn : (s.core core).moveWrite ((s.core core).moveRead src) dst = some n)
    (hclean : (s.core core).clean = true) (hgoes : (s.core core).goes core (.thMove core dst src) 1 ((s.core core).pc + 1) = true) :
    exec (.thMove core dst src) s = .next (s.setCore core
      (({ n with stale := (s.core core).staleOf dst, pc := (s.core core).pc + 1, rep := none } : Core).charge (s.core core) 1)) := by
  have hkeeps := (thyMove_keeps dst src (s.core core)).regs
  have hadv := (thyMove dst src (s.core core)).advance_clean (s.core core) hclean rfl rfl rfl
  have hcore : (thyMove dst src (s.core core)).core = n := by simp only [thyMove, hn, Option.getD_some]
  have hrun := thymeRun_goes (f := fun _ c => thyMove dst src c) _ rfl hgoes (fun _ => rfl) (fun _ => rfl) (by rw [hadv])
    (by rw [hadv, hkeeps]) (by rw [hadv, hkeeps])
  rw [hadv, hcore] at hrun
  exact (if_pos (.inl hdst)).trans (congrArg Host.Outcome.next hrun)

/-- A MOVE into a register that none writes is refused. -/
theorem exec_thMove_refused {dst src : MoveReg} (hdst : dst.writable = false)
    (hfetch : (s.core core).fetches core (.thMove core dst src) = true) : exec (.thMove core dst src) s = .refused .reservedEncoding :=
  if_neg fun h => by simp [hdst, hfetch] at h

/-- A core that has written its bank, charged. -/
theorem Core.charge_modBank {c : Core} (hclean : c.clean = true) (f : Bank → Bank) (stale : Option (Bool × Nat × Word)) :
    ({ c.modBank f with stale, pc := c.pc + 1, rep := none } : Core).charge c 1 = { (c.after 1 (c.pc + 1)).modBank f with stale } := by
  obtain ⟨-, hrep, -⟩ := Core.clean_iff.mp hclean
  rw [Core.modBank_after]
  unfold Core.modBank
  split
  · simp only [Core.charge, Core.after, Core.km, hrep]
    rfl
  · simp only [Core.charge, Core.after, Core.km, hrep]
    rfl

/-- A register of the bank in use, once written, leaves no old value behind but that of a pointer. -/
theorem Core.stale_modBank_after {c : Core} (hclean : c.clean = true) (f : Bank → Bank) :
    { (c.after 1 (c.pc + 1)).modBank f with stale := none } = (c.after 1 (c.pc + 1)).modBank f := by
  obtain ⟨-, -, hstale⟩ := Core.clean_iff.mp hclean
  unfold Core.modBank
  split <;> simp only [Core.after, hstale]

/-- A core that has written its bank, charged, when it leaves no old value. -/
theorem Core.charge_modBank_none {c : Core} (hclean : c.clean = true) (f : Bank → Bank) :
    ({ c.modBank f with stale := none, pc := c.pc + 1, rep := none } : Core).charge c 1 = (c.after 1 (c.pc + 1)).modBank f :=
  (Core.charge_modBank hclean f none).trans (Core.stale_modBank_after hclean f)

end Move

/-- Settles O50: LDI and STA write their register by `thymeRun_setG`, and a MOVE what `Core.moveWrite` gives. -/
theorem thymeMovesOfData : Obligations.ThymeMovesOfData := by
  unfold Obligations.ThymeMovesOfData
  rintro core gd imm ai s _ _ _ rfl hclean rfl rfl
  refine ⟨fun i w hmem hgoes => ?_, fun h0 => by rw [h0]; decide, fun k hk hrun hend => toInt_staNorm hk hrun hend, fun i w clips hmem hgoes => ?_,
    fun v hpos hneg => by rw [staSat16_eq hpos hneg]; exact ⟨rfl, rfl⟩, ?_⟩
  · suffices h : ∃ f : (Nat → Nat) → Core → ThymeEffect, exec i s = .next (thymeRun core i 1 f s) ∧
        ∀ fr, f fr (s.core core) = { core := (s.core core).setG gd.toNat w } by
      obtain ⟨f, hexec, hf⟩ := h
      rw [hexec]
      exact congrArg Host.Outcome.next (thymeRun_setG (sr := (s.core core).sr)
        (fun fr => (hf fr).trans (by rw [← (Core.writesData_setG ..).sr_eq])) rfl hclean hgoes)
    simp only [List.mem_cons, Prod.mk.injEq, List.not_mem_nil, or_false, ← staGuard_eq, ← ldiUpper_eq, ← rel_setWidth] at hmem
    obtain ⟨rfl, rfl⟩ | ⟨rfl, rfl⟩ | ⟨rfl, rfl⟩ | ⟨rfl, rfl⟩ | ⟨rfl, rfl⟩ | ⟨rfl, rfl⟩ := hmem
    all_goals exact ⟨_, rfl, fun _ => rfl⟩
  · suffices h : ∃ f : (Nat → Nat) → Core → ThymeEffect, exec i s = .next (thymeRun core i 1 f s) ∧
        ∀ fr, f fr (s.core core) = (s.core core).staOp gd (w, clips) by
      obtain ⟨f, hexec, hf⟩ := h
      rw [hexec]
      refine congrArg Host.Outcome.next (thymeRun_setG (fun fr => (hf fr).trans ?_) ?_ hclean hgoes)
      · simp only [Core.staOp, ((s.core core).writesData_setG _ _).sr_eq]
      · cases clips
        · rfl
        · exact getLsbD_setBit _ (show 5 < 32 by decide) true 9
    simp only [List.mem_cons, Prod.mk.injEq, List.not_mem_nil, or_false, ← outside32_acc, ← satWord_eq] at hmem
    obtain ⟨rfl, rfl, rfl⟩ | ⟨rfl, rfl, rfl⟩ := hmem
    all_goals exact ⟨_, rfl, fun _ => rfl⟩
  · intro src dst w e hg hp hm hal hag hsr hira hisr himask hipend hcyc hbudget hsp dg dp dm dal dag dsr dira disr dimask hgoes
    have hw : w = (s.core core).moveRead src := by
      cases src with
      | g k => exact hg k rfl
      | p k => exact hp k rfl
      | m k => exact hm k rfl
      | al k => exact hal k rfl
      | ag k => exact (hag k rfl).trans (staGuard_eq _).symm
      | sr => exact hsr rfl
      | ira => exact hira rfl
      | isr => exact hisr rfl
      | imask => exact himask rfl
      | ipend => exact hipend rfl
      | cyc => exact hcyc rfl
      | budget => exact hbudget rfl
      | sp => exact hsp rfl
    obtain ⟨hdelay, hrep, hstale⟩ := Core.clean_iff.mp hclean
    refine ⟨fun hdst => ?_, fun hdst => exec_thMove_refused hdst ?_⟩
    · suffices h : ∃ n, (s.core core).moveWrite w dst = some n ∧
          ({ n with stale := (s.core core).staleOf dst, pc := (s.core core).pc + 1, rep := none } : Core).charge (s.core core) 1 = e by
        obtain ⟨n, hn, he⟩ := h
        rw [exec_thMove hdst (hw ▸ hn) hclean hgoes, he]
      cases dst with
      | g k => exact ⟨_, rfl, (Core.charge_modBank_none hclean _).trans (dg k rfl).symm⟩
      | p k => exact ⟨_, rfl, (Core.charge_modBank hclean _ _).trans (dp k rfl).symm⟩
      | m k => exact ⟨_, rfl, by rw [dm k rfl]; simp only [Core.setMod, Core.charge, Core.after, Core.staleOf, hrep]⟩
      | al k => exact ⟨_, rfl, (Core.charge_modBank_none hclean _).trans (dal k rfl).symm⟩
      | ag k => exact ⟨_, rfl, (Core.charge_modBank_none hclean _).trans (by rw [dag k rfl, accHigh_eq]; rfl)⟩
      | sr => exact ⟨_, rfl, by rw [dsr rfl]; simp only [Core.charge, Core.after, Core.staleOf, hrep, hstale]; rfl⟩
      | ira => exact ⟨_, rfl, by rw [dira rfl]; simp only [Core.charge, Core.after, Core.staleOf, hrep, hstale]⟩
      | isr => exact ⟨_, rfl, by rw [disr rfl]; simp only [Core.charge, Core.after, Core.staleOf, hrep, hstale]⟩
      | imask => exact ⟨_, rfl, by rw [dimask rfl]; simp only [Core.charge, Core.after, Core.staleOf, hrep, hstale]⟩
      | ipend => exact nomatch hdst
      | cyc => exact nomatch hdst
      | budget => exact nomatch hdst
      | sp => exact nomatch hdst
    · simp only [Core.goes, Bool.and_eq_true] at hgoes
      exact hgoes.1.2

end Sys2Proof.Machine
end

section
/-! PROOFS. Parallel moves and pointer updates of a thyme core (11 R470, R471, R474, R488). -/
namespace Sys2Proof.Machine

/-! ### Registers of the bank in use (R465) -/

section Bank
variable (c : Core) (i : Nat)

@[simp] theorem Core.bank_modBank (f : Bank → Bank) : (c.modBank f).bank = f c.bank := by
  unfold Core.modBank
  by_cases h : srBANK c.sr = true <;> simp [Core.bank, h]

@[simp] theorem Core.gReg_setG (w : Word) (k : Nat) : (c.setG i w).gReg k = if i = k then w else c.gReg k := by
  simp [Core.gReg, Core.setG, memRead_memWrite]

@[simp] theorem Core.ptr_setG (w : Word) (k : Nat) : (c.setG i w).ptr k = c.ptr k := by simp [Core.ptr, Core.setG]

@[simp] theorem Core.acc_setG (w : Word) (k : Nat) : (c.setG i w).acc k = c.acc k := by simp [Core.acc, Core.setG]

@[simp] theorem Core.gReg_setPtr (p : Ptr) (k : Nat) : (c.setPtr i p).gReg k = c.gReg k := by simp [Core.gReg, Core.setPtr]

@[simp] theorem Core.ptr_setPtr (p : Ptr) (k : Nat) : (c.setPtr i p).ptr k = if i = k then p else c.ptr k := by
  simp [Core.ptr, Core.setPtr, memRead_memWrite]

@[simp] theorem Core.acc_setPtr (p : Ptr) (k : Nat) : (c.setPtr i p).acc k = c.acc k := by simp [Core.acc, Core.setPtr]

end Bank

/-! ### The two moves of an instruction of firmware (R474, R488) -/

/-- What the two moves of an instruction write but the registers: memories, SR, modifiers and what is kept for address generation. -/
theorem Core.writesData_fixed {c n : Core} (h : c.WritesData n) : n.sr = c.sr ∧ n.m = c.m ∧ n.stale = c.stale ∧ n.km = c.km := by
  have hm : n.m = c.m := by rw [h]
  have hstale : n.stale = c.stale := by rw [h]
  exact ⟨h.sr_eq, hm, hstale, by rw [Core.km, h.sr_eq, Core.km]⟩

section Moves
variable {c : Core}

theorem updatePtr_zero (p : Ptr) (m : Word) : updatePtr 0 p m = p := rfl

/-- Where no old value is kept, a post-update writes its pointer. -/
theorem Core.postUpdate_eq (hstale : c.stale = none) (i upd : Nat) :
    (∀ k, (c.postUpdate i upd).ptr k = if i = k then updatePtr upd (c.ptr i) (c.mod i) else c.ptr k) ∧
      (∀ k, (c.postUpdate i upd).gReg k = c.gReg k) ∧ (∀ k, (c.postUpdate i upd).acc k = c.acc k) ∧
      (c.postUpdate i upd).x = c.x ∧ (c.postUpdate i upd).y = c.y := by
  have hag : c.agPtr i = c.ptr i ∧ c.agMod i = c.mod i := by simp [Core.agPtr, Core.agMod, hstale]
  unfold Core.postUpdate
  simp only [hstale, hag]
  split
  · next h =>
    subst h
    refine ⟨fun k => ?_, fun _ => rfl, fun _ => rfl, rfl, rfl⟩
    split
    · next h => rw [← h, updatePtr_zero]
    · rfl
  · exact ⟨fun k => by rw [Core.ptr_setPtr], fun _ => by simp, fun _ => by simp, Core.modBank_x ..⟩

/-- The pointers after both post-updates: each move has its own. -/
theorem Core.postUpdates_eq (hstale : c.stale = none) (i xu yu : Nat) {j : Nat} (hne : i ≠ j) :
    ((c.postUpdate i xu).postUpdate j yu).ptr i = updatePtr xu (c.ptr i) (c.mod i) ∧
      ((c.postUpdate i xu).postUpdate j yu).ptr j = updatePtr yu (c.ptr j) (c.mod j) ∧
      (∀ k, k ≠ i → k ≠ j → ((c.postUpdate i xu).postUpdate j yu).ptr k = c.ptr k) ∧
      (∀ k, ((c.postUpdate i xu).postUpdate j yu).gReg k = c.gReg k) ∧ (∀ k, ((c.postUpdate i xu).postUpdate j yu).acc k = c.acc k) ∧
      ((c.postUpdate i xu).postUpdate j yu).x = c.x ∧ ((c.postUpdate i xu).postUpdate j yu).y = c.y := by
  obtain ⟨-, hm, hstale', -⟩ := Core.writesData_fixed (c.writesData_postUpdate i xu)
  obtain ⟨hptr, hg, ha, hx, hy⟩ := Core.postUpdate_eq hstale i xu
  obtain ⟨hptr', hg', ha', hx', hy'⟩ := Core.postUpdate_eq (hstale'.trans hstale) j yu
  have hmod : (c.postUpdate i xu).mod j = c.mod j := by rw [Core.mod, hm, Core.mod]
  refine ⟨?_, ?_, fun k hi hj => ?_, fun k => (hg' k).trans (hg k), fun k => (ha' k).trans (ha k), hx'.trans hx, hy'.trans hy⟩
  · rw [hptr', if_neg hne.symm, hptr, if_pos rfl]
  · rw [hptr', if_pos rfl, hptr, if_neg hne, hmod]
  · rw [hptr', if_neg hj.symm, hptr, if_neg hi.symm]

variable {xm ym : PMove} (hkm : c.km = false) (hclean : c.clean = true) (hxen : xm.en = true) (hyen : ym.en = true) (hyst : ym.st = false)
include hkm hclean hxen hyen hyst

/-- Two loads of firmware. -/
theorem Core.moves_loads (hxst : xm.st = false) : (c.moves xm ym).2 =
    (((c.postUpdate xm.ptr.toNat xm.upd.toNat).postUpdate (ym.ptr.toNat + 4) ym.upd.toNat).setG xm.reg.toNat
      (memRead 0#32 c.x (c.ptr xm.ptr.toNat).toNat)).setG ym.reg.toNat (memRead 0#32 c.y (c.ptr (ym.ptr.toNat + 4)).toNat) := by
  simp [Core.moves, Core.moveLoad, Core.moveStore, Core.moveUpdate, Core.setLoaded, Core.load_of_not_km hkm, Core.agPtr_of_clean hclean, hxen, hyen,
    hxst, hyst]

/-- A store to X beside a load from Y. -/
theorem Core.moves_store (hxst : xm.st = true) : ∃ wx, (c.moves xm ym).2 =
    (((({ c with x := memWrite 0#32 c.x (c.ptr xm.ptr.toNat).toNat (c.gReg xm.reg.toNat), wroteX := wx } : Core).postUpdate
      xm.ptr.toNat xm.upd.toNat).postUpdate (ym.ptr.toNat + 4) ym.upd.toNat).setG ym.reg.toNat
        (memRead 0#32 c.y (c.ptr (ym.ptr.toNat + 4)).toNat)) := by
  have hok : ∀ a, c.km = true → kernelWrites false a = true := fun a h => absurd (hkm.symm.trans h) nofun
  obtain ⟨wx, wy, hstore⟩ := Core.store_of_writable (hok (c.ptr xm.ptr.toNat).toNat) (c.gReg xm.reg.toNat)
  exact ⟨wx, by simp [Core.moves, Core.moveLoad, Core.moveStore, Core.moveUpdate, Core.setLoaded, Core.load_of_not_km hkm,
    Core.agPtr_of_clean hclean, hstore, hxen, hyen, hxst, hyst]⟩

/-- Registers, memories and pointers after the two moves, the second a load. -/
theorem Core.moves_firmware {n : Core} (hn : (c.moves xm ym).2 = n) :
    n.gReg ym.reg.toNat = memRead 0#32 c.y (c.ptr (ym.ptr.toNat + 4)).toNat ∧
      (xm.st = false → xm.reg ≠ ym.reg → n.gReg xm.reg.toNat = memRead 0#32 c.x (c.ptr xm.ptr.toNat).toNat) ∧
      (xm.st = false → ∀ k, k ≠ xm.reg.toNat → k ≠ ym.reg.toNat → n.gReg k = c.gReg k) ∧ (xm.st = false → n.x = c.x) ∧
      (xm.st = true → memRead 0#32 n.x (c.ptr xm.ptr.toNat).toNat = c.gReg xm.reg.toNat ∧
        (∀ a, a ≠ (c.ptr xm.ptr.toNat).toNat → memRead 0#32 n.x a = memRead 0#32 c.x a) ∧ ∀ k, k ≠ ym.reg.toNat → n.gReg k = c.gReg k) ∧
      n.y = c.y ∧ n.sr = c.sr ∧ (∀ k, n.acc k = c.acc k) ∧ n.m = c.m ∧
      n.ptr xm.ptr.toNat = updatePtr xm.upd.toNat (c.ptr xm.ptr.toNat) (c.mod xm.ptr.toNat) ∧
      n.ptr (ym.ptr.toNat + 4) = updatePtr ym.upd.toNat (c.ptr (ym.ptr.toNat + 4)) (c.mod (ym.ptr.toNat + 4)) ∧
      ∀ k, k ≠ xm.ptr.toNat → k ≠ ym.ptr.toNat + 4 → n.ptr k = c.ptr k := by
  obtain ⟨-, -, hstale⟩ := Core.clean_iff.mp hclean
  obtain ⟨hsr, hm, -, -⟩ := Core.writesData_fixed (c.writesData_moves xm ym)
  rw [hn] at hsr hm
  have hne : xm.ptr.toNat ≠ ym.ptr.toNat + 4 := by
    have := xm.ptr.isLt
    omega
  cases hxst : xm.st with
  | false =>
    obtain ⟨hpx, hpy, hp, hg, ha, hx, hy⟩ := Core.postUpdates_eq hstale xm.ptr.toNat xm.upd.toNat ym.upd.toNat hne
    rw [Core.moves_loads hkm hclean hxen hyen hyst hxst] at hn
    subst hn
    have hregs : ∀ k, ((((c.postUpdate xm.ptr.toNat xm.upd.toNat).postUpdate (ym.ptr.toNat + 4) ym.upd.toNat).setG xm.reg.toNat
        (memRead 0#32 c.x (c.ptr xm.ptr.toNat).toNat)).setG ym.reg.toNat (memRead 0#32 c.y (c.ptr (ym.ptr.toNat + 4)).toNat)).gReg k =
          if ym.reg.toNat = k then memRead 0#32 c.y (c.ptr (ym.ptr.toNat + 4)).toNat
          else if xm.reg.toNat = k then memRead 0#32 c.x (c.ptr xm.ptr.toNat).toNat else c.gReg k := fun k => by simp [hg]
    refine ⟨by rw [hregs, if_pos rfl], fun _ hreg => ?_, fun _ k hkx hky => ?_, fun _ => ?_, nofun, ?_, hsr, fun k => by simp [ha], hm,
      by simp [hpx], by simp [hpy], fun k hkx hky => by simp [hp k hkx hky]⟩
    · rw [hregs, if_neg fun h => hreg (BitVec.eq_of_toNat_eq h.symm), if_pos rfl]
    · rw [hregs, if_neg hky.symm, if_neg hkx.symm]
    · rw [Core.setG, (Core.modBank_x ..).1, Core.setG, (Core.modBank_x ..).1, hx]
    · rw [Core.setG, (Core.modBank_x ..).2, Core.setG, (Core.modBank_x ..).2, hy]
  | true =>
    obtain ⟨wx, hstore⟩ := Core.moves_store hkm hclean hxen hyen hyst hxst
    obtain ⟨hpx, hpy, hp, hg, ha, hx, hy⟩ := Core.postUpdates_eq
      (c := { c with x := memWrite 0#32 c.x (c.ptr xm.ptr.toNat).toNat (c.gReg xm.reg.toNat), wroteX := wx })
      hstale xm.ptr.toNat xm.upd.toNat ym.upd.toNat hne
    rw [hstore] at hn
    subst hn
    refine ⟨by simp, nofun, nofun, nofun, fun _ => ?_, ?_, hsr, fun k => (Core.acc_setG ..).trans (ha k), hm, (Core.ptr_setG ..).trans hpx,
      (Core.ptr_setG ..).trans hpy, fun k hkx hky => (Core.ptr_setG ..).trans (hp k hkx hky)⟩
    · rw [Core.setG, (Core.modBank_x ..).1, hx]
      refine ⟨by simp [memRead_memWrite], fun a ha => by simp [memRead_memWrite, ha.symm], fun k hk => ?_⟩
      rw [← Core.setG, Core.gReg_setG, if_neg hk.symm]
      exact hg k
    · rw [Core.setG, (Core.modBank_x ..).2, hy]

end Moves

/-! ### Pointer updates (R470, R471) -/

/-- Linear steps, and the step of a reverse-carry pointer that is no M update, add their amount. -/
theorem updatePtr_linear {upd : Nat} {d : Int} {p : Ptr} {m : Word} (hstep : updStep upd m = d) (hupd : upd ≠ 0)
    (hmode : (m.extractLsb' 30 2).toNat ≠ 1) (hrev : ¬ ((m.extractLsb' 30 2).toNat = 2 ∧ upd = 2)) : updatePtr upd p m = p + BitVec.ofInt 14 d := by
  unfold updatePtr
  rw [if_neg hupd, if_neg hmode, if_neg hrev, hstep]

/-- The search for the least power of two finds it. -/
theorem log2Up_eq {l k : Nat} (hle : l ≤ 2 ^ k) (hleast : ∀ j < k, 2 ^ j < l) : ∀ fuel i, i ≤ k → k ≤ i + fuel → log2Up l fuel i = k
  | 0, i, hik, hki => by simp [log2Up]; omega
  | fuel + 1, i, hik, hki => by
    unfold log2Up
    split
    · next h =>
      by_contra hne
      exact absurd h (Nat.not_le.mpr (hleast i (by omega)))
    · next h =>
      have hne : i ≠ k := fun heq => h (heq ▸ hle)
      exact log2Up_eq hle hleast fuel (i + 1) (by omega) (by omega)

/-- A pointer with its lowest k bits replaced. -/
theorem toNat_withLow {k : Nat} (hk : k ≤ 14) (p : Ptr) {r : Nat} (hr : r < 2 ^ k) :
    (BitVec.ofNat 14 (p.toNat - p.toNat % 2 ^ k + r)).toNat = 2 ^ k * (p.toNat / 2 ^ k) + r := by
  have hp := p.isLt
  have hsplit := Nat.div_add_mod p.toNat (2 ^ k)
  have hpow : (2 : Nat) ^ 14 = 2 ^ k * 2 ^ (14 - k) := by rw [← Nat.pow_add]; congr 1; omega
  have hdiv : p.toNat / 2 ^ k < 2 ^ (14 - k) := Nat.div_lt_of_lt_mul (by omega)
  have hmul : 2 ^ k * (p.toNat / 2 ^ k + 1) ≤ 2 ^ k * 2 ^ (14 - k) := Nat.mul_le_mul_left _ hdiv
  rw [BitVec.toNat_ofNat, Nat.mod_eq_of_lt (by rw [Nat.mul_add] at hmul; omega)]
  omega

/-- A circular pointer stays within its buffer, and goes round. -/
theorem updatePtr_circular {upd k : Nat} {d : Int} {p : Ptr} {m : Word} (hstep : updStep upd m = d) (hupd : upd ≠ 0)
    (hmode : (m.extractLsb' 30 2).toNat = 1) (hle : (m.extractLsb' 16 14).toNat + 1 ≤ 2 ^ k)
    (hleast : ∀ j < k, 2 ^ j < (m.extractLsb' 16 14).toNat + 1) : ((updatePtr upd p m).toNat : Int) =
      p.toNat - p.toNat % 2 ^ k + ((p.toNat % 2 ^ k : Nat) + d) % ((m.extractLsb' 16 14).toNat + 1 : Nat) := by
  have hlen := (m.extractLsb' 16 14).isLt
  have hk : k ≤ 14 := by
    by_contra hgt
    have := hleast 14 (by omega)
    omega
  unfold updatePtr
  rw [if_neg hupd, if_pos hmode, hstep, log2Up_eq hle hleast 14 0 (by omega) (by omega)]
  have hnonneg := Int.emod_nonneg ((p.toNat % 2 ^ k : Nat) + d) (b := ((m.extractLsb' 16 14).toNat + 1 : Nat)) (by omega)
  have hlt := Int.emod_lt_of_pos ((p.toNat % 2 ^ k : Nat) + d) (b := ((m.extractLsb' 16 14).toNat + 1 : Nat)) (by omega)
  rw [toNat_withLow hk p (by omega)]
  have hsplit := Nat.div_add_mod p.toNat (2 ^ k)
  have hlow : ((p.toNat : Int) % 2 ^ k) = ((p.toNat % 2 ^ k : Nat) : Int) := by push_cast; rfl
  omega

/-- Reversal of the k lowest bits. -/
theorem revBits_lt : ∀ k v : Nat, revBits k v < 2 ^ k
  | 0, _ => by simp [revBits]
  | k + 1, v => by
    have := revBits_lt k (v / 2)
    have hbit : v % 2 * 2 ^ k ≤ 1 * 2 ^ k := Nat.mul_le_mul_right _ (by omega)
    rw [revBits, Nat.pow_succ]
    omega

theorem testBit_revBits : ∀ {k : Nat} (v : Nat) {i : Nat}, i < k → (revBits k v).testBit i = v.testBit (k - 1 - i)
  | k + 1, v, i, hi => by
    have hlt := revBits_lt k (v / 2)
    rw [revBits, Nat.mul_comm, Nat.testBit_two_pow_mul_add _ hlt]
    split
    · next h => rw [testBit_revBits _ h, Nat.testBit_div_two, show k - 1 - i + 1 = k + 1 - 1 - i by omega]
    · next h =>
      obtain rfl : i = k := by omega
      simp [Nat.testBit_zero]

/-- A reverse-carry pointer keeps its upper bits; its k lowest are the reverse of the sum of the reverses. -/
theorem updatePtr_reverse {k : Nat} {d : Int} {p : Ptr} {m : Word} (hstep : updStep 2 m = d) (hmode : (m.extractLsb' 30 2).toNat = 2)
    (hle : 2 ^ k ≤ (m.extractLsb' 16 14).toNat + 1) (hlt : (m.extractLsb' 16 14).toNat + 1 < 2 ^ (k + 1)) :
    (updatePtr 2 p m).toNat / 2 ^ k = p.toNat / 2 ^ k ∧ ∀ i < k, (updatePtr 2 p m).toNat.testBit i =
      (revBits k (p.toNat % 2 ^ k) + revBits k (d % (2 ^ k : Nat)).toNat).testBit (k - 1 - i) := by
  have hlen := (m.extractLsb' 16 14).isLt
  have hk : k ≤ 14 := by
    by_contra hgt
    have := Nat.pow_le_pow_right (show 0 < 2 by decide) (show 15 ≤ k by omega)
    omega
  have hlog : Nat.log2 ((m.extractLsb' 16 14).toNat + 1) = k := (Nat.log2_eq_iff (by omega)).mpr ⟨hle, hlt⟩
  have hptr : (updatePtr 2 p m).toNat =
      2 ^ k * (p.toNat / 2 ^ k) + revBits k ((revBits k (p.toNat % 2 ^ k) + revBits k (d % (2 ^ k : Nat)).toNat) % 2 ^ k) := by
    unfold updatePtr
    rw [if_neg (by decide), if_neg (by omega), if_pos ⟨hmode, rfl⟩, hstep, hlog]
    exact toNat_withLow hk p (revBits_lt ..)
  have hlow := revBits_lt k ((revBits k (p.toNat % 2 ^ k) + revBits k (d % (2 ^ k : Nat)).toNat) % 2 ^ k)
  rw [hptr]
  refine ⟨by rw [Nat.mul_add_div (Nat.two_pow_pos k), Nat.div_eq_of_lt hlow, Nat.add_zero], fun i hi => ?_⟩
  rw [Nat.testBit_two_pow_mul_add _ hlow, if_pos hi, testBit_revBits _ hi, Nat.testBit_mod_two_pow]
  simp [show k - 1 - i < k by omega]

/-- Settles O47: the moves as `Core.moves_loads` and `Core.moves_store` give them, and each kind of pointer update. -/
theorem thymeMoves : Obligations.ThymeMoves := by
  unfold Obligations.ThymeMoves
  refine ⟨?_, fun upd k d p m hmem => ?_⟩
  · rintro core xm ym s _ rfl hclean hkm hcore hipend hxen hyen hyst
    have hgoes : (s.core core).goes core (.thNopp core xm ym) 1 ((s.core core).pc + 1) = true := by
      simp [Core.goes, Core.fetches, lt, hkm, hcore, hipend]
    have hnone : (s.core core).km = true → ((s.core core).moves xm ym).1 = 0 := fun h => absurd (hkm.symm.trans h) nofun
    have hexec := exec_thNopp hclean hnone hgoes
    rw [Core.moves_after] at hexec
    refine ⟨_, _, hexec, rfl, fun k hk => State.core_setCore_ne _ hk.symm _, rfl, ?_⟩
    rw [State.core_setCore]
    exact Core.moves_firmware (n := ((s.core core).moves xm ym).2) hkm hclean hxen hyen hyst rfl
  · obtain ⟨hupd, hstep⟩ : upd ≠ 0 ∧ updStep upd m = d := by
      simp only [List.mem_cons, Prod.mk.injEq, List.not_mem_nil, or_false] at hmem
      obtain ⟨rfl, rfl⟩ | ⟨rfl, rfl⟩ | ⟨rfl, rfl⟩ := hmem
      all_goals exact ⟨by decide, rfl⟩
    refine ⟨updatePtr_zero p m, fun hmode => ?_, fun hmode hne => ?_, fun hmode hle hleast => ?_, fun hmode h2 hle hlt => ?_⟩
    · obtain hmode | hmode := hmode
      all_goals exact updatePtr_linear hstep hupd (by rw [hmode]; decide) (by rw [hmode]; exact fun h => absurd h.1 (by decide))
    · exact updatePtr_linear hstep hupd (by rw [hmode]; decide) fun h => hne h.2
    · exact updatePtr_circular hstep hupd (by rw [hmode]; rfl) hle hleast
    · subst h2
      exact updatePtr_reverse hstep (by rw [hmode]; rfl) hle hlt

end Sys2Proof.Machine
end

section
/-! PROOFS. Descriptors: what a ring does with one that it takes, and what waits, reads or is answered then (02 R90-R99, R112, R117, 03 R133,
R164, R165, 06 R284, R285, 13 R566). -/
namespace Sys2Proof.Machine

/-! ### The copy of a descriptor (02 R92, R121) -/

theorem PortOnly.eq_of_accept {s u : State} {p r op : Nat} {d : Desc} (h : PortOnly (s.accept p r op d).2 u) :
    u = { s with hosts := u.hosts, hostMem := u.hostMem, cnt := u.cnt, nextSeq := s.nextSeq + 1 } := by
  unfold PortOnly at h
  rw [h]
  rfl

section Accept
variable (s : State) (p r op : Nat) (d : Desc)

theorem State.accept_canIssue : ((s.accept p r op d).2.host p).canIssue = (s.host p).canIssue := by simp [State.accept_host]

end Accept

/-- An access that the bridge begins is appended. -/
theorem State.startDma_eq (s : State) (p r seq : Nat) (use : DmaUse) (desc : Desc) (gen : Nat) : s.startDma p r seq use desc gen = { s with
    dmas := s.dmas ++ [{ id := s.nextDma, port := p, ring := r, seq, use, issued := (s.host p).canIssue, desc, gen }]
    nextDma := s.nextDma + 1 } := rfl

/-! ### NOP and FENCE (R90, R96) -/

section Fences
variable {p r : Nat} {d : Desc} {s : State}

/-- A search of a table for a test that none of its rows passes finds at most the row that is put into it. -/
theorem find?_put {α : Type} {P : Nat × α → Bool} {k : Nat} {a : α} : ∀ {t : Tab α}, (∀ kv ∈ t, P kv = false) →
    (put t k a).find? P = if P (k, a) then some (k, a) else none
  | [], _ => by
    simp only [put, List.find?_cons, List.find?_nil]
    cases P (k, a) <;> rfl
  | (j, v) :: t, h => by
    obtain ⟨hj, ht⟩ := List.forall_mem_cons.mp h
    have hnone : t.find? P = none := List.find?_eq_none.mpr fun kv hkv => by simp [ht kv hkv]
    have ih := find?_put (k := k) (a := a) ht
    unfold put
    split
    · cases hP : P (k, a) <;> simp [hP, hj, hnone]
    · split
      · next hk =>
        cases hP : P (k, a) <;> simp [hP, hnone]
      · rw [List.find?_cons, hj, ih]

/-- No ring of a port stands at a fence. -/
def HostPort.noFence (h : HostPort) : Prop := h.sq.all (fun kv => kv.2.fence.isNone) = true

theorem HostPort.noFence_modSq {h : HostPort} (hno : h.noFence) (i : Nat) {f : SqState → SqState} (hf : ∀ q, (f q).fence = q.fence) :
    (h.modSq i f).noFence := h.modSq_fence i f hf hno

theorem HostPort.fence_of_noFence {h : HostPort} (hno : h.noFence) (i : Nat) : (h.sqAt i).fence = none :=
  Option.isNone_iff_eq_none.mp (all_lookD (fun q : SqState => q.fence.isNone) {} rfl i _ hno)

theorem State.noFence_putCompl (hno : (s.host p).noFence) (o : Outstanding) (status result : Nat) (tick : Option Nat) :
    ((s.putCompl p r o status result tick).host p).noFence := by
  unfold State.putCompl
  dsimp only
  split
  · rw [State.host_modHost]
    exact HostPort.noFence_modSq hno _ fun _ => rfl
  · split
    · rw [State.host_modHost]
      exact HostPort.noFence_modSq (f := fun q => { q with out := q.out.drop 1 }) hno r fun _ => rfl
    · rw [State.host_modHost, HostPort.noFence, HostPort.coalesce_sq]
      exact HostPort.noFence_modSq (f := fun q => { q with out := q.out.drop 1 }) hno r fun _ => rfl

theorem flushFrom_noFence : ∀ (l : List Outstanding) {s : State}, (s.host p).noFence → ((flushFrom p r l s).host p).noFence
  | [], _, hno => hno
  | o :: rest, s, hno => by
    unfold flushFrom
    split
    · exact flushFrom_noFence rest (State.noFence_putCompl hno ..)
    · exact hno

/-- Deciding a descriptor leaves no fence where there is none. -/
theorem State.noFence_resolve_flush (hno : (s.host p).noFence) (seq status result : Nat) (tick : Option Nat) (obj : Nat) :
    (((s.resolve p r seq status result tick obj).flush p r).host p).noFence := by
  refine flushFrom_noFence _ ?_
  rw [State.resolve, State.host_modHost]
  exact HostPort.noFence_modSq hno _ fun _ => rfl

/-- The copy of a FENCE that stands at its ring. -/
def State.fenced (s : State) (p r : Nat) (d : Desc) (rings : List Nat) : State :=
  (s.accept p r 0x0C d).2.modHost p (fun h => h.modSq r (fun q => { q with fence := some (s.nextSeq, rings) }))

theorem State.fenced_host (rings : List Nat) : (s.fenced p r d rings).host p = (s.host p).modSq r (fun q => { q with
    fetched := q.fetched + 1, prod := max q.prod (q.fetched + 1), fence := some (s.nextSeq, rings)
    out := q.out ++ [{ seq := s.nextSeq, tag := d.tag, opcode := 0x0C, objKind := ((kindOf 0x0C).map (·.handle)).getD 0, obj := d.handle }] }) := by
  rw [State.fenced, State.host_modHost, State.accept_host]
  simp only [HostPort.modSq, adjD, put_put, lookD_put_same]

theorem State.idleRing_iff : s.idleRing p r = true ↔ ((s.host p).sqAt r).out = [] ∧ (s.host p).noFence ∧ (s.host p).canIssue = true := by
  simp [State.idleRing, HostPort.noFence, and_assoc]

/-- What a FENCE does on an idle ring: nothing more while its rings are not done, else it is answered. -/
theorem settleFences_fenced (hidle : s.idleRing p r = true) (rings : List Nat) :
    settleFences p 64 (s.fenced p r d rings) = if ((s.fenced p r d rings).host p).fenceMet s.nextSeq rings = true then
      settleFences p 63 ((((s.fenced p r d rings).modHost p (fun h => h.modSq r (fun q => { q with fence := none }))).resolve p r s.nextSeq
        stOk 0 none 0).flush p r)
    else s.fenced p r d rings := by
  obtain ⟨-, hno, -⟩ := State.idleRing_iff.mp hidle
  obtain ⟨q, hq, hsq⟩ : ∃ q : SqState, q.fence = some (s.nextSeq, rings) ∧ ((s.fenced p r d rings).host p).sq = put (s.host p).sq r q :=
    ⟨_, rfl, congrArg HostPort.sq (State.fenced_host rings)⟩
  have hnone : ∀ kv ∈ (s.host p).sq, kv.2.fence = none := fun kv hkv => Option.isNone_iff_eq_none.mp (List.all_eq_true.mp hno kv hkv)
  rw [settleFences, hsq, find?_put fun kv hkv => by simp only [hnone kv hkv]]
  by_cases hmet : ((s.fenced p r d rings).host p).fenceMet s.nextSeq rings = true
  · simp only [hq, hmet, if_true, Option.map_some, Option.getD_some]
  · simp only [hq, hmet, Bool.false_eq_true, if_false]

/-- The FENCE itself is no descriptor fetched before it. -/
theorem State.fenceMet_fenced (hidle : s.idleRing p r = true) (rings : List Nat) :
    ((s.fenced p r d rings).host p).fenceMet s.nextSeq rings = true ↔
      ∀ i ∈ rings, i ≠ r → ∀ o ∈ ((s.host p).sqAt i).out, s.nextSeq ≤ o.seq := by
  obtain ⟨hout, -, -⟩ := State.idleRing_iff.mp hidle
  simp only [HostPort.fenceMet, List.all_eq_true, decide_eq_true_eq, State.fenced_host]
  refine forall₂_congr fun i hi => ?_
  by_cases hir : i = r
  · subst hir
    simp [hout]
  · rw [HostPort.sqAt_modSq_ne _ (Ne.symm hir)]
    exact ⟨fun h _ => h, fun h => h hir⟩

/-- A FENCE whose rings are done is answered. -/
theorem State.fence_answered (htakes : s.takes p r 0x0C d = true) (hidle : s.idleRing p r = true) (rings : List Nat)
    (hmet : ∀ i ∈ rings, i ≠ r → ∀ o ∈ ((s.host p).sqAt i).out, s.nextSeq ≤ o.seq) :
    s.answered (settleFences p 64 (s.fenced p r d rings)) p r d.tag stOk 0 ∧
      (((settleFences p 64 (s.fenced p r d rings)).host p).sqAt r).fence = none := by
  obtain ⟨hopen, -⟩ := (State.takes_iff s p r 0x0C d).mp htakes
  obtain ⟨hout, hno, hissue⟩ := State.idleRing_iff.mp hidle
  have hhalt : ((s.host p).cqAt ((s.host p).cqOf r)).halted = false := by
    simp only [State.ringOpen, Bool.and_eq_true, Bool.not_eq_true'] at hopen
    exact hopen.1.2
  rw [settleFences_fenced hidle, if_pos ((State.fenceMet_fenced hidle rings).mpr hmet)]
  generalize hy : (s.fenced p r d rings).modHost p (fun h => h.modSq r (fun q => { q with fence := none })) = y
  have hhost : y.host p = (s.host p).modSq r (fun q => { q with
      fetched := q.fetched + 1, prod := max q.prod (q.fetched + 1), fence := none
      out := q.out ++ [{ seq := s.nextSeq, tag := d.tag, opcode := 0x0C, objKind := ((kindOf 0x0C).map (·.handle)).getD 0, obj := d.handle }] }) := by
    rw [← hy, State.host_modHost, State.fenced_host]
    simp only [HostPort.modSq, adjD, put_put, lookD_put_same]
  have hyno : (y.host p).noFence := by
    rw [hhost]
    exact all_put (fun kv : Nat × SqState => kv.2.fence.isNone) r _ rfl _ hno
  have hflush := State.noFence_resolve_flush (r := r) hyno s.nextSeq stOk 0 none 0
  rw [settleFences_none _ _ _ hflush, ← settleFences_none p 64 _ hflush]
  refine ⟨?_, ?_⟩
  · have hans := State.complete_one y p r s.nextSeq stOk 0 none
      { seq := s.nextSeq, tag := d.tag, opcode := 0x0C, objKind := ((kindOf 0x0C).map (·.handle)).getD 0, obj := d.handle }
      (by simp [hhost, hout]) rfl rfl (by simpa [hhost] using hhalt) (by simpa [hhost] using hissue) hyno
    simpa [State.answered, hhost, State.complete] using hans
  · rw [settleFences_none p 64 _ hflush]
    exact HostPort.fence_of_noFence hflush r

/-- The rings that a FENCE names, its own among them. -/
def fenceRings (d : Desc) (r : Nat) : List Nat := (List.range 64).filter (fun i => bit (dfld d 16 8) i || i == r)

theorem exec_fence {t : Nat} (htakes : (s.at t).takes p r 0x0C d = true) :
    exec (.fence t p r d) s = .next (settleFences p 64 ((s.at t).fenced p r d (fenceRings d r))) :=
  congrArg Host.Outcome.next (fetchDesc_takes 0x0C p r d _ _ (s.at t) htakes)

end Fences

/-- Settles O1: a NOP is completed at once; a FENCE stands at its ring until `HostPort.fenceMet`. -/
theorem nopAndFenceAreAnswered : Obligations.NopAndFenceAreAnswered := by
  unfold Obligations.NopAndFenceAreAnswered
  refine ⟨fun t p r d s htakes hidle => ?_, fun t p r d s htakes hidle => ⟨fun hdone => ?_, ?_⟩⟩
  · have hexec : exec (.nop t p r d) s = .next (((s.at t).accept p r 0x00 d).2.complete p r (s.at t).nextSeq stOk) :=
      congrArg Host.Outcome.next (fetchDesc_takes 0x00 p r d (fun seq s => s.complete p r seq stOk) (fun _ s => s) (s.at t) htakes)
    exact ⟨_, hexec, State.complete_taken (s.at t) p r 0x00 stOk 0 d none htakes hidle, (State.complete_portOnly ..).eq_of_accept⟩
  · obtain ⟨hans, hfence⟩ := State.fence_answered (s := s.at t) htakes hidle (fenceRings d r) fun i hi _ o ho => by
      obtain ⟨hi64, hbit⟩ := List.mem_filter.mp hi
      simp only [Bool.or_eq_true, beq_iff_eq] at hbit
      obtain hbit | rfl := hbit
      · exact absurd ho (by rw [show ((s.at t).host p).sqAt i = (s.host p).sqAt i from rfl, hdone i (List.mem_range.mp hi64) hbit]; exact List.not_mem_nil)
      · contradiction
    exact ⟨_, exec_fence htakes, hans, hfence⟩
  · rintro ⟨i, hi, hbit, o, ho, hseq⟩
    have hunmet : ¬ ((s.at t).fenced p r d (fenceRings d r)|>.host p).fenceMet (s.at t).nextSeq (fenceRings d r) = true := fun hmet => by
      have hne : i ≠ r := fun h => by
        obtain ⟨hout, -, -⟩ := State.idleRing_iff.mp hidle
        rw [h, hout] at ho
        exact List.not_mem_nil ho
      have hin : i ∈ fenceRings d r := List.mem_filter.mpr ⟨List.mem_range.mpr hi, by rw [hbit]; rfl⟩
      exact absurd ((State.fenceMet_fenced (s := s.at t) hidle _).mp hmet i hin hne o ho) (Nat.not_le.mpr hseq)
    have hexec := exec_fence htakes
    rw [settleFences_fenced (s := s.at t) hidle, if_neg hunmet] at hexec
    refine ⟨_, hexec, ?_, ?_⟩
    · have hfence : ((((s.at t).fenced p r d (fenceRings d r)).host p).sqAt r).fence.isNone = false := by
        rw [State.fenced_host, HostPort.sqAt_modSq]
        rfl
      exact (congrArg _ hfence).trans (Bool.and_false _)
    · rw [State.fenced_host, HostPort.sqAt_modSq]
      rfl

/-! ### Batches (R98, R99) -/

theorem State.accept_batchOf (s : State) (p r op : Nat) (d : Desc) : (s.accept p r op d).2.batchOf p r = s.batchOf p r := by
  rw [State.batchOf, State.accept_host, HostPort.sqAt_modSq, State.batchOf]

section Batches
variable {s : State} {p r : Nat} {d : Desc}

theorem doBatchBegin_of_takes (htakes : s.takes p r 0x0A d = true) : doBatchBegin p r d s =
    ((s.accept p r 0x0A d).2.setBatch p r (some { beginSeq := s.nextSeq, startTick := s.tick })).modHost p
      (fun h => h.modSq r (fun q => { q with tail := none })) := by
  obtain ⟨hopen, hfree, htail, hbatch, hearly⟩ := (State.takes_iff s p r 0x0A d).mp htakes
  have hready : ¬ (s.ringOpen p r = false ∨ s.cqFree p r = false) := by simp [hopen, hfree]
  have hpower : (s.accept p r 0x0A d).2.power = s.power := rfl
  have htail' : ¬ (s.accept p r 0x0A d).2.tailOf p r = true := by simp [State.accept_tailOf, htail]
  have hbatch' := (State.accept_batchOf s p r 0x0A d).trans hbatch
  unfold doBatchBegin
  rw [if_neg hready]
  dsimp only
  rw [if_neg htail', hpower, hearly, hbatch']
  rfl

theorem doBatchEnd_of_members {b : Batch} (hopen : s.ringOpen p r = true) (hfree : s.cqFree p r = true) (htail : s.tailOf p r = false)
    (hearly : earlyStatus s.power.mode 0x0B d = none) (hbatch : s.batchOf p r = some b) (hfailed : b.failed = false) (hmembers : b.members ≠ []) :
    doBatchEnd p r d s = { (s.accept p r 0x0B d).2.setBatch p r none with
      waiting := (s.waiting.map (fun w => if w.batch = some b.beginSeq then { w with effect := some (s.now + 100 * us) } else w)) ++
        [{ port := p, ring := r, seq := s.nextSeq, opcode := 0x0B, desc := d, effect := some (s.now + 100 * us), batch := some b.beginSeq }] } := by
  have hready : ¬ (s.ringOpen p r = false ∨ s.cqFree p r = false) := by simp [hopen, hfree]
  have hpower : (s.accept p r 0x0B d).2.power = s.power := rfl
  have htail' : ¬ (s.accept p r 0x0B d).2.tailOf p r = true := by simp [State.accept_tailOf, htail]
  have hbatch' := (State.accept_batchOf s p r 0x0B d).trans hbatch
  have hfailed' : ¬ b.failed = true := by simp [hfailed]
  unfold doBatchEnd
  rw [if_neg hready]
  dsimp only
  rw [if_neg htail', hpower, hearly, hbatch']
  dsimp only
  rw [if_neg hfailed', if_neg hmembers]
  rfl

end Batches

/-- Settles O2: the batch is set on its ring, and its end gives its members their instant. -/
theorem batchFraming : Obligations.BatchFraming := by
  unfold Obligations.BatchFraming
  refine ⟨fun t p r d s htakes => ?_, fun t p r d b s hopen hfree htail hearly hbatch hfailed hmembers => ?_⟩
  · refine ⟨_, congrArg Host.Outcome.next (doBatchBegin_of_takes htakes), ?_, rfl⟩
    simp [State.batchOf, State.setBatch]
  · refine ⟨_, congrArg Host.Outcome.next (doBatchEnd_of_members hopen hfree htail hearly hbatch hfailed hmembers), ?_, fun w hw hwb => ?_, ?_, rfl⟩
    · simp [State.batchOf, State.setBatch, State.host]
    · obtain hw | hw := List.mem_append.mp hw
      · obtain ⟨v, -, rfl⟩ := List.mem_map.mp hw
        by_cases hv : v.batch = some b.beginSeq
        · simp only [hv, if_true]
          rfl
        · simp only [hv, if_false] at hwb
      · rw [List.mem_singleton.mp hw]
        rfl
    · rw [List.length_append, List.length_map]
      rfl

/-! ### Kinds that take effect at a tick (R91) -/

/-- Settles O3: each command is the fetch of its kind, whose action is to wait. -/
theorem tickKindsWait : Obligations.TickKindsWait := by
  unfold Obligations.TickKindsWait
  refine ⟨fun t p r d s c op e hmem htakes => ?_, fun t p r d s c op e hmem htakes => ?_⟩
  · have hfetch : fetchTick op p r e (s.at t) = ((s.at t).accept p r op e).2.await p r op s.nextSeq e :=
      fetchDesc_takes op p r e _ _ (s.at t) htakes
    suffices hexec : exec c s = .next (fetchTick op p r e (s.at t)) by
      exact ⟨_, hexec.trans (congrArg Host.Outcome.next hfetch), rfl⟩
    simp only [List.mem_cons, Prod.mk.injEq, List.not_mem_nil, or_false] at hmem
    obtain ⟨rfl, rfl, rfl⟩ | ⟨rfl, rfl, rfl⟩ | ⟨rfl, rfl, rfl⟩ | ⟨rfl, rfl, rfl⟩ | ⟨rfl, rfl, rfl⟩ | ⟨rfl, rfl, rfl⟩ | ⟨rfl, rfl, rfl⟩ |
      ⟨rfl, rfl, rfl⟩ | ⟨rfl, rfl, rfl⟩ | ⟨rfl, rfl, rfl⟩ | ⟨rfl, rfl, rfl⟩ | ⟨rfl, rfl, rfl⟩ | ⟨rfl, rfl, rfl⟩ | ⟨rfl, rfl, rfl⟩ |
      ⟨rfl, rfl, rfl⟩ := hmem
    all_goals rfl
  · have hissue : ((((s.at t).accept p r op e).2.await p r op s.nextSeq e none).host p).canIssue = (s.host p).canIssue := State.accept_canIssue ..
    suffices hexec : exec c s = .next ((((s.at t).accept p r op e).2.await p r op s.nextSeq e none).startDma p r s.nextSeq .command) by
      refine ⟨_, hexec, ?_⟩
      rw [State.startDma_eq, hissue]
      rfl
    simp only [List.mem_cons, Prod.mk.injEq, List.not_mem_nil, or_false] at hmem
    obtain ⟨rfl, rfl, rfl⟩ | ⟨rfl, rfl, rfl⟩ := hmem
    · exact congrArg Host.Outcome.next (fetchDesc_takes _ p r _ (fun seq s => (s.await p r _ seq _ none).startDma p r seq .command)
        (fun seq s => s.startDma p r seq .command) (s.at t) htakes)
    · exact congrArg Host.Outcome.next (fetchDesc_takes _ p r _ (fun seq s => (s.await p r _ seq _ none).startDma p r seq .command)
        (fun _ s => s) (s.at t) htakes)

/-! ### TACK_SUBMIT and the flash (03 R134-R136, R164, R165) -/

section Reads
variable {s : State} {p r op : Nat} {d : Desc}

/-- An access that the bridge begins for a descriptor just taken. -/
theorem State.startDma_of_accept {z : State} (hissue : (z.host p).canIssue = (s.host p).canIssue) (hdmas : z.dmas = s.dmas)
    (hnext : z.nextDma = s.nextDma) (seq : Nat) (use : DmaUse) : z.startDma p r seq use = { z with
      dmas := s.dmas ++ [{ id := s.nextDma, port := p, ring := r, seq, use, issued := (s.host p).canIssue }], nextDma := s.nextDma + 1 } := by
  rw [State.startDma_eq, hissue, hdmas, hnext]

theorem tackSubmit_reads (howner : s.isOwner p = true) (hview : d.genview = s.gen) (halign : dfld d 16 8 % 64 = 0) (hfree : s.gens.validating = none)
    (hset : s.switchSet = false) (hmin : 256 ≤ d.length) (hmax : d.length ≤ 16777216) (seq : Nat) : tackSubmit p r seq d s =
    ((s.bump (genCtr 96)).modGens (fun g => { g with validating := some {
      port := p, ring := r, seq, length := d.length, image := none, at_ := s.now } })).startDma p r seq .tackImage := by
  unfold tackSubmit
  rw [if_neg (by simp [howner]), if_neg (not_not.mpr hview), if_neg (not_not.mpr halign), if_neg (by simp [hfree, hset])]
  dsimp only
  rw [decide_eq_true ⟨hmin, hmax⟩]
  rfl

end Reads

/-- Settles O4: the image is under validation, and its read begins. -/
theorem tackSubmitReadsTheImage : Obligations.TackSubmitReadsTheImage := by
  unfold Obligations.TackSubmitReadsTheImage
  intro t p r d s htakes howner hview halign hfree hset hmin hmax
  have hissue := (s.at t).accept_canIssue p r 0x10 d
  have hexec : exec (.tackSubmit t p r d) s = .next (tackSubmit p r s.nextSeq d ((s.at t).accept p r 0x10 d).2) :=
    congrArg Host.Outcome.next (fetchDesc_takes 0x10 p r d (fun seq s => tackSubmit p r seq d s) _ (s.at t) htakes)
  rw [tackSubmit_reads (s := ((s.at t).accept p r 0x10 d).2) howner hview halign hfree hset hmin hmax, 
    State.startDma_of_accept (s := s.at t) (z := (((s.at t).accept p r 0x10 d).2.bump (genCtr 96)).modGens _) hissue rfl rfl] at hexec
  exact ⟨_, hexec, rfl, rfl, rfl⟩

/-- Settles O5: the operation is the last of those that wait. -/
theorem flashCommandsTakeTheirPlace : Obligations.FlashCommandsTakeTheirPlace := by
  unfold Obligations.FlashCommandsTakeTheirPlace
  refine fun t p r d s hsize => ⟨fun htakes => ?_, fun htakes howner hoff hlen => ?_⟩
  · have hexec : exec (.flashRead t p r d) s = .next (flashRead p r s.nextSeq d ((s.at t).accept p r 0x1E d).2) :=
      congrArg Host.Outcome.next (fetchDesc_takes 0x1E p r d (fun seq s => flashRead p r seq d s) _ (s.at t) htakes)
    refine ⟨_, hexec.trans (congrArg Host.Outcome.next (if_neg (Nat.not_lt.mpr hsize))), rfl, rfl⟩
  · have hissue := (s.at t).accept_canIssue p r 0x1F d
    have hexec : exec (.flashWrite t p r d) s = .next (flashWrite p r s.nextSeq d ((s.at t).accept p r 0x1F d).2) :=
      congrArg Host.Outcome.next (fetchDesc_takes 0x1F p r d (fun seq s => flashWrite p r seq d s) _ (s.at t) htakes)
    have hok : ¬ (dfld d 24 4 % 4096 ≠ 0 ∨ d.length % 4096 ≠ 0 ∨ s.flash.sizeMib * 1048576 < dfld d 24 4 + d.length) := by omega
    have howner' : ¬ s.isOwner p = false := by simp [howner]
    have hwrite : flashWrite p r s.nextSeq d ((s.at t).accept p r 0x1F d).2 = _ := (if_neg howner').trans (if_neg hok)
    rw [hwrite, State.startDma_of_accept (s := s.at t) (z := ((s.at t).accept p r 0x1F d).2.modFlash _) hissue rfl rfl] at hexec
    exact ⟨_, hexec, rfl, rfl⟩

/-! ### LOG_READ (06 R284, R285) -/

theorem State.look_of_roomAt {s : State} {h i : Nat} {r : Room} (hat : s.roomAt h = some (i, r)) : look s.objs.rooms i = some r := by
  simp only [State.roomAt, Option.bind_eq_some_iff, Option.ite_none_right_eq_some, Option.some.injEq, Prod.mk.injEq] at hat
  obtain ⟨_, hlook, -, rfl, rfl⟩ := hat
  exact hlook

/-- What a reader of a log learns of the records that it has lost. -/
def Room.gapOf (rm : Room) (k timeNs : Nat) : Bytes :=
  match look rm.lostSpan k with
  | some (f, t, tf, tt) => gapRecord f t tf tt timeNs
  | none => []

/-- Where a LOG_READ begins. -/
def Room.readFrom (rm : Room) (d : Desc) (k : Nat) : Nat :=
  if bit (dfld d 25 1) 1 then rm.oldest else if bit (dfld d 25 1) 0 then dfld d 32 8 else rm.marks.getD k 0

section LogRead
variable {s : State} {p i : Nat} {d : Desc} {rm : Room}

theorem logRead_copies {gap : Bytes} {recs : List (Nat × Bytes)} {e : Nat} (hcheck : s.handleCheck p 1 d.handle = none)
    (hat : s.roomAt d.handle = some (i, rm))
    (hok : ¬ (d.length % 64 ≠ 0 ∨ d.length < 16384 ∨ 16777216 < d.length ∨ dfld d 16 8 % 64 ≠ 0 ∨ rm.logMib = 0 ∨
      (bit (dfld d 25 1) 0 = true ∧ rm.logRecs.any (fun x => x.1 == dfld d 32 8) = false)))
    (hgap : rm.gapOf (dbits d 24 1 0) s.timeNs = gap)
    (hrecs : takeRecords rm.logBad s.timeNs (rm.logRecs.filter (fun x => decide (rm.readFrom d (dbits d 24 1 0) ≤ x.1))) (d.length - gap.length)
      (rm.readFrom d (dbits d 24 1 0)) = (recs, e)) (r seq : Nat) : logRead p r seq d s =
    (s.modRoom i (fun r => { r with marks := setAt r.marks (dbits d 24 1 0) e, lostSpan := del r.lostSpan (dbits d 24 1 0) })).startDma p r seq
      (.log (dfld d 16 8) i rm.inc (dbits d 24 1 0) gap recs d.length) := by
  subst hgap
  unfold logRead
  simp only [hcheck, hat]
  rw [if_neg hok]
  exact congrArg (fun x : List (Nat × Bytes) × Nat => (s.modRoom i (fun r => { r with
    marks := setAt r.marks (dbits d 24 1 0) x.2, lostSpan := del r.lostSpan (dbits d 24 1 0) })).startDma p r seq
      (.log (dfld d 16 8) i rm.inc (dbits d 24 1 0) (rm.gapOf (dbits d 24 1 0) s.timeNs) x.1 d.length)) hrecs

end LogRead

/-- Settles O6: the reader's mark moves behind the records that it is sent. -/
theorem logReadCopies : Obligations.LogReadCopies := by
  unfold Obligations.LogReadCopies
  rintro t p r d s i _ _ rm gap recs e htakes hcheck hat hlen hmin hmax halign hlog rfl hpos rfl hnone hsome hrecs
  have hgap : rm.gapOf (dbits d 24 1 0) (s.at t).timeNs = gap := by
    unfold Room.gapOf
    split
    · next f t' tf tt hlost => exact (hsome f t' tf tt hlost).symm
    · next hlost => exact (hnone hlost).symm
  have hok : ¬ (d.length % 64 ≠ 0 ∨ d.length < 16384 ∨ 16777216 < d.length ∨ dfld d 16 8 % 64 ≠ 0 ∨ rm.logMib = 0 ∨
      (bit (dfld d 25 1) 0 = true ∧ rm.logRecs.any (fun x => x.1 == dfld d 32 8) = false)) := by
    rintro (h | h | h | h | h | ⟨hset, hany⟩)
    · exact h hlen
    · omega
    · omega
    · exact h halign
    · exact hlog h
    · obtain ⟨b, hb⟩ := hpos hset
      simpa using List.any_eq_false.mp hany _ hb
  have hissue := (s.at t).accept_canIssue p r 0x1C d
  have hexec : exec (.logRead t p r d) s = .next (logRead p r s.nextSeq d ((s.at t).accept p r 0x1C d).2) :=
    congrArg Host.Outcome.next (fetchDesc_takes 0x1C p r d (fun seq s => logRead p r seq d s) _ (s.at t) htakes)
  rw [logRead_copies (s := ((s.at t).accept p r 0x1C d).2) hcheck hat hok hgap hrecs.symm,
    State.startDma_of_accept (s := s.at t) (z := ((s.at t).accept p r 0x1C d).2.modRoom i _) hissue rfl rfl] at hexec
  refine ⟨_, hexec, rfl, ?_, fun j hj => look_adj_ne _ hj.symm _, rfl, rfl⟩
  exact (look_adj_same ..).trans (congrArg _ (State.look_of_roomAt hat))

end Sys2Proof.Machine
end

section
/-! PROOFS. HOST_TX (02 R117): the read of a frame bears the number that the state gives it next, and where another access bears that number
already, both are marked with the pool of the frame. -/
namespace Sys2Proof.Machine

/-- A port in RUN with submission ring 0 of 16 entries on completion ring 0. -/
def sendingPort : HostPort :=
  { state := .run, link := true, bme := true, mrrs := 1024, regs := [(0x10010, 0x2002), (0x10108, 0x80000004), (0x10508, 0x80000004)] }

/-- An access of pool 9 in progress under the number that the next one takes. -/
def renumbered : State := {
  power := { mode := .run }, hosts := [(0, sendingPort)], tick := 7
  dmas := [{ id := 0, port := 0, ring := 0, seq := 0, use := .command, pool := 9 }] }

/-- A HOST_TX of 64 bytes to logical port 0. -/
def sentFrame : Desc := { length := 64, body := padTo 48 [] }

theorem renumbered_takes : (renumbered.at 0).takes 0 0 0x1B sentFrame = true ∧ provides renumbered.gens.cur (txLport sentFrame) = true ∧
    renumbered.poolTakes (renumbered.poolOf (txLport sentFrame) (txClass sentFrame)) (cellsOf (hostLen sentFrame.length)) = true := by decide

/-- The access that was in progress has the pool of the frame. -/
theorem renumbered_hostTx_pools : ((fetchDesc 0x1B 0 0 sentFrame (fun seq s => hostTx 0 0 seq sentFrame s) (renumbered.at 0)).dmas.map (·.pool)) = [3, 3] := by
  decide

/-- Refutes O7: the mark of the frame's pool falls on an older access with the number of the read, too. -/
theorem not_hostTxAndPuntPost : ¬ Obligations.HostTxAndPuntPost := by
  unfold Obligations.HostTxAndPuntPost
  rintro ⟨hsend, -⟩
  obtain ⟨htakes, hprovides, hroom⟩ := renumbered_takes
  obtain ⟨u, hexec, -, hdmas, -⟩ := hsend 0 0 0 sentFrame renumbered htakes (by decide) hprovides rfl hroom
  obtain rfl : fetchDesc 0x1B 0 0 sentFrame (fun seq s => hostTx 0 0 seq sentFrame s) (renumbered.at 0) = u := Host.Outcome.next.inj hexec
  have hpools := congrArg (List.map (·.pool)) hdmas
  rw [renumbered_hostTx_pools] at hpools
  exact absurd hpools (by decide)

end Sys2Proof.Machine
end

section
/-! PROOFS. The four DRAM services (13 R566). -/
namespace Sys2Proof.Machine

/-- The OP byte of a DRAM_SERVICE row. -/
theorem dfld_withOp (op : Nat) (d : Desc) : dfld (withOp op d) 16 1 = op % 256 := by
  simp [dfld, withOp, splice, leBytes, le, leNat]

section Service
variable {s : State} {p r : Nat}

/-! ### Ranks -/

theorem State.rank_modRank (s : State) (k j : Nat) (f : Rank → Rank) : (s.modRank k f).rank j = if k = j then f (s.rank j) else s.rank j := by
  by_cases h : k = j
  · subst h
    simp [State.rank, State.modRank, State.modDram]
  · simp [State.rank, State.modRank, State.modDram, lookD_adjD_ne _ h, h]

theorem State.rank_of_dram {s t : State} (h : t.dram = s.dram) (k : Nat) : t.rank k = s.rank k := by rw [State.rank, h, State.rank]

theorem State.complete_dram (s : State) (p r seq st res : Nat) (tick : Option Nat) (obj : Nat) : (s.complete p r seq st res tick obj).dram = s.dram := by
  have h := s.complete_portOnly p r seq st res tick obj
  rw [h]

/-! ### Sweeps -/

/-- Making ready the first sweep leaves as many as there are. -/
theorem readySweep_services : ∀ (n : Nat) (s : State), (readySweep n s).dram.services.length = s.dram.services.length
  | 0, _ => rfl
  | n + 1, s => by
    unfold readySweep
    split
    · next v rest hservices =>
      split
      · split
        · rfl
        · split
          · rfl
          · split
            · rfl
            · rw [readySweep_services n]
              simp [State.modDram, hservices]
      · rfl
    · rfl

/-- One sweep more waits. -/
theorem State.addSweep_services (s : State) (v : Service) : (s.addSweep v).dram.services.length = s.dram.services.length + 1 := by
  have hadd : (s.modDram (fun d => { d with services := d.services ++ [v] })).dram.services.length = s.dram.services.length + 1 :=
    List.length_append
  unfold State.addSweep
  dsimp only
  split
  · rw [readySweep_services, hadd]
  · exact hadd

/-! ### Retirement -/

/-- A member that is retired bears its reason and waits to migrate. -/
theorem State.retire_member {k reason : Nat} (hstate : (s.rank k).state = .member) :
    ((s.retire k reason).rank k).reason = reason ∧ k ∈ (s.retire k reason).dram.queue := by
  have hevent : ∀ (z : State) (src payload : Nat), (z.event src payload).dram = z.dram := fun z src payload => (z.event_hostOnly src payload 0).dram
  unfold State.retire
  simp only [hstate]
  generalize hz : ((s.modRank k (fun r => { r with reason })).event 29 (rankBits k + reason * 256)) = z
  have hzdram : z.dram = (s.modRank k (fun r => { r with reason })).dram := by rw [← hz, hevent]
  have hq : k ∈ (z.modDram (fun d => { d with queue := d.queue ++ [k] })).dram.queue := List.mem_append_right _ (List.mem_singleton.mpr rfl)
  have hreason : ((z.modDram (fun d => { d with queue := d.queue ++ [k] })).rank k).reason = reason := by
    have hrank : (z.modDram (fun d => { d with queue := d.queue ++ [k] })).rank k = (s.modRank k (fun r => { r with reason })).rank k := by
      simp only [State.rank, State.modDram, hzdram]
    rw [hrank, State.rank_modRank, if_pos rfl]
  split
  · rw [State.rank_modRank, if_pos rfl]
    exact ⟨hreason, hq⟩
  · rw [State.rank_of_dram (hevent ..), hevent, State.rank_modRank, if_pos rfl]
    exact ⟨hreason, hq⟩

end Service

/-! ### The services -/

/-- The service that the OP byte names. -/
theorem dramService_withOp (p r seq : Nat) (d : Desc) (s : State) :
    dramService p r seq (withOp 0 d) s = serviceRead p r seq (withOp 0 d) s ∧ dramService p r seq (withOp 1 d) s = serviceRetrain p r seq (withOp 1 d) s ∧
      dramService p r seq (withOp 2 d) s = serviceRetire p r seq (withOp 2 d) s ∧
      dramService p r seq (withOp 3 d) s = serviceRestore p r seq (withOp 3 d) s := by
  refine ⟨?_, ?_, ?_, ?_⟩
  all_goals
    unfold dramService
    rw [dfld_withOp]
    rfl

/-- A DRAM_SERVICE that its ring takes. -/
theorem fetchDramService_of_takes {p r : Nat} {d : Desc} {s : State} (htakes : s.takes p r 0x20 d = true) :
    fetchDramService p r d s = dramService p r s.nextSeq d (s.accept p r 0x20 d).2 :=
  fetchDesc_takes 0x20 p r d (fun seq s => dramService p r seq d s) (fun _ s => s) s htakes

section Checks
variable {s : State} {p r seq : Nat} {d : Desc}

/-- A READ writes the bytes to the host and changes no memory of its own. -/
theorem serviceRead_reads (hlen : d.length % 64 = 0) (hmax : d.length ≤ 8388608) (hdst : dfld d 24 8 % 64 = 0) (halign : dfld d 32 8 % 64 = 0)
    (hbase : (s.region 8).1 * 1048576 ≤ dfld d 32 8) (hend : dfld d 32 8 + d.length ≤ ((s.region 8).1 + (s.region 8).2.1) * 1048576) :
    ∃ (z : State) (bad : Nat), serviceRead p r seq d s = z.startDma p r seq (.write (d.length + bad * 2 ^ 24)) ∧ bad ≤ 255 ∧
      z.dmas = s.dmas ∧ z.nextDma = s.nextDma ∧ z.dram = s.dram ∧ z.host p = s.host p := by
  have hok : ¬ (d.length % 64 ≠ 0 ∨ 8388608 < d.length ∨ dfld d 24 8 % 64 ≠ 0 ∨ dfld d 32 8 % 64 ≠ 0 ∨
      dfld d 32 8 < (s.region 8).1 * 1048576 ∨ ((s.region 8).1 + (s.region 8).2.1) * 1048576 < dfld d 32 8 + d.length) := by omega
  have hkeeps : ∀ (key n a : Nat) (b : Bytes), HostOnly s ((s.addCnt key n).hostWrite p a b) := fun key n a b =>
    (HostOnly.addCnt s key n).trans (HostOnly.hostWrite _ p a b)
  exact ⟨_, _, if_neg hok, Nat.min_le_right _ 255, (hkeeps ..).dmas, (hkeeps ..).nextDma, (hkeeps ..).dram, by simp [State.host, State.hostWrite]⟩

theorem serviceRetrain_adds {l : List Nat} (hmode : s.power.mode = .service) (howner : s.isOwner p = true)
    (hnamed : s.namedRanks (dfld d 17 1) (dfld d 18 1) = some l)
    (hroom : bit (dfld d 19 1) 0 = true ∨ ∀ k ∈ l, (s.rank k).holds = false ∨ (s.spareFor k).isSome = true) :
    serviceRetrain p r seq d s = s.addSweep {
      port := p, ring := r, seq, restore := false, force := bit (dfld d 19 1) 0, noTable := bit (dfld d 19 1) 1, left := l } := by
  have hspare : ¬ (bit (dfld d 19 1) 0 = false ∧ l.any (fun k => (s.rank k).holds && (s.spareFor k).isNone) = true) := by
    rintro ⟨hforce, hany⟩
    obtain ⟨k, hk, hbad⟩ := List.any_eq_true.mp hany
    obtain ⟨hholds, hnone⟩ := Bool.and_eq_true_iff.mp hbad
    obtain hf | hroom := hroom
    · exact nomatch hf.symm.trans hforce
    · obtain hempty | hsome := hroom k hk
      · exact nomatch hholds.symm.trans hempty
      · rw [Option.isNone_iff_eq_none.mp hnone] at hsome
        exact nomatch hsome
  unfold serviceRetrain
  rw [if_neg (not_not.mpr hmode), if_neg (by simp [howner]), hnamed]
  exact if_neg hspare

theorem serviceRetire_retires (howner : s.isOwner p = true) (hch : dfld d 17 1 < 12) (hrk : dfld d 18 1 < 4)
    (hstate : (s.rank (4 * dfld d 17 1 + dfld d 18 1)).state = .member) (hspare : (s.spareFor (4 * dfld d 17 1 + dfld d 18 1)).isSome = true) :
    serviceRetire p r seq d s = (s.retire (4 * dfld d 17 1 + dfld d 18 1) 4).complete p r seq stOk := by
  have hok : ¬ (12 ≤ dfld d 17 1 ∨ 4 ≤ dfld d 18 1 ∨ ¬ (((s.rank (4 * dfld d 17 1 + dfld d 18 1)).state = .member ∨
      (s.rank (4 * dfld d 17 1 + dfld d 18 1)).state = .spareInUse ∨ (s.rank (4 * dfld d 17 1 + dfld d 18 1)).state = .degraded) ∨
      ((s.rank (4 * dfld d 17 1 + dfld d 18 1)).state = .spare ∧ s.freeSpare (4 * dfld d 17 1 + dfld d 18 1) = true))) := by
    rintro (h | h | h)
    · omega
    · omega
    · exact h (.inl (.inl hstate))
  have hfree : ¬ ((s.rank (4 * dfld d 17 1 + dfld d 18 1)).state ≠ .spare ∧ (s.spareFor (4 * dfld d 17 1 + dfld d 18 1)).isNone = true) := by
    rintro ⟨-, hnone⟩
    rw [Option.isNone_iff_eq_none.mp hnone] at hspare
    exact nomatch hspare
  unfold serviceRetire
  dsimp only
  rw [if_neg (by simp [howner]), if_neg hok, if_neg hfree]

theorem serviceRestore_adds (hmode : s.power.mode = .service) (howner : s.isOwner p = true) (hch : dfld d 17 1 < 12) (hrk : dfld d 18 1 < 4)
    (hstate : (s.rank (4 * dfld d 17 1 + dfld d 18 1)).state = .retired ∨ (s.rank (4 * dfld d 17 1 + dfld d 18 1)).state = .failed) :
    serviceRestore p r seq d s = s.addSweep {
      port := p, ring := r, seq, restore := true, force := false, noTable := bit (dfld d 19 1) 1, left := [4 * dfld d 17 1 + dfld d 18 1] } := by
  have hok : ¬ (12 ≤ dfld d 17 1 ∨ 4 ≤ dfld d 18 1 ∨ ¬ ((s.rank (4 * dfld d 17 1 + dfld d 18 1)).state = .retired ∨
      (s.rank (4 * dfld d 17 1 + dfld d 18 1)).state = .failed)) := by
    rintro (h | h | h)
    · omega
    · omega
    · exact h hstate
  unfold serviceRestore
  dsimp only
  rw [if_neg (not_not.mpr hmode), if_neg (by simp [howner]), if_neg hok]

end Checks

/-- Settles O8: each service, past its checks. -/
theorem dramServices : Obligations.DramServices := by
  unfold Obligations.DramServices
  intro t p r d s
  refine ⟨fun htakes hlen hmax hdst halign hbase hend => ?_, fun htakes hmode howner l hnamed hroom => ?_,
    fun htakes howner hch hrk hstate hspare => ?_, fun htakes hmode howner hch hrk hstate => ?_⟩
  · have hexec : exec (.dramServiceRead t p r d) s = _ :=
      congrArg Host.Outcome.next ((fetchDramService_of_takes htakes).trans (dramService_withOp ..).1)
    have hissue := (s.at t).accept_canIssue p r 0x20 (withOp 0 d)
    obtain ⟨z, bad, hread, hbad, hdmas, hnext, hdram, hhost⟩ :=
      serviceRead_reads (s := ((s.at t).accept p r 0x20 (withOp 0 d)).2) (d := withOp 0 d) (p := p) (r := r) (seq := s.nextSeq) hlen hmax hdst halign hbase hend
    refine ⟨_, bad, hexec.trans (congrArg Host.Outcome.next (hread.trans
      (State.startDma_of_accept (s := s.at t) ((congrArg HostPort.canIssue hhost).trans hissue) hdmas hnext _ _))), hbad, rfl, hdram⟩
  · have hexec : exec (.dramServiceRetrain t p r d) s = _ :=
      congrArg Host.Outcome.next ((fetchDramService_of_takes htakes).trans (dramService_withOp ..).2.1)
    rw [serviceRetrain_adds (s := ((s.at t).accept p r 0x20 (withOp 1 d)).2) hmode howner hnamed hroom] at hexec
    exact ⟨_, hexec, State.addSweep_services ..⟩
  · have hexec : exec (.dramServiceRetire t p r d) s = _ :=
      congrArg Host.Outcome.next ((fetchDramService_of_takes htakes).trans (dramService_withOp ..).2.2.1)
    rw [serviceRetire_retires (s := ((s.at t).accept p r 0x20 (withOp 2 d)).2) howner hch hrk hstate hspare] at hexec
    obtain ⟨hreason, hqueue⟩ := State.retire_member (s := ((s.at t).accept p r 0x20 (withOp 2 d)).2) (reason := 4) hstate
    refine ⟨_, hexec, ?_, ?_⟩
    · rwa [State.rank_of_dram (State.complete_dram ..)]
    · rwa [State.complete_dram]
  · have hexec : exec (.dramServiceRestore t p r d) s = _ :=
      congrArg Host.Outcome.next ((fetchDramService_of_takes htakes).trans (dramService_withOp ..).2.2.2)
    rw [serviceRestore_adds (s := ((s.at t).accept p r 0x20 (withOp 3 d)).2) hmode howner hch hrk hstate] at hexec
    exact ⟨_, hexec, State.addSweep_services ..⟩

end Sys2Proof.Machine
end

section
/-! PROOFS. The SMBus target and the TAP controller (16 R631-R635, R638). -/
namespace Sys2Proof.Machine

/-! ### Bytes -/

theorem leNat_leBytes : ∀ n v : Nat, leNat (leBytes n v) = v % 256 ^ n
  | 0, v => (Nat.mod_one v).symm
  | n + 1, v => by
    rw [leBytes, leNat, leNat_leBytes n, BitVec.toNat_ofNat, Nat.pow_succ' (m := 256), Nat.mod_mul (x := v) (a := 256)]

theorem length_leBytes : ∀ n v : Nat, (leBytes n v).length = n
  | 0, _ => rfl
  | n + 1, v => by rw [leBytes, List.length_cons, length_leBytes n]

/-- A field that stands behind other bytes. -/
theorem le_append {a b c : Bytes} {off n : Nat} (ha : a.length = off) (hb : b.length = n) : le (a ++ b ++ c) off n = leNat b := by
  subst ha hb
  rw [le, List.append_assoc, List.drop_left, List.take_left]

/-- The number of a field of four bytes. -/
theorem leNat_leBytes_four {v : Nat} (hv : v < 2 ^ 32) : leNat (leBytes 4 v) = v := by
  rw [leNat_leBytes]
  exact Nat.mod_eq_of_lt hv

/-! ### The SMBus (R631-R635) -/

section Smbus
variable {s : State} {addr value : Nat}

/-- Registers outside the host ports and the yards hold no free value. -/
theorem State.readReg_low (s : State) (free n : Nat) {off : Nat} (hoff : off < 0x10000) :
    State.readReg { s with free := n } none free off = s.readReg none 0 off := by
  have hhost : ¬ (0x10000 ≤ off / 4 * 4 ∧ off / 4 * 4 < 0x11000) := by omega
  have hdevice : off / 4 * 4 < 0x100000 := by omega
  unfold State.readReg
  simp only [if_neg hhost, if_pos hdevice]
  rfl

/-- The bytes of a block write to a register. -/
def State.smbFrame (s : State) (addr value : Nat) : Bytes := s.smbHead 0x10 8 ++ (leBytes 4 addr ++ leBytes 4 value)

theorem State.length_smbFrame (s : State) (addr value : Nat) : (s.smbFrame addr value).length = 11 := rfl

/-- What an acknowledged block write does that is not discarded. -/
def State.smbWrites (s : State) (addr value : Nat) : State :=
  if addr / 4 * 4 = 0x7004 then s.writeModeReq value else if addr / 4 * 4 = 0x700C then s.softReset 0 value else s

/-- A block write to this target, behind which a packet error code may stand. -/
theorem smbusWrite_frame (hmode : s.power.mode ≠ .reset) (haddr : addr < 2 ^ 32) (hvalue : value < 2 ^ 32) {pec : Bytes} (hpec : pec.length ≤ 1) :
    smbusWrite (s.smbFrame addr value ++ pec) s =
      if pec.length = 1 ∧ byteAt pec 0 ≠ smbPec (s.smbFrame addr value) then s.modPins (fun p => { p with smbAck := true })
      else (s.modPins (fun p => { p with smbAck := true })).smbWrites addr value := by
  have hlen : (s.smbFrame addr value ++ pec).length = 11 + pec.length := List.length_append
  have hhead : (s.smbFrame addr value ++ pec).take 3 = s.smbHead 0x10 8 := rfl
  have haddr' : le (s.smbFrame addr value ++ pec) 3 4 = addr := by
    rw [State.smbFrame, ← List.append_assoc, List.append_assoc,
      le_append (by rfl) (length_leBytes 4 addr), leNat_leBytes_four haddr]
  have hvalue' : le (s.smbFrame addr value ++ pec) 7 4 = value := by
    rw [State.smbFrame, ← List.append_assoc, le_append (by rfl) (length_leBytes 4 value), leNat_leBytes_four hvalue]
  have htake : (s.smbFrame addr value ++ pec).take 11 = s.smbFrame addr value := List.take_left' (s.length_smbFrame addr value)
  have hbyte : byteAt (s.smbFrame addr value ++ pec) 11 = byteAt pec 0 := rfl
  have hok : (decide (s.power.mode ≠ .reset) && (s.smbFrame addr value ++ pec).take 3 == s.smbHead 0x10 8 &&
      ((s.smbFrame addr value ++ pec).length == 11 || (s.smbFrame addr value ++ pec).length == 12)) = true := by
    rw [hhead, hlen, decide_eq_true hmode, beq_self_eq_true]
    obtain h | h : pec.length = 0 ∨ pec.length = 1 := by omega
    all_goals rw [h]; rfl
  have htwelve : (11 + pec.length = 12) = (pec.length = 1) := propext ⟨fun h => by omega, fun h => by omega⟩
  simp only [smbusWrite, hok, haddr', hvalue', htake, hbyte, reduceCtorEq, false_or, State.smbWrites]
  simp only [hlen, htwelve]

/-- A process call to this target for a register outside the host ports and the yards. -/
theorem smbusRead_frame (hmode : s.power.mode ≠ .reset) (hsmb : s.power.smbAddr < 4) (haddr : addr < 0x10000) {frame : Bytes}
    (hframe : frame = s.smbHead 0x12 4 ++ leBytes 4 addr ++ [BitVec.ofNat 8 (2 * (0x6C + s.power.smbAddr) + 1)]) {z : State}
    (hz : z = s.modPins (fun p => { p with smbAck := true })) :
    ∃ latches, smbusRead frame s = { z with
      free := s.free + 1
      pins := { z.pins with
        smbData := z.readReg none 0 (addr / 4 * 4)
        smbPec := smbPec (frame ++ [4] ++ leBytes 4 (z.readReg none 0 (addr / 4 * 4)).toNat)
        smbLatches := latches } } := by
  have haddr' : le frame 3 4 = addr := by
    rw [hframe, le_append (by rfl) (length_leBytes 4 addr), leNat_leBytes_four (by omega)]
  have hhead : frame.take 3 = s.smbHead 0x12 4 := by rw [hframe]; rfl
  have hlen : frame.length = 8 := by rw [hframe]; rfl
  have hlast : byteAt frame 7 = 2 * (0x6C + s.power.smbAddr) + 1 := by
    rw [hframe]
    exact Nat.mod_eq_of_lt (by omega)
  have hok : (decide (s.power.mode ≠ .reset) && frame.take 3 == s.smbHead 0x12 4 && frame.length == 8 &&
      byteAt frame 7 == 2 * (0x6C + s.power.smbAddr) + 1) = true := by
    rw [hhead, hlen, hlast, decide_eq_true hmode, beq_self_eq_true, beq_self_eq_true (2 * (0x6C + s.power.smbAddr) + 1)]
    rfl
  refine ⟨State.latch { z with free := s.free + 1 } (addr / 4 * 4) z.pins.smbLatches, ?_⟩
  subst hz
  simp only [smbusRead, hok, haddr', reduceCtorEq, if_false, State.draw]
  rw [State.readReg_low _ _ _ (by omega)]
  rfl

/-- A transaction that is no block write of 8 bytes to this target. -/
theorem smbusWrite_refused {frame : Bytes}
    (h : s.power.mode = .reset ∨ frame.take 3 ≠ s.smbHead 0x10 8 ∨ (frame.length ≠ 11 ∧ frame.length ≠ 12)) :
    smbusWrite frame s = s.modPins (fun p => { p with smbAck := false }) := by
  have hok : (decide (s.power.mode ≠ .reset) && frame.take 3 == s.smbHead 0x10 8 && (frame.length == 11 || frame.length == 12)) = false := by
    rcases h with h | h | ⟨h11, h12⟩
    · simp [h]
    · simp [h]
    · simp [h11, h12]
  simp only [smbusWrite, hok, true_or, if_true]

/-- A transaction that is no process call to this target. -/
theorem smbusRead_refused {frame : Bytes} (h : s.power.mode = .reset ∨ frame.take 3 ≠ s.smbHead 0x12 4 ∨ frame.length ≠ 8) :
    smbusRead frame s = s.modPins (fun p => { p with smbAck := false }) := by
  have hok : (decide (s.power.mode ≠ .reset) && frame.take 3 == s.smbHead 0x12 4 && frame.length == 8 &&
      byteAt frame 7 == 2 * (0x6C + s.power.smbAddr) + 1) = false := by
    rcases h with h | h | h
    all_goals simp [h]
  simp only [smbusRead, hok, if_true]

end Smbus

/-- Settles O10: the transactions that the target answers, and those that it does not. -/
theorem smbusReadsAndWrites : Obligations.SmbusReadsAndWrites := by
  unfold Obligations.SmbusReadsAndWrites
  refine ⟨fun t addr value frame s z hmode hsmb haddr hvalue hz => ⟨fun hlow hframe => ?_, fun head data hhead hdata => ?_⟩,
    fun t frame head data pec s => ⟨fun h => ?_, fun h => ?_, rfl, fun hmode halert hsmb => ?_⟩⟩
  · obtain ⟨latches, hread⟩ := smbusRead_frame (s := s.at t) hmode hsmb hlow hframe hz
    refine ⟨_, congrArg Host.Outcome.next hread, ?_, rfl, rfl, rfl⟩
    rw [hz]
    rfl
  · have hwrite : ∀ pec : Bytes, pec.length ≤ 1 → exec (.smbusWrite t head data pec) s =
        .next (if pec.length = 1 ∧ byteAt pec 0 ≠ smbPec (head ++ data) then z else z.smbWrites addr value) := by
      subst hhead hdata hz
      exact fun pec hpec => congrArg Host.Outcome.next (smbusWrite_frame (s := s.at t) hmode haddr hvalue hpec)
    have hplain : exec (.smbusWrite t head data []) s = .next (z.smbWrites addr value) := hwrite [] (Nat.zero_le 1)
    refine ⟨fun h => ?_, fun h => ?_, fun h h' => ?_, fun pec => ?_⟩
    · rw [hplain, State.smbWrites, if_pos (by omega)]
    · rw [hplain, State.smbWrites, if_neg (by omega), if_pos (by omega)]
    · rw [hplain, State.smbWrites, if_neg (by omega), if_neg (by omega)]
    · rw [hplain, hwrite [pec] (Nat.le_refl 1)]
      by_cases hpec : pec.toNat = smbPec (head ++ data)
      · rw [if_pos hpec, if_neg (fun h => h.2 hpec)]
      · rw [if_neg hpec, if_pos ⟨rfl, hpec⟩]
  · exact congrArg Host.Outcome.next (smbusWrite_refused (s := s.at t) h)
  · exact congrArg Host.Outcome.next (smbusRead_refused (s := s.at t) h)
  · exact ⟨_, congrArg Host.Outcome.next (if_pos (⟨hmode, halert⟩ : (s.at t).power.mode ≠ .reset ∧ (s.at t).pins.alert)), rfl, rfl, rfl⟩

/-! ### The TAP controller (R638) -/

section Tap
variable {tms tdi : Bool} {pins : List Bool} {s : State}

/-- Test-Logic-Reset selects IDCODE. -/
theorem tckEdge_ir (h : tapNext s.pins.tap tms = 0xF) : (tckEdge tms tdi true pins s).pins.ir = 1#4 := by
  simp only [tckEdge, h, reduceCtorEq, if_false]
  rfl

/-- Five edges with TMS high end in Test-Logic-Reset. -/
theorem tapNext_five (n : Nat) : tapNext (tapNext (tapNext (tapNext (tapNext n true) true) true) true) true = 0xF := by
  obtain hn | hn := Nat.lt_or_ge n 16
  · exact (by decide : ∀ n < 16, tapNext (tapNext (tapNext (tapNext (tapNext n true) true) true) true) true = 0xF) n hn
  · obtain ⟨k, rfl⟩ := Nat.exists_eq_add_of_le' hn
    have hout : tapNext (k + 16) true = 0xF := rfl
    rw [hout]
    rfl

/-- The edge that leaves Capture-DR loads the data register. -/
theorem tckEdge_dr_of_capture (htap : s.pins.tap = 0x6) : (tckEdge tms tdi true pins s).pins.dr = tapCapture s.pins.ir pins := by
  cases tms <;> simp only [tckEdge, htap, tapNext, reduceCtorEq, if_false, if_true]

end Tap

/-- Settles O11: the state table brings any state to Test-Logic-Reset in five edges. -/
theorem tapReachesReset : Obligations.TapReachesReset := by
  unfold Obligations.TapReachesReset
  refine ⟨fun a b c d e pins s => ?_, fun tms tdi pins s => ⟨_, rfl, rfl, rfl⟩, fun tms tdi pins s htap hir => ?_⟩
  · have hend := tapNext_five s.pins.tap
    exact ⟨_, _, _, _, _, rfl, rfl, rfl, rfl, rfl, hend, tckEdge_ir hend⟩
  · have hdr : (tckEdge tms tdi true pins s).pins.dr = (List.range 32).map (fun i => bit 0x16448B47 i) := by
      rw [tckEdge_dr_of_capture htap, hir]
      rfl
    refine ⟨_, rfl, ?_, fun i hi => ?_⟩
    · rw [hdr]
      rfl
    · rw [hdr, List.getElem?_map, List.getElem?_range hi, Option.map_some, bit, Nat.testBit_eq_decide_div_mod_eq]
      rfl

end Sys2Proof.Machine
end

section
/-! PROOFS. What an event can change (15 R607-R611): of a port its event queues, its attention pin, its messages and its failed writes, and of
the counters those of the router and the count of lost events. -/
namespace Sys2Proof.Machine

/-- Nothing of a port but what events change differs. -/
def HostPort.Posted (h k : HostPort) : Prop :=
  k = { h with eq := k.eq, atn := k.atn, msixSent := k.msixSent, pba := k.pba, unissued := k.unissued }

theorem HostPort.Posted.trans {h k l : HostPort} (a : h.Posted k) (b : k.Posted l) : h.Posted l := by
  unfold HostPort.Posted at *
  rw [b, a]

theorem HostPort.posted_msi (h : HostPort) (vector : Nat) : h.Posted (h.msi vector) := by
  unfold HostPort.msi
  split
  · rfl
  · split
    · rfl
    · split <;> rfl

theorem HostPort.posted_modEq (h : HostPort) (q : Nat) (f : EqState → EqState) : h.Posted (h.modEq q f) := rfl

theorem HostPort.posted_raise (h : HostPort) (now q : Nat) : h.Posted (h.raise now q) := by
  have hmsi : h.Posted (if (h.eqAt q).criterion then h else h.msi (bits (h.eqCfg q) 21 16)) := by
    split
    · rfl
    · exact h.posted_msi _
  unfold HostPort.raise
  split
  · exact hmsi.trans rfl
  · rfl

/-- A counter that no event advances: of the router's block only those of the reserved source 7 are such. -/
def quietCounter (k : Nat) : Prop := (k / 2 ^ 40 = 0x0E → k % 2 ^ 16 = 16 * 7) ∧ ∀ q, k ≠ hpCtr q 40

theorem State.cntOf_bump_ne (s : State) {k j : Nat} (h : k ≠ j) : (s.bump k).cntOf j = s.cntOf j := by
  simp [State.cntOf, State.bump, State.addCnt, lookD_put_ne _ h]

theorem quietCounter.router_ne {k off : Nat} (hk : quietCounter k) (hoff : off < 2 ^ 16) (hne : off ≠ 16 * 7) : ctr 0x0E 0 off ≠ k := by
  intro h
  have hquiet := hk.1
  rw [← h, ctr] at hquiet
  omega

/-- Nothing but what events change differs. -/
structure EventOnly (s t : State) : Prop where
  only : HostOnly s t
  posted : ∀ q, (s.host q).Posted (t.host q)
  counters : ∀ k, quietCounter k → t.cntOf k = s.cntOf k

theorem EventOnly.refl (s : State) : EventOnly s s := ⟨rfl, fun _ => rfl, fun _ _ => rfl⟩

theorem EventOnly.trans {s t u : State} (a : EventOnly s t) (b : EventOnly t u) : EventOnly s u :=
  ⟨a.only.trans b.only, fun q => (a.posted q).trans (b.posted q), fun k hk => (b.counters k hk).trans (a.counters k hk)⟩

theorem EventOnly.modHost (s : State) (p : Nat) {f : HostPort → HostPort} (hf : ∀ h, HostPort.Posted h (f h)) : EventOnly s (s.modHost p f) := by
  refine ⟨rfl, fun q => ?_, fun _ _ => rfl⟩
  by_cases hq : p = q
  · subst hq
    rw [State.host_modHost]
    exact hf _
  · rw [State.host_modHost_ne s hq]
    rfl

theorem EventOnly.modRouter (s : State) (f : Router → Router) : EventOnly s (s.modRouter f) := ⟨rfl, fun _ => rfl, fun _ _ => rfl⟩

theorem EventOnly.hostWrite (s : State) (p a : Nat) (b : Bytes) : EventOnly s (s.hostWrite p a b) := ⟨rfl, fun _ => rfl, fun _ _ => rfl⟩

theorem EventOnly.bump (s : State) {k : Nat} (h : ∀ j, quietCounter j → k ≠ j) : EventOnly s (s.bump k) :=
  ⟨HostOnly.bump s k, fun q => by rw [show (s.bump k).host q = s.host q by simp [State.host]]; rfl,
    fun j hj => s.cntOf_bump_ne (h j hj)⟩

theorem EventOnly.bump_router (s : State) {off : Nat} (hoff : off < 2 ^ 16) (hne : off ≠ 16 * 7) : EventOnly s (s.bump (ctr 0x0E 0 off)) :=
  EventOnly.bump s (fun _ hj => hj.router_ne hoff hne)

theorem EventOnly.bump_lost (s : State) (q : Nat) : EventOnly s (s.bump (hpCtr q 40)) :=
  EventOnly.bump s (fun _ hj h => hj.2 q h.symm)

theorem EventOnly.forEach {α : Type} {f : α → State → State} (h : ∀ a s, EventOnly s (f a s)) :
    ∀ (l : List α) (s : State), EventOnly s (forEach l f s)
  | [], s => EventOnly.refl s
  | a :: l, s => (h a s).trans (EventOnly.forEach h l (f a s))

theorem State.putEvent_eventOnly (s : State) (p q src sev tick payload : Nat) : EventOnly s (s.putEvent p q src sev tick payload) := by
  unfold State.putEvent
  dsimp only
  split
  · exact EventOnly.modHost s p (fun h => rfl)
  · exact (EventOnly.forEach (fun _ s => EventOnly.hostWrite s _ _ _) _ _).trans
      (EventOnly.modHost _ _ (fun h => (h.posted_modEq q _).trans (HostPort.posted_raise _ _ _)))

theorem State.deliver_eventOnly (s : State) (p queue src sev tick payload : Nat) : EventOnly s (s.deliver p queue src sev tick payload) := by
  unfold State.deliver
  dsimp only
  split
  · exact EventOnly.bump_router s (by decide) (by decide)
  · split
    · exact EventOnly.bump_lost s p
    · split
      · exact EventOnly.modHost s p (fun h => rfl)
      · exact State.putEvent_eventOnly ..

theorem State.routed_eventOnly (s : State) (src sev cls payload tick who : Nat) : EventOnly s (s.routed src sev cls payload tick who) := by
  unfold State.routed
  refine EventOnly.forEach (fun p s => ?_) _ s
  split
  · exact State.deliver_eventOnly ..
  · exact EventOnly.bump_router s (by decide) (by decide)

/-- The sources that the router knows. -/
theorem srcInfo_lt {src : Nat} {x : Nat × Nat} (h : srcInfo src = some x) : src < 256 ∧ src ≠ 7 := by
  refine ⟨?_, fun h7 => Option.some_ne_none x ((h7 ▸ h).symm.trans (by decide : srcInfo 7 = none))⟩
  unfold srcInfo at h
  split at h
  · omega
  · split at h
    · assumption
    · cases h

/-- An event changes what events change. -/
theorem State.event_eventOnly (s : State) (src payload who : Nat) : EventOnly s (s.event src payload who) := by
  unfold State.event
  split
  · exact EventOnly.refl s
  · next hsrc =>
    have hlt := srcInfo_lt hsrc
    have hcount := (EventOnly.bump_router s (off := 16 * src) (by omega) (by omega)).trans (EventOnly.modRouter _ (fun x => x.roll s.tick))
    dsimp only
    split
    · exact (hcount.trans (EventOnly.bump_router _ (by omega) (by omega))).trans (EventOnly.modRouter _ _)
    · refine hcount.trans ?_
      split
      · exact (EventOnly.modRouter _ _).trans (EventOnly.bump_router _ (by decide) (by decide))
      · split
        · exact (EventOnly.modRouter _ _).trans (EventOnly.modRouter _ _)
        · split
          · exact (EventOnly.modRouter _ _).trans (EventOnly.modRouter _ _)
          · exact (EventOnly.modRouter _ _).trans (State.routed_eventOnly ..)

/-- The first port in RUN has the events that waited for it. -/
theorem State.releaseBoot_eventOnly (s : State) (p : Nat) : EventOnly s (s.releaseBoot p) := by
  unfold State.releaseBoot
  split
  · exact EventOnly.refl s
  · refine (EventOnly.modRouter s _).trans (EventOnly.forEach (fun x s => ?_) _ _)
    dsimp only
    split
    · split
      · exact State.deliver_eventOnly ..
      · exact State.routed_eventOnly ..
    · exact EventOnly.refl s

/-- A port that is not in RUN has no event of its own. -/
theorem State.event_own_hosts (s : State) {src sev payload who : Nat} (hsrc : srcInfo src = some (sev, 0)) (hrun : s.running who = false) :
    (s.event src payload who).hosts = s.hosts ∧ (s.event src payload who).hostMem = s.hostMem := by
  have hrouted : ∀ z : State, z.hosts = s.hosts → z.hostMem = s.hostMem →
      (z.routed src sev 0 payload z.tick who).hosts = s.hosts ∧ (z.routed src sev 0 payload z.tick who).hostMem = s.hostMem := by
    intro z hz hmem
    have hz' : z.running who = false := by rw [State.running, State.host, hz]; exact hrun
    rw [show z.routed src sev 0 payload z.tick who = z.bump (ctr 0x0E 0 4096) by
      simp only [State.routed, forEach, List.foldl, hz', Bool.false_eq_true, if_false, reduceCtorEq]]
    exact ⟨by simpa using hz, by simpa using hmem⟩
  unfold State.event
  rw [hsrc]
  dsimp only
  split
  · simp
  · split
    · simp
    · split
      · simp
      · split
        · simp
        · exact hrouted _ (by simp) (by simp)

end Sys2Proof.Machine
end

section
/-! PROOFS. Registers of the owner and of a port (03 R163, 05 R228, 06 R256), and the states of a host port (02 R70-R74, R85). -/
namespace Sys2Proof.Machine

theorem bits_low_two (v : Nat) : bits v 1 0 = v % 4 := by
  rw [bits, Nat.pow_zero, Nat.div_one]
  rfl

/-! ### SF_CFG, LOOP and the key-encryption keys -/

/-- Settles O12: each write is the model's own update. -/
theorem ownerRegistersTakeWrites : Obligations.OwnerRegistersTakeWrites := by
  unfold Obligations.OwnerRegistersTakeWrites
  intro t p value s hopen
  have hcfg : s.isOwner p = true → exec (.sfCfgWrite t p value) s = .next ((s.at t).modFlash (fun f =>
      if f.busy then { f with cfgHeld := some ((s.flash.cfg &&& ~~~sfCfgMask) ||| (BitVec.ofNat 32 value &&& sfCfgMask)) }
      else { f with cfg := (s.flash.cfg &&& ~~~sfCfgMask) ||| (BitVec.ofNat 32 value &&& sfCfgMask), cfgHeld := none }.select)) := by
    intro howner
    have hopen' : (s.at t).barOpen p = true := hopen
    have howner' : (s.at t).isOwner p = true := howner
    exact congrArg Host.Outcome.next (if_neg (by simp [hopen', howner']))
  refine ⟨fun howner hbusy => ⟨_, hcfg howner, ?_, rfl⟩, fun howner hbusy => ⟨_, hcfg howner, ?_, ?_, rfl⟩, fun n hn howner hmode hval => ?_,
    fun w hw hrun => ?_⟩
  · rw [State.modFlash_flash, State.at_flash, hbusy]
    rfl
  · rw [State.modFlash_flash, State.at_flash, hbusy]
    rfl
  · rw [State.modFlash_flash, State.at_flash, hbusy]
    rfl
  · have hloop : exec (.loopWrite t p n value) s = .next ((s.at t).modNet (fun x => { x with
        phys := adjD x.phys n {} (fun ph => { ph with loop := bits value 1 0 }) })) :=
      congrArg Host.Outcome.next (if_pos ⟨hmode, hopen, howner, hn, by rwa [bits_low_two]⟩)
    refine ⟨_, hloop, ?_, fun m hm => ?_, rfl⟩
    · rw [← bits_low_two]
      exact congrArg Phys.loop (lookD_adjD_same s.net.phys n {} (fun ph => { ph with loop := bits value 1 0 }))
    · exact lookD_adjD_ne s.net.phys (Ne.symm hm) {} (fun ph => { ph with loop := bits value 1 0 })
  · have hkek : exec (.fwKekWrite t p p w value) s = .next ((s.at t).modHost p (fun h => { h with
        kek := put h.kek w (BitVec.ofNat 32 value)
        kekSeen := if w = 0 then [0] else if h.kekSeen.contains 0 ∧ h.kekSeen.contains w = false then w :: h.kekSeen else h.kekSeen })) :=
      congrArg Host.Outcome.next (if_pos ⟨hopen, rfl, hw, hrun⟩)
    refine ⟨_, hkek, ?_, fun v hv => ?_, rfl⟩
    · rw [State.host_modHost]
      exact look_put_same _ w _
    · rw [State.host_modHost]
      exact look_put_ne _ (Ne.symm hv) _

/-! ### Entering RUN -/

section Lock
variable {s : State} {p : Nat}

/-- What a port that returns finds changed: events, and nothing else of its rings. -/
theorem State.reclaim_host (s : State) (p : Nat) : ∃ doomed, HostOnly s (s.reclaim p) ∧
    HostPort.Posted { s.host p with grace := none, discarded := [], doomed } ((s.reclaim p).host p) := by
  unfold State.reclaim
  extract_lets h back late z n z'
  refine ⟨(s.host p).doomed ++ late, ?_⟩
  have hz : HostOnly s z ∧ z.host p = { s.host p with grace := none, discarded := [], doomed := (s.host p).doomed ++ late } :=
    ⟨HostOnly.modHost s p _, s.host_modHost p _⟩
  have hz' : EventOnly z z' := by
    unfold z' State.when
    split
    · exact State.event_eventOnly ..
    · exact EventOnly.refl z
  have hend := hz'.trans (EventOnly.forEach (f := fun x s => s.event 3 (x.1 + x.2.2 * 65536 + satU 32 x.2.1 * 2 ^ 32) p)
    (fun x s => State.event_eventOnly ..) h.discarded z')
  rw [← hz.2]
  split
  · exact ⟨hz.1.trans hend.only, hend.posted p⟩
  · exact ⟨hz.1, rfl⟩

/-- A port whose checks pass enters RUN. -/
theorem lockPort_run (hp : p < 4) (hstate : (s.host p).state = .setup) (hcheck : (s.host p).lockCheck s.power.mode = none) :
    HostOnly s (lockPort p s) ∧ ((lockPort p s).host p).state = .run ∧ ((lockPort p s).host p).lockErr = 0 ∧ ((lockPort p s).host p).sq = [] ∧
      ((lockPort p s).host p).cq = [] ∧ ((lockPort p s).host p).sweepNow = bits ((s.host p).reg 0x10010) 7 0 := by
  unfold lockPort
  rw [if_neg (by omega), hstate]
  dsimp only
  rw [hcheck]
  dsimp only
  obtain ⟨doomed, honly, hport⟩ := State.reclaim_host (s.modHost p (fun h => { h with
    state := .run, lockErr := 0, errKind := 0, errRing := 0, sweepNow := bits (h.reg 0x10010) 7 0, sq := [], cq := [], eq := [] })) p
  have hboot := State.releaseBoot_eventOnly (State.reclaim (s.modHost p (fun h => { h with
    state := .run, lockErr := 0, errKind := 0, errRing := 0, sweepNow := bits (h.reg 0x10010) 7 0, sq := [], cq := [], eq := [] })) p) p
  have hend := hport.trans (hboot.posted p)
  rw [State.host_modHost] at hend
  refine ⟨(HostOnly.modHost s p _).trans (honly.trans hboot.only), ?_⟩
  rw [hend]
  exact ⟨rfl, rfl, rfl, rfl, rfl⟩

end Lock

/-- Settles O13: the link, and the three outcomes of a LOCK. -/
theorem portsComeUp : Obligations.PortsComeUp := by
  unfold Obligations.PortsComeUp
  intro t p width rate value s hp hbit
  have hlock : (s.host p).state ≠ .off → exec (.lock t p 0x10000 value 32) s = .next (lockPort p (s.at t)) := by
    intro hoff
    have hopen : (s.at t).barOpen p = true := by
      rw [State.barOpen, decide_eq_true hp, Bool.true_and]
      exact bne_iff_ne.mpr hoff
    exact congrArg Host.Outcome.next (if_pos ⟨hopen, rfl, rfl, hbit⟩)
  refine ⟨⟨_, congrArg Host.Outcome.next (if_neg (Nat.not_le.mpr hp)), rfl, fun q hq => ?_, ?_⟩, fun hstate hcheck => ?_, fun code kind ring hstate hcheck => ?_,
    fun hstate => ?_⟩
  · rw [State.host_modHost_ne _ (Ne.symm hq)]
    rfl
  · rw [State.host_modHost]
    rfl
  · obtain ⟨honly, hrun, herr, hsq, hcq, hsweep⟩ := lockPort_run (s := s.at t) hp hstate hcheck
    exact ⟨_, hlock (by rw [hstate]; decide), hrun, herr, hsq, hcq, hsweep, honly.objs⟩
  · have hstate' : ((s.at t).host p).state = .setup := hstate
    have hcheck' : ((s.at t).host p).lockCheck (s.at t).power.mode = some (code, kind, ring) := hcheck
    rw [hlock (by rw [hstate]; decide), lockPort, if_neg (by omega), hstate']
    dsimp only
    rw [hcheck']
  · have hstate' : ((s.at t).host p).state = .run := hstate
    rw [hlock (by rw [hstate]; decide), lockPort, if_neg (by omega), hstate']

/-! ### Leaving RUN -/

section Leave
variable {s : State} {p : Nat}

/-- The port as it leaves RUN. -/
def HostPort.left (h : HostPort) (dest : PortState) (grace : Nat) (discarded : Tab (Nat × Nat)) : HostPort :=
  { h with
    state := dest, sweepNow := 0, sq := [], cq := [], eq := [], atn := false, discarded, unissued := []
    puntBufs := [], puntHeld := [], snaps := [], grace := some grace }

/-- The port without its link. -/
def HostPort.unlinked (h : HostPort) : HostPort := { h.functionReset with link := false, width := 0, rate := 0 }

/-- The cancelled snapshots of a port that is out of RUN change no port. -/
theorem State.snapPortGone_hosts (hrun : s.running p = false) (snaps : List SnapReq) :
    (s.snapPortGone p snaps).hosts = s.hosts ∧ (s.snapPortGone p snaps).hostMem = s.hostMem ∧ (s.snapPortGone p snaps).objs = s.objs := by
  unfold State.snapPortGone
  generalize snaps.filter _ = l
  induction l generalizing s with
  | nil => exact ⟨rfl, rfl, rfl⟩
  | cons q l ih =>
    have hdraw : (s.draw 256).2.running p = false := hrun
    have hone := State.event_own_hosts (s.draw 256).2 (payload := q.cancelPayload (s.draw 256).1) (who := p)
      (by rfl : srcInfo 5 = some (2, 0)) hdraw
    have hobjs := (State.event_hostOnly (s.draw 256).2 5 (q.cancelPayload (s.draw 256).1) p).objs
    obtain ⟨hhosts, hmem, hobjs'⟩ := ih (s := (s.draw 256).2.event 5 (q.cancelPayload (s.draw 256).1) p)
      (by rw [State.running, State.host, hone.1]; exact hrun)
    exact ⟨hhosts.trans hone.1, hmem.trans hone.2, hobjs'.trans hobjs⟩

/-- A port leaves RUN. -/
theorem State.leaveRun_host {dest : PortState} (hrun : (s.host p).state = .run) (hdest : dest ≠ .run) :
    ∃ discarded, (s.leaveRun p dest).host p = (s.host p).left dest (s.now + s.fld 2 (4 + 4 * p) 4 * 1000 * us) discarded ∧
      (∀ q, q ≠ p → (s.leaveRun p dest).host q = s.host q) ∧ (s.leaveRun p dest).objs = s.objs ∧ (s.leaveRun p dest).hostMem = s.hostMem := by
  unfold State.leaveRun
  rw [if_neg (fun h => h hrun)]
  extract_lets lost n z1 z2 punted z3 z4
  refine ⟨lost.map (fun x => (x.1, (x.2.1, x.2.2))), ?_⟩
  have hz : z4.hosts = s.hosts ∧ z4.now = s.now ∧ z4.gens = s.gens ∧ z4.objs = s.objs ∧ z4.hostMem = s.hostMem := by
    simp [z4, z3, z2, z1]
  obtain ⟨hhosts, hnow, hgens, hobjs, hmem⟩ := hz
  have hfld : z4.fld 2 (4 + 4 * p) 4 = s.fld 2 (4 + 4 * p) 4 := by rw [State.fld, hgens, State.fld]
  have hhost : ∀ q, z4.host q = s.host q := fun q => by rw [State.host, hhosts, State.host]
  generalize hz5 : z4.modHost p _ = z5
  have hport : z5.host p = (s.host p).left dest (s.now + s.fld 2 (4 + 4 * p) 4 * 1000 * us) (lost.map (fun x => (x.1, (x.2.1, x.2.2)))) := by
    rw [← hz5, State.host_modHost, hhost, hnow, hfld]
    rfl
  have hout : z5.running p = false := by
    rw [State.running, hport]
    exact beq_eq_false_iff_ne.mpr hdest
  obtain ⟨hhosts', hmem', hobjs'⟩ := State.snapPortGone_hosts hout (s.host p).snaps
  have hhost' : ∀ q, (z5.snapPortGone p (s.host p).snaps).host q = z5.host q := fun q => by rw [State.host, hhosts', State.host]
  refine ⟨(hhost' p).trans hport, fun q hq => ?_, ?_, ?_⟩
  · rw [hhost', ← hz5, State.host_modHost_ne _ (Ne.symm hq), hhost]
  · rw [hobjs', ← hz5]
    exact hobjs
  · rw [hmem', ← hz5]
    exact hmem

end Leave

/-- Settles O14: the four ways out of RUN are two, each of which leaves RUN and then resets the function. -/
theorem portsLeaveRun : Obligations.PortsLeaveRun := by
  unfold Obligations.PortsLeaveRun
  intro t p s c dest hp hrun hmem hlink
  have hrun' : ((s.at t).host p).state = .run := hrun
  have hleft : dest ≠ .run → ∀ f : HostPort → HostPort, (∀ h, (f h).state = h.state ∧ (f h).sq = h.sq ∧ (f h).cq = h.cq ∧ (f h).eq = h.eq ∧
      (f h).grace = h.grace) → exec c s = .next (((s.at t).leaveRun p dest).modHost p f) →
      ∃ u, exec c s = .next u ∧ (u.host p).state = dest ∧ (u.host p).sq = [] ∧ (u.host p).cq = [] ∧ (u.host p).eq = [] ∧
        (u.host p).grace = some (max s.now t + s.fld 2 (4 + 4 * p) 4 * 1000 * us) ∧ (∀ q, q ≠ p → u.host q = s.host q) ∧
        u.objs = s.objs ∧ u.hostMem = s.hostMem := by
    intro hdest f hf hexec
    obtain ⟨discarded, hport, hothers, hobjs, hmem⟩ := State.leaveRun_host hrun' hdest
    obtain ⟨hstate, hsq, hcq, heq, hgrace⟩ := hf (((s.at t).leaveRun p dest).host p)
    refine ⟨_, hexec, ?_, ?_, ?_, ?_, ?_, fun q hq => ?_, hobjs, hmem⟩
    · rw [State.host_modHost, hstate, hport, HostPort.left]
    · rw [State.host_modHost, hsq, hport, HostPort.left]
    · rw [State.host_modHost, hcq, hport, HostPort.left]
    · rw [State.host_modHost, heq, hport, HostPort.left]
    · rw [State.host_modHost, hgrace, hport, HostPort.left]
      rfl
    · rw [State.host_modHost_ne _ (Ne.symm hq), hothers q hq]
      rfl
  have hflr : flrPort p (s.at t) = ((s.at t).leaveRun p .setup).modHost p (fun h => h.functionReset) := by
    have hup : ¬ (4 ≤ p ∨ ((s.at t).host p).link = false) := fun h => h.elim (Nat.not_le.mpr hp) (fun h => Bool.false_ne_true (h.symm.trans hlink))
    rw [flrPort, if_neg hup, if_pos hrun']
  have hdown : hostLinkDown p (s.at t) = ((s.at t).leaveRun p .off).modHost p HostPort.unlinked :=
    if_neg (by omega)
  simp only [List.mem_cons, Prod.mk.injEq, List.not_mem_nil, or_false] at hmem
  obtain ⟨rfl, rfl⟩ | ⟨rfl, rfl⟩ | ⟨rfl, rfl⟩ | ⟨rfl, rfl⟩ := hmem
  · exact hleft (by decide) HostPort.functionReset (fun h => ⟨rfl, rfl, rfl, rfl, rfl⟩) (congrArg Host.Outcome.next hflr)
  · exact hleft (by decide) HostPort.functionReset (fun h => ⟨rfl, rfl, rfl, rfl, rfl⟩) (congrArg Host.Outcome.next hflr)
  · exact hleft (by decide) HostPort.unlinked (fun h => ⟨rfl, rfl, rfl, rfl, rfl⟩) (congrArg Host.Outcome.next hdown)
  · exact hleft (by decide) HostPort.unlinked (fun h => ⟨rfl, rfl, rfl, rfl, rfl⟩) (congrArg Host.Outcome.next hdown)

end Sys2Proof.Machine
end

section
/-! PROOFS. The doorbell sweep (02 R78-R84). -/
namespace Sys2Proof.Machine

/-! ### What the checks of the indices leave of a port -/

/-- A port with its registers, its interval and its fetch counts, and at least the halted rings. -/
structure HostPort.Swept (h k : HostPort) : Prop where
  regs : k.regs = h.regs
  interval : k.sweepNow = h.sweepNow
  fetched : ∀ i, (k.sqAt i).fetched = (h.sqAt i).fetched
  halted : ∀ i, (h.sqAt i).halted = true → (k.sqAt i).halted = true

theorem HostPort.Swept.refl (h : HostPort) : h.Swept h := ⟨rfl, rfl, fun _ => rfl, fun _ => id⟩

theorem HostPort.Swept.trans {h k l : HostPort} (a : h.Swept k) (b : k.Swept l) : h.Swept l :=
  ⟨b.regs.trans a.regs, b.interval.trans a.interval, fun i => (b.fetched i).trans (a.fetched i), fun i hi => b.halted i (a.halted i hi)⟩

theorem HostPort.Posted.swept {h k : HostPort} (a : h.Posted k) : h.Swept k := by
  rw [a]
  exact ⟨rfl, rfl, fun _ => rfl, fun _ => id⟩

theorem HostPort.swept_modSq (h : HostPort) (i : Nat) {f : SqState → SqState} (hf : ∀ q, (f q).fetched = q.fetched)
    (hh : ∀ q, q.halted = true → (f q).halted = true) : h.Swept (h.modSq i f) := by
  refine ⟨rfl, rfl, fun j => ?_, fun j hj => ?_⟩
  · by_cases hij : i = j
    · subst hij
      rw [HostPort.sqAt_modSq, hf]
    · rw [HostPort.sqAt_modSq_ne h hij]
  · by_cases hij : i = j
    · subst hij
      rw [HostPort.sqAt_modSq]
      exact hh _ hj
    · rwa [HostPort.sqAt_modSq_ne h hij]

theorem HostPort.swept_modCq (h : HostPort) (j : Nat) (f : CqState → CqState) : h.Swept (h.modCq j f) := ⟨rfl, rfl, fun _ => rfl, fun _ => id⟩

theorem HostPort.swept_haltAll : ∀ (l : List Nat) (h : HostPort),
    h.Swept (l.foldl (fun h r => h.modSq r (fun q => { q with halted := true })) h)
  | [], h => HostPort.Swept.refl h
  | r :: l, h => (h.swept_modSq r (f := fun q => { q with halted := true }) (fun _ => rfl) (fun _ _ => rfl)).trans (HostPort.swept_haltAll l _)

/-- What a check of an index leaves of the state. -/
structure Swept (p : Nat) (s t : State) : Prop where
  only : HostOnly s t
  port : (s.host p).Swept (t.host p)
  count : t.cntOf (hpCtr p 0) = s.cntOf (hpCtr p 0)

section Sweep
variable {p : Nat}

theorem Swept.refl (s : State) : Swept p s s := ⟨rfl, HostPort.Swept.refl _, rfl⟩

theorem Swept.trans {s t u : State} (a : Swept p s t) (b : Swept p t u) : Swept p s u :=
  ⟨a.only.trans b.only, a.port.trans b.port, b.count.trans a.count⟩

theorem Swept.forEach {α : Type} {f : α → State → State} (h : ∀ a s, Swept p s (f a s)) : ∀ (l : List α) (s : State), Swept p s (forEach l f s)
  | [], s => Swept.refl s
  | a :: l, s => (h a s).trans (Swept.forEach h l (f a s))

theorem hpCtr_ne {p q a b : Nat} (ha : a < 2 ^ 16) (hb : b < 2 ^ 16) (h : a ≠ b) : hpCtr p a ≠ hpCtr q b := by
  unfold hpCtr ctr
  omega

theorem quietCounter_sweeps (hp : p < 4) : quietCounter (hpCtr p 0) :=
  ⟨by unfold hpCtr ctr; omega, fun q => hpCtr_ne (by decide) (by decide) (by decide)⟩

theorem EventOnly.swept {s t : State} (hp : p < 4) (h : EventOnly s t) : Swept p s t :=
  ⟨h.only, (h.posted p).swept, h.counters _ (quietCounter_sweeps hp)⟩

theorem Swept.modHost (s : State) {f : HostPort → HostPort} (hf : ∀ h, HostPort.Swept h (f h)) : Swept p s (s.modHost p f) :=
  ⟨rfl, by rw [State.host_modHost]; exact hf _, rfl⟩

theorem Swept.addCnt (s : State) {k : Nat} (hk : k ≠ hpCtr p 0) (n : Nat) : Swept p s (s.addCnt k n) := by
  refine ⟨HostOnly.addCnt s k n, by rw [show (s.addCnt k n).host p = s.host p by simp [State.host]]; exact HostPort.Swept.refl _, ?_⟩
  unfold State.addCnt
  split
  · rfl
  · exact lookD_put_ne _ hk _ _

theorem Swept.haltRing (s : State) (kind i : Nat) : Swept p s (s.haltRing p kind i) := by
  refine Swept.modHost s (fun h => ?_)
  split
  · exact h.swept_modSq i (f := fun q => { q with halted := true }) (fun _ => rfl) (fun _ _ => rfl)
  · exact (h.swept_modCq i _).trans (HostPort.swept_haltAll _ _)
  · exact (h.posted_modEq i _).swept

theorem Swept.ringError (s : State) (hp : p < 4) (kind i idx : Nat) : Swept p s (s.ringError p kind i idx) :=
  ((Swept.haltRing s kind i).trans (Swept.addCnt _ (hpCtr_ne (by decide) (by decide) (by decide)) 1)).trans
    ((State.event_eventOnly ..).swept hp)

theorem sweepCq_swept (hp : p < 4) (j idx : Nat) (s : State) : Swept p s (sweepCq p j idx s) := by
  unfold sweepCq
  dsimp only
  split
  · exact Swept.refl s
  · split
    · exact Swept.ringError s hp 1 j idx
    · exact Swept.modHost s (fun h => h.swept_modCq j _)

theorem State.overflowDue_swept (hp : p < 4) (i : Nat) (s : State) : Swept p s (s.overflowDue p i) := by
  unfold State.overflowDue
  dsimp only
  split
  · exact Swept.refl s
  · exact (((Swept.addCnt s (hpCtr_ne (by decide) (by decide) (by decide)) _).trans ((EventOnly.bump_router _ (by decide) (by decide)).swept hp)).trans
      ((State.putEvent_eventOnly ..).swept hp)).trans (Swept.modHost _ (fun h => (h.posted_modEq i _).swept))

theorem sweepEq_swept (hp : p < 4) (i idx : Nat) (s : State) : Swept p s (sweepEq p i idx s) := by
  unfold sweepEq
  dsimp only
  split
  · exact Swept.refl s
  · split
    · exact Swept.ringError s hp 2 i idx
    · exact (Swept.modHost s (fun h => (h.posted_modEq i _).swept)).trans (State.overflowDue_swept hp i _)

theorem HostPort.posted_settle (h : HostPort) (now : Nat) : h.Posted (h.settle now) := by
  have hcriteria : ∀ (l : List Nat) (h : HostPort), h.Posted
      (l.foldl (fun h q => if h.eqMeets now q then h else h.modEq q (fun e => { e with criterion := false })) h) := by
    intro l
    induction l with
    | nil => exact fun h => rfl
    | cons q l ih =>
      intro h
      refine HostPort.Posted.trans ?_ (ih _)
      dsimp only
      split <;> rfl
  exact (hcriteria [0, 1, 2, 3] h).trans rfl

theorem sweepSq_swept (hp : p < 4) (r idx : Nat) (s : State) : Swept p s (sweepSq p r idx s) := by
  unfold sweepSq
  dsimp only
  split
  · exact Swept.refl s
  · have hprod : Swept p s (s.modHost p (fun h => h.modSq r (fun q => { q with prod := q.fetched + ahead idx ((s.host p).sqAt r).fetched }))) :=
      Swept.modHost s (fun h => h.swept_modSq r (fun _ => rfl) (fun _ => id))
    split
    · exact hprod.trans (Swept.ringError _ hp 0 r idx)
    · exact hprod

/-- An index that claims more than its ring holds leaves the ring halted (02 R81). -/
theorem sweepSq_halts {r idx : Nat} {s : State} (hen : (s.host p).sqEn r = true)
    (hover : ringSize ((s.host p).sqCfg r) < ahead idx ((s.host p).sqAt r).fetched) : (((sweepSq p r idx s).host p).sqAt r).halted = true := by
  unfold sweepSq
  dsimp only
  rw [if_neg (by simp [hen])]
  by_cases hhalt : ((s.host p).sqAt r).halted = false
  · rw [if_pos ⟨hhalt, hover⟩]
    have hposted := (State.event_eventOnly (((s.modHost p (fun h => h.modSq r (fun q => { q with
      prod := q.fetched + ahead idx ((s.host p).sqAt r).fetched }))).haltRing p 0 r).bump (hpCtr p 56)) 1 (r + 0 * 64 + (idx % 2 ^ 32) * 256) p).posted p
    refine hposted.swept.halted r ?_
    have hring : ∀ z : State, (((z.haltRing p 0 r).bump (hpCtr p 56)).host p).sqAt r = { (z.host p).sqAt r with halted := true } := by
      intro z
      rw [show ((z.haltRing p 0 r).bump (hpCtr p 56)).host p = (z.haltRing p 0 r).host p by simp [State.host], State.haltRing, State.host_modHost]
      exact HostPort.sqAt_modSq _ _ _
    rw [hring]
  · rw [if_neg (fun h => hhalt h.1), State.host_modHost, HostPort.sqAt_modSq]
    exact eq_true_of_ne_false hhalt

/-- And the ring stays halted while the other indices are checked. -/
theorem forEach_sweepSq_halts (hp : p < 4) {r idx : Nat} {l : List (Nat × Nat)} {s : State} (hmem : (r, idx) ∈ l)
    (hen : (s.host p).sqEn r = true) (hover : ringSize ((s.host p).sqCfg r) < ahead idx ((s.host p).sqAt r).fetched) :
    (((forEach l (fun x s => sweepSq p x.1 x.2 s) s).host p).sqAt r).halted = true := by
  induction l generalizing s with
  | nil => cases hmem
  | cons x l ih =>
    have hone := (sweepSq_swept hp x.1 x.2 s).port
    have hrest := (Swept.forEach (f := fun x s => sweepSq p x.1 x.2 s) (fun x s => sweepSq_swept hp x.1 x.2 s) l (sweepSq p x.1 x.2 s)).port
    obtain rfl | hmem := List.mem_cons.mp hmem
    · exact hrest.halted r (sweepSq_halts hen hover)
    · refine ih hmem ?_ ?_
      · rw [HostPort.sqEn, HostPort.sqCfg, HostPort.reg, hone.regs]
        exact hen
      · rw [HostPort.sqCfg, HostPort.reg, hone.regs, hone.fetched]
        exact hover

/-! ### The sweep up to its fetches -/

/-- A sweep and an advance are counted. -/
def State.countSweep (s : State) (p : Nat) (busy : Bool) : State := (s.bump (hpCtr p 0)).addCnt (hpCtr p 8) (b2n busy)

/-- The consumption that the page tells is taken. -/
def State.takeConsumed (s : State) (p : Nat) (page : Bytes) : State :=
  let cq := forEach ((s.host p).cqCons page) (fun x s => sweepCq p x.1 x.2 s) s
  forEach ((cq.host p).eqCons page) (fun x s => sweepEq p x.1 x.2 s) cq

/-- The state in which a sweep begins to fetch. -/
def State.checked (s : State) (p : Nat) (page : Bytes) : State :=
  let taken := (s.countSweep p (((s.host p).sqProd page).any (s.host p).advanced)).takeConsumed p page
  forEach ((s.host p).sqProd page) (fun x s => sweepSq p x.1 x.2 s) (taken.modHost p (fun h => h.settle taken.now))

/-- The interval behind a sweep. -/
def State.adapt (p : Nat) (busy : Bool) (s : State) : State :=
  s.modHost p (fun h => { h with
    sweepNow := if busy then bits (h.reg 0x10010) 7 0 else min (2 * h.sweepNow) (bits (h.reg 0x10010) 15 8) })

theorem sweep_eq {s : State} {d : SweepData} (hp : p < 4) (hrun : s.running p = true) (hmode : s.power.mode.sweeps = true)
    (hissue : (s.host p).canIssue = true) : sweep p d s =
      State.adapt p (((s.host p).sqProd d.page).any (s.host p).advanced)
        ((fetchRings p (byRing d.slots) (s.checked p d.page)).1.addCnt (hpCtr p 24) (b2n (fetchRings p (byRing d.slots) (s.checked p d.page)).2)) := by
  rw [sweep, if_neg (by simp [hrun, hmode, hissue]; omega)]
  rfl

theorem byRing_nil : byRing [] = [] := List.filterMap_eq_nil_iff.mpr (fun _ _ => rfl)

theorem State.countSweep_host (s : State) (busy : Bool) : (s.countSweep p busy).host p = s.host p := by
  simp [State.countSweep, State.host]

theorem State.takeConsumed_swept (hp : p < 4) (s : State) (page : Bytes) : Swept p s (s.takeConsumed p page) :=
  (Swept.forEach (fun (x : Nat × Nat) s => sweepCq_swept hp x.1 x.2 s) _ s).trans (Swept.forEach (fun (x : Nat × Nat) s => sweepEq_swept hp x.1 x.2 s) _ _)

/-- What stands before the check of the producer indices. -/
theorem State.settled_swept (hp : p < 4) (s : State) (page : Bytes) (now : Nat) :
    Swept p s ((s.takeConsumed p page).modHost p (fun h => h.settle now)) :=
  (State.takeConsumed_swept hp s page).trans (Swept.modHost _ (fun h => (h.posted_settle _).swept))

theorem State.checked_swept (hp : p < 4) (s : State) (page : Bytes) :
    Swept p (s.countSweep p (((s.host p).sqProd page).any (s.host p).advanced)) (s.checked p page) :=
  (State.settled_swept hp _ page _).trans (Swept.forEach (fun (x : Nat × Nat) s => sweepSq_swept hp x.1 x.2 s) _ _)

/-- What the checks leave of the port. -/
theorem State.checked_port (hp : p < 4) (s : State) (page : Bytes) : (s.host p).Swept ((s.checked p page).host p) := by
  have h := (State.checked_swept hp s page).port
  rwa [State.countSweep_host] at h

theorem State.checked_count (hp : p < 4) (s : State) (page : Bytes) : (s.checked p page).cntOf (hpCtr p 0) = (s.cntOf (hpCtr p 0) + 1) % 2 ^ 64 := by
  rw [(State.checked_swept hp s page).count, State.countSweep,
    (Swept.addCnt (p := p) (s.bump (hpCtr p 0)) (hpCtr_ne (by decide) (by decide) (by decide)) _).count, State.cntOf_bump]

theorem State.checked_halts (hp : p < 4) {s : State} {page : Bytes} {i : Nat} (hi : i < 64) (hen : (s.host p).sqEn i = true)
    (hover : ringSize ((s.host p).sqCfg i) < ahead (le page (4 * i) 4) ((s.host p).sqAt i).fetched) :
    (((s.checked p page).host p).sqAt i).halted = true := by
  have hmem : (i, le page (4 * i) 4) ∈ (s.host p).sqProd page :=
    List.mem_map.mpr ⟨i, List.mem_filter.mpr ⟨List.mem_range.mpr hi, hen⟩, rfl⟩
  have hport := (State.settled_swept hp (s.countSweep p (((s.host p).sqProd page).any (s.host p).advanced)) page
    ((s.countSweep p (((s.host p).sqProd page).any (s.host p).advanced)).takeConsumed p page).now).port
  rw [State.countSweep_host] at hport
  refine forEach_sweepSq_halts hp hmem ?_ ?_
  · rw [HostPort.sqEn, HostPort.sqCfg, HostPort.reg, hport.regs]
    exact hen
  · rw [HostPort.sqCfg, HostPort.reg, hport.regs, hport.fetched]
    exact hover

/-- Has the producer index of no ring in use moved? -/
theorem HostPort.advanced_none {h : HostPort} {page : Bytes}
    (hall : ∀ i < 64, h.sqEn i = true → (h.sqAt i).prod % 2 ^ 32 = le page (4 * i) 4 % 2 ^ 32) : (h.sqProd page).any h.advanced = false := by
  refine List.any_eq_false.mpr (fun x hx => ?_)
  obtain ⟨i, hi, rfl⟩ := List.mem_map.mp hx
  obtain ⟨hlt, hen⟩ := List.mem_filter.mp hi
  have heq : ((h.sqAt i).prod % 2 ^ 32 != le page (4 * i) 4 % 2 ^ 32) = false := by rw [hall i (List.mem_range.mp hlt) hen, bne_self_eq_false]
  rw [HostPort.advanced, heq, Bool.and_false]
  exact Bool.false_ne_true

theorem HostPort.advanced_some {h : HostPort} {page : Bytes} {i : Nat} (hi : i < 64) (hen : h.sqEn i = true)
    (hne : (h.sqAt i).prod % 2 ^ 32 ≠ le page (4 * i) 4 % 2 ^ 32) : (h.sqProd page).any h.advanced = true := by
  refine List.any_eq_true.mpr ⟨(i, le page (4 * i) 4), List.mem_map.mpr ⟨i, List.mem_filter.mpr ⟨List.mem_range.mpr hi, hen⟩, rfl⟩, ?_⟩
  rw [HostPort.advanced, hen, Bool.true_and]
  exact bne_iff_ne.mpr hne

/-- A ring with one descriptor to fetch. -/
theorem fetchRings_one {r : Nat} {b : Bytes} {s : State} (hopen : s.ringOpen p r = true)
    (hahead : ((s.host p).sqAt r).fetched < ((s.host p).sqAt r).prod) (hfree : s.cqFree p r = true) :
    fetchRings p [(r, [b])] s = (fetchOne p r (slotOpcode b) (slotDesc b) s, false) := by
  have hring : fetchRing p r 32 [b] s = (fetchOne p r (slotOpcode b) (slotDesc b) s, false) := by
    rw [fetchRing, if_neg (by simp [hopen]; omega), if_neg (by simp [hfree]), fetchRing]
  simp only [fetchRings, hring, Bool.or_false]

end Sweep

/-- Settles O15: the checks of the page, the interval, and the fetches behind them. -/
theorem sweepsReadIndices : Obligations.SweepsReadIndices := by
  unfold Obligations.SweepsReadIndices
  refine ⟨fun t p d s hp hrun hmode hissue => ⟨fun hslots => ?_, ?_⟩, fun p r b s hopen hahead hfree => fetchRings_one hopen hahead hfree⟩
  · have hexec : exec (.sweep t p d) s = .next (State.adapt p (((s.host p).sqProd d.page).any (s.host p).advanced) ((s.at t).checked p d.page)) := by
      refine congrArg Host.Outcome.next ((sweep_eq (s := s.at t) hp hrun hmode hissue).trans ?_)
      rw [hslots, byRing_nil]
      rfl
    have hport : (s.host p).Swept (((s.at t).checked p d.page).host p) := State.checked_port hp (s.at t) d.page
    have hreg : (((s.at t).checked p d.page).host p).reg 0x10010 = (s.host p).reg 0x10010 := by rw [HostPort.reg, hport.regs, HostPort.reg]
    have hhalted : ∀ i < 64, (s.host p).sqEn i = true → ringSize ((s.host p).sqCfg i) < ahead (le d.page (4 * i) 4) ((s.host p).sqAt i).fetched →
        (((State.adapt p (((s.host p).sqProd d.page).any (s.host p).advanced) ((s.at t).checked p d.page)).host p).sqAt i).halted = true := by
      intro i hi hen hover
      rw [State.adapt, State.host_modHost]
      exact State.checked_halts (s := s.at t) hp hi hen hover
    refine ⟨_, hexec, fun hall => ?_, fun i hi hen hne => ?_, State.checked_count hp (s.at t) d.page, fun i hi hen _ hover => ⟨hhalted i hi hen hover, ?_⟩⟩
    · rw [State.adapt, State.host_modHost, HostPort.advanced_none hall, hport.interval, hreg]
      rfl
    · rw [State.adapt, State.host_modHost, HostPort.advanced_some hi hen hne, hreg]
      rfl
    · rw [State.ringOpen, hhalted i hi hen hover]
      simp
  · refine ⟨(s.at t).checked p d.page, State.adapt p (((s.host p).sqProd d.page).any (s.host p).advanced), fun v => ⟨_, rfl⟩, ?_, ?_⟩
    · exact congrArg Host.Outcome.next ((sweep_eq (s := s.at t) (d := { d with slots := [] }) hp hrun hmode hissue).trans (by rw [byRing_nil]; rfl))
    · exact congrArg Host.Outcome.next (sweep_eq (s := s.at t) hp hrun hmode hissue)

end Sys2Proof.Machine
end

section
/-! PROOFS. The ends of host accesses (02 R93, R122) and the ages of events and completions (02 R108, R109). -/
namespace Sys2Proof.Machine

section Access
variable {s : State} {p : Nat}

/-- A port as the completion of a descriptor finds it. -/
def HostPort.AsIs (h k : HostPort) : Prop := k.regs = h.regs ∧ k.sq = h.sq ∧ k.cq = h.cq ∧ k.canIssue = h.canIssue

theorem HostPort.Posted.asIs {h k : HostPort} (a : h.Posted k) : h.AsIs k := by
  rw [a]
  exact ⟨rfl, rfl, rfl, rfl⟩

theorem HostPort.AsIs.trans {h k l : HostPort} (a : h.AsIs k) (b : k.AsIs l) : h.AsIs l :=
  ⟨b.1.trans a.1, b.2.1.trans a.2.1, b.2.2.1.trans a.2.2.1, b.2.2.2.trans a.2.2.2⟩

/-- The one descriptor of a ring completes, in a state whose port is as it was. -/
theorem State.complete_asIs {z : State} {r seq st res : Nat} {tick : Option Nat} {o : Outstanding} (has : (s.host p).AsIs (z.host p))
    (hout : ((s.host p).sqAt r).out = [o]) (hseq : o.seq = seq) (hdone : o.done = none) (hfence : (s.host p).noFence)
    (hissue : (s.host p).canIssue = true) (hhalt : ((s.host p).cqAt ((s.host p).cqOf r)).halted = false) :
    s.answered (z.complete p r seq st res tick) p r o.tag st res := by
  obtain ⟨hregs, hsq, hcq, hcan⟩ := has
  have hof : (z.host p).cqOf r = (s.host p).cqOf r := by rw [HostPort.cqOf, HostPort.sqCfg, HostPort.reg, hregs]; rfl
  have hcqAt : ∀ j, (z.host p).cqAt j = (s.host p).cqAt j := fun j => by rw [HostPort.cqAt, hcq]; rfl
  have h := State.complete_one z p r seq st res tick o (by rw [HostPort.sqAt, hsq]; exact hout) hseq hdone
    (by rw [hof, hcqAt]; exact hhalt) (hcan.trans hissue) (by rw [hsq]; exact hfence)
  rw [State.answered, hof, hcqAt] at h
  exact h

theorem State.complete_dmas (s : State) (p r seq st res : Nat) (tick : Option Nat) (obj : Nat) : (s.complete p r seq st res tick obj).dmas = s.dmas :=
  (State.complete_hostOnly s p r seq st res tick obj).dmas

/-- The failure of an access leaves its port but for its AER status and what events change. -/
theorem State.dmaError_posted (s : State) (p kind i status tag : Nat) :
    ((s.host p).noteAer status).Posted ((s.dmaError p kind i status tag).host p) := by
  have h := (State.event_eventOnly (s.hostFailed p status) 2 (i % 64 + kind * 64 + (status % 8) * 256 + tag * 65536) p).posted p
  rw [State.hostFailed, State.host_modHost] at h
  rw [show (s.host p) = (s.bump (hpCtr p 112)).host p by simp [State.host]]
  exact h

/-- And it is counted. -/
theorem State.dmaError_count (s : State) (p kind i status tag : Nat) :
    (s.dmaError p kind i status tag).cntOf (hpCtr p 112) = (s.cntOf (hpCtr p 112) + 1) % 2 ^ 64 := by
  have hquiet : quietCounter (hpCtr p 112) := by
    refine ⟨fun _ => ?_, fun q => hpCtr_ne (by decide) (by decide) (by decide)⟩
    unfold hpCtr ctr
    omega
  rw [State.dmaError, (State.event_eventOnly ..).counters _ hquiet]
  exact s.cntOf_bump (hpCtr p 112)

/-- A halted ring that no message of an event opens again. -/
theorem State.ringOpen_of_halted {z : State} {r : Nat} (h : ((z.host p).sqAt r).halted = true) : z.ringOpen p r = false := by
  rw [State.ringOpen, h]
  simp

theorem State.haltRing_cq (s : State) (p i : Nat) : (((s.haltRing p 1 i).host p).cqAt i).halted = true := by
  have hkeep : ∀ (l : List Nat) (h : HostPort), (l.foldl (fun h r => h.modSq r (fun q => { q with halted := true })) h).cq = h.cq := by
    intro l
    induction l with
    | nil => exact fun h => rfl
    | cons r l ih => exact fun h => (ih _).trans rfl
  rw [State.haltRing, State.host_modHost]
  change (lookD (HostPort.cq (List.foldl _ _ _)) i {}).halted = true
  rw [hkeep]
  exact congrArg CqState.halted (HostPort.cqAt_modCq (s.host p) i (fun q => { q with halted := true }))

theorem failureStatus {st : Nat} (h : st ∈ [1, 2, 4, 5, 6, 7]) : [1, 2, 4, 5, 6, 7].contains st = true := List.contains_iff_mem.mpr h

/-! #### What the end of an access to a buffer does, by its use -/

section Buffer
variable {x : Dma} {data : Bytes}

/-- The state without an access that has ended. -/
def State.without (s : State) (x : Dma) : State := { s with dmas := s.dmas.filter (fun y => y.id != x.id) }

theorem State.dmaDone_command (huse : x.use = .command) : s.dmaDone x data =
    { s.without x with waiting := s.waiting.map (fun w => if w.seq = x.seq then { w with data := some data } else w) } := by
  rw [State.dmaDone, huse]
  rfl

theorem State.dmaDone_tackImage (huse : x.use = .tackImage) {v : Validation} (hval : s.gens.validating = some v) (hport : v.port = x.port)
    (hring : v.ring = x.ring) (hseq : v.seq = x.seq) : s.dmaDone x data =
      (s.without x).modGens (fun g => { g with validating := some { v with image := some data } }) := by
  have hval' : (s.without x).gens.validating = some v := hval
  rw [State.dmaDone, huse]
  change (s.without x).tackRead x.port x.ring x.seq (some data) = _
  rw [State.tackRead, hval']
  exact if_pos ⟨hport, hring, hseq⟩

theorem State.dmaDone_write {result : Nat} (huse : x.use = .write result) :
    s.dmaDone x data = (s.without x).complete x.port x.ring x.seq stOk result := by
  rw [State.dmaDone, huse]
  rfl

theorem State.dmaFailed_write {result status : Nat} (huse : x.use = .write result) : s.dmaFailed x status =
    ((s.dmaError x.port 0 x.ring status (s.tagOf x.port x.ring x.seq)).without x).complete x.port x.ring x.seq stDmaError := by
  rw [State.dmaFailed, huse]
  rfl

theorem exec_bufferOk {t id : Nat} (hfind : s.dmas.find? (fun y => y.id == id) = some x) (hissued : x.issued = true) :
    exec (.hostDmaCompletion t (.buffer id) (.ok data)) s = .next ((s.at t).dmaDone x data) := by
  have hfind' : (s.at t).dmas.find? (fun y => y.id == id) = some x := hfind
  refine congrArg Host.Outcome.next ?_
  simp only [hostDmaCompletion, hfind', hissued, if_true]

theorem exec_bufferFail {t id : Nat} (hfind : s.dmas.find? (fun y => y.id == id) = some x) (hissued : x.issued = false) :
    exec (.hostDmaCompletion t (.buffer id) (.fail 7)) s = .next ((s.at t).dmaFailed x 7) := by
  have hfind' : (s.at t).dmas.find? (fun y => y.id == id) = some x := hfind
  refine congrArg Host.Outcome.next ?_
  simp only [hostDmaCompletion, hfind', Dma.fails, hissued, Bool.false_eq_true, if_false, beq_self_eq_true, if_true]

/-- No access under the ended one's name is left. -/
theorem State.without_ne {y : Dma} (h : y ∈ (s.without x).dmas) : y.id ≠ x.id := bne_iff_ne.mp (List.mem_filter.mp h).2

end Buffer

end Access

/-- Settles O16: the end of each access, by the use it was made for. -/
theorem hostAccessesEnd : Obligations.HostAccessesEnd := by
  unfold Obligations.HostAccessesEnd
  intro t s
  refine ⟨fun id x data hfind => ?_, fun p r st hrun hst => ⟨fun hr => ?_, ?_⟩, fun p i hrun hunissued => ?_⟩
  · obtain rfl : x.id = id := by simpa using List.find?_some hfind
    refine ⟨fun hissued huse => ?_, fun v hissued huse hval hport hring hseq => ?_, fun result o huse hout hseq hdone hfence hcan hhalt =>
      ⟨fun hissued => ?_, fun hissued => ?_⟩⟩
    · refine ⟨_, (exec_bufferOk hfind hissued).trans (congrArg _ (State.dmaDone_command huse)), fun y hy => State.without_ne hy, fun w hw hwseq => ?_, rfl⟩
      obtain ⟨w', -, rfl⟩ := List.mem_map.mp hw
      by_cases heq : w'.seq = x.seq
      · rw [if_pos heq]
      · rw [if_neg heq] at hwseq
        exact absurd hwseq heq
    · exact ⟨_, (exec_bufferOk hfind hissued).trans (congrArg _ (State.dmaDone_tackImage (s := s.at t) huse hval hport hring hseq)),
        fun y hy => State.without_ne hy, rfl, rfl⟩
    · refine ⟨_, (exec_bufferOk hfind hissued).trans (congrArg _ (State.dmaDone_write huse)), ?_, fun y hy => ?_⟩
      · exact State.complete_asIs (s := s) ⟨rfl, rfl, rfl, rfl⟩ hout hseq hdone hfence hcan hhalt
      · rw [State.complete_dmas] at hy
        exact State.without_ne hy
    · refine ⟨_, (exec_bufferFail hfind hissued).trans (congrArg _ (State.dmaFailed_write huse)), ?_, fun y hy => ?_⟩
      · have hnoted : ((s.at t).host x.port).AsIs (((s.at t).host x.port).noteAer 7) := ⟨rfl, rfl, rfl, rfl⟩
        exact State.complete_asIs (s := s) (hnoted.trans (State.dmaError_posted (s.at t) x.port 0 x.ring 7 _).asIs) hout hseq hdone hfence hcan hhalt
      · rw [State.complete_dmas] at hy
        exact State.without_ne hy
  · have hexec : exec (.hostDmaCompletion t (.desc p r) (.fail st)) s = .next (((s.at t).haltRing p 0 r).dmaError p 0 r st 0) :=
      congrArg Host.Outcome.next (if_pos ⟨hrun, hr, failureStatus hst⟩)
    have hposted := State.dmaError_posted ((s.at t).haltRing p 0 r) p 0 r st 0
    have hport : ((s.at t).haltRing p 0 r).host p = (s.host p).modSq r (fun q => { q with halted := true }) := State.host_modHost _ p _
    have hhalted : (((((s.at t).haltRing p 0 r).dmaError p 0 r st 0).host p).sqAt r).halted = true := by
      rw [hposted, hport]
      exact congrArg SqState.halted (HostPort.sqAt_modSq (s.host p) r (fun q => { q with halted := true }))
    refine ⟨_, hexec, State.ringOpen_of_halted hhalted, hhalted, ?_, State.dmaError_count _ p 0 r st 0⟩
    rw [hposted, hport]
    rfl
  · exact congrArg Host.Outcome.next (if_pos ⟨hrun, failureStatus hst⟩)
  · generalize hz : (s.at t).modHost p (fun h => { h with unissued := h.unissued.filter (· != (1, i)) }) = z
    have hexec : exec (.hostDmaCompletion t (.entry p 1 i) (.fail 7)) s = .next ((z.haltRing p 1 i).dmaError p 1 i 7 0) := by
      rw [← hz]
      exact congrArg Host.Outcome.next (if_pos ⟨hrun, hunissued, rfl⟩)
    refine ⟨_, hexec, ?_, ?_⟩
    · rw [State.dmaError_posted]
      exact State.haltRing_cq z p i
    · rw [State.dmaError_count, ← hz]
      rfl

/-! ### Ages -/

section Age
variable {s : State} {p : Nat}

theorem HostPort.msi_eqAt (h : HostPort) (v q : Nat) : (h.msi v).eqAt q = h.eqAt q := by
  unfold HostPort.msi
  split
  · rfl
  · split
    · rfl
    · split <;> rfl

/-- A queue that meets a criterion asserts the pin and keeps its entries. -/
theorem HostPort.raise_of_meets {h : HostPort} {now q : Nat} (hstate : h.state = .run) (hmeets : h.eqMeets now q = true) :
    (h.raise now q).atn = true ∧ ((h.raise now q).eqAt q).criterion = true ∧ ((h.raise now q).eqAt q).entries = (h.eqAt q).entries := by
  unfold HostPort.raise
  rw [if_pos (by rw [hstate, hmeets]; rfl)]
  dsimp only
  refine ⟨rfl, ?_, ?_⟩
  · exact congrArg EqState.criterion (HostPort.eqAt_modEq _ q (fun e => { e with criterion := true }))
  · refine (congrArg EqState.entries (HostPort.eqAt_modEq _ q (fun e => { e with criterion := true }))).trans ?_
    dsimp only
    split
    · rfl
    · rw [HostPort.msi_eqAt]

/-- The message of a vector, or its pending bit. -/
theorem HostPort.msi_of_msix {h : HostPort} (hmsix : h.msix = true) (vector : Nat) :
    (h.masked vector = true → (h.msi vector).pba = h.pba ||| 2 ^ vector ∧ (h.msi vector).msixSent = h.msixSent) ∧
    (h.masked vector = false → h.canIssue = true → (h.msi vector).msixSent = vector :: h.msixSent) := by
  refine ⟨fun hmask => ?_, fun hmask hissue => ?_⟩
  · rw [HostPort.msi, if_neg (by simp [hmsix]), if_pos hmask]
    exact ⟨rfl, rfl⟩
  · rw [HostPort.msi, if_neg (by simp [hmsix]), if_neg (by simp [hmask]), if_pos hissue]

end Age

/-- Settles O17: the age of an entry, and that of an unsignalled completion. -/
theorem agesSignal : Obligations.AgesSignal := by
  unfold Obligations.AgesSignal
  intro t p i s
  refine ⟨fun hp hi hstate hmeets => ?_, fun vec hvec hstate hmsix hage hcount hold => ?_⟩
  · obtain ⟨hatn, hcrit, hentries⟩ := HostPort.raise_of_meets (h := s.host p) hstate hmeets
    have hexec : exec (.attentionAge t p i) s = .next ((s.at t).modHost p (fun h => h.raise (max s.now t) i)) :=
      congrArg Host.Outcome.next (if_pos ⟨hp, hi⟩)
    refine ⟨_, hexec, ?_, ?_, ?_, rfl⟩
    all_goals rw [State.host_modHost]
    · exact hatn
    · exact hcrit
    · exact hentries
  · subst hvec
    have hexec : exec (.coalesceAge t p i) s = .next ((s.at t).modHost p (fun h =>
        (h.msi (bits (h.cqCfg i) 21 16)).modCq i (fun q => { q with unsignalled := 0 }))) :=
      congrArg Host.Outcome.next (if_pos ⟨hstate, hmsix, hage, hcount, hold⟩)
    obtain ⟨hmasked, hsent⟩ := HostPort.msi_of_msix (h := s.host p) hmsix (bits ((s.host p).cqCfg i) 21 16)
    refine ⟨_, hexec, ?_, ?_, fun hmask => ?_, fun hmask hissue => ?_, rfl⟩
    all_goals rw [State.host_modHost]
    · exact congrArg CqState.unsignalled (HostPort.cqAt_modCq _ i (fun q => { q with unsignalled := 0 }))
    · have hentries : (((s.host p).msi (bits ((s.host p).cqCfg i) 21 16)).cqAt i).entries = ((s.host p).cqAt i).entries := by
        rw [HostPort.msi_cqAt]
      exact (congrArg CqState.entries (HostPort.cqAt_modCq _ i (fun q => { q with unsignalled := 0 }))).trans hentries
    · exact hmasked hmask
    · exact hsent hmask hissue

end Sys2Proof.Machine
end

section
/-! PROOFS. The timers of the host ports (02 R98, R104, R114; 06 R251, R258) and the deletion of rooms, legs and streams (06 R247). -/
namespace Sys2Proof.Machine

/-! ### What a deletion leaves -/

/-- No room comes up or changes its owner, no grace ends, and mode and tick stay. -/
structure Deletes (s t : State) : Prop where
  rooms : ∀ j r, look t.objs.rooms j = some r → ∃ r', look s.objs.rooms j = some r' ∧ r'.owner = r.owner
  tickAt : t.tickAt = s.tickAt
  grace : ∀ q, (t.host q).grace = (s.host q).grace

theorem Deletes.refl (s : State) : Deletes s s := ⟨fun _ r h => ⟨r, h, rfl⟩, rfl, fun _ => rfl⟩

theorem Deletes.trans {s t u : State} (a : Deletes s t) (b : Deletes t u) : Deletes s u := by
  refine ⟨fun j r h => ?_, b.tickAt.trans a.tickAt, fun q => (b.grace q).trans (a.grace q)⟩
  obtain ⟨r', hr', howner'⟩ := b.rooms j r h
  obtain ⟨r'', hr'', howner''⟩ := a.rooms j r' hr'
  exact ⟨r'', hr'', howner''.trans howner'⟩

theorem Deletes.forEach {α : Type} {f : α → State → State} (h : ∀ a s, Deletes s (f a s)) : ∀ (l : List α) (s : State), Deletes s (forEach l f s)
  | [], s => Deletes.refl s
  | a :: l, s => (h a s).trans (Deletes.forEach h l (f a s))

/-- A room that is gone stays gone. -/
theorem Deletes.none {s t : State} (a : Deletes s t) {j : Nat} (h : look s.objs.rooms j = none) : look t.objs.rooms j = none := by
  cases hj : look t.objs.rooms j with
  | none => rfl
  | some r =>
    obtain ⟨r', hr', -⟩ := a.rooms j r hj
    exact absurd (h.symm.trans hr') (by simp)

/-- What changes neither rooms nor ports deletes nothing. -/
theorem Deletes.of_eq {s t : State} (hrooms : t.objs.rooms = s.objs.rooms) (htick : t.tickAt = s.tickAt) (hhosts : t.hosts = s.hosts) : Deletes s t :=
  ⟨fun j r h => ⟨r, by rw [← hrooms]; exact h, rfl⟩, htick, fun q => by rw [State.host, hhosts, State.host]⟩

theorem EventOnly.deletes {s t : State} (a : EventOnly s t) : Deletes s t :=
  ⟨fun j r h => ⟨r, by rw [← a.only.objs]; exact h, rfl⟩, a.only.tickAt, fun q => by rw [a.posted q]⟩

theorem Deletes.modHost (s : State) (p : Nat) {f : HostPort → HostPort} (hf : ∀ h, (f h).grace = h.grace) : Deletes s (s.modHost p f) := by
  refine ⟨fun j r h => ⟨r, h, rfl⟩, rfl, fun q => ?_⟩
  by_cases hq : p = q
  · subst hq
    rw [State.host_modHost, hf]
  · rw [State.host_modHost_ne s hq]

theorem Deletes.modRoom (s : State) (i : Nat) {f : Room → Room} (hf : ∀ r, (f r).owner = r.owner) : Deletes s (s.modRoom i f) := by
  refine ⟨fun j r h => ?_, rfl, fun _ => rfl⟩
  rw [State.modRoom_objs, look_adj] at h
  by_cases hij : i = j
  · subst hij
    rw [if_pos rfl] at h
    obtain ⟨r', hr', rfl⟩ := Option.map_eq_some_iff.mp h
    exact ⟨r', hr', (hf r').symm⟩
  · rw [if_neg hij] at h
    exact ⟨r, h, rfl⟩

theorem Deletes.modNet (s : State) (f : Net → Net) : Deletes s (s.modNet f) := Deletes.of_eq rfl rfl rfl
theorem Deletes.modMedia (s : State) (f : Media → Media) : Deletes s (s.modMedia f) := Deletes.of_eq rfl rfl rfl
theorem Deletes.modThyme (s : State) (f : Thyme → Thyme) : Deletes s (s.modThyme f) := Deletes.of_eq rfl rfl rfl
theorem Deletes.modObjs (s : State) {f : Objects → Objects} (hf : ∀ o, (f o).rooms = o.rooms) : Deletes s (s.modObjs f) :=
  Deletes.of_eq (hf s.objs) rfl rfl

/-! ### Deleting a stream, a leg and a room -/

section Delete
variable (s : State)

theorem State.tombstone_deletes (kind handle owner ssrc yard : Nat) (tuple : Nat × Nat × Nat × Nat × Nat) :
    Deletes s (s.tombstone kind handle owner ssrc yard tuple) := by
  unfold State.tombstone
  dsimp only
  split
  · exact Deletes.refl s
  · exact Deletes.of_eq rfl rfl rfl

theorem State.leaveTarget_deletes (i : Nat) : Deletes s (s.leaveTarget i) := by
  unfold State.leaveTarget
  split
  · exact Deletes.refl s
  · dsimp only
    split <;> exact Deletes.of_eq rfl rfl rfl

theorem State.leaveMix_deletes (i : Nat) (x : Stream) : Deletes s (s.leaveMix i x) := Deletes.of_eq rfl rfl rfl

theorem State.deleteStream_deletes (i : Nat) : Deletes s (s.deleteStream i) := by
  unfold State.deleteStream
  split
  · exact Deletes.refl s
  · next x hx =>
    extract_lets h y s1 s2 s3 s4
    have h1 : Deletes s s1 := by
      unfold s1
      split
      · exact State.tombstone_deletes ..
      · exact Deletes.refl s
    have h2 : Deletes s1 s2 := by
      unfold s2
      split
      · split
        · exact State.leaveMix_deletes ..
        · exact Deletes.refl s1
      · split
        · exact State.leaveTarget_deletes ..
        · exact State.leaveMix_deletes ..
    have h3 : Deletes s2 s3 := Deletes.modRoom s2 x.room (fun r => rfl)
    exact ((h1.trans h2).trans h3).trans ((Deletes.modThyme s3 _).trans (Deletes.modObjs _ (fun _ => rfl)))

theorem State.spillMark_deletes : Deletes s s.spillMark := by
  unfold State.spillMark
  dsimp only
  split
  · split
    · exact Deletes.of_eq rfl rfl rfl
    · exact Deletes.refl s
  · split
    · exact (Deletes.modNet s _).trans (State.event_eventOnly ..).deletes
    · exact Deletes.refl s

theorem State.release_deletes (f : QFrame) : Deletes s (s.release f) := by
  unfold State.release
  split
  · exact (Deletes.modNet s _).trans (State.spillMark_deletes _)
  · exact Deletes.of_eq rfl rfl rfl

theorem State.dropQ_deletes (f : QFrame) (key yard : Nat) : Deletes s (s.dropQ f key yard) := by
  unfold State.dropQ State.dropN State.countFor
  split
  · exact Deletes.of_eq (by simp) (by simp) (by simp)
  · exact Deletes.of_eq rfl rfl rfl

theorem State.discardAll_deletes (fs : List QFrame) (key yard : Nat) : Deletes s (s.discardAll fs key yard) :=
  Deletes.forEach (fun f s => (State.release_deletes s f).trans (State.dropQ_deletes _ f key yard)) fs s

theorem State.deleteLeg_deletes (i : Nat) : Deletes s (s.deleteLeg i) := by
  unfold State.deleteLeg
  split
  · exact Deletes.refl s
  · extract_lets s1 s2 s3 s4
    have h1 : Deletes s s1 := Deletes.forEach (fun k s => State.deleteStream_deletes s k) _ s
    have h2 : Deletes s1 s2 := (State.discardAll_deletes s1 _ _ _).trans (Deletes.modNet _ _)
    have h3 : Deletes s2 s3 := State.tombstone_deletes ..
    exact ((h1.trans h2).trans h3).trans ((Deletes.modMedia s3 _).trans (Deletes.modObjs _ (fun _ => rfl)))

theorem State.snapRoomGone_deletes (room : Nat) : Deletes s (s.snapRoomGone room) := by
  refine Deletes.forEach (fun p s => ?_) [0, 1, 2, 3] s
  dsimp only
  exact (Deletes.forEach (fun q s => (State.event_eventOnly ..).deletes) _ s).trans (Deletes.modHost _ p (fun h => rfl))

theorem State.retireRoom_deletes (room : Nat) : Deletes s (s.retireRoom room) := by
  unfold State.retireRoom
  exact Deletes.modMedia s _

theorem State.freshInserts_deletes (room : Nat) : Deletes s (s.freshInserts room) := by
  unfold State.freshInserts
  exact Deletes.modThyme s _

theorem State.removeRoom_deletes (i : Nat) (adms : Objects → List Adm) :
    Deletes s (s.modObjs (fun o => { o with rooms := del o.rooms i, adms := adms o })) := by
  refine ⟨fun j r h => ?_, rfl, fun _ => rfl⟩
  have hj : look (del s.objs.rooms i) j = some r := h
  rw [look_del] at hj
  split at hj
  · cases hj
  · exact ⟨r, hj, rfl⟩

theorem State.noteDrained_deletes : Deletes s s.noteDrained := by
  unfold State.noteDrained
  split
  · exact Deletes.of_eq rfl rfl rfl
  · exact Deletes.refl s

/-- A room is deleted with all that is in it. -/
theorem State.deleteRoom_deletes (i : Nat) : Deletes s (s.deleteRoom i) ∧ look (s.deleteRoom i).objs.rooms i = none := by
  unfold State.deleteRoom
  split
  · next h => exact ⟨Deletes.refl s, h⟩
  · next r hr =>
    extract_lets s1 s2 s3 s4 s5
    have h1 : Deletes s s1 := (State.snapRoomGone_deletes s _).trans (State.retireRoom_deletes _ i)
    have h2 : Deletes s1 s2 := Deletes.forEach (fun k s => State.deleteLeg_deletes s k) _ s1
    have h3 : Deletes s2 s3 := Deletes.modMedia s2 _
    have h4 : Deletes s3 s4 := State.freshInserts_deletes s3 i
    have h5 : Deletes s4 s5 := Deletes.modMedia s4 _
    clear_value s5
    have h6 : Deletes s5 _ := State.removeRoom_deletes s5 i (fun o => o.adms.filter (fun a => a.room != i))
    have h7 := State.noteDrained_deletes (s5.modObjs (fun o => { o with rooms := del o.rooms i, adms := o.adms.filter (fun a => a.room != i) }))
    exact ⟨((((((h1.trans h2).trans h3).trans h4).trans h5).trans h6).trans h7), h7.none (look_del_same s5.objs.rooms i)⟩

/-- Rooms are deleted one by one. -/
theorem forEach_deleteRoom (l : List Nat) (s : State) : Deletes s (forEach l (fun i s => s.deleteRoom i) s) ∧
    ∀ i ∈ l, look (forEach l (fun i s => s.deleteRoom i) s).objs.rooms i = none := by
  induction l generalizing s with
  | nil => exact ⟨Deletes.refl s, fun i hi => by cases hi⟩
  | cons k l ih =>
    obtain ⟨hdel, hnone⟩ := State.deleteRoom_deletes s k
    obtain ⟨hrest, hall⟩ := ih (s.deleteRoom k)
    refine ⟨hdel.trans hrest, fun i hi => ?_⟩
    obtain rfl | hi := List.mem_cons.mp hi
    · exact hrest.none hnone
    · exact hall i hi

end Delete

/-! ### The grace of a port (02 R104) -/

section Grace
variable {s : State} {p : Nat}

theorem mem_of_look {α : Type} {t : Tab α} {k : Nat} {a : α} (h : look t k = some a) : (k, a) ∈ t := by
  induction t with
  | nil => cases h
  | cons kv t ih =>
    obtain ⟨j, v⟩ := kv
    rw [look] at h
    split at h
    · next hj =>
      cases h
      exact hj ▸ List.mem_cons_self
    · exact List.mem_cons_of_mem _ (ih h)

theorem State.deleteDoomed_deletes (s : State) (p : Nat) : Deletes s (s.deleteDoomed p) := by
  unfold State.deleteDoomed
  extract_lets due s1
  have h1 : Deletes s s1 := Deletes.modHost s p (fun h => rfl)
  refine h1.trans (Deletes.forEach (fun x s => ?_) due s1)
  split
  · exact (State.deleteRoom_deletes ..).1
  · exact Deletes.refl s

/-- The rooms of a port whose grace has run out are gone. -/
theorem orphanExpiry_rooms {e : Nat} (hp : p < 4) (hmode : s.power.mode ≠ .keep) (hgrace : (s.host p).grace = some e) (hdue : e ≤ s.tickAt)
    {i : Nat} {r : Room} (hroom : look s.objs.rooms i = some r) (howner : r.owner = p) : look (orphanExpiry p s).objs.rooms i = none := by
  have hdoom := State.deleteDoomed_deletes s p
  rw [orphanExpiry, if_neg (by simp [hmode]; omega)]
  dsimp only
  rw [hdoom.grace, hgrace]
  dsimp only
  rw [if_pos (by rw [hdoom.tickAt]; exact hdue)]
  generalize hz : State.modHost (s.deleteDoomed p) p _ = z
  have hzobjs : z.objs = (s.deleteDoomed p).objs := by rw [← hz]; rfl
  obtain ⟨hall, hnone⟩ := forEach_deleteRoom ((z.roomsOf p).map (·.1)) z
  cases hi : look z.objs.rooms i with
  | none => exact hall.none hi
  | some r' =>
    obtain ⟨r'', hr'', hown⟩ := hdoom.rooms i r' (hzobjs ▸ hi)
    have howner' : r'.owner = p := by
      rw [hroom] at hr''
      cases hr''
      exact hown ▸ howner
    refine hnone i (List.mem_map.mpr ⟨(i, r'), List.mem_filter.mpr ⟨mem_of_look hi, ?_⟩, rfl⟩)
    exact beq_iff_eq.mpr howner'

/-- Without rooms only the grace ends. -/
theorem orphanExpiry_empty {e : Nat} (hp : p < 4) (hmode : s.power.mode ≠ .keep) (hgrace : (s.host p).grace = some e) (hdue : e ≤ s.tickAt)
    (hrooms : s.roomsOf p = []) (hdoomed : (s.host p).doomed = []) :
    orphanExpiry p s = (s.modHost p (fun h => { h with doomed := h.doomed.filter (fun x => decide (s.tickAt < x.1)) })).modHost p
      (fun h => { h with grace := none, discarded := [] }) := by
  have hdoom : s.deleteDoomed p = s.modHost p (fun h => { h with doomed := h.doomed.filter (fun x => decide (s.tickAt < x.1)) }) := by
    rw [State.deleteDoomed, hdoomed]
    rfl
  rw [orphanExpiry, if_neg (by simp [hmode]; omega), hdoom]
  dsimp only
  rw [State.host_modHost]
  dsimp only
  rw [hgrace]
  dsimp only
  rw [if_pos (by exact hdue)]
  change forEach ((s.roomsOf p).map (·.1)) _ _ = _
  rw [hrooms]
  rfl

end Grace

/-! ### Batches (02 R98) -/

section Batches
variable {p r : Nat}

/-- A port with its batches. -/
def HostPort.SameBatches (h k : HostPort) : Prop := ∀ i, (k.sqAt i).batch = (h.sqAt i).batch

theorem HostPort.sameBatches_modSq (h : HostPort) (i : Nat) {f : SqState → SqState} (hf : ∀ q, (f q).batch = q.batch) :
    h.SameBatches (h.modSq i f) := by
  intro j
  by_cases hij : i = j
  · subst hij
    rw [HostPort.sqAt_modSq, hf]
  · rw [HostPort.sqAt_modSq_ne h hij]

theorem HostPort.SameBatches.of_sq {h k : HostPort} (hsq : k.sq = h.sq) : h.SameBatches k := fun i => by
  rw [HostPort.sqAt, hsq, HostPort.sqAt]

theorem HostPort.SameBatches.trans {h k l : HostPort} (a : h.SameBatches k) (b : k.SameBatches l) : h.SameBatches l :=
  fun i => (b i).trans (a i)

theorem State.putCompl_batches (s : State) (o : Outstanding) (status result : Nat) (tick : Option Nat) :
    (s.host p).SameBatches ((s.putCompl p r o status result tick).host p) := by
  have hdrop : (s.host p).SameBatches ((s.host p).modSq r (fun q => { q with out := q.out.drop 1 })) :=
    HostPort.sameBatches_modSq _ r (fun _ => rfl)
  unfold State.putCompl
  dsimp only
  split
  · rw [State.host_modHost]
    exact hdrop
  · split
    · rw [State.host_modHost]
      exact hdrop.trans (HostPort.SameBatches.of_sq rfl)
    · rw [State.host_modHost]
      exact hdrop.trans (HostPort.SameBatches.of_sq (HostPort.coalesce_sq _ _ _))

theorem flushFrom_batches : ∀ (l : List Outstanding) (s : State), (s.host p).SameBatches ((flushFrom p r l s).host p)
  | [], s => HostPort.SameBatches.of_sq rfl
  | o :: l, s => by
    unfold flushFrom
    split
    · exact (State.putCompl_batches s o _ _ _).trans (flushFrom_batches l _)
    · exact HostPort.SameBatches.of_sq rfl

theorem State.resolve_batches (s : State) (seq status result : Nat) (tick : Option Nat) (obj : Nat) :
    (s.host p).SameBatches ((s.resolve p r seq status result tick obj).host p) := by
  rw [State.resolve, State.host_modHost]
  exact HostPort.sameBatches_modSq _ r (fun _ => rfl)

theorem settleFences_batches : ∀ (n : Nat) (s : State), (s.host p).SameBatches ((settleFences p n s).host p)
  | 0, s => HostPort.SameBatches.of_sq rfl
  | n + 1, s => by
    unfold settleFences
    dsimp only
    split
    · exact HostPort.SameBatches.of_sq rfl
    · next r' q _ =>
      have hfence : (s.host p).SameBatches ((s.modHost p (fun h => h.modSq r' (fun q => { q with fence := none }))).host p) := by
        rw [State.host_modHost]
        exact HostPort.sameBatches_modSq _ r' (fun _ => rfl)
      exact ((hfence.trans (State.resolve_batches _ _ _ _ _ _)).trans (flushFrom_batches _ _)).trans (settleFences_batches n _)

/-- An aborted batch is open no more, and none of its members waits. -/
theorem State.abortBatch_ends (s : State) (b : Batch) (status : Nat) :
    (s.abortBatch p r b status).tick = s.tick ∧ (s.abortBatch p r b status).waiting = s.waiting.filter (fun w => w.batch != some b.beginSeq) ∧
      (s.abortBatch p r b status).batchOf p r = none := by
  unfold State.abortBatch
  extract_lets s1 s2
  have h2 : HostOnly s1 s2 := HostOnly.forEach _ (fun q s => State.resolve_hostOnly ..) _ s1
  have hend : HostOnly s1 (settleFences p 64 ((s2.setBatch p r none).flush p r)) :=
    h2.trans (((HostOnly.modHost s2 p _).trans (State.flush_hostOnly ..)).trans (settleFences_hostOnly ..))
  refine ⟨hend.tick, hend.waiting, ?_⟩
  rw [State.batchOf, settleFences_batches 64 _ r, State.flush, flushFrom_batches _ _ r, State.setBatch, State.host_modHost]
  exact congrArg SqState.batch (HostPort.sqAt_modSq _ r (fun q => { q with batch := none }))

end Batches

/-! ### Held frames and tombstones (02 R114; 06 R251) -/

/-- The state without the oldest frame that a port holds, which is counted. -/
def State.dropHeld (s : State) (p : Nat) (f : PuntFrame) : State :=
  ((s.modHost p (fun h => { h with puntHeld := h.puntHeld.drop 1 })).poolSub 1 (cellsOf (f.data.length + 4))).bump (hpCtr p 88)

theorem State.dropHeld_puntHeld (s : State) (p : Nat) (f : PuntFrame) : ((s.dropHeld p f).host p).puntHeld = (s.host p).puntHeld.drop 1 := by
  have hhost : (s.dropHeld p f).host p = (s.modHost p (fun h => { h with puntHeld := h.puntHeld.drop 1 })).host p := by
    simp [State.dropHeld, State.host, State.poolSub, State.modPool]
  rw [hhost, State.host_modHost]

/-- The one frame that is held is dropped. -/
theorem puntHoldExpiry_one {s : State} {p : Nat} {f : PuntFrame} (hheld : (s.host p).puntHeld = [f]) (hold : f.at_ + s.puntHold ≤ s.now) :
    puntHoldExpiry p s = s.dropHeld p f := by
  have hgone : [f].takeWhile (fun f => decide (f.at_ + s.puntHold ≤ s.now)) = [f] := List.takeWhile_cons_of_pos (decide_eq_true hold)
  rw [puntHoldExpiry, hheld, hgone]
  change puntDrain p ((s.dropHeld p f).host p).puntHeld.length (s.dropHeld p f) = _
  rw [State.dropHeld_puntHeld, hheld]
  rfl

/-- The tombstones whose time has come are gone; their events are of no object. -/
theorem tombstoneExpiry_objs (s : State) :
    (tombstoneExpiry s).objs = { s.objs with tombs := s.objs.tombs.filter (fun t => decide (s.tickAt < t.expiry)) } :=
  (HostOnly.forEach _ (fun (x : Tombstone) s => State.event_hostOnly s (yardSrc x.yard 9) (x.handle + satU 32 x.drops * 2 ^ 32) x.owner) _ _).objs

/-- Settles O18: each timer's own update, with what deletions and aborted batches leave. -/
theorem hostTimersEnd : Obligations.HostTimersEnd := by
  unfold Obligations.HostTimersEnd
  refine ⟨fun t p i s => ⟨fun e hp hgrace hdue hmode => ?_, fun f hheld hold => ?_, ?_, fun x k e hlook hkey hdue => ?_⟩, fun t p r s =>
    ⟨fun b hbatch hdue => ?_, fun e htail hdue => ?_⟩⟩
  · refine ⟨_, rfl, fun i r hroom howner => orphanExpiry_rooms (s := s.at t) hp hmode hgrace hdue hroom howner, fun hrooms hdoomed => ?_⟩
    rw [orphanExpiry_empty (s := s.at t) hp hmode hgrace hdue hrooms hdoomed, State.host_modHost]
    exact ⟨rfl, rfl⟩
  · refine ⟨_, congrArg Host.Outcome.next (puntHoldExpiry_one (s := s.at t) hheld hold), ?_, State.cntOf_bump _ _⟩
    have hheld' : ((s.at t).host p).puntHeld = [f] := hheld
    rw [State.dropHeld_puntHeld, hheld']
    rfl
  · refine ⟨_, rfl, fun x => ?_, ?_⟩
    all_goals rw [tombstoneExpiry_objs]
    · exact (List.mem_filter).trans (and_congr_right fun _ => decide_eq_true_iff)
    · rfl
  · have hexec : exec (.keyOverlapEnd t i) s = .next (keyOverlapEnd i (s.at t)) := rfl
    refine ⟨_, hexec, ?_, rfl⟩
    refine (look_adj_same s.objs.streams i _).trans ?_
    rw [hlook, Option.map_some, hkey]
    exact congrArg some (if_pos hdue)
  · have hbatch' : (s.at t).batchOf p r = some b := hbatch
    have hexec : exec (.batchTimeout t p r) s = .next (((s.at t).abortBatch p r b stBatchState).startTail p r) := by
      refine congrArg Host.Outcome.next ?_
      rw [batchTimeout, hbatch']
      exact if_pos hdue
    obtain ⟨htick, hwaiting, hnone⟩ := State.abortBatch_ends (p := p) (r := r) (s.at t) b stBatchState
    refine ⟨_, hexec, ?_, ?_, fun w hw => ?_⟩
    · rw [State.batchOf, State.startTail, State.host_modHost, HostPort.sqAt_modSq]
      exact hnone
    · rw [State.startTail, State.host_modHost, HostPort.sqAt_modSq, htick]
      rfl
    · have hw' : w ∈ s.waiting.filter (fun w => w.batch != some b.beginSeq) := hwaiting ▸ hw
      exact bne_iff_ne.mp (List.mem_filter.mp hw').2
  · have htail' : (((s.at t).host p).sqAt r).tail = some e := htail
    have hexec : exec (.abortedTailEnd t p r) s = .next ((s.at t).modHost p (fun h => h.modSq r (fun q => { q with tail := none }))) := by
      refine congrArg Host.Outcome.next ?_
      rw [abortedTailEnd, htail']
      exact if_pos hdue
    refine ⟨_, hexec, ?_, rfl⟩
    rw [State.host_modHost, HostPort.sqAt_modSq]

end Sys2Proof.Machine
end

section
/-! PROOFS. What the network can change (05, 07): its own state, the shapers of legs, and what completions and events change. -/
namespace Sys2Proof.Machine

/-- Nothing differs but the network, the legs, the host ports, host memory, the event router and the counters. -/
def NetFrame (s t : State) : Prop := t = { s with
  hosts := t.hosts, hostMem := t.hostMem, router := t.router, cnt := t.cnt, net := t.net, objs := { s.objs with legs := t.objs.legs } }

theorem NetFrame.refl (s : State) : NetFrame s s := rfl

theorem NetFrame.trans {s t u : State} (a : NetFrame s t) (b : NetFrame t u) : NetFrame s u := by
  unfold NetFrame at *
  rw [b, a]

theorem NetFrame.gens {s t : State} (a : NetFrame s t) : t.gens = s.gens := by rw [a]
theorem NetFrame.media {s t : State} (a : NetFrame s t) : t.media = s.media := by rw [a]
theorem NetFrame.tbs {s t : State} (a : NetFrame s t) : t.tbs = s.tbs := by rw [a]
theorem NetFrame.power {s t : State} (a : NetFrame s t) : t.power = s.power := by rw [a]
theorem NetFrame.now {s t : State} (a : NetFrame s t) : t.now = s.now := by rw [a]

theorem HostOnly.netFrame {s t : State} (a : HostOnly s t) : NetFrame s t := by
  unfold NetFrame
  rw [a]

theorem NetFrame.forEach {α : Type} {f : α → State → State} (h : ∀ a s, NetFrame s (f a s)) : ∀ (l : List α) (s : State), NetFrame s (forEach l f s)
  | [], s => NetFrame.refl s
  | a :: l, s => (h a s).trans (NetFrame.forEach h l (f a s))

theorem NetFrame.ite {s t u : State} {c : Prop} [Decidable c] (a : NetFrame s t) (b : NetFrame s u) : NetFrame s (if c then t else u) := by
  split
  · exact a
  · exact b

section Net
variable (s : State)

theorem NetFrame.modNet (f : Net → Net) : NetFrame s (s.modNet f) := rfl
theorem NetFrame.modLport (l : Nat) (f : LPort → LPort) : NetFrame s (s.modLport l f) := rfl
theorem NetFrame.modLeg (i : Nat) (f : Leg → Leg) : NetFrame s (s.modLeg i f) := rfl
theorem NetFrame.addCnt (k n : Nat) : NetFrame s (s.addCnt k n) := (HostOnly.addCnt s k n).netFrame
theorem NetFrame.bump (k : Nat) : NetFrame s (s.bump k) := NetFrame.addCnt s k 1
theorem NetFrame.event (src payload who : Nat) : NetFrame s (s.event src payload who) := (State.event_hostOnly ..).netFrame
theorem NetFrame.poolSub (k n : Nat) : NetFrame s (s.poolSub k n) := rfl
theorem NetFrame.setDirect (l c : Nat) (q : List QFrame) : NetFrame s (s.setDirect l c q) := rfl
theorem NetFrame.setLegq (i : Nat) (q : List QFrame) : NetFrame s (s.setLegq i q) := rfl
theorem NetFrame.clsSettle (l c : Nat) : NetFrame s (s.clsSettle l c) := rfl

theorem NetFrame.poolAdd (k n : Nat) : NetFrame s (s.poolAdd k n) := by
  unfold State.poolAdd
  dsimp only
  split
  · exact (((NetFrame.modNet s _).trans ((NetFrame.modNet _ _).trans (NetFrame.bump _ _))).trans (NetFrame.event ..)).trans (NetFrame.modNet _ _)
  · exact NetFrame.modNet s _

theorem NetFrame.spillMark : NetFrame s s.spillMark := by
  unfold State.spillMark
  dsimp only
  split
  · exact NetFrame.ite (NetFrame.modNet s _) (NetFrame.refl s)
  · exact NetFrame.ite ((NetFrame.modNet s _).trans (NetFrame.event ..)) (NetFrame.refl s)

theorem NetFrame.release (f : QFrame) : NetFrame s (s.release f) :=
  NetFrame.ite ((NetFrame.modNet s _).trans (NetFrame.spillMark _)) (NetFrame.poolSub s _ _)

theorem NetFrame.countFor (pending : Option Nat) (key n yard : Nat) : NetFrame s (s.countFor pending key n yard) := by
  unfold State.countFor
  split
  · exact NetFrame.addCnt s _ _
  · exact NetFrame.modNet s _

theorem NetFrame.dropQ (f : QFrame) (key yard : Nat) : NetFrame s (s.dropQ f key yard) := NetFrame.countFor s f.pending key 1 yard

theorem NetFrame.notSent (f : QFrame) : NetFrame s (s.notSent f) := by
  unfold State.notSent
  split
  · exact (State.complete_hostOnly ..).netFrame
  · exact NetFrame.refl s

theorem NetFrame.chargeShapers (l c leg : Nat) (bytes : Int) (shaped : Bool) : NetFrame s (s.chargeShapers l c leg bytes shaped) := by
  unfold State.chargeShapers
  extract_lets s1
  have h1 : NetFrame s s1 := NetFrame.ite ((NetFrame.clsSettle s l c).trans (NetFrame.modNet _ _)) (NetFrame.refl s)
  exact h1.trans (NetFrame.ite (NetFrame.refl s1) ((NetFrame.modLeg s1 _ _).trans (NetFrame.modLeg _ _ _)))

theorem NetFrame.stomp (l : Nat) : NetFrame s (s.stomp l) := by
  unfold State.stomp
  split
  · extract_lets cut sent _ s1
    have h1 : NetFrame s s1 := (NetFrame.bump s _).trans (NetFrame.modLport _ l _)
    exact NetFrame.ite h1 (h1.trans (NetFrame.chargeShapers ..))
  · exact NetFrame.refl s

theorem NetFrame.resolveDrops (id : Nat) (ok : Bool) (voidOff : Nat) : NetFrame s (s.resolveDrops id ok voidOff) := by
  unfold State.resolveDrops
  refine (NetFrame.modNet s _).trans (NetFrame.forEach (fun x s => ?_) _ _)
  exact NetFrame.ite (NetFrame.addCnt s _ _) (NetFrame.ite (NetFrame.bump s _) (NetFrame.refl s))

theorem NetFrame.voidQueue (id yard : Nat) (q : List QFrame) : NetFrame s (s.voidQueue id yard q) :=
  NetFrame.forEach (fun f s => (NetFrame.release s f).trans (NetFrame.bump _ _)) _ s

theorem NetFrame.voidSource (id : Nat) : NetFrame s (s.voidSource id) := by
  unfold State.voidSource
  extract_lets s1 keep s2 s3
  have h1 : NetFrame s s1 := NetFrame.resolveDrops ..
  have h2 : NetFrame s1 s2 := NetFrame.forEach (fun x s =>
    NetFrame.ite ((NetFrame.voidQueue ..).trans (NetFrame.setDirect ..)) (NetFrame.refl s)) _ _
  have h3 : NetFrame s2 s3 := NetFrame.forEach (fun x s =>
    NetFrame.ite ((NetFrame.voidQueue ..).trans (NetFrame.setLegq ..)) (NetFrame.refl s)) _ _
  exact ((h1.trans h2).trans h3).trans (NetFrame.forEach (fun l s => NetFrame.stomp s l) _ _)

theorem NetFrame.linkDown (l : Nat) (cause : DownCause) : NetFrame s (s.linkDown l cause) := by
  unfold State.linkDown
  refine NetFrame.ite (NetFrame.ite (NetFrame.modLport s l _) (NetFrame.refl s)) ?_
  extract_lets s1 s2 sent s3 s4
  have h1 : NetFrame s s1 := NetFrame.modLport s l _
  have h2 : NetFrame s1 s2 := by
    clear_value s1
    unfold s2
    split
    · next r _ =>
      have hcut : NetFrame s1 ((((s1.modLport l (fun p => { p with rx := none })).poolSub 0 (cellsOf r.lenIn)).voidSource r.id).bump (npCtr l 16)) :=
        (((NetFrame.modLport s1 l _).trans (NetFrame.poolSub _ _ _)).trans (NetFrame.voidSource _ _)).trans (NetFrame.bump _ _)
      exact NetFrame.ite hcut (hcut.trans (NetFrame.bump _ _))
    · exact NetFrame.ite (NetFrame.modLport s1 l _) (NetFrame.ite (NetFrame.bump s1 _) (NetFrame.refl s1))
  have h3 : NetFrame s2 s3 := by
    have hsent : NetFrame s2 sent := NetFrame.modLport s2 l _
    clear_value s2 sent
    unfold s3
    split
    · extract_lets charged left free
      refine NetFrame.ite (hsent.trans (NetFrame.bump _ _)) ?_
      have hfree : NetFrame s2 free := (hsent.trans (NetFrame.release _ _)).trans (NetFrame.chargeShapers ..)
      exact NetFrame.ite hfree ((hfree.trans (NetFrame.dropQ ..)).trans (NetFrame.notSent _ _))
    · exact NetFrame.refl s2
  have h4 : NetFrame s3 s4 := NetFrame.modLport s3 l _
  exact (((h1.trans h2).trans h3).trans h4).trans ((NetFrame.bump s4 _).trans (NetFrame.event ..))

theorem NetFrame.purgePort (l : Nat) : NetFrame s (s.purgePort l) := by
  have hdrop : ∀ (q : List QFrame) (s : State),
      NetFrame s (Machine.forEach q (fun f s => ((s.release f).dropQ f (npCtr l 144) (yardOf l)).notSent f) s) := fun q s =>
    NetFrame.forEach (fun f s => ((NetFrame.release s f).trans (NetFrame.dropQ _ f _ _)).trans (NetFrame.notSent _ f)) q s
  unfold State.purgePort
  extract_lets drop s1
  have h1 : NetFrame s s1 := NetFrame.forEach (fun c s => (hdrop (s.direct l c) s).trans (NetFrame.setDirect ..)) _ _
  exact h1.trans (NetFrame.forEach (fun i s => (hdrop (s.legq i) s).trans (NetFrame.setLegq ..)) _ _)

theorem NetFrame.pauseCount (l c since e : Nat) : NetFrame s (s.pauseCount l c since e) := (NetFrame.addCnt s _ _).trans (NetFrame.modLport _ l _)

theorem NetFrame.pauseClose (old : Option Tack) (l : Nat) : NetFrame s (s.pauseClose old l) := by
  refine NetFrame.forEach (fun c s => ?_) [0, 1, 2, 3, 4, 5, 6, 7] s
  split
  · exact NetFrame.pauseCount ..
  · exact NetFrame.refl s

theorem NetFrame.pauseSettle (l : Nat) : NetFrame s (s.pauseSettle l) := by
  refine NetFrame.forEach (fun c s => ?_) [0, 1, 2, 3, 4, 5, 6, 7] s
  dsimp only
  split
  · exact NetFrame.ite (NetFrame.refl s) (NetFrame.pauseCount ..)
  · exact NetFrame.ite (NetFrame.modLport s l _) (NetFrame.refl s)

theorem NetFrame.switchPorts (old new : Option Tack) : NetFrame s (s.switchPorts old new) := by
  unfold State.switchPorts
  extract_lets cfg s1
  have h1 : NetFrame s s1 := by
    refine NetFrame.forEach (fun n s => NetFrame.ite (NetFrame.refl s) ?_) _ s
    clear_value cfg
    extract_lets s2 s3
    have h2 : NetFrame s s2 := NetFrame.forEach (fun k s => NetFrame.linkDown s _ _) _ _
    have h3 : NetFrame s2 s3 := NetFrame.forEach (fun k s => NetFrame.ite (NetFrame.purgePort s _) (NetFrame.refl s)) _ _
    exact (h2.trans h3).trans (NetFrame.modNet s3 _)
  clear_value s1 cfg
  refine h1.trans (NetFrame.forEach (fun l s => ?_) _ s1)
  extract_lets mode s2 s3 same
  have h2 : NetFrame s s2 := NetFrame.pauseClose ..
  clear_value mode s2
  have h3 : NetFrame s s3 :=
    NetFrame.ite ((NetFrame.ite (h2.trans (NetFrame.modLport _ l _)) h2).trans (NetFrame.pauseSettle _ l)) (NetFrame.refl s)
  clear_value s3 same
  refine NetFrame.ite h3 ?_
  split
  · exact h3.trans (NetFrame.modLport _ l _)
  · exact NetFrame.ite (h3.trans (NetFrame.modLport _ l _)) h3

theorem NetFrame.requeue (i : Nat) : NetFrame s (s.requeue i) := by
  unfold State.requeue
  split
  · exact NetFrame.ite (NetFrame.refl s) ((NetFrame.setDirect ..).trans (NetFrame.setLegq ..))
  · exact NetFrame.refl s

theorem NetFrame.switchQueues (old : Option Tack) : NetFrame s (s.switchQueues old) := by
  unfold State.switchQueues
  extract_lets s1
  have h1 : NetFrame s s1 := NetFrame.forEach (fun k s => NetFrame.ite (NetFrame.modNet s _) (NetFrame.refl s)) _ s
  exact h1.trans (NetFrame.forEach (fun i s => NetFrame.requeue s i) _ _)

theorem NetFrame.gateNow (l : Nat) (overrun : Bool) : NetFrame s (s.gateNow l overrun) := by
  unfold State.gateNow
  split
  · exact NetFrame.modLport s l _
  · dsimp only
    generalize hz : State.modLport s l _ = s1
    have h1 : NetFrame s s1 := hz ▸ NetFrame.modLport s l _
    split
    · exact NetFrame.ite (h1.trans ((NetFrame.modLport s1 l _).trans (NetFrame.bump _ _))) h1
    · exact h1

theorem NetFrame.regate (test : GateList → Bool) : NetFrame s (s.regate test) :=
  NetFrame.forEach (fun l s => (NetFrame.modLport s l _).trans (NetFrame.gateNow _ l true)) _ s

end Net

end Sys2Proof.Machine
end

section
/-! PROOFS. Tick boundaries, probation and returns (12 R511; 03 R145, R147), validation and the end of a switch (03 R134, R136, R141). -/
namespace Sys2Proof.Machine

/-! ### What leaves the generations as they are -/

theorem forEach_gens {α : Type} {f : α → State → State} (hf : ∀ a s, (f a s).gens = s.gens) :
    ∀ (l : List α) (s : State), (forEach l f s).gens = s.gens
  | [], _ => rfl
  | a :: l, s => (forEach_gens hf l (f a s)).trans (hf a s)

section Gens
variable (s : State)

theorem State.event_gens (src payload who : Nat) : (s.event src payload who).gens = s.gens := (State.event_hostOnly ..).gens

theorem State.tbGo_gens (n : Nat) (x : TbState) : (s.tbGo n x).gens = s.gens := by
  unfold State.tbGo
  dsimp only
  split
  · rfl
  · rw [State.event_gens]
    simp

theorem State.tbJump_gens (n : Nat) (ns : Int) : (s.tbJump n ns).gens = s.gens := (NetFrame.regate _ _).gens

theorem State.tbSetDone_gens (n form result : Nat) (step : Int) : (s.tbSetDone n form result step).gens = s.gens := by
  rw [State.tbSetDone, State.event_gens, State.addCnt_gens]

theorem State.tbSet_gens (n : Nat) : (s.tbSet n).gens = s.gens := by
  unfold State.tbSet
  dsimp only
  split
  · rfl
  · split
    · split
      · rw [State.tbSetDone_gens, State.tbJump_gens]
      · rw [State.tbSetDone_gens]
    · rw [State.tbSetDone_gens]
  · rw [State.tbSetDone_gens, State.tbJump_gens]
  · rfl

theorem State.tbRestart_gens (n : Nat) : (s.tbRestart n).gens = s.gens := by
  unfold State.tbRestart
  dsimp only
  rw [State.tbGo_gens]
  rfl

theorem State.tbSwitch_gens (old : Option Tack) (commit : Bool) : (s.tbSwitch old commit).gens = s.gens := by
  refine forEach_gens (fun n s => ?_) [0, 1, 2, 3] s
  extract_lets s1 s2 lim
  have h1 : s1.gens = s.gens := by
    unfold s1
    split
    · exact State.tbSet_gens s n
    · rfl
  have h2 : s2.gens = s1.gens := by
    unfold s2
    split
    · rfl
    · exact State.tbRestart_gens s1 n
  exact h2.trans h1

theorem State.dramWrite_gens (a : Nat) (b : Bytes) : (s.dramWrite a b).gens = s.gens := rfl

theorem State.clearRing_gens (room : Nat) : (s.clearRing room).gens = s.gens := by
  unfold State.clearRing
  dsimp only
  split
  · rfl
  · rw [State.dramWrite_gens]
    rfl

theorem State.switchAnalysis_gens (old : Option Tack) : (s.switchAnalysis old).gens = s.gens := by
  unfold State.switchAnalysis
  extract_lets capMib r moved s1
  have h1 : s1.gens = s.gens := by
    unfold s1
    split <;> rfl
  clear_value s1
  split
  · exact h1
  · exact (forEach_gens (fun room s => State.clearRing_gens s room) _ s1).trans h1

theorem State.switchBounds_gens : s.switchBounds.gens = s.gens := by
  unfold State.switchBounds
  extract_lets s1
  refine (forEach_gens (fun x s => ?_) s1.objs.rooms s1).trans rfl
  rfl

theorem State.switchDram_gens (mark : Nat) : (s.switchDram mark).gens = s.gens := by
  unfold State.switchDram
  refine (forEach_gens (fun k s => ?_) _ _).trans rfl
  split
  · simp [State.clipOwed, State.modRank]
  · rfl

theorem State.switchPools_gens : s.switchPools.gens = s.gens := rfl

theorem State.switchTables_gens (old : Option Tack) : (s.switchTables old).gens = s.gens := rfl

/-- The generations at a switch. -/
theorem State.switchTo_gens (t : Tack) (commit : Bool) :
    (s.switchTo t commit).gens = { s.gens with cur := some t, old := s.gens.cur, switching := true, autoReturn := none } := by
  unfold State.switchTo
  generalize List.range 512 = classes
  extract_lets s1 mark old before s2 s3 s4 s5
  have h1 : s1.gens = s.gens := (NetFrame.forEach (fun k s => NetFrame.clsSettle s (k / 8) (k % 8)) classes s).gens
  clear_value s1
  have hold : old = s.gens.cur := congrArg Gens.cur h1
  have h2 : s2.gens = { s.gens with cur := some t, old := s.gens.cur, switching := true, autoReturn := none } := by
    rw [← hold, ← h1]
    rfl
  have h3 : s3.gens = s2.gens := (State.event_gens ..).trans (State.addCnt_gens ..)
  have h4 : s4.gens = s3.gens := (State.tbSwitch_gens ..).trans (NetFrame.switchPorts s3 old (some t)).gens
  have h5 : s5.gens = s4.gens := (State.switchAnalysis_gens _ old).trans
    ((State.switchTables_gens _ old).trans ((State.switchPools_gens _).trans (NetFrame.switchQueues s4 old).gens))
  rw [State.switchDram_gens, State.switchBounds_gens, h5, h4, h3, h2]

theorem State.changeRecord_gens (c : RecordChange) (said : Option (Nat × Nat)) : (s.changeRecord c said).gens = s.gens := by
  unfold State.changeRecord
  split <;> rfl

theorem State.writeSlot_gens (gen : Nat) (image : Bytes) : (s.writeSlot gen image).gens = s.gens := by
  unfold State.writeSlot
  split <;> rfl

theorem State.returnRecord_gens (gen : Nat) (probFail : Bool) : (s.returnRecord gen probFail).gens = s.gens := by
  unfold State.returnRecord
  split
  · exact State.changeRecord_gens ..
  · rfl

/-- A generation that is kept. -/
theorem State.becomeKept_gens : s.becomeKept.gens = { s.gens with state := .kept, probLeft := 0, atBoot := false } := by
  unfold State.becomeKept
  extract_lets boot first s1 s2 s3
  have h1 : s1.gens = { s.gens with state := .kept, probLeft := 0, atBoot := false } := State.event_gens ..
  have h2 : s2.gens = s1.gens := by
    unfold s2
    split
    · exact State.changeRecord_gens ..
    · rfl
  have h3 : s3.gens = s2.gens := by
    unfold s3
    split <;> rfl
  have h4 := h3.trans (h2.trans h1)
  clear_value s3
  split
  · rw [State.writeSlot_gens, h4]
  · exact h4

/-- A return puts the parent in force as KEPT. -/
theorem State.doReturn_gens {par : Tack} (hpar : s.gens.parent = some par) (auto : Option (Nat × Nat)) :
    (s.doReturn auto).gens.state = .kept ∧ (s.doReturn auto).gens.cur = some par ∧ (s.doReturn auto).gens.parent = none := by
  unfold State.doReturn
  split
  · next h => cases h.symm.trans hpar
  next t h =>
  obtain rfl : t = par := Option.some_injective _ (h.symm.trans hpar)
  extract_lets failed prob s1 s2 s3
  have h1 : s1.gens.cur = some t := by
    unfold s1
    rw [State.switchTo_gens]
  clear_value s1
  have h2 : s2.gens.state = .kept ∧ s2.gens.cur = some t ∧ s2.gens.parent = none := ⟨rfl, h1, rfl⟩
  have h3 : s3.gens = s2.gens := by
    clear_value s2
    unfold s3
    split
    · rw [State.event_gens, State.bump_gens]
    · rw [State.event_gens, State.bump_gens]
  rw [State.returnRecord_gens, h3]
  exact h2

theorem State.autoReturnNow_gens {par : Tack} {b k v : Nat} (hpar : s.gens.parent = some par) (hauto : s.gens.autoReturn = some (b, k, v)) :
    s.autoReturnNow.gens.state = .kept ∧ s.autoReturnNow.gens.cur = some par ∧ s.autoReturnNow.gens.parent = none := by
  unfold State.autoReturnNow
  rw [hauto]
  dsimp only
  split
  · exact State.doReturn_gens s hpar _
  · rw [(State.complete_hostOnly ..).gens]
    exact State.doReturn_gens _ (by exact hpar) none

end Gens

/-! ### The boundary -/

section Boundary
variable {s : State}

/-- What the end of a tick leaves: commands, objects and time bases. -/
def AtTick (s t : State) : Prop := t.waiting = s.waiting ∧ t.objs = s.objs ∧ t.tbs = s.tbs ∧ t.now = s.now ∧ t.tick = s.tick ∧
  t.tickVal = s.tickVal ∧ t.tickAt = s.tickAt

theorem AtTick.refl (s : State) : AtTick s s := ⟨rfl, rfl, rfl, rfl, rfl, rfl, rfl⟩

theorem AtTick.trans {s t u : State} (a : AtTick s t) (b : AtTick t u) : AtTick s u := by
  obtain ⟨a1, a2, a3, a4, a5, a6, a7⟩ := a
  obtain ⟨b1, b2, b3, b4, b5, b6, b7⟩ := b
  exact ⟨b1.trans a1, b2.trans a2, b3.trans a3, b4.trans a4, b5.trans a5, b6.trans a6, b7.trans a7⟩

theorem AtTick.forEach {α : Type} {f : α → State → State} (h : ∀ a s, AtTick s (f a s)) : ∀ (l : List α) (s : State), AtTick s (forEach l f s)
  | [], s => AtTick.refl s
  | a :: l, s => (h a s).trans (AtTick.forEach h l (f a s))

theorem HostOnly.atTick {t : State} (h : HostOnly s t) : AtTick s t := ⟨h.waiting, h.objs, h.tbs, h.now, h.tick, h.tickVal, h.tickAt⟩

theorem AtTick.addCnt (s : State) (k n : Nat) : AtTick s (s.addCnt k n) := (HostOnly.addCnt s k n).atTick
theorem AtTick.modGens (s : State) (f : Gens → Gens) : AtTick s (s.modGens f) := ⟨rfl, rfl, rfl, rfl, rfl, rfl, rfl⟩
theorem AtTick.modPower (s : State) (f : Power → Power) : AtTick s (s.modPower f) := ⟨rfl, rfl, rfl, rfl, rfl, rfl, rfl⟩
theorem AtTick.modMedia (s : State) (f : Media → Media) : AtTick s (s.modMedia f) := ⟨rfl, rfl, rfl, rfl, rfl, rfl, rfl⟩
theorem AtTick.modNet (s : State) (f : Net → Net) : AtTick s (s.modNet f) := ⟨rfl, rfl, rfl, rfl, rfl, rfl, rfl⟩

theorem State.fecTick_atTick (s : State) (l corrected bad symbols : Nat) : AtTick s (s.fecTick l corrected bad symbols) := by
  unfold State.fecTick
  split
  · exact AtTick.refl s
  · extract_lets s1
    have h1 : AtTick s s1 := ((AtTick.addCnt s _ _).trans (AtTick.addCnt _ _ _)).trans (AtTick.addCnt _ _ _)
    split
    · exact h1
    · exact h1.trans ⟨rfl, rfl, rfl, rfl, rfl, rfl, rfl⟩

theorem State.closeTick_atTick (s : State) (m : TickMeas) : AtTick s (s.closeTick m) := by
  unfold State.closeTick
  extract_lets s1 s2 s3 s4 s5 s6
  have h1 : AtTick s s1 := AtTick.forEach (fun x s => by
    dsimp only
    split
    · exact State.fecTick_atTick ..
    · exact AtTick.refl s) _ s
  have h2 : AtTick s1 s2 := AtTick.forEach (fun x s => by
    dsimp only
    split
    · exact AtTick.forEach (fun x s => AtTick.addCnt s _ _) _ s
    · exact AtTick.refl s) _ s1
  have h3 : AtTick s2 s3 := AtTick.forEach (fun x s => AtTick.addCnt s _ 1) _ s2
  have h4 : AtTick s3 s4 := (AtTick.addCnt s3 _ _).trans (AtTick.addCnt _ _ _)
  have h5 : AtTick s4 s5 := (AtTick.addCnt s4 _ _).trans (AtTick.modPower _ _)
  have h6 : AtTick s5 s6 := AtTick.modMedia s5 _
  exact (((((h1.trans h2).trans h3).trans h4).trans h5).trans h6).trans ⟨rfl, rfl, rfl, rfl, rfl, rfl, rfl⟩

theorem State.probationTick_atTick (s : State) : AtTick s s.probationTick := by
  unfold State.probationTick
  extract_lets s1
  have h1 : AtTick s s1 := AtTick.modGens s _
  clear_value s1
  split
  · exact h1
  · split
    · refine h1.trans ?_
      unfold State.failProbation
      dsimp only
      split
      · exact AtTick.modGens s1 _
      · exact (AtTick.modGens s1 _).trans (State.event_hostOnly ..).atTick
    · split
      · exact h1
      · exact h1.trans (AtTick.modGens s1 _)

/-- A boundary advances the tick; its work follows, or waits for a return or the end of probation. -/
theorem tickBoundary_acts (m : TickMeas) (hmode : s.power.mode ≠ .reset) (hheld : s.boundaryHeld = false)
    (hdue : s.tickVal + 2500000 * 2 ^ 32 ≤ s.tbVal 0) :
    ∃ z : State, (tickBoundary m s = z.boundaryWork ∨ tickBoundary m s = { z with boundaryHeld := true }) ∧
      z.tick = s.tick + 1 ∧ z.tickAt = s.now ∧ z.tickVal = s.tickVal + 2500000 * 2 ^ 32 ∧ z.waiting = s.waiting ∧ z.objs = s.objs ∧
      z.tbs = s.tbs := by
  unfold tickBoundary
  have htick : s.tickDue = true := decide_eq_true hdue
  rw [if_neg (by simp [hmode, htick])]
  extract_lets s1 s2 s3 due s4
  have hsettled : s.settleHeld = s := if_pos hheld
  have h1 : AtTick s s1 := by
    unfold s1
    rw [hsettled]
    exact (State.closeTick_atTick s m).trans (AtTick.modNet _ _)
  obtain ⟨hwaiting, hobjs, htbs, hnow, htick, htickVal, -⟩ := h1
  have h3 : AtTick s2 s3 := by
    unfold s3
    split
    · exact AtTick.modGens s2 _
    · exact AtTick.refl s2
  obtain ⟨hwaiting', hobjs', htbs', -, htick', htickVal', htickAt'⟩ := h3.trans (State.probationTick_atTick s3)
  refine ⟨s4, ?_, htick'.trans (congrArg (· + 1) htick), htickAt'.trans hnow, htickVal'.trans (congrArg (· + 2500000 * 2 ^ 32) htickVal),
    hwaiting'.trans hwaiting, hobjs'.trans hobjs, htbs'.trans htbs⟩
  split
  · exact Or.inr rfl
  · exact Or.inl rfl

end Boundary

/-- Settles O21: the boundary, and the two commands that its held work waits for. -/
theorem tickBoundariesAct : Obligations.TickBoundariesAct := by
  unfold Obligations.TickBoundariesAct
  refine ⟨fun t m s hmode hheld hdue => ?_, fun t s hnow hheld => ⟨fun hauto hover => ?_, fun b k v par hauto hdue hpar => ?_⟩⟩
  · obtain ⟨z, hwork, hrest⟩ := tickBoundary_acts (s := s.at t) m hmode hheld hdue
    exact ⟨z, hwork.imp (congrArg Host.Outcome.next) (congrArg Host.Outcome.next), hrest⟩
  · refine ⟨{ (s.at t).becomeKept with boundaryHeld := false }, congrArg Host.Outcome.next ?_, ?_, ?_, rfl⟩
    · have hauto' : (s.at t).gens.autoReturn.isSome = false := by simp [hauto]
      rw [probationEnd, if_pos ⟨hnow, hheld, hover⟩, State.settleHeld, if_neg (by simp [hheld]), hauto']
      have hover' : (s.at t).probationOver = true := hover
      simp only [hover', Bool.false_eq_true, if_false, if_true]
    · rw [State.becomeKept_gens]
    · rw [State.becomeKept_gens]
      rfl
  · obtain ⟨hstate, hcur, hparent⟩ := State.autoReturnNow_gens (s.at t) hpar hauto
    refine ⟨{ (s.at t).autoReturnNow with boundaryHeld := false }, congrArg Host.Outcome.next ?_, hstate, hcur, hparent, rfl⟩
    have hreturn : (s.at t).returnDue = true := by
      rw [State.returnDue, State.at_gens, hauto]
      exact decide_eq_true hdue
    have hauto' : (s.at t).gens.autoReturn.isSome = true := by simp [hauto]
    rw [automaticReturn, if_pos ⟨hnow, hheld, hreturn⟩, State.settleHeld, if_neg (by simp [hheld]), if_pos hauto']

/-- Settles O22: the outcome of the checks, and the end of the switch. -/
theorem validationAndSwitchEnd : Obligations.ValidationAndSwitchEnd := by
  unfold Obligations.ValidationAndSwitchEnd
  refine ⟨fun t s v b hval himage => ⟨fun hok => ?_, fun result hbad => ?_⟩, fun t s hswitch hflight => ?_⟩
  · have hok' : validateTack ((s.at t).modGens (fun g => { g with validating := none })).vctx v.length b = none := hok
    have hend : validationEnd (s.at t) = ((((s.at t).modGens (fun g => { g with validating := none })).modGens (fun g => { g with
        staged := some (readTack b) })).complete v.port v.ring v.seq stOk (readTack b).gen) := by
      rw [validationEnd, State.at_gens, hval]
      dsimp only
      rw [himage]
      dsimp only
      rw [hok']
    refine ⟨_, congrArg Host.Outcome.next hend, ?_, ?_⟩
    · rw [(State.complete_hostOnly ..).gens]
      rfl
    · have hport := State.complete_portOnly (((s.at t).modGens (fun g => { g with validating := none })).modGens (fun g => { g with
        staged := some (readTack b) })) v.port v.ring v.seq stOk (readTack b).gen none 0
      unfold PortOnly at hport
      rw [hport]
      rfl
  · have hbad' : validateTack ((s.at t).modGens (fun g => { g with validating := none })).vctx v.length b = some result := hbad
    have hend : validationEnd (s.at t) = (((s.at t).modGens (fun g => { g with validating := none })).tackRejected result).complete
        v.port v.ring v.seq stTackInvalid result := by
      rw [validationEnd, State.at_gens, hval]
      dsimp only
      rw [himage]
      dsimp only
      rw [hbad']
    refine ⟨_, congrArg Host.Outcome.next hend, ?_, ?_⟩
    · rw [(State.complete_hostOnly ..).gens]
      simp [State.tackRejected]
    · have hport := State.complete_portOnly (((s.at t).modGens (fun g => { g with validating := none })).tackRejected result)
        v.port v.ring v.seq stTackInvalid result none 0
      unfold PortOnly at hport
      rw [hport]
      rfl
  · exact ⟨_, congrArg Host.Outcome.next (if_pos ⟨hswitch, hflight⟩), rfl, rfl⟩

end Sys2Proof.Machine
end

section
/-! PROOFS. Flash operations (03 R164, R165), captures (04 R175, R177) and event windows (15 R611). -/
namespace Sys2Proof.Machine

/-! ### Reading back -/

section Memory
variable {α : Type} [DecidableEq α] {d : α}

omit [DecidableEq α] in
/-- Consecutive values are read one by one. -/
theorem memReadAll_of_getD {m : List (Nat × α)} : ∀ {bs : List α} {a : Nat}, (∀ i < bs.length, memRead d m (a + i) = bs.getD i d) →
    memReadAll d m a bs.length = bs
  | [], _, _ => rfl
  | b :: bs, a, h => by
    rw [List.length_cons, memReadAll]
    have hhead : memRead d m a = b := h 0 (Nat.succ_pos _)
    rw [hhead, memReadAll_of_getD (fun i hi => ?_)]
    have hnext := h (i + 1) (by rw [List.length_cons]; omega)
    rwa [← Nat.add_assoc, Nat.add_right_comm] at hnext

/-- Consecutive values read as they were written. -/
theorem memReadAll_memWriteAll (m : List (Nat × α)) (a : Nat) (bs : List α) : memReadAll d (memWriteAll d m a bs) a bs.length = bs := by
  refine memReadAll_of_getD (fun i hi => ?_)
  rw [memRead_memWriteAll, if_pos (by omega), Nat.add_sub_cancel_left]

/-- The first of consecutive values that were written. -/
theorem memReadAll_memWriteAll_append (m : List (Nat × α)) (a : Nat) (bs cs : List α) :
    memReadAll d (memWriteAll d m a (bs ++ cs)) a bs.length = bs := by
  refine memReadAll_of_getD (fun i hi => ?_)
  rw [memRead_memWriteAll, List.length_append, if_pos (by omega), Nat.add_sub_cancel_left, List.getD_eq_getElem?_getD,
    List.getElem?_append_left hi, List.getD_eq_getElem?_getD]

/-- A value outside what was written. -/
theorem memReadAll_one_memWriteAll {m : List (Nat × α)} {a x : Nat} {bs : List α} (h : x < a ∨ a + bs.length ≤ x) :
    memReadAll d (memWriteAll d m a bs) x 1 = memReadAll d m x 1 := by
  rw [memReadAll, memReadAll, memReadAll, memReadAll, memRead_memWriteAll, if_neg (by omega)]

omit [DecidableEq α] in
theorem length_memReadAll (m : List (Nat × α)) : ∀ n a : Nat, (memReadAll d m a n).length = n
  | 0, _ => rfl
  | n + 1, a => by rw [memReadAll, List.length_cons, length_memReadAll m n]

end Memory

/-- What the bridge has written to host memory is read back. -/
theorem State.hostRead_hostWrite {s : State} {p addr : Nat} (hissue : (s.host p).canIssue = true) (b c : Bytes) :
    (s.hostWrite p addr (b ++ c)).hostRead p addr b.length = b := by
  rw [State.hostRead, State.hostWrite, hissue, if_pos rfl, lookD_put_same]
  exact memReadAll_memWriteAll_append _ addr b c

theorem State.hostRead_of_hostMem {s t : State} (h : t.hostMem = s.hostMem) (p addr n : Nat) : t.hostRead p addr n = s.hostRead p addr n := by
  rw [State.hostRead, h, State.hostRead]

/-! ### Flash operations (03 R164, R165) -/

section Flash
variable {s : State} {p r seq off len : Nat} {rest : List FlashOp}

/-- Mode and clock are chosen anew, and nothing else. -/
theorem Flash.select_frame (f : Flash) : f.select.ops = f.ops ∧ f.select.mem = f.mem := by
  unfold Flash.select
  split
  · exact ⟨rfl, rfl⟩
  · exact ⟨rfl, rfl⟩

/-- An operation that has ended leaves the order; the contents stand. -/
theorem State.endFlashOp_flash (s : State) : s.endFlashOp.flash.ops = s.flash.ops.drop 1 ∧ s.endFlashOp.flash.mem = s.flash.mem := by
  obtain ⟨hops, hmem⟩ := Flash.select_frame { s.flash with
    ops := s.flash.ops.drop 1, cfg := s.flash.cfgHeld.getD s.flash.cfg, cfgHeld := none, held := s.power.mode == Mode.keep }
  exact ⟨hops, hmem⟩

/-- A read ends in a write to the host. -/
theorem flashDone_read {addr : Nat} (hheld : s.flash.held = false) (hops : s.flash.ops = .read p r seq addr off len :: rest) :
    flashDone { reason := 0, sector := 0 } s =
      (s.endFlashOp.hostWrite p addr (s.flash.bytes off len)).startDma p r seq (.write len) := by
  rw [flashDone, if_neg (by simp [hheld]), hops]
  dsimp only
  rw [if_neg (by simp), Flash.bytes, (State.endFlashOp_flash s).2, Flash.bytes]

/-- A write that no sector refuses. -/
theorem flashDone_write {b : Bytes} (hheld : s.flash.held = false) (hops : s.flash.ops = .write p r seq off len (some b) :: rest)
    (hok : s.flash.firstFailure off len { reason := 0, sector := 0 } = none) :
    flashDone { reason := 0, sector := 0 } s =
      ((((s.bump (genCtr 136)).modFlash (fun f => f.store off (b.take (4096 * (len / 4096))))).endFlashOp).complete p r seq stOk len) := by
  have hok' : (s.bump (genCtr 136)).flash.firstFailure off len { reason := 0, sector := 0 } = none := by
    rw [State.bump_flash]
    exact hok
  rw [flashDone, if_neg (by simp [hheld]), hops]
  dsimp only
  rw [hok']
  rfl

end Flash

/-- Settles O23: the two operations end in the host and in the flash. -/
theorem flashOperationsEnd : Obligations.FlashOperationsEnd := by
  unfold Obligations.FlashOperationsEnd
  intro t s p r seq off len rest hheld
  refine ⟨fun addr hops hissue => ?_, fun b hops hlen hsectors hok => ?_⟩
  · refine ⟨_, congrArg Host.Outcome.next (flashDone_read (s := s.at t) hheld hops), ?_, ?_, (State.endFlashOp_flash (s.at t)).2, ?_⟩
    · refine (State.endFlashOp_flash (s.at t)).1.trans ?_
      rw [State.at_flash, hops]
      rfl
    · have hread := State.hostRead_hostWrite (s := (s.at t).endFlashOp) (p := p) (addr := addr) hissue (s.flash.bytes off len) []
      rw [List.append_nil, Flash.bytes, length_memReadAll] at hread
      exact hread
    · rw [State.startDma_eq]
      have hcan : ((State.hostWrite (s.at t).endFlashOp p addr ((s.at t).flash.bytes off len)).host p).canIssue = true := hissue
      rw [hcan]
      rfl
  · have htake : b.take (4096 * (len / 4096)) = b := by
      rw [Nat.mul_div_cancel' (Nat.dvd_of_mod_eq_zero hsectors), ← hlen]
      exact List.take_length
    have hend := flashDone_write (s := s.at t) hheld hops hok
    rw [htake] at hend
    have hflash := (State.complete_hostOnly ((((s.at t).bump (genCtr 136)).modFlash (fun f => f.store off b)).endFlashOp) p r seq stOk len none 0).flash
    obtain ⟨hops', hmem'⟩ := State.endFlashOp_flash (((s.at t).bump (genCtr 136)).modFlash (fun f => f.store off b))
    rw [State.modFlash_flash, State.bump_flash] at hops' hmem'
    refine ⟨_, congrArg Host.Outcome.next hend, ?_, ?_, fun a ha => ?_⟩
    · rw [hflash, hops']
      refine (congrArg (List.drop 1) hops).trans ?_
      rfl
    · rw [hflash, Flash.bytes, hmem', ← hlen]
      exact memReadAll_memWriteAll _ off b
    · rw [hflash, Flash.bytes, hmem']
      exact memReadAll_one_memWriteAll (hlen ▸ ha)

/-! ### Captures (04 R175, R177) -/

section Capture
variable {s : State} {p addr : Nat} {q : SnapReq}

/-- The request with a capture that is being written. -/
def SnapReq.captured (q : SnapReq) (len tick : Nat) : SnapReq :=
  { q with snapLen := len, capture := q.capture + 1, writing := true, captureTick := tick, nextTick := tick + q.period }

/-- A capture that fits. -/
theorem State.capture_fits (hfits : (s.snapshot p q).length ≤ q.length) : s.capture p q =
    (((s.hostWrite p q.addr (leBytes 8 (2 * (q.capture + 1) - 1) ++ (s.snapshot p q).drop 8)).modSnap p q.addr (fun x =>
      if x.seq = q.seq then some (q.captured (s.snapshot p q).length s.tick) else some x)).startDma p q.ring q.seq (.snapshot q.addr)) := by
  unfold State.capture
  generalize s.snapshot p q = b at hfits ⊢
  exact if_neg (Nat.not_lt.mpr hfits)

theorem State.modSnap_snaps (s : State) (p addr : Nat) (f : SnapReq → Option SnapReq) :
    ((s.modSnap p addr f).host p).snaps = (s.host p).snaps.filterMap (fun q => if q.addr = addr then f q else some q) := by
  rw [State.modSnap, State.host_modHost]

/-- The one request of a port is the one that is written. -/
theorem State.captured_snaps {b : Bytes} {len tick : Nat} {use : DmaUse} (hsnaps : (s.host p).snaps = [q]) (haddr : q.addr = addr) :
    ((((s.hostWrite p addr b).modSnap p addr (fun x => if x.seq = q.seq then some (q.captured len tick) else some x)).startDma p q.ring q.seq
      use).host p).snaps = [q.captured len tick] := by
  have hhost : (s.hostWrite p addr b).host p = s.host p := by
    unfold State.hostWrite
    split <;> rfl
  rw [State.startDma_eq]
  refine (State.modSnap_snaps (s.hostWrite p addr b) p addr _).trans ?_
  rw [hhost, hsnaps, List.filterMap_cons, if_pos haddr, if_pos rfl]
  rfl

/-- The capture of the one request of a port. -/
theorem periodicCapture_one (hp : p < 4) (hsnaps : (s.host p).snaps = [q]) (hnow : s.now = s.tickAt) (hheld : s.boundaryHeld = false)
    (hmode : s.power.mode ≠ .keep) (haddr : q.addr = addr) (hperiod : q.period ≠ 0) (hfirst : q.capture ≠ 0) (hlive : q.cancelled = false)
    (hdue : q.nextTick = s.tick) (hidle : q.writing = false) : periodicCapture p addr s = s.capture p q := by
  have hfind : (s.host p).snaps.find? (fun q => q.addr == addr && q.period != 0 && q.capture != 0 && !q.cancelled) = some q := by
    rw [hsnaps]
    exact List.find?_cons_of_pos (by simp [haddr, hperiod, hfirst, hlive])
  rw [periodicCapture, if_neg (by simp [hnow, hheld, hmode]; omega), hfind]
  dsimp only
  rw [if_neg (by simp [hdue]), if_neg (by simp [hidle])]

/-- The end of the writing of a capture. -/
theorem snapshotWriteEnd_of_find (hp : p < 4) (hfind : (s.host p).snaps.find? (fun x => x.addr == addr && x.writing) = some q) :
    ∃ z : State, snapshotWriteEnd p addr s = (if q.capture = 1 then z.complete p q.ring q.seq stOk q.snapLen (some q.captureTick) else z) ∧
      z = { s with hosts := z.hosts, hostMem := (s.hostWrite p addr (leBytes 8 (2 * q.capture))).hostMem, dmas := z.dmas } ∧
      (s.host p).AsIs (z.host p) := by
  rw [snapshotWriteEnd, if_neg (by omega), hfind]
  refine ⟨_, rfl, rfl, ?_⟩
  rw [State.modSnap, State.host_modHost]
  exact ⟨rfl, rfl, rfl, rfl⟩

end Capture

/-! ### Event windows (15 R611) -/

section Window
variable {s : State}

/-- A counter that the routing of an event does not advance. -/
def notRouted (k : Nat) : Prop := k % 2 ^ 16 ≠ 40 ∧ k % 2 ^ 16 ≠ 4096 ∧ k % 2 ^ 16 ≠ 4104 ∧ k % 2 ^ 16 ≠ 4112

/-- Routing changes neither the router nor such a counter. -/
def Routed (s t : State) : Prop := t.router = s.router ∧ ∀ k, notRouted k → t.cntOf k = s.cntOf k

theorem Routed.refl (s : State) : Routed s s := ⟨rfl, fun _ _ => rfl⟩
theorem Routed.trans {s t u : State} (a : Routed s t) (b : Routed t u) : Routed s u :=
  ⟨b.1.trans a.1, fun k hk => (b.2 k hk).trans (a.2 k hk)⟩

theorem Routed.modHost (s : State) (p : Nat) (f : HostPort → HostPort) : Routed s (s.modHost p f) := ⟨rfl, fun _ _ => rfl⟩

theorem Routed.hostWrite (s : State) (p addr : Nat) (b : Bytes) : Routed s (s.hostWrite p addr b) := by
  unfold State.hostWrite
  split <;> exact ⟨rfl, fun _ _ => rfl⟩

theorem Routed.forEach {α : Type} {f : α → State → State} (h : ∀ a s, Routed s (f a s)) : ∀ (l : List α) (s : State), Routed s (forEach l f s)
  | [], s => Routed.refl s
  | a :: l, s => (h a s).trans (Routed.forEach h l (f a s))

theorem Routed.bump (s : State) {k : Nat} (h : k % 2 ^ 16 = 40 ∨ k % 2 ^ 16 = 4096 ∨ k % 2 ^ 16 = 4104 ∨ k % 2 ^ 16 = 4112) : Routed s (s.bump k) := by
  refine ⟨by simp, fun j hj => s.cntOf_bump_ne (fun hkj => ?_)⟩
  subst hkj
  obtain ⟨h1, h2, h3, h4⟩ := hj
  omega

theorem ctr_mod (blk inst off : Nat) : ctr blk inst off % 2 ^ 16 = off % 2 ^ 16 := by
  unfold ctr
  omega

theorem State.putEvent_routed (s : State) (p q src sev tick payload : Nat) : Routed s (s.putEvent p q src sev tick payload) := by
  unfold State.putEvent
  dsimp only
  split
  · exact Routed.modHost ..
  · exact (Routed.forEach (fun _ _ => Routed.hostWrite ..) _ s).trans (Routed.modHost ..)

theorem State.deliver_routed (s : State) (p queue src sev tick payload : Nat) : Routed s (s.deliver p queue src sev tick payload) := by
  unfold State.deliver
  dsimp only
  split
  · exact Routed.bump s (by rw [ctr_mod]; omega)
  · split
    · exact Routed.bump s (by rw [hpCtr, ctr_mod]; omega)
    · split
      · exact Routed.modHost ..
      · exact State.putEvent_routed ..

theorem State.routed_routed (s : State) (src sev cls payload tick who : Nat) : Routed s (s.routed src sev cls payload tick who) := by
  unfold State.routed
  refine Routed.forEach (fun p s => ?_) _ s
  split
  · exact State.deliver_routed ..
  · exact Routed.bump s (by rw [ctr_mod]; omega)

/-- EV_SUPPRESSED in the window that has just begun: no window holds it back. -/
theorem State.event_suppressed (payload : Nat) (hwindow : s.router.window = []) (hno : s.router.windowNo = s.tick / 400) :
    (s.event 44 payload).cntOf (ctr 0x0E 0 (16 * 44)) = (s.cntOf (ctr 0x0E 0 (16 * 44)) + 1) % 2 ^ 64 ∧
      (s.event 44 payload).router.window = [(44, (1, 0))] ∧ (s.event 44 payload).router.windowNo = s.router.windowNo ∧
      (s.event 44 payload).router.told = s.router.told := by
  have hsrc : srcInfo 44 = some (2, 3) := by rfl
  have hcounted : (s.bump (ctr 0x0E 0 (16 * 44))).modRouter (fun x => x.roll s.tick) = s.bump (ctr 0x0E 0 (16 * 44)) := by
    have hroll : s.router.roll s.tick = s.router := if_pos hno
    rw [State.modRouter, State.bump_router, hroll]
    simp [State.bump, State.addCnt]
  unfold State.event
  rw [hsrc]
  dsimp only
  rw [hcounted, if_neg (by simp)]
  generalize hz : State.modRouter (s.bump (ctr 0x0E 0 (16 * 44))) _ = z
  have hcnt : z.cntOf (ctr 0x0E 0 (16 * 44)) = (s.cntOf (ctr 0x0E 0 (16 * 44)) + 1) % 2 ^ 64 := by
    rw [← hz]
    exact s.cntOf_bump _
  have hrouter : z.router.window = [(44, (1, 0))] ∧ z.router.windowNo = s.router.windowNo ∧ z.router.told = s.router.told := by
    rw [← hz, State.modRouter_router, State.bump_router, hwindow]
    exact ⟨rfl, rfl, rfl⟩
  have hquiet : notRouted (ctr 0x0E 0 (16 * 44)) := ⟨by decide, by decide, by decide, by decide⟩
  have hrest : ∀ {u : State}, Routed z u → u.cntOf (ctr 0x0E 0 (16 * 44)) = (s.cntOf (ctr 0x0E 0 (16 * 44)) + 1) % 2 ^ 64 ∧
      u.router.window = [(44, (1, 0))] ∧ u.router.windowNo = s.router.windowNo ∧ u.router.told = s.router.told :=
    fun h => by
      rw [h.1, h.2 _ hquiet]
      exact ⟨hcnt, hrouter⟩
  split
  · exact hrest (Routed.bump z (by rw [ctr_mod]; omega))
  · split
    · exact ⟨hcnt, hrouter⟩
    · split
      · exact ⟨hcnt, hrouter⟩
      · exact hrest (State.routed_routed ..)

/-- The first tick of a window tells what the last one suppressed. -/
theorem windowStart_eq (hno : s.router.windowNo ≠ s.tick / 400) (htold : s.router.told = []) : windowStart s =
    forEach (s.router.window.filterMap (fun x => if x.2.2 = 0 then none else some (x.1, x.2.2))) (fun x s => s.event 44 (x.1 + 2 ^ 32 * satU 32 x.2))
      (s.modRouter (fun x => { x with windowNo := s.tick / 400, window := [], told := [] })) := by
  have hroll : s.router.roll s.tick = { s.router with
      windowNo := s.tick / 400, window := []
      told := s.router.told ++ s.router.window.filterMap (fun x => if x.2.2 = 0 then none else some (x.1, x.2.2)) } := if_neg hno
  unfold windowStart
  rw [State.modRouter, hroll, htold]
  rfl

/-- The first tick of a window after one in which a source was suppressed. -/
theorem windowStart_tells {src n sup : Nat} (hno : s.router.windowNo ≠ s.tick / 400) (htold : s.router.told = [])
    (hwin : s.router.window = [(src, (n, sup))]) (hsup : sup ≠ 0) :
    windowStart s = (s.modRouter (fun x => { x with windowNo := s.tick / 400, window := [], told := [] })).event 44 (src + 2 ^ 32 * satU 32 sup) := by
  rw [windowStart_eq hno htold, hwin]
  simp only [List.filterMap, if_neg hsup]
  rfl

/-- The first tick of a window after one in which none was. -/
theorem windowStart_quiet {src n : Nat} (hno : s.router.windowNo ≠ s.tick / 400) (htold : s.router.told = [])
    (hwin : s.router.window = [(src, (n, 0))]) : windowStart s = s.modRouter (fun x => { x with windowNo := s.tick / 400, window := [] }) := by
  have hkeep : ({ s.router with windowNo := s.tick / 400, window := [], told := [] } : Router) =
      { s.router with windowNo := s.tick / 400, window := [] } := by rw [← htold]
  rw [windowStart_eq hno htold, hwin]
  exact congrArg (fun x => { s with router := x }) hkeep

end Window

/-- Settles O24: a capture writes an odd EPOCH first and an even one at its end, and a window tells what the last one suppressed. -/
theorem capturesAndWindows : Obligations.CapturesAndWindows := by
  refine ⟨fun t p addr q s hp => ⟨fun hsnaps hnow hheld hmode haddr hperiod hfirst hlive hdue hidle hissue hfits => ?_, fun hfind hissue =>
    ⟨fun hnot => ?_, fun o hone hout hseq hdone hfence hhalt => ?_⟩⟩, fun t src n sup s htick hno htold hsup => ⟨fun hwin => ?_, fun hwin => ?_⟩⟩
  · have hend : periodicCapture p addr (s.at t) = (s.at t).capture p q :=
      periodicCapture_one hp hsnaps hnow hheld hmode haddr hperiod hfirst hlive hdue hidle
    have hexec : exec (.periodicCapture t p addr) s = .next ((s.at t).capture p q) := congrArg Host.Outcome.next hend
    rw [State.capture_fits hfits, haddr] at hexec
    refine ⟨_, q.captured ((s.at t).snapshot p q).length s.tick, hexec, ?_, rfl, rfl, rfl, ?_, ?_⟩
    · exact State.captured_snaps hsnaps haddr
    · have hread := State.hostRead_hostWrite (s := s.at t) (p := p) (addr := addr) hissue (leBytes 8 (2 * (q.capture + 1) - 1))
        (((s.at t).snapshot p q).drop 8)
      rwa [length_leBytes] at hread
    · rfl
  · obtain ⟨z, hz, hframe, -⟩ := snapshotWriteEnd_of_find (s := s.at t) hp hfind
    rw [if_neg hnot] at hz
    refine ⟨z, congrArg Host.Outcome.next hz, ?_, ?_⟩
    · have hmem : z.hostMem = ((s.at t).hostWrite p addr (leBytes 8 (2 * q.capture))).hostMem := by rw [hframe]
      rw [State.hostRead_of_hostMem hmem]
      have hread := State.hostRead_hostWrite (s := s.at t) (p := p) (addr := addr) hissue (leBytes 8 (2 * q.capture)) []
      rwa [List.append_nil, length_leBytes] at hread
    · rw [hframe]
  · obtain ⟨z, hz, -, has⟩ := snapshotWriteEnd_of_find (s := s.at t) hp hfind
    rw [if_pos hone] at hz
    exact ⟨_, congrArg Host.Outcome.next hz, State.complete_asIs (s := s.at t) has hout hseq hdone hfence hissue hhalt⟩
  · have hend : execEventWindowStart t s = .next (windowStart (s.at t)) := congrArg Host.Outcome.next (if_pos htick)
    rw [windowStart_tells (s := s.at t) hno htold hwin hsup] at hend
    obtain ⟨hcnt, hwindow, hno', htold'⟩ := State.event_suppressed
      (s := (s.at t).modRouter (fun x => { x with windowNo := s.tick / 400, window := [], told := [] })) (src + 2 ^ 32 * satU 32 sup) rfl rfl
    exact ⟨_, hend, hcnt, hwindow, hno', htold'⟩
  · have hend : execEventWindowStart t s = .next (windowStart (s.at t)) := congrArg Host.Outcome.next (if_pos htick)
    rw [windowStart_quiet (s := s.at t) hno htold hwin] at hend
    exact hend

end Sys2Proof.Machine
end

section
/-! PROOFS. Received frames: judging at the last byte and cut-through (05 R207-R212; 07 R316-R318). -/
namespace Sys2Proof.Machine

section Notice
variable {s w : State} {l : Nat} {f : RxFrame}

/-- What a complete frame that did not start in cut-through and has left pool 0 comes to, under the first byte's instant and stamp. -/
def State.judged (s : State) (l first gen : Nat) (f : RxFrame) : State :=
  match rxError (s.cfgOf gen) l f.data f.fcsOk with
  | some off => s.bump (npCtr l off)
  | none =>
    let s := (s.bump (npCtr l 0)).addCnt (npCtr l 8) (f.data.length + 4)
    match (s.seen first gen).steer l f.data with
    | .pause => s.pauseFrame l f.data
    | .ctrlOther => s.bump (npCtr l 80)
    | .ptp => s.bump (npCtr l 104)
    | .host reason => (s.bump (npCtr l 96)).under first gen (fun s => s.punt s.puntDefault l reason 0 gen first f.data)
    | .fwd =>
      let s := s.bump (npCtr l 88)
      if s.mediaOn then s.under first gen (fun s => s.takeFwd l gen first f none) else s.bump (ctr 0x0D 0 96)

/-- A frame that pool 0 refused in cut-through is dropped whole. -/
theorem completeNotice_refused (hup : s.upl l = true) (hrefused : (s.lport l).rxRefused = true) :
    completeNotice l f s = s.modLport l (fun p => { p with rxRefused := false }) := by
  rw [completeNotice, if_neg (by simp [hup]), if_pos hrefused]

theorem completeNotice_fresh (hup : s.upl l = true) (hrefused : (s.lport l).rxRefused = false) (hrx : (s.lport l).rx = none) :
    completeNotice l f s =
      (if s.poolTakes 0 (cellsOf (f.data.length + 4)) = false then s.refuse0 (cellsOf (f.data.length + 4))
       else ((s.poolAdd 0 (cellsOf (f.data.length + 4))).poolSub 0 (cellsOf (f.data.length + 4))).judged l
         (s.now - (f.data.length + 4) * bytePs (modeOf s.gens.cur (l / 4)))
         (s.stampAt (s.now - (f.data.length + 4) * bytePs (modeOf s.gens.cur (l / 4)))) f) := by
  rw [completeNotice, if_neg (by simp [hup]), if_neg (by simp [hrefused])]
  simp only [hrx, Option.isNone_none, true_and]
  rfl

/-- Steering reads nothing but the settings in force. -/
theorem State.steer_congr {s t : State} (h : t.gens.cur = s.gens.cur) (l : Nat) (b : Bytes) : t.steer l b = s.steer l b := by
  have hnamed : t.ptpNamed l = s.ptpNamed l := by
    unfold State.ptpNamed State.tbPtp State.tbLport State.tbRole State.tbFld State.fld
    rw [h]
  unfold State.steer
  rw [hnamed]

theorem State.steer_seen {s t : State} (h : t.gens = s.gens) (hat : t.tickAt = s.tickAt) (first gen l : Nat) (b : Bytes) :
    (t.seen first gen).steer l b = (s.seen first gen).steer l b := by
  refine State.steer_congr ?_ l b
  unfold State.seen State.cfgOf State.gen
  rw [hat, h]
  split
  · exact congrArg Gens.cur h
  · rfl

/-- The two counters of an accepted frame. -/
def State.acceptedFrame (s : State) (l n : Nat) : State := (s.bump (npCtr l 0)).addCnt (npCtr l 8) n

section Judged
variable {first gen : Nat} (hok : rxError (s.cfgOf gen) l f.data f.fcsOk = none)
include hok

theorem State.judged_ctrl (hsteer : (s.seen first gen).steer l f.data = .ctrlOther) :
    s.judged l first gen f = (s.acceptedFrame l (f.data.length + 4)).bump (npCtr l 80) := by
  have h := (State.steer_seen (s := s) (t := s.acceptedFrame l (f.data.length + 4)) rfl rfl first gen l f.data).trans hsteer
  unfold State.acceptedFrame at h
  rw [State.judged, hok]
  dsimp only
  rw [h]
  rfl

theorem State.judged_ptp (hsteer : (s.seen first gen).steer l f.data = .ptp) :
    s.judged l first gen f = (s.acceptedFrame l (f.data.length + 4)).bump (npCtr l 104) := by
  have h := (State.steer_seen (s := s) (t := s.acceptedFrame l (f.data.length + 4)) rfl rfl first gen l f.data).trans hsteer
  unfold State.acceptedFrame at h
  rw [State.judged, hok]
  dsimp only
  rw [h]
  rfl

theorem State.judged_fwd (hsteer : (s.seen first gen).steer l f.data = .fwd) (hoff : s.mediaOn = false) :
    s.judged l first gen f = ((s.acceptedFrame l (f.data.length + 4)).bump (npCtr l 88)).bump (ctr 0x0D 0 96) := by
  have h := (State.steer_seen (s := s) (t := s.acceptedFrame l (f.data.length + 4)) rfl rfl first gen l f.data).trans hsteer
  unfold State.acceptedFrame at h
  rw [State.judged, hok]
  dsimp only
  rw [h]
  exact if_neg (fun hon => Bool.false_ne_true (hoff.symm.trans hon))

end Judged
end Notice

/-- Settles O25: what a frame comes to is read off the notice, branch by branch. -/
theorem framesAreJudged : Obligations.FramesAreJudged := by
  intro t l off first n f s z w v c hz hup hrx hn hfirst hc hw hv
  subst hz hn
  refine ⟨fun hrefused => congrArg Host.Outcome.next (completeNotice_refused (s := s.at t) hup hrefused), fun hrefused => ?_⟩
  have hfresh : exec (.completePacketNotice t l f) s = .next _ :=
    congrArg Host.Outcome.next (completeNotice_fresh (s := s.at t) (f := f) hup hrefused hrx)
  have hframe : NetFrame (s.at t) w := by
    rw [hw]
    exact (NetFrame.poolAdd ..).trans (NetFrame.poolSub ..)
  refine ⟨fun hfull => hfresh.trans (congrArg Host.Outcome.next (if_pos hfull)), fun hroom => ?_⟩
  rw [if_neg (by simp [hroom]), ← hw, State.at_gens, ← hfirst] at hfresh
  have hcfg : w.cfgOf ((s.at t).stampAt first) = c := by
    rw [hc, State.cfgOf, State.gen, hframe.gens]
    rfl
  rw [hv]
  refine ⟨fun hbad => ?_, fun hok hsteer => ?_, fun hok hsteer => ?_, fun hok hsteer hoff => ?_⟩
  · rw [hfresh, State.judged, hcfg, hbad]
  · exact hfresh.trans (congrArg Host.Outcome.next (State.judged_ctrl (by rw [hcfg]; exact hok) hsteer))
  · exact hfresh.trans (congrArg Host.Outcome.next (State.judged_ptp (by rw [hcfg]; exact hok) hsteer))
  · have hoffW : w.mediaOn = false := by
      rw [State.mediaOn, hframe.power]
      exact hoff
    exact hfresh.trans (congrArg Host.Outcome.next (State.judged_fwd (by rw [hcfg]; exact hok) hsteer hoffW))

/-! ### Cut-through (01 R54; 05 R211, R212) -/

section Pool
variable (s : State) (k n : Nat)

/-- Cells that enter a pool change the level, the rest of the pools' records, and what an event changes. -/
theorem State.poolAdd_frame : s.poolAdd k n = { s with
    hosts := (s.poolAdd k n).hosts, hostMem := (s.poolAdd k n).hostMem, router := (s.poolAdd k n).router, cnt := (s.poolAdd k n).cnt
    net := { s.net with pools := (s.poolAdd k n).net.pools } } := by
  unfold State.poolAdd
  dsimp only
  split
  · generalize hy : State.bump _ _ = y
    rw [State.event_hostOnly y 40 (k + ((s.pool k).level + n) * 256)]
    subst hy
    rfl
  · rfl

theorem State.pool_modPool (f : Pool → Pool) : (s.modPool k f).pool k = f (s.pool k) := lookD_adjD_same ..

theorem State.pool_event (src payload who : Nat) : (s.event src payload who).pool k = s.pool k := by
  rw [State.pool, (State.event_hostOnly s src payload who).net, State.pool]

theorem State.pool_bump (i : Nat) : (s.bump i).pool k = s.pool k := rfl

theorem State.poolAdd_level : ((s.poolAdd k n).pool k).level = (s.pool k).level + n := by
  unfold State.poolAdd
  dsimp only
  split
  · rw [State.pool_modPool]
    dsimp only
    rw [State.pool_event, State.pool_bump, State.pool_modPool, State.pool_modPool]
  · rw [State.pool_modPool]

theorem State.poolAdd_lport (l : Nat) : (s.poolAdd k n).lport l = s.lport l := by
  rw [State.lport, State.poolAdd_frame]
  rfl

end Pool

section Cut
variable {s v : State} {l : Nat} {f : RxFrame} {c : Option Tack}

/-- Outside a switch the settings and the state of a stamp are those in force. -/
theorem State.stampAt_quiet (hsw : s.gens.switching = false) (first : Nat) : s.stampAt first = s.gen := if_neg (by simp [hsw])

theorem State.cfgOf_quiet (hsw : s.gens.switching = false) (g : Nat) : s.cfgOf g = s.gens.cur := if_neg (by simp [hsw])

/-- A frame that starts in cut-through with no stream for its SSRC. -/
def State.startRx (s : State) (l first bp lenIn : Nat) : State :=
  ((s.modNet (fun n => { n with nextRx := s.net.nextRx + 1 })).modLport l (fun p => { p with rx := some {
    id := s.net.nextRx, gen := s.gen, firstIn := first, lenIn, bytePs := bp, auth := false, unknown := true } })).poolAdd 0 (cellsOf lenIn)

section Fwd
variable (hup : s.upl l = true) (hmedia : s.mediaOn = true) (hrx : (s.lport l).rx = none)
  (hrefused : (s.lport l).rxRefused = false) (hsw : s.gens.switching = false) (hthr : lpfld s.gens.cur l 26 2 ≠ 0)
  (hv : v = s.seen (s.now - lpfld s.gens.cur l 26 2 * bytePs (modeOf s.gens.cur (l / 4))) s.gen)
  (hlen : lpfld s.gens.cur l 26 2 ≤ f.data.length) (hok : rxError s.gens.cur l f.data true = none) (hsteer : v.steer l f.data = .fwd)
include hup hmedia hrx hrefused hsw hthr hv hlen hok hsteer

theorem cutThroughStart_full (hfull : s.poolTakes 0 (cellsOf (headerLen f.data)) = false) :
    cutThroughStart l f s = (s.refuse0 (cellsOf (headerLen f.data))).modLport l (fun p => { p with rxRefused := true }) := by
  rw [cutThroughStart]
  rw [s.stampAt_quiet hsw, s.cfgOf_quiet hsw, ← hv]
  rw [if_neg (by simp [hup, hmedia, hrx, hrefused, hthr, hok, hsteer]; omega)]
  exact if_pos hfull

theorem cutThroughStart_unknown {leg : Nat} {lg : Leg} {ip : Ip} (hroom : s.poolTakes 0 (cellsOf (headerLen f.data)) = true)
    (hip : ip = parseIp f.data (parseEth f.data)) (hrtp : udpKind (udpData f.data ip) = .rtp) (htomb : v.tombAt 0 (rxTuple l ip f.data) 0 = false)
    (htomb' : v.tombAt 1 (rxTuple l ip f.data) (be (udpData f.data ip) 8 4) = false) (hleg : v.legBy (rxTuple l ip f.data) = some (leg, lg))
    (hnone : v.ingressBy leg (be (udpData f.data ip) 8 4) = none) :
    cutThroughStart l f s = s.startRx l (s.now - lpfld s.gens.cur l 26 2 * bytePs (modeOf s.gens.cur (l / 4)))
      (bytePs (modeOf s.gens.cur (l / 4))) (headerLen f.data) := by
  rw [cutThroughStart]
  rw [s.stampAt_quiet hsw, s.cfgOf_quiet hsw, ← hv, ← hip]
  rw [if_neg (by simp [hup, hmedia, hrx, hrefused, hthr, hok, hsteer]; omega), if_neg (by simp [hroom]), if_neg (by simp [hrtp, htomb, htomb']),
    hleg]
  dsimp only
  rw [hnone]
  rfl

end Fwd

end Cut

/-- Settles O26: RTP of a known leg becomes pending, or is refused whole. -/
theorem cutThroughMakesPending : Obligations.CutThroughMakesPending := by
  intro t l leg lg f s z v c ip hz hup hmedia hrx hrefused hsw hc hthr hv hlen hok hsteer
  subst hz
  rw [(s.at t).cfgOf_quiet hsw, State.at_gens] at hc
  subst hc
  refine ⟨fun hfull => congrArg Host.Outcome.next
    (cutThroughStart_full (s := s.at t) hup hmedia hrx hrefused hsw hthr hv hlen hok hsteer hfull), ?_⟩
  intro hroom hip hrtp htomb htomb' hleg hnone
  refine ⟨_, congrArg Host.Outcome.next
    (cutThroughStart_unknown (s := s.at t) hup hmedia hrx hrefused hsw hthr hv hlen hok hsteer hroom hip hrtp htomb htomb' hleg hnone), ?_, ?_, ?_, ?_⟩
  · rw [State.startRx, State.poolAdd_lport, State.lport_modLport]
    rfl
  · exact State.poolAdd_level ..
  · rw [State.startRx, State.poolAdd_frame]
    rfl
  · rw [State.startRx, State.poolAdd_frame]
    rfl

end Sys2Proof.Machine
end

section
/-! PROOFS. Sending: frames start and end on a MAC (05 R200, R213, R221). -/
namespace Sys2Proof.Machine

/-- The instant and the generations stand. -/
def Clocked (s t : State) : Prop := t.now = s.now ∧ t.gens = s.gens

theorem Clocked.refl (s : State) : Clocked s s := ⟨rfl, rfl⟩
theorem Clocked.trans {s t u : State} (a : Clocked s t) (b : Clocked t u) : Clocked s u := ⟨b.1.trans a.1, b.2.trans a.2⟩
theorem NetFrame.clocked {s t : State} (a : NetFrame s t) : Clocked s t := ⟨a.now, a.gens⟩

section Keep
variable (s : State)

theorem State.spillIsFull_frame : NetFrame s s.spillIsFull :=
  NetFrame.ite (NetFrame.refl s) ((NetFrame.modNet s _).trans (NetFrame.event ..))

theorem NetFrame.enqueue (l c : Nat) (f : QFrame) : NetFrame s (s.enqueue l c f) := by
  unfold State.enqueue
  extract_lets y f' s' legQueue q store k hostTx f''
  have hs : NetFrame s s' := NetFrame.countFor s _ _ _ _
  have hstore : ∀ f t, NetFrame t (store f t) := fun f t => NetFrame.ite (NetFrame.setLegq ..) (NetFrame.setDirect ..)
  clear_value s' store
  refine hs.trans (NetFrame.ite (NetFrame.dropQ ..) ?_)
  split
  · exact (((NetFrame.ite (NetFrame.poolSub ..) (NetFrame.refl _)).trans ((NetFrame.modNet ..).trans (NetFrame.countFor ..))).trans
      (hstore ..)).trans (NetFrame.spillMark _)
  · exact hstore ..
  · exact (NetFrame.poolAdd ..).trans (hstore ..)
  · exact NetFrame.ite ((State.spillIsFull_frame _).trans (NetFrame.dropQ ..)) ((NetFrame.countFor ..).trans (NetFrame.dropQ ..))

theorem State.draw_clocked (m : Nat) : Clocked s (s.draw m).2 := ⟨rfl, rfl⟩

theorem State.ptpDst_clocked (n kind : Nat) (dest : Option (Nat × Nat)) : Clocked s (s.ptpDst n kind dest).2 := by
  unfold State.ptpDst
  split
  · exact Clocked.refl s
  · exact Clocked.refl s
  · split
    · exact Clocked.refl s
    · exact ⟨rfl, rfl⟩
  · exact Clocked.refl s

theorem State.ptpFrame_clocked (n kind seq : Nat) (corr : Int) (body : Bytes) (dest : Option (Nat × Nat)) :
    Clocked s (s.ptpFrame n kind seq corr body dest).2 := by
  unfold State.ptpFrame
  have hdst := s.ptpDst_clocked n kind dest
  dsimp only
  split
  · exact hdst
  · exact hdst.trans (State.draw_clocked _ _)

theorem State.ptpQueue_clocked (n kind seq : Nat) (corr : Int) (body : Bytes) (dest : Option (Nat × Nat)) (rxAt : Int) :
    Clocked s (s.ptpQueue n kind seq corr body dest rxAt) := by
  unfold State.ptpQueue
  dsimp only
  split
  · exact ((NetFrame.bump s _).clocked.trans (State.ptpFrame_clocked ..)).trans (NetFrame.enqueue ..).clocked
  · exact (State.ptpFrame_clocked ..).trans (NetFrame.enqueue ..).clocked

theorem State.ptpDepart_clocked (f : QFrame) : (s.ptpDepart f).1.len = f.len ∧ Clocked s (s.ptpDepart f).2 := by
  unfold State.ptpDepart
  extract_lets n o kind seq v dest sent turn
  clear_value n o kind seq v dest sent turn
  split
  · split
    · exact ⟨rfl, s.ptpQueue_clocked n ptFollowUp seq (v % 65536 : Nat) _ (some dest) 0⟩
    · exact ⟨rfl, Clocked.refl s⟩
  · split
    · exact ⟨rfl, rfl, rfl⟩
    · split
      · split
        · exact ⟨rfl, s.ptpQueue_clocked n ptPdelayFollowUp seq turn _ (some dest) 0⟩
        · exact ⟨rfl, Clocked.refl s⟩
      · exact ⟨rfl, Clocked.refl s⟩

theorem State.departRtp_clocked (f : QFrame) (z : Stream) : Clocked s (s.departRtp f z).2 := by
  unfold State.departRtp
  split
  · exact Clocked.refl s
  · dsimp only
    split
    · split
      · exact ⟨rfl, rfl⟩
      · exact Clocked.refl s
    · exact Clocked.refl s

/-- A frame that departs keeps its length. -/
theorem State.depart_clocked (f : QFrame) : (s.depart f).1.len = f.len ∧ Clocked s (s.depart f).2 := by
  unfold State.depart
  split
  · split
    · exact ⟨rfl, (s.departRtp_clocked f _).trans ⟨rfl, rfl⟩⟩
    · exact ⟨rfl, Clocked.refl s⟩
  · split
    · exact s.ptpDepart_clocked f
    · exact ⟨rfl, Clocked.refl s⟩

theorem State.vlanTag_clocked (l c kind : Nat) : Clocked s (s.vlanTag l c kind).2 ∧ (s.vlanTag l c kind).2.objs = s.objs ∧
    (s.vlanTag l c kind).2.net = s.net := by
  unfold State.vlanTag
  split
  · dsimp only
    split <;> exact ⟨⟨rfl, rfl⟩, rfl, rfl⟩
  · exact ⟨Clocked.refl s, rfl, rfl⟩

theorem State.linkHead_clocked (l c : Nat) (f : QFrame) : Clocked s (s.linkHead l c f).2 ∧ (s.linkHead l c f).2.objs = s.objs ∧
    (s.linkHead l c f).2.net = s.net := by
  unfold State.linkHead
  split
  · exact ⟨Clocked.refl s, rfl, rfl⟩
  · dsimp only
    split <;> exact s.vlanTag_clocked l c f.kind

theorem State.noteSent_clocked (f : QFrame) : Clocked s (s.noteSent f) := by
  unfold State.noteSent
  split
  · exact Clocked.refl s
  · exact ⟨rfl, rfl⟩

theorem State.setDeficits_clocked (ds : Tab Nat) : Clocked s (s.setDeficits ds) :=
  (NetFrame.forEach (fun _ _ => NetFrame.modLeg ..) ds s).clocked

theorem State.takeHead_frame {l c : Nat} {leg : Option Nat} {f : QFrame} {w : State} (h : s.takeHead l c leg = some (f, w)) : NetFrame s w := by
  unfold State.takeHead at h
  extract_lets q at h
  clear_value q
  split at h
  · exact absurd h (by simp)
  · next g rest =>
    extract_lets s' g' s'' at h
    have hs : NetFrame s s' := by
      unfold s'
      split
      · exact NetFrame.setDirect ..
      · exact (NetFrame.setLegq ..).trans (NetFrame.modNet ..)
    have hs' : NetFrame s s'' := hs.trans ((NetFrame.release ..).trans (NetFrame.modNet ..))
    clear_value s' s''
    split at h
    · obtain ⟨-, rfl⟩ := Prod.mk.inj (Option.some.inj h)
      exact hs'.trans ((NetFrame.countFor ..).trans (NetFrame.poolAdd ..))
    · split at h
      · obtain ⟨-, rfl⟩ := Prod.mk.inj (Option.some.inj h)
        exact hs
      · obtain ⟨-, rfl⟩ := Prod.mk.inj (Option.some.inj h)
        exact hs.trans ((NetFrame.release ..).trans (NetFrame.poolAdd ..))

/-- The frame that starts on a port. -/
theorem State.startFrame_tx (l c : Nat) (f : QFrame) : ∃ x, ((s.startFrame l c f).lport l).tx = some x ∧ x.cls = c ∧ x.frame.len = f.len ∧
    x.start = s.now ∧ x.ends = s.now + f.len * bytePs (modeOf s.gens.cur (l / 4)) := by
  have hhead := (s.linkHead_clocked l c f).1
  obtain ⟨hlen, hdep⟩ := (s.linkHead l c f).2.depart_clocked f
  generalize hd : (s.linkHead l c f).2.depart f = d at hlen hdep
  have hnote : Clocked d.2 (d.2.when d.1.pending.isNone (fun s => s.noteSent d.1)) := by
    unfold State.when
    split
    · exact State.noteSent_clocked ..
    · exact Clocked.refl _
  have hclock := (hhead.trans hdep).trans hnote
  unfold State.startFrame
  dsimp only
  rw [hd, State.lport_modLport]
  refine ⟨_, rfl, rfl, hlen, hclock.1, ?_⟩
  dsimp only
  rw [hclock.1, hclock.2, hlen]

/-- A pause frame that starts: nothing of it is of a stream or of a leg. -/
theorem State.startFrame_ctl (l : Nat) (f : QFrame) (hkind : f.kind = 8) (hleg : f.leg = 0) : ∃ (x : TxFrame) (t : State),
    s.startFrame l 0 f = t.modLport l (fun p => { p with tx := some x }) ∧ x.frame = f ∧ x.start = s.now ∧
      x.ends = s.now + f.len * bytePs (modeOf s.gens.cur (l / 4)) ∧ t.net = s.net ∧ t.objs = s.objs ∧ t.gens = s.gens := by
  obtain ⟨hclock, hobjs, hnet⟩ := s.linkHead_clocked l 0 f
  have hdepart : ∀ t : State, t.depart f = (f, t) := fun t => by
    rw [State.depart, if_neg (by simp [QFrame.isRtp, hkind]), if_neg (by simp [hkind])]
  have hnote : ∀ t : State, t.when f.pending.isNone (fun s => s.noteSent f) = t := fun t => by
    unfold State.when State.noteSent
    rw [hleg]
    exact ite_self t
  unfold State.startFrame
  dsimp only
  rw [hdepart]
  dsimp only
  rw [hnote]
  refine ⟨_, _, rfl, rfl, hclock.1, ?_, hnet, hobjs, hclock.2⟩
  dsimp only
  rw [hclock.1, hclock.2]

end Keep

section Starts
variable {s : State} {l : Nat}

/-- A frame boundary of a port out of reset, BOOT and KEEP. -/
theorem frameBoundary (hl : l < 64) (htx : (s.lport l).tx = none) (hnow : (s.lport l).nextStart ≤ s.now)
    (hmode : s.power.mode ∉ [Mode.reset, .boot, .keep]) : ¬(64 ≤ l ∨ (s.lport l).tx.isSome = true ∨ s.now < (s.lport l).nextStart ∨
      s.power.mode = .reset ∨ s.power.mode = .boot ∨ s.power.mode = .keep) := by
  simp only [List.mem_cons, List.not_mem_nil, or_false, not_or] at hmode
  obtain ⟨h1, h2, h3⟩ := hmode
  simp [htx, h1, h2, h3, hl, hnow]

/-- A pause frame that waits goes first. -/
theorem transmitStart_ctl {b : Bytes} {rest : List Bytes} (hl : l < 64) (htx : (s.lport l).tx = none) (hnow : (s.lport l).nextStart ≤ s.now)
    (hmode : s.power.mode ∉ [Mode.reset, .boot, .keep]) (hup : s.upl l = true) (hctl : (s.lport l).ctl = b :: rest) :
    transmitStart l s = (s.modLport l (fun p => { p with ctl := rest })).startFrame l 0
      { ctlQFrame s.now b with len := s.wireLen l (ctlQFrame s.now b) } := by
  rw [transmitStart]
  rw [if_neg (frameBoundary hl htx hnow hmode), hup, hctl]

/-- Else the frame that the highest sending class offers. -/
theorem transmitStart_pick {c : Nat} {q : Option Nat} {ds : Tab Nat} {f : QFrame} {w : State} (hl : l < 64) (htx : (s.lport l).tx = none)
    (hnow : (s.lport l).nextStart ≤ s.now) (hmode : s.power.mode ∉ [Mode.reset, .boot, .keep]) (hup : s.upl l = true)
    (hctl : (s.lport l).ctl = []) (hpick : s.pick l = (some (c, q), ds)) (hhead : (s.setDeficits ds).takeHead l c q = some (f, w))
    (hstop : w.stopped f = false) :
    transmitStart l s = (w.chargeShapers l c f.leg (w.charge l c f.len) (w.shaped l c)).startFrame l c f := by
  rw [transmitStart]
  rw [if_neg (frameBoundary hl htx hnow hmode), hup, hctl]
  dsimp only
  rw [hpick]
  dsimp only
  rw [hhead]
  dsimp only
  rw [if_neg (by simp [hstop]), if_pos rfl]

end Starts

/-! ### The end of a frame -/

section Ports
variable (s : State)

theorem State.poolAdd_lports (k n : Nat) : (s.poolAdd k n).net.lports = s.net.lports := by
  rw [State.poolAdd_frame]

theorem State.event_lports (src payload who : Nat) : (s.event src payload who).net.lports = s.net.lports :=
  congrArg Net.lports (State.event_hostOnly s src payload who).net

theorem State.spillMark_lports : s.spillMark.net.lports = s.net.lports := by
  unfold State.spillMark
  dsimp only
  split
  · split <;> rfl
  · split
    · exact (State.event_lports ..).trans rfl
    · rfl

theorem State.release_lports (f : QFrame) : (s.release f).net.lports = s.net.lports := by
  unfold State.release
  split
  · exact State.spillMark_lports _
  · rfl

theorem State.complete_lports (p r seq status result : Nat) (tick : Option Nat) (n : Nat) :
    (s.complete p r seq status result tick n).net.lports = s.net.lports :=
  congrArg Net.lports (State.complete_hostOnly s p r seq status result tick n).net

theorem State.countSent_lports (l : Nat) (x : TxFrame) : (s.countSent l x).net.lports = s.net.lports := by
  unfold State.countSent
  extract_lets f s1 s2
  have h1 : s1.net.lports = s.net.lports := by simp [s1]
  have h2 : s2.net.lports = s.net.lports := by
    unfold s2
    split
    · exact (State.complete_lports ..).trans h1
    · exact h1
  clear_value s2
  split
  · rfl
  · split
    · exact h2
    · split
      · dsimp only
        split <;> exact h2
      · exact h2

theorem hostStart_lports : ∀ (q : List (Nat × Nat × Nat × Nat × Desc)) (held : List Nat) (s : State),
    (hostStart s q held).1.net.lports = s.net.lports
  | [], _, _ => rfl
  | (p, r, seq, gen, d) :: rest, held, s => by
    unfold hostStart
    dsimp only
    split
    · exact (hostStart_lports rest held _).trans (State.poolAdd_lports ..)
    · exact hostStart_lports rest _ s

theorem State.hostPump_lports : s.hostPump.net.lports = s.net.lports := by
  unfold State.hostPump
  split
  · rfl
  · exact hostStart_lports ..

theorem State.lport_of_lports {s t : State} (h : t.net.lports = s.net.lports) (l : Nat) : t.lport l = s.lport l := by
  rw [State.lport, h, State.lport]

/-- With no HOST_TX waiting nothing goes on. -/
theorem State.hostPump_idle {s : State} (h : s.net.hostWait = []) : s.hostPump = s := if_pos h

end Ports

section Ends
variable {s : State} {l : Nat} {x : TxFrame}

theorem transmitEnd_lport (htx : (s.lport l).tx = some x) (hends : x.ends ≤ s.now) (hpend : x.frame.pending = none) :
    (transmitEnd l s).lport l = { s.lport l with tx := none, nextStart := x.ends + 20 * bytePs (modeOf s.gens.cur (l / 4)) } := by
  unfold transmitEnd
  rw [htx]
  dsimp only
  rw [if_neg (by simp [hpend]; omega)]
  have hmod := s.lport_modLport l (fun p => { p with tx := none, nextStart := x.ends + 20 * bytePs (modeOf s.gens.cur (l / 4)) })
  refine (State.lport_of_lports ((State.hostPump_lports _).trans ?_) l).trans hmod
  split
  · split
    · rfl
    · exact State.release_lports ..
  · split
    · exact State.countSent_lports ..
    · exact (State.countSent_lports ..).trans (State.release_lports ..)

/-- A control frame that ends. -/
theorem transmitEnd_ctl (htx : (s.lport l).tx = some x) (hends : x.ends ≤ s.now) (hpend : x.frame.pending = none)
    (hkind : x.frame.kind = 8) (hwait : s.net.hostWait = []) :
    transmitEnd l s = (if x.stomped then s else s.bump (npCtr l 136)).modLport l (fun p =>
      { p with tx := none, nextStart := x.ends + 20 * bytePs (modeOf s.gens.cur (l / 4)) }) := by
  unfold transmitEnd
  rw [htx]
  dsimp only
  rw [if_neg (by simp [hpend]; omega), if_pos hkind, State.countSent, if_pos hkind]
  split <;> exact State.hostPump_idle hwait

end Ends

/-- Settles O27: a pause frame goes before every class, the frame of the highest sending class else, and its end leaves the MAC free. -/
theorem framesAreSent : Obligations.FramesAreSent := by
  intro t l s z hz hl hmode
  subst hz
  refine ⟨fun htx hnow hup => ⟨fun b rest hctl => ?_, fun c q ds f w hctl hpick hhead hstop => ?_⟩, fun x htx hends hpend => ⟨?_, fun hkind hwait => ?_⟩⟩
  · have hend := transmitStart_ctl (s := s.at t) hl htx hnow hmode hup hctl
    obtain ⟨x, u, hstart, hframe, hat, hends, hnet, hobjs, hgens⟩ :=
      State.startFrame_ctl ((s.at t).modLport l (fun p => { p with ctl := rest })) l
        { ctlQFrame (s.at t).now b with len := (s.at t).wireLen l (ctlQFrame (s.at t).now b) } rfl rfl
    refine ⟨_, x, congrArg Host.Outcome.next (hend.trans hstart), ?_, ?_, ?_, hat, ?_, ?_, ?_, hobjs, hgens⟩
    · rw [State.lport_modLport]
    · rw [hframe]
      rfl
    · rw [hframe]
      rfl
    · rw [hframe]
    · rw [hends, hframe]
      rfl
    · rw [State.lport_modLport, State.lport, hnet]
      exact congrArg LPort.ctl (State.lport_modLport (s.at t) l _)
  · have hend := transmitStart_pick (s := s.at t) hl htx hnow hmode hup hctl hpick hhead hstop
    have hclock : Clocked (s.at t) (w.chargeShapers l c f.leg (w.charge l c f.len) (w.shaped l c)) :=
      ((State.setDeficits_clocked ..).trans (State.takeHead_frame _ hhead).clocked).trans (NetFrame.chargeShapers ..).clocked
    obtain ⟨x, hx, hcls, hlen, hat, hends⟩ :=
      State.startFrame_tx (w.chargeShapers l c f.leg (w.charge l c f.len) (w.shaped l c)) l c f
    rw [hclock.1] at hat hends
    rw [hclock.2] at hends
    exact ⟨_, x, congrArg Host.Outcome.next hend, hx, hcls, hlen, hat, hends⟩
  · refine ⟨_, rfl, ?_, ?_⟩
    · exact congrArg LPort.tx (transmitEnd_lport (s := s.at t) htx hends hpend)
    · exact congrArg LPort.nextStart (transmitEnd_lport (s := s.at t) htx hends hpend)
  · refine ⟨_, congrArg Host.Outcome.next (transmitEnd_ctl (s := s.at t) htx hends hpend hkind hwait), ?_, ?_⟩
    · split <;> rfl
    · split <;> rfl

end Sys2Proof.Machine
end

section
/-! PROOFS. Old heads leave their queues, and watermarks are armed again (07 R311, R317, R323). -/
namespace Sys2Proof.Machine

section Aged
variable {s : State} {f : QFrame}

/-- What a dropped frame of the loft leaves: its cells go back to its pool and the yard counts it. -/
theorem dropAged_one {ageMs yard : Nat} (hage : ageMs ≠ 0) (hkind : f.kind ≠ 3) (hold : f.enter + ageMs * 1000 * us < s.now)
    (hpend : f.pending = none) (hspill : f.spilled = false) :
    dropAged s ageMs yard [f] = ((s.poolSub f.pool (cellsOf f.len)).bump (shCtr yard 0), []) := by
  rw [dropAged, if_pos ⟨hage, hkind, hold⟩, dropAged, State.release, if_neg (by simp [hspill]), State.dropQ, State.dropN, hpend]
  rfl

theorem State.direct_setDirect_nil (s : State) (l c : Nat) : (s.setDirect l c []).direct l c = [] := by
  simp [State.direct, State.setDirect, putQ, lookD]

theorem State.legq_setLegq_nil (s : State) (i : Nat) : (s.setLegq i []).legq i = [] := by
  simp [State.legq, State.setLegq, putQ, lookD]

theorem State.pool_poolSub (s : State) (k n : Nat) : ((s.poolSub k n).pool k).level = (s.pool k).level - n := by
  rw [State.poolSub, State.pool_modPool]

theorem headAgeDrop_direct {l c : Nat} (hl : l < 64) (hc : c < 8) (hqueue : s.direct l c = [f]) (hage : s.cls l c 12 2 ≠ 0) (hkind : f.kind ≠ 3)
    (hold : f.enter + s.cls l c 12 2 * 1000 * us < s.now) (hpend : f.pending = none) (hspill : f.spilled = false) (hwait : s.net.hostWait = []) :
    (headAgeDrop (8 * l + c) s).hostPump = ((s.poolSub f.pool (cellsOf f.len)).bump (shCtr (l / 8) 0)).setDirect l c [] := by
  have hdiv : (8 * l + c) / 8 = l := by omega
  have hmod : (8 * l + c) % 8 = c := by omega
  rw [headAgeDrop, if_pos (by omega), hdiv, hmod]
  dsimp only
  rw [hqueue, dropAged_one hage hkind hold hpend hspill]
  exact State.hostPump_idle hwait

theorem headAgeDrop_leg {i : Nat} {leg : Leg} (hleg : look s.objs.legs i = some leg) (hqueue : s.legq i = [f])
    (hage : s.cls leg.lport leg.videoClass 12 2 ≠ 0) (hkind : f.kind ≠ 3) (hold : f.enter + s.cls leg.lport leg.videoClass 12 2 * 1000 * us < s.now)
    (hpend : f.pending = none) (hspill : f.spilled = false) (hwait : s.net.hostWait = []) :
    (headAgeDrop (512 + i) s).hostPump = ((s.poolSub f.pool (cellsOf f.len)).bump (shCtr (leg.lport / 8) 0)).setLegq i [] := by
  rw [headAgeDrop, if_neg (by omega), Nat.add_sub_cancel_left, hleg, hqueue]
  dsimp only
  rw [dropAged_one hage hkind hold hpend hspill]
  exact State.hostPump_idle hwait

end Aged

/-- Settles O28: a head past its age leaves its queue and its pool, and a latch is armed again below LOW_CELLS. -/
theorem oldHeadsAreDropped : Obligations.OldHeadsAreDropped := by
  intro t l c k f s z hz hl hc
  subst hz
  refine ⟨fun hqueue hage hkind hold hpend hspill hwait => ?_, fun i leg hleg hqueue hage hkind hold hpend hspill hwait => ?_, fun hk hlatch hnotice hlow => ?_⟩
  · refine ⟨_, congrArg Host.Outcome.next (headAgeDrop_direct (s := s.at t) hl hc hqueue hage hkind hold hpend hspill hwait), ?_, ?_, ?_, rfl⟩
    · exact State.direct_setDirect_nil ..
    · exact State.pool_poolSub (s.at t) ..
    · exact s.cntOf_bump _
  · refine ⟨_, congrArg Host.Outcome.next (headAgeDrop_leg (s := s.at t) hleg hqueue hage hkind hold hpend hspill hwait), ?_, ?_, ?_, rfl⟩
    · exact State.legq_setLegq_nil ..
    · exact State.pool_poolSub (s.at t) ..
    · exact s.cntOf_bump _
  · exact congrArg Host.Outcome.next (if_pos ⟨hk, hlatch, hnotice, hlow⟩)

end Sys2Proof.Machine
end

section
/-! PROOFS. Logical ports come up, go down and degrade (05 R205, R229, R234). -/
namespace Sys2Proof.Machine

section Counters
variable {l off : Nat}

/-- A counter of a logical port. -/
theorem quietCounter_npCtr (hl : l < 64) (hoff : off < 2 ^ 16) (hne : off ≠ 40) : quietCounter (npCtr l off) := by
  refine ⟨fun h => ?_, fun q h => ?_⟩
  · unfold npCtr ctr at h
    omega
  · unfold npCtr hpCtr ctr at h
    omega

end Counters

section Events
variable (s : State) (src payload who : Nat)

theorem State.lport_event (l : Nat) : (s.event src payload who).lport l = s.lport l := State.lport_of_lports (s.event_lports ..) l

/-- What an event leaves as it was. -/
theorem State.event_frame : s.event src payload who = { s with
    hosts := (s.event src payload who).hosts, hostMem := (s.event src payload who).hostMem, router := (s.event src payload who).router
    cnt := (s.event src payload who).cnt } := State.event_hostOnly s src payload who

theorem State.cntOf_event {k : Nat} (hk : quietCounter k) : (s.event src payload who).cntOf k = s.cntOf k :=
  (s.event_eventOnly src payload who).counters k hk

end Events

section Links
variable {s : State} {l : Nat}

/-- A fault whose time has passed. -/
theorem fault_past {w : Nat} (h : ∀ a, (s.lport l).faultAt = some a → a + w ≤ s.now) :
    (s.lport l).faultAt.any (fun f => decide (s.now < f + w)) = false := by
  cases ha : (s.lport l).faultAt with
  | none => rfl
  | some a => exact decide_eq_false (Nat.not_lt.mpr (h a ha))

/-- A port that comes up. -/
theorem logicalPortUp_eq (hprov : provides s.gens.cur l = true) (hdown : (s.lport l).up = false)
    (hfault : ∀ a, (s.lport l).faultAt = some a → a + 10000 * us ≤ s.now) (hlock : bit (lookD s.power.ydStatus (yardOf l) 0) 16 = true)
    (hmode : s.power.mode ∉ [Mode.reset, .boot, .keep, .safe]) (hloop : (lookD s.net.phys (l / 4) {}).loop = 0) :
    logicalPortUp l s = (s.modLport l (fun p => { p with
      up := true, amLock := true, localFault := false, remoteFault := false, anDone := bit (s.fld 4 (16 * (l / 4)) 1) 2
      ltDone := bit (s.fld 4 (16 * (l / 4)) 1) 3 })).event (yardSrc (yardOf l) 1) l := by
  simp only [List.mem_cons, List.not_mem_nil, or_false, not_or] at hmode
  obtain ⟨h1, h2, h3, h4⟩ := hmode
  have hpast : (s.lport l).faultAt.any (fun f => decide (s.now < f + 10000 * us)) = false :=
    fault_past hfault
  rw [logicalPortUp]
  exact if_neg (by simp [hprov, hdown, hpast, hlock, h1, h2, h3, h4, hloop])

/-- The counters of a port that goes down, and of a frame that this cuts. -/
def State.countDown (s : State) (l : Nat) (cut : Bool) : State := (if cut then s.bump (npCtr l 16) else s).bump (npCtr l 176)

/-- A port that is up goes down while it neither receives nor sends a frame. -/
theorem logicalPortDown_up {cause : DownCause} (hprov : provides s.gens.cur l = true) (hup : (s.lport l).up = true)
    (hrx : (s.lport l).rx = none) (hrefused : (s.lport l).rxRefused = false) (htx : (s.lport l).tx = none) (hin : s.net.inRx.1 ≠ s.now) :
    ∃ (u : State) (payload : Nat), logicalPortDown l cause s = u.event (yardSrc (yardOf l) 2) payload ∧ (u.lport l).up = false ∧
      (u.lport l).ctl = [] ∧ (∀ m, m ≠ l → u.lport m = s.lport m) ∧ u.cnt = (s.countDown l cause.cutRx).cnt ∧
      u = { s with net := u.net, cnt := u.cnt } := by
  have hdown : ∃ p : LPort, (s.modLport l (fun p => { p with
      up := false, localFault := p.localFault || cause.localFault, remoteFault := p.remoteFault || cause.remoteFault
      faultAt := if cause.localFault || cause.remoteFault then some s.now else p.faultAt
      amLock := p.amLock && !cause.lockLost, anDone := p.anDone && !cause.lockLost, ltDone := p.ltDone && !cause.lockLost }) = s.modLport l (fun _ => p)) ∧
      p.up = false ∧ p.rx = none ∧ p.rxRefused = false ∧ p.tx = none := by
    refine ⟨{ s.lport l with
      up := false, localFault := (s.lport l).localFault || cause.localFault, remoteFault := (s.lport l).remoteFault || cause.remoteFault
      faultAt := if cause.localFault || cause.remoteFault then some s.now else (s.lport l).faultAt
      amLock := (s.lport l).amLock && !cause.lockLost, anDone := (s.lport l).anDone && !cause.lockLost
      ltDone := (s.lport l).ltDone && !cause.lockLost }, rfl, rfl, hrx, hrefused, htx⟩
  obtain ⟨p, hmod, hpup, hprx, hpref, hptx⟩ := hdown
  have hlp : (s.modLport l (fun _ => p)).lport l = p := State.lport_modLport ..
  rw [logicalPortDown, if_neg (by simp [hprov]), if_pos hup, State.linkDown, if_neg (by simp [hup]), hmod]
  dsimp only
  rw [hlp, hprx]
  dsimp only
  have hcut : (cause.cutRx || (s.modLport l (fun _ => p)).net.inRx.1 == (s.modLport l (fun _ => p)).now &&
      (s.modLport l (fun _ => p)).net.inRx.2.contains l) = cause.cutRx := by
    have hne : ((s.modLport l (fun _ => p)).net.inRx.1 == (s.modLport l (fun _ => p)).now) = false := beq_eq_false_iff_ne.mpr hin
    rw [hne, Bool.false_and, Bool.or_false]
  have hlp' : (if cause.cutRx = true then (s.modLport l (fun _ => p)).bump (npCtr l 16) else s.modLport l (fun _ => p)).lport l = p := by
    split
    · exact hlp
    · exact hlp
  rw [hpref, if_neg Bool.false_ne_true, hcut, hlp', hptx]
  dsimp only
  have hothers : ∀ m, m ≠ l → (s.modLport l (fun _ => p)).lport m = s.lport m := fun m hm => State.lport_modLport_ne s (Ne.symm hm) _
  cases cause.cutRx
  all_goals
    refine ⟨_, _, rfl, ?_, ?_, fun m hm => ?_, rfl, rfl⟩
    · rw [State.lport_bump', State.lport_modLport]
      exact (congrArg LPort.up hlp).trans hpup
    · rw [State.lport_bump', State.lport_modLport]
    · rw [State.lport_bump', State.lport_modLport_ne _ (Ne.symm hm)]
      exact hothers m hm

/-- A port that is down tells the condition it is in. -/
theorem logicalPortDown_down {cause : DownCause} (hprov : provides s.gens.cur l = true) (hdown : (s.lport l).up = false) :
    logicalPortDown l cause s = s.modLport l (fun p => { p with
      localFault := cause.localFault, remoteFault := cause.remoteFault, amLock := !cause.lockLost
      anDone := bit (s.fld 4 (16 * (l / 4)) 1) 2 && !cause.lockLost, ltDone := bit (s.fld 4 (16 * (l / 4)) 1) 3 && !cause.lockLost
      faultAt := if cause.localFault || cause.remoteFault then some s.now else p.faultAt }) := by
  rw [logicalPortDown, if_neg (by simp [hprov]), if_neg (by simp [hdown])]

/-- A retraining whose ports are all up. -/
theorem retrainEnd_up {n t0 : Nat} (hn : n < 16) (hat : (lookD s.net.phys n {}).retrainAt = some t0)
    (hup : ∀ k < 4, provides s.gens.cur (4 * n + k) = true → (s.lport (4 * n + k)).up = true) :
    ∃ payload, retrainEnd n s = (s.modNet (fun x => { x with phys := put x.phys n { lookD s.net.phys n {} with retrainAt := none } })).event
      (yardSrc (n / 2) 6) payload := by
  have hall : ([0, 1, 2, 3].filter (fun k => provides s.gens.cur (4 * n + k))).filter (fun k => (s.lport (4 * n + k)).up) =
      [0, 1, 2, 3].filter (fun k => provides s.gens.cur (4 * n + k)) := by
    refine List.filter_eq_self.mpr fun k hk => ?_
    obtain ⟨hmem, hprov⟩ := List.mem_filter.mp hk
    exact hup k (by simp at hmem; omega) hprov
  unfold retrainEnd
  dsimp only
  rw [hat]
  dsimp only
  rw [hall, if_pos ⟨hn, Or.inl rfl⟩]
  exact ⟨_, rfl⟩

end Links

/-- Settles O29: a port rises after its faults, falls with its counts, and degrades and retrains as its settings say. -/
theorem linksRiseAndFall : Obligations.LinksRiseAndFall := by
  intro t l n s z hz hl
  subst hz
  refine ⟨fun hprov hdown hfault hlock hmode hloop => ?_, fun cause hprov hup hrx hrefused htx hin => ?_, fun cause hprov hdown => ?_,
    fun cw hprov hlim hcw hfec => ?_, fun hfec hlast => ?_, fun t0 hn hat hup => ?_⟩
  · have hend := logicalPortUp_eq (s := s.at t) hprov hdown hfault hlock hmode hloop
    refine ⟨_, congrArg Host.Outcome.next hend, ?_, fun m hm => ?_, ?_⟩
    · rw [State.lport_event, State.lport_modLport]
    · rw [State.lport_event, State.lport_modLport_ne _ (Ne.symm hm)]
      rfl
    · rw [State.event_frame]
      rfl
  · obtain ⟨u, payload, hend, hdown, hctl, hothers, hcnt, hframe⟩ := logicalPortDown_up (s := s.at t) (cause := cause) hprov hup hrx hrefused htx hin
    have hquiet : quietCounter (npCtr l 176) := quietCounter_npCtr hl (by decide) (by decide)
    have hquiet' : quietCounter (npCtr l 16) := quietCounter_npCtr hl (by decide) (by decide)
    have hne : npCtr l 16 ≠ npCtr l 176 := by
      unfold npCtr ctr
      omega
    have hcount : ∀ k, u.cntOf k = ((s.at t).countDown l cause.cutRx).cntOf k := fun k => by rw [State.cntOf, hcnt, State.cntOf]
    refine ⟨_, congrArg Host.Outcome.next hend, ?_, ?_, fun m hm => ?_, ?_, fun hcut => ?_, ?_⟩
    · rw [State.lport_event]
      exact hdown
    · rw [State.lport_event]
      exact hctl
    · rw [State.lport_event]
      exact hothers m hm
    · rw [State.cntOf_event _ _ _ _ hquiet, hcount, State.countDown, State.cntOf_bump]
      split
      · rw [State.cntOf_bump_ne _ hne]
        rfl
      · rfl
    · rw [State.cntOf_event _ _ _ _ hquiet', hcount, State.countDown, State.cntOf_bump_ne _ hne.symm, if_pos hcut, State.cntOf_bump]
      rfl
    · rw [State.event_frame, hframe]
  · refine ⟨_, congrArg Host.Outcome.next (logicalPortDown_down (s := s.at t) hprov hdown), ?_, ?_, ?_, ?_, fun m hm => ?_, rfl⟩
    · rw [State.lport_modLport]
      exact hdown
    · rw [State.lport_modLport]
    · rw [State.lport_modLport]
    · rw [State.lport_modLport]
    · rw [State.lport_modLport_ne _ (Ne.symm hm)]
      rfl
  · have hend : exec (.fecDegradedSet t l cw) s = .next (((s.at t).modLport l (fun p => { p with fecDegraded := true, fecLastBad := s.tick })).event
        (yardSrc (yardOf l) 3) (l + satU 32 cw * 2 ^ 32)) := congrArg Host.Outcome.next (if_pos ⟨hprov, hlim, hcw, hfec⟩)
    refine ⟨_, hend, ?_, ?_⟩
    · rw [State.lport_event, State.lport_modLport]
      rfl
    · rw [State.event_frame]
      rfl
  · exact congrArg Host.Outcome.next (if_pos ⟨hfec, hlast⟩)
  · obtain ⟨payload, hend⟩ := retrainEnd_up (s := s.at t) hn hat hup
    refine ⟨_, congrArg Host.Outcome.next hend, ?_, ?_⟩
    · rw [State.event_frame]
      exact lookD_put_same ..
    · rw [State.event_frame]
      rfl

end Sys2Proof.Machine
end

section
/-! PROOFS. Pauses, storms, pool levels and gate lists (05 R217-R225; 07 R322). -/
namespace Sys2Proof.Machine

theorem forEach_fix {α : Type} {f : α → State → State} {t : State} : ∀ {l : List α}, (∀ a ∈ l, f a t = t) → forEach l f t = t
  | [], _ => rfl
  | a :: l, h => by
    rw [forEach, List.foldl_cons, h a List.mem_cons_self]
    exact forEach_fix fun b hb => h b (List.mem_cons_of_mem a hb)

/-- A work that changes nothing but at one element does its work once. -/
theorem forEach_one {α : Type} [DecidableEq α] {f : α → State → State} {c : α} {s t : State} (hat : f c s = t) :
    ∀ {l : List α}, c ∈ l → (∀ a ∈ l, a ≠ c → f a s = s) → (∀ a ∈ l, f a t = t) → forEach l f s = t
  | a :: l, hmem, hpre, hpost => by
    have hrest : ∀ b ∈ l, f b t = t := fun b hb => hpost b (List.mem_cons_of_mem a hb)
    rw [forEach, List.foldl_cons]
    by_cases hac : a = c
    · rw [hac, hat]
      exact forEach_fix hrest
    · rw [hpre a List.mem_cons_self hac]
      exact forEach_one hat ((List.mem_cons.mp hmem).resolve_left (Ne.symm hac)) (fun b hb => hpre b (List.mem_cons_of_mem a hb)) hrest

section Pauses
variable {s : State} {l c since : Nat}

theorem le_foldl_max (l : List Nat) : ∀ n, n ≤ l.foldl max n := by
  induction l with
  | nil => exact Nat.le_refl
  | cons a l ih => exact fun n => (Nat.le_max_left n a).trans (ih _)

/-- A pause that has ended ends between its begin and now. -/
theorem State.pauseEnd_bounds (t : Option Tack) (h : since ≤ s.now) : since ≤ s.pauseEnd t l c since ∧ s.pauseEnd t l c since ≤ s.now :=
  ⟨le_min h (le_foldl_max _ _), min_le_left ..⟩

/-- Whether a class is paused is read off the timers of its port. -/
theorem State.paused_congr {t : State} (hnow : t.now = s.now) (hcur : t.gens.cur = s.gens.cur) (hpause : (t.lport l).pause = (s.lport l).pause)
    (d : Nat) : t.paused l d = s.paused l d := by
  unfold State.paused
  dsimp only
  rw [hnow, hcur, hpause]

theorem State.paused_pauseCount (e d : Nat) : (s.pauseCount l c since e).paused l d = s.paused l d := by
  have hnow : (s.pauseCount l c since e).now = s.now := s.addCnt_now ..
  have hgens : (s.pauseCount l c since e).gens = s.gens := s.addCnt_gens ..
  refine State.paused_congr hnow (congrArg Gens.cur hgens) ?_ d
  rw [State.pauseCount, State.lport_modLport, State.lport_addCnt']

theorem State.addCnt_frame (s : State) (k n : Nat) : s.addCnt k n = { s with cnt := (s.addCnt k n).cnt } := by
  unfold State.addCnt
  split <;> rfl

/-- The one pause of a port that has ended is accounted for once. -/
theorem State.pauseSettle_one (hc : c < 8) (hsince : (s.lport l).pausedSince = [(c, since)]) (hoff : ∀ d < 8, s.paused l d = false) :
    s.pauseSettle l = s.pauseCount l c since (s.pauseEnd s.gens.cur l c since) := by
  unfold State.pauseSettle
  refine forEach_one (c := c) ?_ (by simp; omega) (fun d hd hdc => ?_) (fun d hd => ?_)
  · dsimp only
    rw [hsince, look, if_pos rfl, hoff c hc]
    exact if_neg Bool.false_ne_true
  · dsimp only
    rw [hsince, look, if_neg (Ne.symm hdc), look, hoff d (by simp at hd; omega)]
    exact if_neg Bool.false_ne_true
  · dsimp only
    have hnone : look ((s.pauseCount l c since (s.pauseEnd s.gens.cur l c since)).lport l).pausedSince d = none := by
      rw [State.pauseCount, State.lport_modLport, State.lport_addCnt', hsince]
      simp [del]
    rw [hnone, State.paused_pauseCount, hoff d (by simp at hd; omega)]
    exact if_neg Bool.false_ne_true

/-- A class that stays paused too long is a storm once. -/
theorem pauseStorm_late (hlook : look (s.lport l).pausedSince c = some since) (hms : lpfld s.gens.cur l 60 2 ≠ 0) (hon : s.paused l c = true)
    (hlate : since + lpfld s.gens.cur l 60 2 * 1000 * us < s.now) (hsaid : (s.lport l).stormSaid.contains c = false) :
    pauseStorm l c s = ((s.modLport l (fun p => { p with stormSaid := c :: p.stormSaid })).bump (npCtr l 200)).event
      (yardSrc (yardOf l) 4) (l + c * 256) := by
  rw [pauseStorm]
  rw [hlook]
  exact if_pos ⟨hms, hon, hlate, hsaid⟩

end Pauses

/-! ### Pause frames of a pool (05 R221; 07 R322) -/

section Pool
variable {s : State} {k l : Nat}

theorem State.lport_modPool (s : State) (j m : Nat) (f : Pool → Pool) : (s.modPool j f).lport m = s.lport m := rfl

/-- The frame that tells a port of a pool's state. -/
def State.poolFrame (s : State) (k l : Nat) : Bytes := s.ctlFrame l (s.fld 8 (48 * k + 21) 1) (lpfld s.gens.cur l 30 2)

theorem State.sendCtl_lport (s : State) (k l : Nat) : ((s.sendCtl k l true).lport l).ctl = (s.lport l).ctl ++ [s.poolFrame k l] := by
  rw [State.sendCtl, State.lport_modPool, State.lport_modLport]
  rfl

theorem State.sendCtl_lport_ne (s : State) (k : Nat) {l m : Nat} (h : m ≠ l) (xoff : Bool) : (s.sendCtl k m xoff).lport l = s.lport l := by
  rw [State.sendCtl, State.lport_modPool, State.lport_modLport_ne _ h]

theorem State.sendCtl_pool (s : State) (k l : Nat) : (s.sendCtl k l true).pool k =
    { s.pool k with xoffAt := put (s.pool k).xoffAt l s.now } := by
  rw [State.sendCtl, State.pool_modPool]
  rfl

theorem State.sendCtl_netOnly (s : State) (k l : Nat) (xoff : Bool) : NetOnly s (s.sendCtl k l xoff) := rfl

/-- What the XOFFs of a pool do to a port, and to the pool. -/
theorem sendAll_xoff (k l : Nat) : ∀ (ports : List Nat) (s : State), ports.Nodup →
    NetOnly s (forEach ports (fun m s => s.sendCtl k m true) s) ∧
      ((forEach ports (fun m s => s.sendCtl k m true) s).pool k).pausing = (s.pool k).pausing ∧
      ((forEach ports (fun m s => s.sendCtl k m true) s).pool k).level = (s.pool k).level ∧
      (l ∈ ports → ((forEach ports (fun m s => s.sendCtl k m true) s).lport l).ctl = (s.lport l).ctl ++ [s.poolFrame k l]) ∧
      (l ∉ ports → (forEach ports (fun m s => s.sendCtl k m true) s).lport l = s.lport l)
  | [], s, _ => ⟨rfl, rfl, rfl, fun h => absurd h List.not_mem_nil, fun _ => rfl⟩
  | m :: ports, s, hnodup => by
    obtain ⟨hm, hports⟩ := List.nodup_cons.mp hnodup
    obtain ⟨hnet, hpausing, hlevel, hin, hout⟩ := sendAll_xoff k l ports (s.sendCtl k m true) hports
    rw [forEach, List.foldl_cons]
    refine ⟨(s.sendCtl_netOnly k m true).trans hnet, hpausing.trans ?_, hlevel.trans ?_, fun hl => ?_, fun hl => ?_⟩
    · rw [State.sendCtl_pool]
    · rw [State.sendCtl_pool]
    · by_cases hlm : l = m
      · subst hlm
        exact (congrArg LPort.ctl (hout hm)).trans (s.sendCtl_lport k l)
      · refine (hin ((List.mem_cons.mp hl).resolve_left hlm)).trans ?_
        rw [State.sendCtl_lport_ne s k (Ne.symm hlm)]
        rfl
    · obtain ⟨hlm, hl⟩ := not_or.mp (fun h => hl (List.mem_cons.mpr h))
      exact (hout hl).trans (s.sendCtl_lport_ne k (Ne.symm hlm) true)

/-- A pool that rises above its threshold. -/
theorem poolLevelCheck_rise (hk : k < 16) (hbit : bit (s.fld 8 (48 * k + 20) 1) 0 = true) (hquiet : (s.pool k).pausing = false)
    (hlevel : s.poolFld k 24 < (s.pool k).level) :
    poolLevelCheck k s = forEach (s.guarded k) (fun l s => s.sendCtl k l true) (s.modPool k (fun x => { x with pausing := true })) := by
  rw [poolLevelCheck]
  rw [if_neg (by omega), if_pos ⟨hbit, hquiet, hlevel⟩]

/-- A pool that stays above it, after half its time. -/
theorem xoffRepeat_due {t0 : Nat} (hlook : look (s.pool k).xoffAt l = some t0) (hon : (s.pool k).pausing = true)
    (hlevel : s.poolFld k 24 < (s.pool k).level) (hguard : (s.guarded k).contains l = true)
    (hdue : t0 + lpfld s.gens.cur l 30 2 * 32 * bytePs (modeOf s.gens.cur (l / 4)) ≤ s.now) : xoffRepeat k l s = s.sendCtl k l true := by
  rw [xoffRepeat]
  rw [hlook]
  exact if_pos ⟨hon, hlevel, hguard, hdue⟩

end Pool

/-- Settles O30: a pause ends with its account, a storm is said once, and a pool tells its guarded ports. -/
theorem pausesAreKept : Obligations.PausesAreKept := by
  intro t l c k s z hz hl
  subst hz
  refine ⟨fun since hc hsince hle hoff => ?_, fun since hlook hms hon hlate hsaid => ?_, fun hk hbit hquiet hlevel => ?_,
    fun t0 hlook hon hlevel hguard hdue => ?_⟩
  · have hend := State.pauseSettle_one (s := s.at t) hc hsince hoff
    obtain ⟨hlow, hhigh⟩ := State.pauseEnd_bounds (s := s.at t) (l := l) (c := c) (s.at t).gens.cur hle
    refine ⟨_, _, congrArg Host.Outcome.next hend, ?_, ?_, hlow, hhigh, fun hcnt => ?_, ?_⟩
    · rw [State.pauseCount, State.lport_modLport, State.lport_addCnt', State.lport_at', hsince]
      simp [del]
    · rw [State.pauseCount, State.lport_modLport]
      exact look_put_same ..
    · exact ((s.at t).cntOf_addCnt _ _ _ hcnt).trans (if_pos rfl)
    · rw [State.pauseCount, State.addCnt_frame]
      rfl
  · have hquiet : quietCounter (npCtr l 200) := quietCounter_npCtr hl (by decide) (by decide)
    refine ⟨_, congrArg Host.Outcome.next (pauseStorm_late (s := s.at t) hlook hms hon hlate hsaid), ?_, ?_⟩
    · rw [State.lport_event, State.lport_bump', State.lport_modLport]
      rfl
    · rw [State.cntOf_event _ _ _ _ hquiet, State.cntOf_bump]
      rfl
  · obtain ⟨hnet, hpausing, hlv, hin, hout⟩ := sendAll_xoff k l (s.guarded k) ((s.at t).modPool k (fun x => { x with pausing := true }))
      (List.nodup_range.filter _)
    refine ⟨_, congrArg Host.Outcome.next (poolLevelCheck_rise (s := s.at t) hk hbit hquiet hlevel), ?_, ?_, hin, hout, hnet⟩
    · refine hpausing.trans ?_
      rw [State.pool_modPool]
    · refine hlv.trans ?_
      rw [State.pool_modPool]
      rfl
  · refine ⟨_, congrArg Host.Outcome.next (xoffRepeat_due (s := s.at t) hlook hon hlevel hguard hdue), (s.at t).sendCtl_lport k l, ?_, rfl⟩
    rw [State.sendCtl_pool]
    exact look_put_same ..

/-! ### Gate lists (05 R222, R224) -/

section Gates
variable {s : State} {l : Nat} {g : GateList}

/-- On a port that is sending no frame the list gives the gates of the entry its time base is in. -/
theorem State.gateNow_idle (htx : (s.lport l).tx = none) (hg : (s.lport l).gcl = some g) (overrun : Bool) : s.gateNow l overrun =
    s.modLport l (fun p => { p with gates := (g.stateAt (s.tbNs g.tb)).2, gateIdx := (g.stateAt (s.tbNs g.tb)).1 }) := by
  rw [State.gateNow, hg]
  dsimp only
  rw [State.lport_modLport]
  dsimp only
  rw [htx]

theorem gateListStart_due (hg : (s.lport l).gclNext = some g) (hstart : g.start ≤ s.tbNs g.tb) : gateListStart l s =
    (((s.modLport l (fun p => { p with gcl := some g, gclNext := none, gclEpoch := p.gclEpoch + 1 })).gateNow l true).bump (npCtr l 192)).event
      (yardSrc (yardOf l) 5) l := by
  rw [gateListStart, hg]
  exact if_pos hstart

end Gates

/-- Settles O31: the running list gives the gates, and a committed one runs from its start. -/
theorem gateListsRun : Obligations.GateListsRun := by
  intro t l g s z hz hl htx
  subst hz
  refine ⟨fun hg => ?_, fun hg hstart => ?_⟩
  · exact congrArg Host.Outcome.next (State.gateNow_idle (s := s.at t) htx hg _)
  · have hquiet : quietCounter (npCtr l 192) := quietCounter_npCtr hl (by decide) (by decide)
    have hidle : (((s.at t).modLport l (fun p => { p with gcl := some g, gclNext := none, gclEpoch := p.gclEpoch + 1 })).lport l).tx = none := by
      rw [State.lport_modLport]
      exact htx
    have hrun : (((s.at t).modLport l (fun p => { p with gcl := some g, gclNext := none, gclEpoch := p.gclEpoch + 1 })).lport l).gcl = some g := by
      rw [State.lport_modLport]
    have hend := gateListStart_due (s := s.at t) hg hstart
    rw [State.gateNow_idle hidle hrun] at hend
    refine ⟨_, congrArg Host.Outcome.next hend, ?_, ?_, ?_, fun m hm => ?_, ?_, ?_⟩
    · rw [State.lport_event, State.lport_bump', State.lport_modLport]
      exact hrun
    · rw [State.lport_event, State.lport_bump', State.lport_modLport, State.lport_modLport]
    · rw [State.lport_event, State.lport_bump', State.lport_modLport]
      rfl
    · rw [State.lport_event, State.lport_bump', State.lport_modLport_ne _ (Ne.symm hm), State.lport_modLport_ne _ (Ne.symm hm)]
      rfl
    · rw [State.cntOf_event _ _ _ _ hquiet, State.cntOf_bump]
      rfl
    · rw [State.event_frame]
      rfl

end Sys2Proof.Machine
end

section
/-! PROOFS. The timers of forwarding (06 R264, R267, R276-R280). -/
namespace Sys2Proof.Machine

/-- A stream with the same requests and gaps. -/
def Stream.SameAsked (x y : Stream) : Prop := y.pliAt = x.pliAt ∧ y.gaps = x.gaps

/-- Every stream is there, with the requests and gaps it had. -/
def SameAsked (s t : State) : Prop := ∀ k x, look s.objs.streams k = some x → ∃ y, look t.objs.streams k = some y ∧ x.SameAsked y

theorem SameAsked.of_streams {s t : State} (h : t.objs.streams = s.objs.streams) : SameAsked s t := fun _ x hx => ⟨x, h ▸ hx, rfl, rfl⟩

theorem NetFrame.sameAsked {s t : State} (h : NetFrame s t) : SameAsked s t := SameAsked.of_streams (by rw [h])

theorem SameAsked.trans {s t u : State} (a : SameAsked s t) (b : SameAsked t u) : SameAsked s u := fun k x hx => by
  obtain ⟨y, hy, hxy⟩ := a k x hx
  obtain ⟨w, hw, hyw⟩ := b k y hy
  exact ⟨w, hw, hyw.1.trans hxy.1, hyw.2.trans hxy.2⟩

theorem SameAsked.modStream (s : State) (i : Nat) {f : Stream → Stream} (hf : ∀ x : Stream, x.SameAsked (f x)) : SameAsked s (s.modStream i f) := by
  intro k x hx
  refine ⟨if i = k then f x else x, ?_, ?_⟩
  · refine (look_adj s.objs.streams i k f).trans ?_
    split
    · next h => rw [h, hx, Option.map_some]
    · exact hx
  · split
    · exact hf x
    · exact ⟨rfl, rfl⟩

section Rtcp
variable (s : State) (leg : Nat)

theorem State.exhaust_sameAsked (i : Nat) : SameAsked s (s.exhaust i) := by
  unfold State.exhaust
  split
  · split
    · exact SameAsked.of_streams rfl
    · exact (SameAsked.modStream s i (f := fun z => { z with exhausted := true }) (fun _ => ⟨rfl, rfl⟩)).trans (NetFrame.event ..).sameAsked
  · exact SameAsked.of_streams rfl

theorem State.sendRtcp_sameAsked (b : Bytes) : SameAsked s (s.sendRtcp leg b) := by
  unfold State.sendRtcp
  split
  · exact SameAsked.of_streams rfl
  · split
    · exact (NetFrame.enqueue ..).sameAsked
    · split
      · exact SameAsked.of_streams rfl
      · split
        · exact State.exhaust_sameAsked s _
        · exact (SameAsked.modStream s _ (f := fun z => { z with srtcpIndex := z.srtcpIndex + 1 }) (fun _ => ⟨rfl, rfl⟩)).trans (NetFrame.enqueue ..).sameAsked

/-- What is asked of a stream stands while a counted packet of RTCP goes out. -/
theorem State.countRtcp_asked {t : State} {i k leg : Nat} {b : Bytes} {P : Stream → Prop} (hP : ∀ x y : Stream, x.SameAsked y → P x → P y)
    (h : ∃ x, look t.objs.streams i = some x ∧ P x) : ∃ y, look ((t.bump k).sendRtcp leg b).objs.streams i = some y ∧ P y := by
  obtain ⟨x, hx, hxP⟩ := h
  obtain ⟨y, hy, hxy⟩ := ((NetFrame.bump t k).sameAsked.trans (State.sendRtcp_sameAsked _ leg b)) i x hx
  exact ⟨y, hy, hP x y hxy hxP⟩

/-- The SSRC under which a leg's RTCP goes out takes at most a free value. -/
theorem State.rtcpSsrc_free : ∃ n, (s.rtcpSsrc leg).2 = { s with free := n } := by
  unfold State.rtcpSsrc
  split
  · exact ⟨s.free, rfl⟩
  · exact ⟨s.free + 1, rfl⟩

/-- A key request notes its instant on the stream it is for. -/
theorem State.requestKey_pliAt {i : Nat} {x : Stream} (hx : look s.objs.streams i = some x) (hpli : x.pliAt = none) :
    ∃ y, look (s.requestKey i).objs.streams i = some y ∧ y.pliAt = some s.now := by
  unfold State.requestKey
  rw [hx]
  dsimp only
  rw [hpli]
  dsimp only
  rw [if_neg Bool.false_ne_true]
  obtain ⟨n, hfree⟩ := s.rtcpSsrc_free x.leg
  rw [hfree]
  generalize ((look s.objs.legs x.leg).map (fun l => l.lastFir == some x.ssrc)).getD false = fir
  have hmod := look_adj_same s.objs.streams i (fun z => { z with pliAt := some s.now, firSeq := if fir then (z.firSeq + 1) % 256 else z.firSeq })
  rw [hx, Option.map_some] at hmod
  have hP : ∀ x y : Stream, x.SameAsked y → x.pliAt = some s.now → y.pliAt = some s.now := fun _ _ hxy h => hxy.1.trans h
  cases fir
  · exact State.countRtcp_asked hP ⟨_, hmod, rfl⟩
  · exact State.countRtcp_asked hP ⟨_, hmod, rfl⟩

end Rtcp

section Timers
variable {s : State} {leg i : Nat} {l : Leg} {x : Stream}

/-- A switch point that does not come: the wait ends with a request to the source. -/
theorem keyWaitExpiry_pliAt {w : Nat × Nat × Bool} {t0 : Nat} {r : Room} {k : Nat} {src : Stream} (hx : look s.objs.streams i = some x) (hout : x.outKind = 0)
    (hwant : x.want = some w) (hsince : x.wantSince = some t0) (hroom : look s.objs.rooms x.room = some r)
    (hsrc : s.streamAt x.source = some (k, src)) (hlayer : src.layering ≠ 2) (hpli : src.pliAt = none)
    (hdue : t0 + r.tf 10 2 * 1000 * us ≤ s.now) :
    ∃ y, look (keyWaitExpiry i s).objs.streams k = some y ∧ y.pliAt = some s.now := by
  have hk : look s.objs.streams k = some src := by
    obtain ⟨y, hy, hmk⟩ := Option.bind_eq_some_iff.mp hsrc
    split at hmk
    · obtain ⟨rfl, rfl⟩ := Prod.mk.inj (Option.some.inj hmk)
      exact hy
    · exact absurd hmk (by simp)
  rw [keyWaitExpiry, hx]
  dsimp only
  rw [if_neg (by omega), hwant, hsince, hroom, hsrc]
  dsimp only
  rw [if_neg (Nat.not_lt.mpr hdue), if_neg hlayer]
  obtain ⟨y, hy, hpliY, -⟩ := SameAsked.modStream s i (f := fun z => { z with wantSince := none }) (fun _ => ⟨rfl, rfl⟩) k src hk
  exact State.requestKey_pliAt _ hy (hpliY.trans hpli)

/-- A gap that has stood for its time is asked for, and is then in its first try. -/
theorem nackSend_gaps {g : Gap} (hx : look s.objs.streams i = some x) (hin : x.egress = false) (hgaps : x.gaps = [g]) (htries : g.tries = 0)
    (hlimit : 0 < s.fld 6 24 1) (hdue : g.seen + s.fld 6 22 2 * 1000 * us ≤ s.now) :
    ∃ y, look (nackSend i s).objs.streams i = some y ∧ y.gaps = [{ g with tries := 1, last := s.now }] := by
  unfold nackSend
  rw [hx]
  dsimp -zeta only
  rw [if_neg (by simp [hin])]
  extract_lets rtt wait due nums s' words
  have hg : due g = true := by
    unfold due
    rw [if_pos htries, htries, decide_eq_true hlimit, decide_eq_true hdue]
    rfl
  have hnums : nums = [g.ext] := by
    unfold nums
    rw [hgaps, List.filter_cons_of_pos hg]
    rfl
  clear_value due nums
  rw [if_neg (by simp [hnums])]
  obtain ⟨n, hfree⟩ := s.rtcpSsrc_free x.leg
  have hmod := look_adj_same s.objs.streams i (fun z => { z with
    gaps := z.gaps.map (fun g => if due g then { g with tries := g.tries + 1, last := s.now } else g) })
  rw [hx, Option.map_some] at hmod
  have hmod' : ∃ y, look s'.objs.streams i = some y ∧ y.gaps = [{ g with tries := 1, last := s.now }] := by
    unfold s'
    rw [hfree]
    refine ⟨_, hmod, ?_⟩
    rw [hgaps, List.map_cons, if_pos hg, htries]
    rfl
  exact State.countRtcp_asked (fun _ _ hxy h => hxy.2.trans h) hmod'

/-- The report of a leg of one egress stream. -/
theorem rtcpReport_egress (hl : look s.objs.legs leg = some l) (hone : s.streamsOf leg = [(i, x)]) (hdue : s.rtcpDue l ≤ s.now) (hout : x.egress = true) :
    ∃ k, k ≤ 65536 ∧ rtcpReport leg s = (({ s with free := s.free + 1 } : State).modLeg leg (fun l => { l with rtcpAt := s.now, rtcpFrac := k })).sendRtcp leg
      (rtcpHead 0 200 6 ++ beBytes 4 x.ssrc ++ s.ntp ++ beBytes 4 (x.lastOutTs % 2 ^ 32) ++ beBytes 4 (x.packets % 2 ^ 32) ++
        beBytes 4 (x.bytes % 2 ^ 32)) := by
  have hlist : ∀ k, (({ s with free := s.free + 1 } : State).modLeg leg (fun l => { l with rtcpAt := s.now, rtcpFrac := k })).streamsOf leg = [(i, x)] :=
    fun _ => hone
  refine ⟨Config.freeNat s.free % 65537, by omega, ?_⟩
  rw [rtcpReport, hl]
  dsimp only [State.draw]
  rw [if_neg (Nat.not_lt.mpr hdue), hlist]
  exact if_pos hout

/-- The report of a leg of one ingress stream. -/
theorem rtcpReport_ingress (hl : look s.objs.legs leg = some l) (hone : s.streamsOf leg = [(i, x)]) (hdue : s.rtcpDue l ≤ s.now) (hin : x.egress = false) :
    ∃ k own, k ≤ 65536 ∧ rtcpReport leg s =
      ((({ s with free := s.free + 2 } : State).modLeg leg (fun l => { l with rtcpAt := s.now, rtcpFrac := k })).modStream i
        Stream.nextReport).sendRtcp leg (rtcpHead 1 201 7 ++ beBytes 4 own ++ x.reportBlock s.now) := by
  have hlist : ∀ k, (({ s with free := s.free + 1 } : State).modLeg leg (fun l => { l with rtcpAt := s.now, rtcpFrac := k })).streamsOf leg = [(i, x)] :=
    fun _ => hone
  have hssrc : ∀ t : State, t.streamsOf leg = [(i, x)] → t.rtcpSsrc leg = t.draw (2 ^ 32) := fun t ht => by
    rw [State.rtcpSsrc, ht, List.find?_cons_of_neg (by simp [hin])]
    rfl
  refine ⟨Config.freeNat s.free % 65537, Config.freeNat (s.free + 1) % 2 ^ 32, by omega, ?_⟩
  rw [rtcpReport, hl]
  dsimp only [State.draw]
  rw [if_neg (Nat.not_lt.mpr hdue), hlist]
  refine (if_neg (by simp [hin])).trans ?_
  rw [hssrc _ (hlist _)]
  rfl

/-- No report before it is due. -/
theorem rtcpReport_early (hl : look s.objs.legs leg = some l) (hearly : s.now < s.rtcpDue l) : rtcpReport leg s = s := by
  rw [rtcpReport, hl]
  exact if_pos hearly

section Feedback
variable (hl : look s.objs.legs leg = some l) (hone : s.streamsOf leg = [(i, x)]) (hin : x.egress = false)
  (hdue : l.fbAt + s.fld 6 30 2 * 1000 * us ≤ s.now)
include hl hone hin hdue

/-- The feedback of a leg of one ingress stream is of its FB_MODE. -/
theorem feedbackSend_one (hmode : l.fbMode < 2) : ∃ own, feedbackSend leg s =
    (if l.fbMode = 0 then
      (((({ s with free := s.free + 1 } : State).modLeg leg (fun l => { l with fbAt := s.now })).modStream i Stream.fbDone).sendRtcp leg
        (rtcpHead 11 205 ((beBytes 4 own ++ x.ccBlock s.now ++ beBytes 4 (midNtp s.ntp)).length / 4) ++
          (beBytes 4 own ++ x.ccBlock s.now ++ beBytes 4 (midNtp s.ntp))))
     else
      (((({ s with free := s.free + 1 } : State).modLeg leg (fun l => { l with fbAt := s.now })).modLeg leg Leg.twDone).sendRtcp leg
        (rtcpHead 15 205 ((beBytes 4 own ++ beBytes 4 x.ssrc ++ l.twFeedback).length / 4) ++ (beBytes 4 own ++ beBytes 4 x.ssrc ++ l.twFeedback)))) := by
  have hssrc : s.rtcpSsrc leg = s.draw (2 ^ 32) := by
    rw [State.rtcpSsrc, hone, List.find?_cons_of_neg (by simp [hin])]
    rfl
  have hins : ((({ s with free := s.free + 1 } : State).modLeg leg (fun l => { l with fbAt := s.now })).streamsOf leg).filter (fun kv => !kv.2.egress) =
      [(i, x)] := by
    refine (congrArg (List.filter fun kv => !kv.2.egress) hone).trans ?_
    rw [List.filter_cons_of_pos (by simp [hin])]
    rfl
  refine ⟨Config.freeNat s.free % 2 ^ 32, ?_⟩
  rw [feedbackSend, hl]
  dsimp only
  rw [if_neg (not_or.mpr ⟨by omega, Nat.not_lt.mpr hdue⟩), hssrc]
  dsimp only [State.draw]
  rw [hins, List.flatMap_singleton]
  rfl

end Feedback

theorem estimateTimeout_late {t0 : Nat} (hl : look s.objs.legs leg = some l) (hlast : l.lastReport = some t0) (hlate : t0 + 1000000 * us ≤ s.now)
    (hmode : l.fbMode ≠ 2) (hpin : l.pinRate = 0) :
    estimateTimeout leg s = s.modLeg leg (fun l => { l with est := s.fld 6 8 4, estFrac := 0, lastReport := none, estState := 2 }) := by
  rw [estimateTimeout, hl]
  dsimp only
  rw [hlast]
  exact if_pos ⟨hlate, hmode, hpin⟩

theorem estimateTimeout_never (hl : look s.objs.legs leg = some l) (hlast : l.lastReport = none) (hmode : l.fbMode ≠ 2) (hpin : l.pinRate = 0) :
    estimateTimeout leg s = s.modLeg leg (fun l => { l with est := s.fld 6 8 4, estFrac := 0 }) := by
  rw [estimateTimeout, hl]
  dsimp only
  rw [hlast]
  exact if_pos ⟨hmode, hpin⟩

end Timers

/-- Settles O32: each timer of forwarding does its work when it is due. -/
theorem forwardingTimersAct : Obligations.ForwardingTimersAct := by
  intro t leg i l x s z hz hl
  subst hz
  refine ⟨fun t0 hlast hlate hmode hpin => ?_, fun hlast hmode hpin => ?_, fun w t0 r k src hx hout hwant hsince hroom hsrc hlayer hpli hdue => ?_,
    fun g hx hin hgaps htries hlimit hdue => ?_, fun hearly => ?_, fun hone hdue => ⟨fun hout => ?_, fun hin => ?_⟩,
    fun hone hin hdue => ⟨fun hmode => ?_, fun hmode => ?_⟩, fun hlevel hunder => ?_⟩
  · exact congrArg Host.Outcome.next (estimateTimeout_late (s := s.at t) hl hlast hlate hmode hpin)
  · exact congrArg Host.Outcome.next (estimateTimeout_never (s := s.at t) hl hlast hmode hpin)
  · obtain ⟨y, hy, hyp⟩ := keyWaitExpiry_pliAt (s := s.at t) hx hout hwant hsince hroom hsrc hlayer hpli hdue
    exact ⟨_, y, rfl, hy, hyp⟩
  · obtain ⟨y, hy, hyg⟩ := nackSend_gaps (s := s.at t) hx hin hgaps htries hlimit hdue
    exact ⟨_, y, rfl, hy, hyg⟩
  · exact congrArg Host.Outcome.next (rtcpReport_early (s := s.at t) hl hearly)
  · obtain ⟨k, hk, hend⟩ := rtcpReport_egress (s := s.at t) hl hone hdue hout
    exact ⟨k, hk, congrArg Host.Outcome.next hend⟩
  · obtain ⟨k, own, hk, hend⟩ := rtcpReport_ingress (s := s.at t) hl hone hdue hin
    exact ⟨k, own, hk, congrArg Host.Outcome.next hend⟩
  · obtain ⟨own, hend⟩ := feedbackSend_one (s := s.at t) hl hone hin hdue (by omega)
    rw [if_pos hmode] at hend
    exact ⟨own, _, rfl, congrArg Host.Outcome.next hend⟩
  · obtain ⟨own, hend⟩ := feedbackSend_one (s := s.at t) hl hone hin hdue (by omega)
    rw [if_neg (by omega)] at hend
    exact ⟨own, _, rfl, congrArg Host.Outcome.next hend⟩
  · have hend : exec (.historyShedRestore t) s = .next (((s.at t).modObjs (fun o => { o with
        shedLevel := s.objs.shedLevel - 1, shedUnder := 0 })).event 42 (s.objs.shedLevel - 1)) :=
      congrArg Host.Outcome.next (if_pos ⟨hlevel, hunder⟩)
    refine ⟨_, hend, ?_, ?_⟩
    · rw [State.event_frame]
      rfl
    · rw [State.event_frame]
      rfl

end Sys2Proof.Machine
end

section
/-! PROOFS. Operations: what their work sees and leaves while nothing was taken away, and their dispatch (01 R41-R47; 03 R140). -/
namespace Sys2Proof.Machine

/-! ### The work of an operation while no media unit was taken away -/

section Seen

theorem presentBack_nil {α : Type} (f : Past → Tab α) (old new : Tab α) : presentBack f [] old new = new := by
  simp [presentBack, keepIn]

theorem Media.seen_nil {m : Media} (h : m.past = []) (ready : Nat) : m.seen ready = m := by
  simp only [Media.seen, Media.pastSince, h, seeTab, List.filter_nil, List.foldl_nil]
  rw [← h]

theorem Media.backTo_nil {m n : Media} (hm : m.past = []) (hn : n.past = []) (ready : Nat) : m.backTo n ready = n := by
  unfold Media.backTo Media.pastSince
  rw [hm]
  simp only [List.filter_nil, presentBack_nil, List.any_nil, Bool.and_false, Bool.not_false, List.filter_true, pastBack]
  rw [← hn]

variable {s : State} {o : Op}

theorem State.opSeen_media (h : s.media.past = []) : (s.opSeen o).media = s.media := by
  unfold State.opSeen
  split
  · rfl
  · exact Media.seen_nil h _

theorem NetFrame.discardAll (s : State) (fs : List QFrame) (key yard : Nat) : NetFrame s (s.discardAll fs key yard) :=
  NetFrame.forEach (fun _ _ => (NetFrame.release ..).trans (NetFrame.dropQ ..)) fs s

theorem State.freeInputs_media (s : State) (before : List Op) : (s.freeInputs before).media = s.media := by
  refine (NetFrame.forEach (fun o s => ?_) _ s).media
  dsimp only
  have hcells : NetFrame s (if o.cells = 0 then s else s.poolSub 2 o.cells) := NetFrame.ite (NetFrame.refl s) (NetFrame.poolSub ..)
  exact NetFrame.ite hcells ((hcells.trans ((NetFrame.modNet ..).trans (NetFrame.addCnt ..))).trans (NetFrame.spillMark _))

/-- What the work of an operation leaves in the media units stands, while none was taken away. -/
theorem State.underOp_media {work : State → State} (hpast : s.media.past = []) (hpast' : (work (s.opSeen o)).media.past = []) :
    (s.underOp o work).media = (work (s.opSeen o)).media := by
  unfold State.underOp
  split
  · next hview => rw [State.opSeen, hview]
  · extract_lets t gone t' waiting
    have ht : NetFrame t t' := NetFrame.forEach (fun _ _ => NetFrame.ite (NetFrame.refl _) ((NetFrame.discardAll ..).trans (NetFrame.setLegq ..))) gone t
    clear_value t' waiting
    refine (NetFrame.forEach (fun _ _ => NetFrame.ite (NetFrame.refl _) (NetFrame.requeue ..)) _ _).media.trans ?_
    refine (State.freeInputs_media _ _).trans ((Media.backTo_nil hpast ?_ _).trans ht.media)
    rw [ht.media]
    exact hpast'

end Seen

/-! ### The end of an operation -/

section Ends
variable (s : State)

/-- The operations left when those that pass a test end: one whose last input has ended is ready from now on. -/
def Media.leftOps (m : Media) (now : Nat) (test : Op → Bool) : List Op :=
  (m.ops.filter (fun o => !test o)).map (fun o =>
    if m.blocked o && !({ m with ops := m.ops.filter (fun o => !test o), noSlot := [] } : Media).blocked o then { o with readyAt := now } else o)

/-- While no operation waits for a slot, the operations that pass a test leave theirs. -/
theorem State.dropOps_quiet (hno : s.media.noSlot = []) (test : Op → Bool) :
    s.dropOps test = s.modMedia (fun m => { m with ops := m.leftOps s.now test }) := by
  have hmod : ∀ m : Media, m.noSlot = [] → (let (a, b) := takeSlots s.now (m.ops.filter (fun o => !test o)) (m.noSlot.filter (fun o => !test o))
      let n := { m with ops := a, noSlot := b }
      { n with ops := a.map (fun o => if m.blocked o && !n.blocked o then { o with readyAt := s.now } else o) }) =
      { m with ops := m.leftOps s.now test } := fun m hm => by
    rw [hm, List.filter_nil, takeSlots]
    rfl
  unfold State.dropOps
  rw [hno]
  exact congrArg (fun m => { s with media := m }) (hmod s.media hno)

/-- What is left had a slot, and did not pass the test. -/
theorem Media.of_mem_leftOps {m : Media} {now : Nat} {test : Op → Bool} {x : Op} (h : x ∈ m.leftOps now test) :
    ∃ y ∈ m.ops, test y = false ∧ x.id = y.id ∧ x.kind = y.kind := by
  obtain ⟨y, hy, rfl⟩ := List.mem_map.mp h
  obtain ⟨hmem, htest⟩ := List.mem_filter.mp hy
  refine ⟨y, hmem, by simpa using htest, ?_⟩
  split <;> exact ⟨rfl, rfl⟩

/-- The charge of an operation changes the counters and the busy cycles of its stall. -/
theorem State.charge_frame (o : Op) (n : Nat) : ∃ busy, s.charge_ o n = { s with
    cnt := (s.charge_ o n).cnt, media := { s.media with stallBusy := busy } } := by
  unfold State.charge_
  dsimp only
  split
  · exact ⟨_, by rw [State.addCnt_frame]; rfl⟩
  · exact ⟨s.media.stallBusy, by rw [State.addCnt_frame]⟩

/-- An operation that ends leaves its slot, and the others theirs as they were. -/
theorem State.endOp_frame (o : Op) (n : Nat) (hno : s.media.noSlot = []) : ∃ busy, s.endOp o n = { s with
    cnt := (s.endOp o n).cnt, media := { s.media with stallBusy := busy, ops := s.media.leftOps s.now (fun x => x.id == o.id) } } := by
  obtain ⟨busy, h⟩ := s.charge_frame o (n - o.charged)
  refine ⟨busy, ?_⟩
  have hno' : (s.charge_ o (n - o.charged)).media.noSlot = [] := by
    rw [h]
    exact hno
  rw [State.endOp, State.dropOps_quiet _ hno', h]
  rfl

end Ends
/-! ### Dispatch, marking and yielding (01 R41-R44) -/

section Dispatch
variable {s : State} {y cls : Nat} {o : Op}

/-- An operation that neither mixes nor runs a kernel starts on its unit. -/
theorem State.dispatch_plain (u : Nat) (hmix : ∀ room block, o.kind ≠ .mix room block) (hkernel : ∀ i b k n, o.kind ≠ .kernel i b k n) :
    ∃ targets, s.dispatch o u = { s with
      cnt := (s.dispatch o u).cnt
      media := { s.media with targets, ops := s.media.ops.map (fun x => if x.id = o.id then
        { x with unit := some u, startAt := s.now, startClk := s.clkRead, dispatched := true } else x) } } := by
  have hcount : ∀ t : State, (if o.dispatched = true then t else t.bump (ostCtr o.yard o.cls 0)) =
      { t with cnt := (if o.dispatched = true then t else t.bump (ostCtr o.yard o.cls 0)).cnt } := fun t => by
    split <;> rfl
  unfold State.dispatch
  dsimp only
  rw [hcount]
  split
  · split
    · exact ⟨_, rfl⟩
    · exact ⟨_, rfl⟩
  · next hkind => exact absurd hkind (hmix _ _)
  · next hkind => exact absurd hkind (hkernel _ _ _ _)
  · exact ⟨_, rfl⟩

/-- An idle unit takes the first ready operation. -/
theorem operationDispatch_idle {u : Nat} {us : List Nat} {rest : List Op} (hy : y < 8) (hcls : cls < 4) (hhold : s.power.hold = none)
    (hmedia : s.mediaOn = true) (hready : s.readyList y cls = o :: rest) (hrun : s.runningOps y cls = []) (hunits : s.unitsOf y cls = u :: us) :
    operationDispatch y cls s = s.dispatch o u := by
  rw [operationDispatch, if_neg (by simp [hhold, hmedia]; omega)]
  dsimp only
  rw [hready, hrun, hunits, List.find?_cons_of_pos rfl]

theorem mem_of_victim {running : List Op} {prio : Nat} {v : Op} (h : victim running prio = some v) : v ∈ running := by
  have hfold : ∀ (l : List Op) (m : Option Op), (∀ a, m = some a → a ∈ running) → (∀ a ∈ l, a ∈ running) →
      ∀ a, l.foldl (fun (m : Option Op) o => match m with
        | none => some o
        | some b => if o.yieldsBefore b then some o else some b) m = some a → a ∈ running := by
    intro l
    induction l with
    | nil => exact fun m hm _ a ha => hm a ha
    | cons b l ih =>
      intro m hm hl a ha
      refine ih _ (fun c hc => ?_) (fun c hc => hl c (List.mem_cons_of_mem b hc)) a ha
      have hb : b ∈ running := hl b List.mem_cons_self
      cases m with
      | none => exact Option.some.inj hc ▸ hb
      | some d =>
        dsimp only at hc
        split at hc
        · exact Option.some.inj hc ▸ hb
        · exact hm c hc
  exact hfold _ none (fun _ h => by simp at h) (fun a ha => (List.mem_filter.mp ha).1) v h

/-- With every unit of a stall class busy the operation of lowest priority gives way. -/
theorem operationDispatch_busy {v : Op} {rest : List Op} (hy : y < 8) (hhold : s.power.hold = none) (hmedia : s.mediaOn = true)
    (hready : s.readyList y 0 = o :: rest) (hmarked : (s.runningOps y 0).all (fun x => !x.marked) = true)
    (hbusy : ∀ u ∈ s.unitsOf y 0, ∃ x ∈ s.runningOps y 0, x.unit = some u) (hvictim : victim (s.runningOps y 0) o.prio = some v) :
    operationDispatch y 0 s = s.modOp v.id (fun x => { x with marked := true }) := by
  have hnone : (s.unitsOf y 0).find? (fun u => !(s.runningOps y 0).any (fun o => o.unit == some u)) = none := by
    refine List.find?_eq_none.mpr fun u hu => ?_
    obtain ⟨x, hx, hxu⟩ := hbusy u hu
    simpa using ⟨x, hx, hxu⟩
  have hzero : (s.runningOps y 0).filter (·.marked) = [] :=
    List.filter_eq_nil_iff.mpr fun x hx => by simpa using List.all_eq_true.mp hmarked x hx
  have hcls : v.cls = 0 := by
    have h := (List.mem_filter.mp (mem_of_victim hvictim)).2
    simp only [Bool.and_eq_true, beq_iff_eq] at h
    exact h.1.2
  rw [operationDispatch, if_neg (by simp [hhold, hmedia]; omega)]
  dsimp only
  rw [hnone, hready, hzero]
  rw [if_neg (by decide), List.length_nil, List.drop_zero]
  dsimp only
  rw [hvictim]
  exact if_neg (by omega)

/-- An operation that yields keeps its place, and is charged what it has used. -/
theorem State.yieldOp_frame (s : State) (o : Op) (busy moved : Nat) : ∃ stall, s.yieldOp o busy moved = { s with
    cnt := (s.yieldOp o busy moved).cnt
    media := { s.media with stallBusy := stall, ops := s.media.ops.map (fun x => if x.id = o.id then
      { x with unit := none, marked := false, charged := x.charged + s.cyclesOf o moved } else x) } } := by
  obtain ⟨stall, h⟩ := s.charge_frame o (s.cyclesOf o moved)
  refine ⟨stall, ?_⟩
  unfold State.yieldOp
  dsimp only
  rw [h, State.addCnt_frame]
  rfl

/-- A stall gives up the operation that is marked on it. -/
theorem stallYield_of_find {stall moved : Nat}
    (hfind : s.media.ops.find? (fun x => x.cls == 0 && x.yard == stall / 6 && x.unit == some (stall % 6) && x.marked) = some o) :
    ∃ busy cnt, stallYield stall moved s = { s with
      cnt, media := { s.media with stallBusy := busy, ops := s.media.ops.map (fun x => if x.id = o.id then
        { x with unit := none, marked := false, charged := x.charged + s.cyclesOf o moved } else x) } } := by
  unfold stallYield
  rw [hfind]
  dsimp only
  split
  · obtain ⟨busy, h⟩ := (s.bump (enCtr stall 72)).yieldOp_frame o (enCtr stall 64) moved
    exact ⟨busy, _, h⟩
  · obtain ⟨busy, h⟩ := (s.bump (stCtr stall 152)).yieldOp_frame o (stCtr stall 144) moved
    exact ⟨busy, _, h⟩

end Dispatch
/-! ### The watchdog (01 R47; 08 R354) -/

section Watchdog
variable {s : State} {o : Op} {k n : Nat} {tg : Target} {p : Picture}

theorem Target.pic_num (h : tg.pic n = some p) : p.num = n := by simpa using List.find?_some h

/-- A picture after an update of its target that keeps its number. -/
theorem State.pic_modPic {f : Picture → Picture} (htarget : s.target k = some tg) (hpic : tg.pic n = some p) (hnum : ∀ q, (f q).num = q.num) :
    ((s.modPic k n f).target k).bind (fun g => g.pic n) = some (f p) := by
  have hlook : (s.modPic k n f).target k = some { tg with pics := tg.pics.map (fun p => if p.num = n then f p else p) } := by
    refine (look_adj_same s.media.targets k _).trans ?_
    rw [show look s.media.targets k = some tg from htarget]
    rfl
  have hfind : ∀ q : Picture, ((fun p : Picture => p.num == n) ∘ fun p => if p.num = n then f p else p) q = (q.num == n) := fun q => by
    by_cases h : q.num = n
    · simp [h, hnum]
    · simp [h]
  rw [hlook, Option.bind_some, Target.pic, List.find?_map, funext hfind]
  rw [Target.pic] at hpic
  rw [hpic, Option.map_some, if_pos (Target.pic_num hpic)]

/-- A share that ends before the others of its picture. -/
theorem State.shareDone_more {again : Bool} {made : Recon} {f : Picture → Picture} (htarget : s.target k = some tg) (hpic : tg.pic n = some p)
    (hnum : ∀ q, (f q).num = q.num) (hleft : 2 ≤ p.left) : s.shareDone k n again made f =
      s.modPic k n (fun p => { f p with left := p.left - 1, work := reconOver made (tg.lastRef n) (p.info.hdr.depth == 10) p.work }) := by
  have hpic' := State.pic_modPic htarget hpic
    (f := fun p => { f p with left := p.left - 1, work := reconOver made (tg.lastRef n) (p.info.hdr.depth == 10) p.work }) hnum
  unfold State.shareDone
  rw [htarget]
  dsimp only [Option.bind_some]
  rw [hpic']
  exact if_neg (by dsimp only; omega)

/-- What the watchdog leaves of a share of a picture. -/
def Picture.overran (p : Picture) (tg : Target) (n : Nat) (made : Recon) : Picture :=
  { p with left := p.left - 1, overrun := true, work := reconOver made (tg.lastRef n) (p.info.hdr.depth == 10) p.work }

/-- The work of the watchdog on a share of a picture that has others left. -/
theorem State.decodeOverrun_more {again : Bool} {made : Recon} (hno : s.media.noSlot = []) (htarget : s.target k = some tg)
    (hpic : tg.pic n = some p) (hleft : 2 ≤ p.left) : ∃ u : State,
      ((s.bump (ostCtr o.yard o.cls 16)).endOp o o.budget).decodeOverrun o k n again made = u.modPic k n (fun p => p.overran tg n made) ∧
        u = { s with cnt := u.cnt, media := u.media } ∧ u.media.targets = s.media.targets ∧ u.media.past = s.media.past ∧ u.media.noSlot = [] ∧
        ∀ x ∈ u.media.ops, x.id ≠ o.id := by
  obtain ⟨busy, hend⟩ := (s.bump (ostCtr o.yard o.cls 16)).endOp_frame o o.budget hno
  have hshare : ∀ t : State, t.media.targets = s.media.targets →
      t.shareDone k n again made (fun p => { p with overrun := true }) = t.modPic k n (fun p => p.overran tg n made) := fun t ht =>
    State.shareDone_more (p := p) ((congrArg (look · k) ht).trans htarget) hpic (fun _ => rfl) hleft
  unfold State.decodeOverrun
  dsimp only
  rw [hshare _ (by rw [State.addCnt_frame, hend]; rfl)]
  refine ⟨_, rfl, ?_, ?_, ?_, ?_, ?_⟩
  all_goals rw [State.addCnt_frame, hend]
  · rfl
  · rfl
  · rfl
  · exact hno
  · intro x hx
    obtain ⟨y, -, hy, hid, -⟩ := Media.of_mem_leftOps hx
    rw [hid]
    simpa using hy

end Watchdog
/-- Settles O33: dispatch, marking, yielding and the watchdog, each on what the Ostler's lists hold. -/
theorem operationsAreDispatched : Obligations.OperationsAreDispatched := by
  intro t y cls o s z hz hy hcls hhold hmedia
  subst hz
  refine ⟨fun u us rest hready hrun hunits hmix hkernel => ?_, fun v rest hzero hready hmarked hbusy hvictim => ?_, fun stall moved hfind => ?_,
    fun id k n share tg p made hrun hkind hbudget hpast hno htarget hpic hleft => ?_, fun id made hrun hbudget => ?_⟩
  · obtain ⟨targets, hdis⟩ := (s.at t).dispatch_plain u hmix hkernel
    have hend := operationDispatch_idle (s := s.at t) hy hcls hhold hmedia hready hrun hunits
    refine ⟨_, congrArg Host.Outcome.next hend, ?_, ?_⟩
    · rw [hdis]
      rfl
    · rw [hdis]
  · subst hzero
    exact congrArg Host.Outcome.next (operationDispatch_busy (s := s.at t) hy hhold hmedia hready hmarked hbusy hvictim)
  · obtain ⟨busy, cnt, hend⟩ := stallYield_of_find (s := s.at t) (moved := moved) hfind
    exact ⟨_, congrArg Host.Outcome.next hend, rfl, rfl⟩
  · have hend : exec (.watchdogOverrun t ⟨id, made⟩) s = .next ((s.at t).overrunOp o made) := by
      refine congrArg Host.Outcome.next ?_
      unfold watchdogOverrun
      rw [show (s.at t).runningOp id = some o from hrun]
      exact if_neg (Nat.not_lt.mpr hbudget)
    have hseen : ((s.at t).opSeen o).media = s.media := State.opSeen_media hpast
    obtain ⟨u, hu, hframe, htargets, hpast', hno', hops⟩ := State.decodeOverrun_more (s := (s.at t).opSeen o) (o := o) (k := k) (n := n) (tg := tg)
      (p := p) (again := false) (made := made) (by rw [hseen]; exact hno) (by rw [State.target, hseen]; exact htarget) hpic hleft
    rw [hseen] at htargets hpast'
    rw [State.overrunOp, hkind] at hend
    have hmedia' : ((s.at t).underOp o (fun s => ((s.bump (ostCtr o.yard o.cls 16)).endOp o o.budget).decodeOverrun o k n false made)).media =
        (u.modPic k n (fun p => p.overran tg n made)).media := by
      rw [← hu]
      refine State.underOp_media (s := s.at t) hpast ?_
      rw [hu]
      exact hpast'.trans hpast
    refine ⟨_, p.overran tg n made, hend, fun x hx => ?_, ?_, rfl, fun hview => ?_⟩
    · rw [hmedia'] at hx
      exact hops x hx
    · rw [State.target, hmedia']
      exact State.pic_modPic (s := u) (by rw [State.target, htargets]; exact htarget) hpic (fun _ => rfl)
    · have hnow : (s.at t).opSeen o = s.at t := by
        rw [State.opSeen, show (s.at t).opView o = none from hview]
      rw [hnow] at hu hframe
      have hwork : (s.at t).underOp o (fun s => ((s.bump (ostCtr o.yard o.cls 16)).endOp o o.budget).decodeOverrun o k n false made) =
          u.modPic k n (fun p => p.overran tg n made) := by
        rw [← hu, State.underOp, show (s.at t).opView o = none from hview]
      rw [hwork, hframe]
      rfl
  · refine congrArg Host.Outcome.next ?_
    unfold watchdogOverrun
    rw [show (s.at t).runningOp id = some o from hrun]
    exact if_pos hbudget

end Sys2Proof.Machine
end

section
/-! PROOFS. Pictures are decoded, confirmed or voided (08 R337-R359; 04 R197). -/
namespace Sys2Proof.Machine

/-! ### Targets -/

section Targets
variable {s t : State} {k : Nat} {g : Target}

theorem State.target_of_media (h : t.media = s.media) (k : Nat) : t.target k = s.target k := by
  rw [State.target, h, State.target]

theorem State.target_modTarget (h : s.target k = some g) (f : Target → Target) : (s.modTarget k f).target k = some (f g) :=
  (look_adj_same s.media.targets k f).trans (congrArg (Option.map f) h)

/-- Neither what was taken away nor the operations that wait for a slot differ. -/
def Kept (s t : State) : Prop := t.media.past = s.media.past ∧ t.media.noSlot = s.media.noSlot

theorem Kept.trans {s t u : State} (a : Kept s t) (b : Kept t u) : Kept s u := ⟨b.1.trans a.1, b.2.trans a.2⟩
theorem Kept.of_media (h : t.media = s.media) : Kept s t := by
  unfold Kept
  rw [h]
  exact ⟨rfl, rfl⟩
theorem Kept.modTarget (s : State) (k : Nat) (f : Target → Target) : Kept s (s.modTarget k f) := ⟨rfl, rfl⟩

end Targets

section Asks
variable (s : State)

theorem State.event_media (src payload who : Nat) : (s.event src payload who).media = s.media := (NetFrame.event ..).media

theorem State.exhaust_media (i : Nat) : (s.exhaust i).media = s.media := by
  unfold State.exhaust
  split
  · split
    · rfl
    · exact (State.event_media ..).trans rfl
  · rfl

theorem State.sendRtcp_media (leg : Nat) (b : Bytes) : (s.sendRtcp leg b).media = s.media := by
  unfold State.sendRtcp
  split
  · rfl
  · split
    · exact (NetFrame.enqueue ..).media
    · split
      · rfl
      · split
        · exact State.exhaust_media ..
        · exact (NetFrame.enqueue ..).media.trans rfl

theorem State.requestKey_media (i : Nat) (fir : Option Bool) : (s.requestKey i fir).media = s.media := by
  unfold State.requestKey
  split
  · rfl
  · next x hx =>
    obtain ⟨n, hfree⟩ := s.rtcpSsrc_free x.leg
    extract_lets early useFir
    clear_value early useFir
    split
    · rfl
    · dsimp only
      rw [hfree]
      split
      · exact (State.sendRtcp_media ..).trans ((NetFrame.bump ..).media.trans rfl)
      · exact (State.sendRtcp_media ..).trans ((NetFrame.bump ..).media.trans rfl)

/-- A key request that repeats one changes no media unit. -/
theorem State.keyRequest_repeat (k stall : Nat) : (s.keyRequest k stall false).media = s.media := by
  unfold State.keyRequest
  split
  · rfl
  · dsimp only
    rw [if_neg (by simp)]
    split
    · exact (NetFrame.bump ..).media.trans (State.requestKey_media ..)
    · exact State.requestKey_media ..

/-- A key request leaves the pictures and the chains of its target. -/
theorem State.keyRequest_target {k : Nat} {g : Target} (h : s.target k = some g) (stall : Nat) (fresh : Bool) :
    ∃ g', (s.keyRequest k stall fresh).target k = some g' ∧ g'.pics = g.pics ∧ g'.chains = g.chains := by
  unfold State.keyRequest
  rw [h]
  dsimp -zeta only
  extract_lets i before s1 after s2
  have h2 : s2.media = s.media := by
    unfold s2
    split
    · exact (NetFrame.bump ..).media.trans (State.requestKey_media ..)
    · exact State.requestKey_media ..
  have h2 : s2.target k = some g := (State.target_of_media h2 k).trans h
  clear_value s2
  split
  · exact ⟨_, State.target_modTarget h2 _, rfl, rfl⟩
  · exact ⟨g, h2, rfl, rfl⟩

end Asks

/-! ### Resolution -/

section Resolve
variable {s : State} {k : Nat} {g : Target} {p q : Picture}

theorem State.countPic_media (s : State) (p : Picture) (x : PicState) (pending : Bool) : (s.countPic p x pending).media = s.media := by
  unfold State.countPic
  extract_lets c s1 s2 s3
  have h1 : s1.media = s.media := (NetFrame.addCnt ..).media.trans (NetFrame.bump ..).media
  have h2 : s2.media = s.media := by
    unfold s2
    split
    · exact (NetFrame.bump ..).media.trans h1
    · split
      · exact (NetFrame.bump ..).media.trans h1
      · exact h1
  have h3 : s3.media = s.media := by
    unfold s3
    split
    · exact (NetFrame.bump ..).media.trans h2
    · exact h2
  split
  · exact (NetFrame.bump ..).media.trans h3
  · exact h3

theorem State.tellClips_media (s : State) (k : Nat) (p : Picture) : (s.tellClips k p).media = s.media := by
  unfold State.tellClips
  split
  · exact (State.event_media ..).trans (NetFrame.forEach (fun _ _ => NetFrame.addCnt ..) _ _).media
  · rfl

/-- The one picture of a target resolves. -/
theorem State.resolvePic_one (h : s.target k = some g) (hone : g.pics = [q]) (hnum : q.num = p.num) (x : PicState) (voidRef pending : Bool) :
    ∃ g' q', (s.resolvePic k p x voidRef pending).target k = some g' ∧ g'.pics = [q'] ∧ g'.chains = g.chains ∧ q'.num = q.num ∧ q'.state = x ∧
      q'.frame = q.frame ∧ Kept s (s.resolvePic k p x voidRef pending) := by
  unfold State.resolvePic
  extract_lets s1 s2 s3
  have h1 : ∃ g' q', s1.target k = some g' ∧ g'.pics = [q'] ∧ g'.chains = g.chains ∧ q'.num = q.num ∧ q'.state = x ∧ q'.frame = q.frame := by
    refine ⟨_, { q with state := x, voidRef, endAt := if pending then q.endAt else s.now }, State.target_modTarget h _, ?_, rfl, rfl, rfl, rfl⟩
    dsimp only
    rw [hone, List.map_cons, if_pos hnum, List.map_nil]
  obtain ⟨g1, q1, h1, hone1, hchains, hnum1, hstate, hframe⟩ := h1
  have hkept : Kept s s1 := Kept.modTarget ..
  have h2 : s2.media = s1.media := (State.tellClips_media ..).trans (State.countPic_media ..)
  have h3 : ∃ g', s3.target k = some g' ∧ g'.pics = g1.pics ∧ g'.chains = g1.chains :=
    ⟨_, State.target_modTarget ((State.target_of_media h2 k).trans h1) _, rfl, rfl⟩
  have hkept3 : Kept s s3 := (hkept.trans (Kept.of_media h2)).trans (Kept.modTarget ..)
  obtain ⟨g3, h3, hone3, hchains3⟩ := h3
  clear_value s3
  split
  · exact ⟨_, q1, State.target_modTarget h3 _, hone3.trans hone1, hchains3.trans hchains, hnum1, hstate, hframe, hkept3.trans (Kept.modTarget ..)⟩
  · exact ⟨g3, q1, h3, hone3.trans hone1, hchains3.trans hchains, hnum1, hstate, hframe, hkept3⟩

/-- With no chain and no picture that waits, a target starts nothing. -/
theorem State.advance_idle (h : s.target k = some g) (hchains : g.chains = []) (hone : g.pics = [q]) (hstate : q.state ≠ .waiting) :
    s.advance k = s := by
  have hnone : [q].find? (fun p => p.state == .waiting) = none := by simpa using hstate
  unfold State.advance startNext
  rw [h]
  dsimp only
  rw [hchains, hone, hnone]
  exact ite_self s

end Resolve
/-! ### The end of the last share (R350, R357) -/

section Finish
variable {s : State} {k n : Nat} {g : Target} {q : Picture}

/-- An undamaged picture that lacks nothing. -/
structure Picture.Sound (q : Picture) : Prop where
  clipped : q.clipped = false
  poisoned : q.poisoned = false
  damaged : q.damaged = false
  overrun : q.overrun = false
  lossy : q.lossy = false
  refLost : q.info.refLost = false

theorem Picture.Sound.outcome (h : q.Sound) : q.outcome = (.confirmed, false) := by
  rw [Picture.outcome, if_neg (by simp [h.overrun, h.damaged, h.refLost])]

theorem Target.pic_one (hone : g.pics = [q]) (hnum : q.num = n) : g.pic n = some q := by
  rw [Target.pic, hone, List.find?_cons_of_pos (by simp [hnum])]

/-- The one picture of a target, sound and complete, is confirmed. -/
theorem State.finishPic_confirms (h : s.target k = some g) (hone : g.pics = [q]) (hnum : q.num = n) (hchains : g.chains = []) (hsound : q.Sound)
    (hrefs : g.refsVoid q = false) : ∃ g' q', (s.finishPic k n).target k = some g' ∧ g'.pics = [q'] ∧ q'.state = .confirmed ∧ q'.num = n ∧
      q'.frame = q.frame ∧ Kept s (s.finishPic k n) := by
  have hjoins : g.joins q = [] := by rw [Target.joins, hchains, List.filter_nil]
  obtain ⟨g', q', h', hone', hchains', hnum', hstate', hframe', hkept⟩ := State.resolvePic_one h hone rfl .confirmed false false
  have hidle := State.advance_idle h' (hchains'.trans hchains) hone' (by rw [hstate']; simp)
  have hfinish : s.finishPic k n = s.resolvePic k q .confirmed false false := by
    unfold State.finishPic
    rw [h]
    dsimp only
    rw [Target.pic_one hone hnum]
    dsimp only
    rw [if_neg (by simp [hsound.clipped, hsound.poisoned]), if_neg (by simp [hrefs]), if_neg (by simp [hsound.lossy]),
      if_neg (by simp [hsound.lossy, hjoins]), hsound.outcome]
    exact hidle
  rw [hfinish]
  exact ⟨g', q', h', hone', hstate', hnum'.trans hnum, hframe', hkept⟩

end Finish

section Complete
variable {s : State} {k n : Nat} {tg : Target} {p : Picture}

/-- Among one picture only the picture itself can be a void reference. -/
theorem Target.refsVoid_one {q : Picture} (hone : tg.pics = [q]) : tg.refsVoid q = q.info.refs.any (fun m => q.num == m && q.refVoid) := by
  unfold Target.refsVoid Target.pic
  rw [hone]
  refine congrArg (fun f => q.info.refs.any f) (funext fun m => ?_)
  cases h : q.num == m
  · rw [List.find?_cons_of_neg (by simpa using h)]
    rfl
  · rw [List.find?_cons_of_pos (by simpa using h)]
    rfl

theorem State.modPic_one {f : Picture → Picture} (h : s.target k = some tg) (hone : tg.pics = [p]) (hnum : p.num = n) :
    (s.modPic k n f).target k = some { tg with pics := [f p] } := by
  refine (State.target_modTarget h _).trans ?_
  rw [hone, List.map_cons, if_pos hnum, List.map_nil]

/-- The last share of the one picture of a target. -/
theorem State.shareDone_last {made : Recon} {f : Picture → Picture} (h : s.target k = some tg) (hone : tg.pics = [p]) (hnum : p.num = n)
    (hchains : tg.chains = []) (hleft : p.left = 1) (hf : f p = p) (hsound : p.Sound) (hrefs : tg.refsVoid p = false) :
    ∃ g q, (s.shareDone k n false made f).target k = some g ∧ g.pics = [q] ∧ q.state = .confirmed ∧ q.num = n ∧
      q.frame = reconOver made (tg.lastRef n) (p.info.hdr.depth == 10) p.work ∧ Kept s (s.shareDone k n false made f) := by
  have h1 := State.modPic_one (n := n) (f := fun p => { f p with left := p.left - 1, work := reconOver made (tg.lastRef n) (p.info.hdr.depth == 10) p.work })
    h hone hnum
  have h2 := State.modPic_one (n := n) (f := fun p => { p with frame := p.work }) h1 rfl (by rw [hf]; exact hnum)
  rw [hf, hleft] at h2
  rw [Target.refsVoid_one hone] at hrefs
  have hrefs' := (Target.refsVoid_one (tg := { tg with pics := [{ p with
    left := 0, work := reconOver made (tg.lastRef n) (p.info.hdr.depth == 10) p.work
    frame := reconOver made (tg.lastRef n) (p.info.hdr.depth == 10) p.work }] }) rfl).trans hrefs
  obtain ⟨g, q, h', hone', hstate, hnum', hframe, hkept⟩ := State.finishPic_confirms h2 rfl hnum hchains
    ⟨hsound.clipped, hsound.poisoned, hsound.damaged, hsound.overrun, hsound.lossy, hsound.refLost⟩ hrefs'
  have hpic : ((s.modPic k n (fun p => { f p with left := p.left - 1, work := reconOver made (tg.lastRef n) (p.info.hdr.depth == 10) p.work })).target k).bind
      (fun t => t.pic n) = some { p with left := 0, work := reconOver made (tg.lastRef n) (p.info.hdr.depth == 10) p.work } := by
    rw [h1, Option.bind_some]
    refine (Target.pic_one rfl (by rw [hf]; exact hnum)).trans ?_
    rw [hf, hleft]
  have hdone : s.shareDone k n false made f = ((s.modPic k n (fun p => { f p with
      left := p.left - 1, work := reconOver made (tg.lastRef n) (p.info.hdr.depth == 10) p.work })).modPic k n (fun p => { p with frame := p.work })).finishPic k n := by
    unfold State.shareDone
    rw [h]
    dsimp only [Option.bind_some]
    rw [hpic]
    exact if_pos rfl
  rw [hdone]
  exact ⟨g, q, h', hone', hstate, hnum', hframe, (((Kept.modTarget ..).trans (Kept.modTarget ..)).trans hkept)⟩

/-- The last share of an undamaged picture that lacks nothing ends: the picture is confirmed. -/
theorem decodeComplete_last {id share : Nat} {o : Op} {r : DecodeResult} (hrun : s.runningOp id = some o) (hkind : o.kind = .decode k n share false)
    (hcycles : r.cycles ≤ o.budget) (hpast : s.media.past = []) (hno : s.media.noSlot = []) (h : s.target k = some tg) (hone : tg.pics = [p])
    (hnum : p.num = n) (hchains : tg.chains = []) (hleft : p.left = 1) (hclip : r.writeClipped = 0) (hpoison : r.poisoned = false)
    (hpoison' : o.poisoned = false) (hsyntax : r.syntaxError = false) (hsound : p.Sound) (hrefs : tg.refsVoid p = false) :
    ∃ g q, (decodeComplete id r s).target k = some g ∧ g.pics = [q] ∧ q.state = .confirmed ∧ q.num = n ∧
      q.frame = reconOver r.made (tg.lastRef n) (p.info.hdr.depth == 10) p.work := by
  have hending : s.endingOp id r.cycles = some o := by
    rw [State.endingOp, hrun, Option.bind_some, if_pos hcycles]
  have hseen : (s.opSeen o).media = s.media := State.opSeen_media hpast
  obtain ⟨busy, hend⟩ := (s.opSeen o).endOp_frame o r.cycles (by rw [hseen]; exact hno)
  have hv : ((((s.opSeen o).endOp o r.cycles).addCnt (stCtr (6 * o.yard + o.unit.getD 0) 144) (r.cycles - o.charged)).bump
      (stCtr (6 * o.yard + o.unit.getD 0) 16)).media = { s.media with stallBusy := busy, ops := ((s.opSeen o).endOp o r.cycles).media.ops } := by
    refine ((NetFrame.bump ..).media.trans (NetFrame.addCnt ..).media).trans ?_
    rw [hend, hseen]
  generalize hvv : (((s.opSeen o).endOp o r.cycles).addCnt (stCtr (6 * o.yard + o.unit.getD 0) 144) (r.cycles - o.charged)).bump
    (stCtr (6 * o.yard + o.unit.getD 0) 16) = v at hv
  have hvt : v.target k = some tg := by
    rw [State.target, hv]
    exact h
  obtain ⟨g, q, h', hone', hstate, hnum', hframe, hkept⟩ := State.shareDone_last (made := r.made) (f := fun p => { p with
      clips := if r.writeClipped = 0 then p.clips else p.clips ++ [(6 * o.yard + o.unit.getD 0, r.writeClipped)]
      clipped := p.clipped || r.writeClipped != 0, poisoned := p.poisoned || r.poisoned || o.poisoned, damaged := p.damaged || r.syntaxError })
    hvt hone hnum hchains hleft (by simp [hclip, hpoison, hpoison', hsyntax]) hsound hrefs
  rw [decodeComplete, hending]
  dsimp only
  rw [hkind]
  dsimp only
  refine ⟨g, q, ?_, hone', hstate, hnum', hframe⟩
  refine (State.target_of_media (State.underOp_media hpast ?_) k).trans ?_
  · rw [hvv]
    exact hkept.1.trans ((congrArg Media.past hv).trans hpast)
  · rw [hvv]
    exact h'

end Complete
/-! ### Chains whose window has ended, and key requests (R359, R362) -/

section Windows
variable {s : State} {k : Nat} {g : Target} {p : Picture} {c : Chain}

/-- Operations that end leave the targets. -/
theorem State.dropOps_target (test : Op → Bool) (k : Nat) : (s.dropOps test).target k = s.target k :=
  (State.target_of_media (State.freeInputs_media _ _) k).trans rfl

/-- The pictures of a chain that becomes void: one that is still pending. -/
def voidStep (k : Nat) (t : Target) (n : Nat) (s : State) : State :=
  match t.pic n with
  | some p => if p.state = .pending then s.resolvePic k p .void true true else s
  | none => s

/-- A target without chains whose one picture has the number of `p`, void if `done`. -/
def OnePic (k : Nat) (p : Picture) (done : Prop) (s : State) : Prop :=
  ∃ g q, s.target k = some g ∧ g.chains = [] ∧ g.pics = [q] ∧ q.num = p.num ∧ (done → q.state = .void)

theorem voidStep_onePic {tg : Target} {done : Prop} {n : Nat} (hone : tg.pics = [p]) (hpend : p.state = .pending) (h : OnePic k p done s) :
    OnePic k p (done ∨ p.num = n) (voidStep k tg n s) := by
  obtain ⟨g, q, h, hchains, honeq, hnum, hdone⟩ := h
  unfold voidStep
  by_cases hn : p.num = n
  · rw [Target.pic_one hone hn]
    dsimp only
    rw [if_pos hpend]
    obtain ⟨g', q', h', hone', hchains', hnum', hstate, -⟩ := State.resolvePic_one h honeq hnum .void true true
    exact ⟨g', q', h', hchains'.trans hchains, hone', hnum'.trans hnum, fun _ => hstate⟩
  · have hnone : tg.pic n = none := by
      rw [Target.pic, hone, List.find?_cons_of_neg (by simpa using hn)]
      rfl
    rw [hnone]
    exact ⟨g, q, h, hchains, honeq, hnum, fun hd => hdone (hd.resolve_right hn)⟩

theorem voidSteps_onePic {tg : Target} (hone : tg.pics = [p]) (hpend : p.state = .pending) : ∀ (l : List Nat) {done : Prop} {s : State},
    OnePic k p done s → OnePic k p (done ∨ p.num ∈ l) (forEach l (voidStep k tg) s)
  | [], done, s, h => by
    obtain ⟨g, q, h, hchains, honeq, hnum, hdone⟩ := h
    exact ⟨g, q, h, hchains, honeq, hnum, fun hd => hdone (hd.resolve_right List.not_mem_nil)⟩
  | n :: l, done, s, h => by
    obtain ⟨g, q, h', hchains, honeq, hnum, hdone⟩ := voidSteps_onePic hone hpend l (voidStep_onePic (n := n) hone hpend h)
    exact ⟨g, q, h', hchains, honeq, hnum, fun hd => hdone (by
      rcases hd with hd | hd
      · exact Or.inl (Or.inl hd)
      · exact (List.mem_cons.mp hd).elim (fun h => Or.inl (Or.inr h)) Or.inr)⟩

/-- The one chain of a target becomes void with its picture. -/
theorem State.voidChain_one (h : s.target k = some g) (hchain : g.chains = [c]) (hone : g.pics = [p]) (hmem : p.num ∈ c.members)
    (hpend : p.state = .pending) : ∃ g' q, (s.voidChain k c).target k = some g' ∧ g'.chains = [] ∧ g'.pics = [q] ∧ q.state = .void := by
  have hgone : g.chains.filter (fun x => x != c) = [] := by
    rw [hchain, List.filter_cons_of_neg (by simp)]
    rfl
  have hstart : OnePic k p False ((s.dropAgain k c.members).modTarget k (fun t => { t with
      chains := chainsWithout (t.chains.filter (fun x => x != c)) c.members })) := by
    refine ⟨_, p, State.target_modTarget ((State.dropOps_target _ k).trans h) _, ?_, hone, rfl, False.elim⟩
    dsimp only
    rw [hgone]
    rfl
  obtain ⟨g1, q1, h1, hchains1, hone1, -, hvoid1⟩ := voidSteps_onePic hone hpend c.members hstart
  have hvoid : q1.state = .void := hvoid1 (Or.inr hmem)
  have hend : ∃ g' q, (s.endChain k c).target k = some g' ∧ g'.chains = [] ∧ g'.pics = [q] ∧ q.state = .void := by
    obtain ⟨g2, h2, hpics2, hchains2⟩ := State.keyRequest_target ((forEach c.members (voidStep k g) ((s.dropAgain k c.members).modTarget k (fun t => { t with
      chains := chainsWithout (t.chains.filter (fun x => x != c)) c.members }))).bump (stCtr (g.chainStall c) 56))
        ((State.target_of_media (NetFrame.bump ..).media k).trans h1) (g.chainStall c) true
    refine ⟨g2, q1, ?_, hchains2.trans hchains1, hpics2.trans hone1, hvoid⟩
    unfold State.endChain
    rw [h]
    exact h2
  obtain ⟨g', q, h', hchains', hone', hvoid'⟩ := hend
  rw [State.voidChain, State.advance_idle h' hchains' hone' (by rw [hvoid']; simp)]
  exact ⟨g', q, h', hchains', hone', hvoid'⟩

/-- The end of the window of the one chain of a target. -/
theorem repairWindowEnd_one (h : s.target k = some g) (hchain : g.chains = [c]) (hends : c.ends ≤ s.now) :
    repairWindowEnd k s = s.voidChain k c := by
  have hdue : g.chains.filter (fun c => decide (c.ends ≤ s.now)) = [c] := by
    rw [hchain, List.filter_cons_of_pos (by simpa using hends)]
    rfl
  unfold repairWindowEnd
  rw [h]
  dsimp only
  rw [hdue, forEach, List.foldl_cons, h]
  dsimp only
  rw [hchain, List.find?_cons_of_pos (by simp)]
  rfl

/-- A key request that is due again. -/
theorem keyRepeat_due {n last : Nat} (h : s.target k = some g) (hreq : g.keyReq = some (n, last)) (hdue : last + s.fld 9 8 2 * 1000 * us ≤ s.now) :
    (keyRepeat k s).target k = some { g with keyReq := if n = 0 then none else some (n - 1, s.now) } := by
  unfold keyRepeat
  rw [h]
  dsimp only
  rw [hreq]
  dsimp only
  rw [if_neg (Nat.not_lt.mpr hdue)]
  split
  · exact (State.target_of_media (State.event_media ..) k).trans (State.target_modTarget h _)
  · exact (State.target_of_media (State.keyRequest_repeat ..) k).trans (State.target_modTarget h _)

end Windows
/-! ### Pictures that are due (R338, R345, R347, R349) -/

section Due
variable {s : State} {k : Nat} {tg g : Target} {p : Picture} {i : PicInfo}

theorem State.holdInput_media (s : State) (o : Op) : (s.holdInput o).2.media = s.media := by
  unfold State.holdInput State.draw
  dsimp -zeta only
  extract_lets queue spilling takes th want
  clear_value spilling want takes
  split
  · exact (((NetFrame.modNet ..).trans (NetFrame.addCnt ..)).trans (NetFrame.spillMark _)).media.trans rfl
  · split
    · exact (NetFrame.poolAdd ..).media.trans rfl
    · rfl

/-- A new operation changes no target. -/
theorem State.addOp_targets (s : State) (kind : OpKind) (yard cls prio budget : Nat) : (s.addOp kind yard cls prio budget).media.targets = s.media.targets := by
  unfold State.addOp
  extract_lets o s'
  split
  · rfl
  · exact (congrArg Media.targets (State.holdInput_media s' o)).trans rfl

theorem forEach_targets {α : Type} {f : α → State → State} (h : ∀ a s, (f a s).media.targets = s.media.targets) :
    ∀ (l : List α) (s : State), (forEach l f s).media.targets = s.media.targets
  | [], _ => rfl
  | a :: l, s => (forEach_targets h l (f a s)).trans (h a s)

/-- The operation of a share of a picture becomes ready. -/
def addShare (k n yard prio : Nat) (again : Bool) (x : Nat × Nat) (s : State) : State :=
  s.addOp (.decode k n x.2 again) yard 0 prio (s.decodeBudget x.1)

theorem addShare_targets (k n yard prio : Nat) (again : Bool) (x : Nat × Nat) (s : State) :
    (addShare k n yard prio again x s).media.targets = s.media.targets := by
  rw [addShare, State.addOp_targets]

theorem State.newBuffer_media (s : State) (h : PicHeader) : (s.newBuffer h).2.media = s.media := by
  unfold State.newBuffer
  rfl

/-- The one picture of a target is decoded in its shares. -/
theorem State.openShares_one (h : s.target k = some g) (hone : g.pics = [p]) : ∃ q, (s.openShares k g p false).target k = some { g with pics := [q] } ∧
    q.num = p.num ∧ q.info = p.info ∧ q.state = .decoding ∧ q.left = (sharesOf p.info (shareCount p.info (s.fld 9 12 4))).length ∧
    q.lossy = !p.info.missing.isEmpty := by
  have hbuffer := s.newBuffer_media p.info.hdr
  unfold State.openShares
  generalize s.newBuffer p.info.hdr = buffer at hbuffer ⊢
  dsimp -zeta only
  extract_lets n shares prio prio' against s'
  refine ⟨{ p with
    shares := shares.length, left := shares.length, samples := lumaOf p.info, work := buffer.1, against, substituted := against.isSome
    clipped := false, poisoned := false, damaged := false, overrun := false, state := .decoding, lossy := !p.info.missing.isEmpty },
    ?_, rfl, rfl, rfl, rfl, rfl⟩
  have hs' : s'.target k = some { g with pics := [{ p with
      shares := shares.length, left := shares.length, samples := lumaOf p.info, work := buffer.1, against, substituted := against.isSome
      clipped := false, poisoned := false, damaged := false, overrun := false, state := .decoding, lossy := !p.info.missing.isEmpty }] } := by
    refine (State.target_modTarget ((State.target_of_media hbuffer k).trans h) _).trans ?_
    rw [hone, List.map_cons, if_pos rfl, List.map_nil]
    rfl
  clear_value s' prio' against
  refine Eq.trans ?_ hs'
  exact congrArg (look · k) (forEach_targets (addShare_targets k p.num g.yard prio' false) shares.zipIdx s')

/-- A target without chains starts to decode the one picture that waits. -/
theorem State.advance_opens (h : s.target k = some g) (hchains : g.chains = []) (hone : g.pics = [p]) (hwait : p.state = .waiting)
    (hidle : s.decoding k = false) (hrefs : g.refsVoid p = false) : s.advance k = s.openShares k g p false := by
  have hfind : [p].find? (fun p => p.state == .waiting) = some p := List.find?_cons_of_pos (by simpa using hwait)
  unfold State.advance
  rw [h]
  unfold startNext
  rw [h]
  dsimp only
  rw [if_neg (by simp [hidle]), hchains, hone, hfind]
  exact if_neg (by simp [hrefs])

/-- A picture as it takes its place in decode order. -/
def State.duePic (s : State) (tg : Target) (i : PicInfo) : Picture := { num := tg.next, info := i, stall := tg.stall0, window := s.fld 9 0 2 }

/-- A target with a picture that has become due. -/
def State.dueTarget (s : State) (tg : Target) (i : PicInfo) (skip : Option Bool) : Target :=
  { tg.onMember i with
    next := tg.next + 1, pics := tg.pics ++ [s.duePic tg i]
    dueTicks := (s.tick, skip.isNone) :: tg.dueTicks.filter (fun q => decide (s.tick < q.1 + 400)) }

/-- The first step of a picture that is due. -/
def State.duePicture (s : State) (k : Nat) (tg : Target) (i : PicInfo) (skip : Option Bool) : State :=
  s.modTarget k (fun t => { t.onMember i with
    next := tg.next + 1, pics := t.pics ++ [s.duePic tg i]
    dueTicks := (s.tick, skip.isNone) :: t.dueTicks.filter (fun q => decide (s.tick < q.1 + 400)) })

theorem State.duePicture_target (h : s.target k = some tg) (skip : Option Bool) :
    (s.duePicture k tg i skip).target k = some (s.dueTarget tg i skip) := State.target_modTarget h _

/-- A picture of another layer or member, or one that is not due. -/
theorem pictureDue_other (h : s.target k = some tg) (hother : s.takesPicture tg i = false) : pictureDue k i s = s := by
  unfold pictureDue
  rw [h]
  exact if_pos (Or.inr hother)

section Taken
variable (h : s.target k = some tg) (hmedia : s.mediaOn = true) (hheaders : i.headersOk = true) (htakes : s.takesPicture tg i = true) {codec : Nat}
  (hcodec : codec = ((look s.objs.streams (s.targetSource k (tg.onMember i))).map (·.codec)).getD 0)
include h hmedia hheaders htakes hcodec

/-- A sound picture that the target supports, nothing of it missing. -/
theorem pictureDue_sound (hcode : unsupportedCode codec tg i.hdr = 0) (hsupported : tg.unsupported = false ∨ i.key = true)
    (hkey : tg.needKey = false ∨ i.key = true) (hskip : s.skips tg i = none) (hmissing : i.missing = []) (hchains : tg.chains = []) :
    pictureDue k i s = (((s.duePicture k tg i none).modTarget k (fun t => { t with unsupported := false })).modTarget k (fun t =>
      { t with needKey := false })).advance k := by
  have hskip' : s.skips (tg.onMember i) i = none := hskip
  have hcode' : unsupportedCode codec (tg.onMember i) i.hdr = 0 := hcode
  unfold pictureDue
  rw [h]
  dsimp -zeta only
  rw [if_neg (by simp [hmedia, htakes])]
  extract_lets t n stall skip code p s1 void s2 s3 s4 s5 src waits
  have hskip0 : skip = none := hskip'
  have hcode0 : code = 0 := by
    unfold code
    rw [if_pos hheaders, ← hcodec, hcode']
  have hs4 : s4 = (((s.duePicture k tg i none).modTarget k (fun t => { t with unsupported := false })).modTarget k (fun t =>
      { t with needKey := false })) := by
    unfold s4 s3 s1 skip
    rw [hskip']
    rfl
  have hwaits : waits = false := by
    unfold waits
    rw [show t.chains = [] from hchains]
    rfl
  rw [if_neg (by simp [hheaders]), if_neg (not_or.mpr ⟨by simp [hcode0], fun hbad => ?_⟩), if_neg (fun hbad => ?_), hskip0]
  · dsimp only
    rw [if_neg (by simp [hmissing]), hwaits, if_neg Bool.false_ne_true, hs4]
  · obtain ⟨h1, h2⟩ := hbad
    rcases hkey with hkey | hkey
    · exact Bool.false_ne_true (hkey.symm.trans h1)
    · exact Bool.false_ne_true (h2.symm.trans hkey)
  · obtain ⟨h1, h2⟩ := hbad
    rcases hsupported with hsupported | hsupported
    · exact Bool.false_ne_true (hsupported.symm.trans h1)
    · exact Bool.false_ne_true (h2.symm.trans hsupported)

/-- A sound picture that the target does not support is void. -/
theorem pictureDue_unsupported (hcode : unsupportedCode codec tg i.hdr ≠ 0) : ∃ g, (pictureDue k i s).target k = some g ∧
    g.unsupported = true ∧ g.next = tg.next + 1 ∧ g.pics = (tg.pics ++ [s.duePic tg i]).map (fun q =>
      if q.num = tg.next then { q with state := .void, voidRef := true, endAt := s.now } else q) := by
  have hcode' : unsupportedCode codec (tg.onMember i) i.hdr ≠ 0 := hcode
  unfold pictureDue
  rw [h]
  dsimp -zeta only
  rw [if_neg (by simp [hmedia, htakes])]
  extract_lets t n stall skip code p s1 void s2 s3 s4 s5 src waits
  have hcode0 : code ≠ 0 := by
    unfold code
    rw [if_pos hheaders, ← hcodec]
    exact hcode'
  rw [if_neg (by simp [hheaders]), if_pos (Or.inl hcode0)]
  have h1 : s1.target k = some (s.dueTarget tg i skip) := State.duePicture_target h skip
  have h2 : s2.target k = some { (s.dueTarget tg i skip) with pics := (s.dueTarget tg i skip).pics.map (fun q =>
      if q.num = tg.next then { q with state := .void, voidRef := true, endAt := s.now } else q) } := by
    refine (State.target_of_media (NetFrame.bump ..).media k).trans ?_
    unfold void
    rw [State.leavePic, if_pos rfl]
    refine (State.target_of_media (NetFrame.bump ..).media k).trans ?_
    exact State.target_modTarget h1 _
  clear_value s2
  split
  · next hun => exact ⟨_, h2, hun, rfl, rfl⟩
  · exact ⟨_, (State.target_of_media (State.event_media ..) k).trans (State.target_modTarget h2 _), rfl, rfl, rfl⟩

end Taken
end Due
/-- Settles O34: each notice of a decode does what the state of its target asks for. -/
theorem picturesAreDecoded : Obligations.PicturesAreDecoded := by
  intro t k tg s z hz h
  subst hz
  refine ⟨fun i _ hother => ?_, fun i codec hmedia hheaders htakes hcodec =>
    ⟨fun hcode hsupported hkey hskip hmissing hpics hchains hidle => ?_, fun hcode hpics => ?_⟩,
    fun id o n share p r hrun hkind hcycles hpast hno hone hnum hchains hleft hclip hpoison hpoison' hsyntax hclipped hpoisoned hdamaged hover hlossy
      hlost hrefs => ?_, fun c p hchain hends hone hmem hpend => ?_, fun n last hreq hdue => ?_⟩
  · exact congrArg Host.Outcome.next (pictureDue_other (s := s.at t) h hother)
  · have hend := pictureDue_sound (s := s.at t) h hmedia hheaders htakes hcodec hcode hsupported hkey hskip hmissing hchains
    have hdue := State.target_modTarget (State.target_modTarget (State.duePicture_target (s := s.at t) (i := i) h none)
      (fun t => { t with unsupported := false })) (fun t => { t with needKey := false })
    have hpics' : tg.pics ++ [(s.at t).duePic tg i] = [(s.at t).duePic tg i] := by rw [hpics, List.nil_append]
    have hrefs := Target.refsVoid_one (tg := { (s.at t).dueTarget tg i none with unsupported := false, needKey := false }) hpics'
    rw [show ((s.at t).duePic tg i).refVoid = false from rfl] at hrefs
    obtain ⟨q, hq, hnum, hinfo, hstate, hleft, hlossy⟩ := State.openShares_one hdue hpics'
    have hadvance := State.advance_opens hdue hchains hpics' rfl hidle (hrefs.trans (by simp))
    rw [hadvance] at hend
    refine ⟨_, _, q, congrArg Host.Outcome.next hend, hq, rfl, rfl, hnum, hinfo, hstate, hleft, ?_, rfl, rfl⟩
    rw [hlossy]
    exact congrArg (fun l : List Nat => !l.isEmpty) hmissing
  · obtain ⟨g, hg, hun, hnext, hgpics⟩ := pictureDue_unsupported (s := s.at t) h hmedia hheaders htakes hcodec hcode
    rw [hpics] at hgpics
    exact ⟨_, g, _, rfl, hg, hnext, hgpics.trans (congrArg (fun q => [q]) (if_pos rfl)), rfl, rfl, hun⟩
  · obtain ⟨g, q, hg, hgone, hstate, hqnum, hframe⟩ := decodeComplete_last (s := s.at t) hrun hkind hcycles hpast hno h hone hnum hchains hleft hclip hpoison
      hpoison' hsyntax ⟨hclipped, hpoisoned, hdamaged, hover, hlossy, hlost⟩ hrefs
    exact ⟨_, g, q, rfl, hg, hgone, hstate, hqnum, hframe⟩
  · have hend := repairWindowEnd_one (s := s.at t) h hchain hends
    obtain ⟨g, q, hg, hgchains, hgone, hvoid⟩ := State.voidChain_one (s := s.at t) h hchain hone hmem hpend
    exact ⟨_, g, q, congrArg Host.Outcome.next hend, hg, hgchains, hgone, hvoid⟩
  · exact ⟨_, _, rfl, keyRepeat_due (s := s.at t) h hreq hdue, rfl⟩

end Sys2Proof.Machine
end

section
/-! PROOFS. Composition and ladders (09): what the operations of a canvas leave of it, and the packets of its rungs. -/
namespace Sys2Proof.Machine

/-! ### Copies that are forwarded (06 R264-R273) -/

section Copies
variable (s : State)

theorem State.overtake_media (room : Nat) (before : List (Nat × Bytes)) (k : Nat) : (s.overtake room before k).media = s.media := by
  unfold State.overtake
  split
  · rfl
  · extract_lets m o tOf t1 old span s'
    clear_value span
    have hs' : (if old.isSome then s' else s'.event 43 (roomHandle room ‹Room›.inc + k * 2 ^ 32) ‹Room›.owner).media = s.media := by
      split
      · rfl
      · exact State.event_media ..
    split
    · rfl
    · exact hs'

theorem forEach_media {α : Type} {f : α → State → State} (h : ∀ a s, (f a s).media = s.media) :
    ∀ (l : List α) (s : State), (forEach l f s).media = s.media
  | [], _ => rfl
  | a :: l, s => (forEach_media h l (f a s)).trans (h a s)

theorem State.logAppend_media (room yard : Nat) (mk : Nat → Bytes) : (s.logAppend room yard mk).media = s.media := by
  unfold State.logAppend
  split
  · rfl
  · extract_lets ring len gap pad pos all recs s1 s2
    have h1 : s1.media = s.media := State.modRoom_media ..
    have h2 : s2.media = s.media := (State.modObjs_media ..).trans ((NetFrame.addCnt ..).media.trans h1)
    clear_value s2
    split
    · rfl
    · exact (forEach_media (fun k s => State.overtake_media s ..) _ _).trans h2

theorem State.logPacket_media (i : Nat) (x : Stream) (ext : Nat) (pkt : Bytes) : (s.logPacket i x ext pkt).media = s.media := by
  unfold State.logPacket
  split
  · rfl
  · dsimp only
    split
    · rfl
    · exact State.logAppend_media ..

theorem State.logCopy_media (i : Nat) (z : Stream) (pending : Option Nat) (out : Nat) (pkt : Bytes) :
    (s.logCopy i z pending out pkt).media = s.media := by
  unfold State.logCopy
  split
  · exact State.logPacket_media ..
  · split
    · rfl
    · rfl

theorem State.sendCopy_media (i : Nat) (z : Stream) (l : Leg) (p : SrcPkt) (out : Nat) (slotStart pad : Bool) :
    (s.sendCopy i z l p out slotStart pad).media = s.media := by
  unfold State.sendCopy
  split
  · rfl
  · split
    · exact State.exhaust_media ..
    · extract_lets ends ts r0 r pkt c newest s1 s2 s3
      have h2 : s2.media = s.media := (NetFrame.ite (NetFrame.countFor ..) (NetFrame.refl s1)).media
      exact (NetFrame.enqueue ..).media.trans ((State.logCopy_media s2 ..).trans h2)

theorem State.countSwitch_media (i : Nat) (p : SrcPkt) : (s.countSwitch i p).media = s.media := by
  unfold State.countSwitch
  split <;> rfl

theorem State.report_media (i : Nat) (pending : Option Nat) : (s.report i pending).media = s.media := by
  unfold State.report
  split <;> rfl

theorem State.takeCopy_media (i : Nat) (z0 : Stream) (l : Leg) (p : SrcPkt) : (s.takeCopy i z0 l p).media = s.media := by
  unfold State.takeCopy State.draw
  dsimp -zeta only
  extract_lets z changed s1 s2 inside
  have h2 : s2.media = s.media := by
    unfold s2
    split
    · exact State.countSwitch_media ..
    · rfl
  clear_value s2 inside
  split
  · split
    · exact h2
    · exact (State.sendCopy_media ..).trans h2
  · split
    · exact h2
    · exact (State.sendCopy_media ..).trans h2

/-- A packet that is offered to an egress stream changes no media unit. -/
theorem State.forwardCopy_media (i : Nat) (p : SrcPkt) (takes : Bool) : (s.forwardCopy i p takes).media = s.media := by
  refine (State.report_media ..).trans ?_
  unfold State.offerCopy
  split
  · rfl
  · split
    · rfl
    · split
      · exact (State.sendCopy_media ..).trans rfl
      · split
        · exact State.takeCopy_media ..
        · rfl

end Copies
/-! ### What is kept of a canvas -/

section Kept
variable {P : Canvas → Prop} {room : Nat}

/-- A property of the canvas of a room is kept, and with it what was taken away. -/
def KeepsCanvas (P : Canvas → Prop) (room : Nat) (s t : State) : Prop :=
  t.media.past = s.media.past ∧ ((∃ c, s.canvas room = some c ∧ P c) → ∃ d, t.canvas room = some d ∧ P d)

theorem KeepsCanvas.refl (s : State) : KeepsCanvas P room s s := ⟨rfl, id⟩

theorem KeepsCanvas.trans {s t u : State} (a : KeepsCanvas P room s t) (b : KeepsCanvas P room t u) : KeepsCanvas P room s u :=
  ⟨b.1.trans a.1, b.2 ∘ a.2⟩

theorem KeepsCanvas.of_media {s t : State} (h : t.media = s.media) : KeepsCanvas P room s t := by
  rw [KeepsCanvas, State.canvas, State.canvas, h]
  exact ⟨rfl, id⟩

theorem KeepsCanvas.forEach {α : Type} {f : α → State → State} (h : ∀ a s, KeepsCanvas P room s (f a s)) :
    ∀ (l : List α) (s : State), KeepsCanvas P room s (forEach l f s)
  | [], s => KeepsCanvas.refl s
  | a :: l, s => (h a s).trans (KeepsCanvas.forEach h l (f a s))

theorem KeepsCanvas.ite {s t u : State} {c : Prop} [Decidable c] (a : KeepsCanvas P room s t) (b : KeepsCanvas P room s u) :
    KeepsCanvas P room s (if c then t else u) := by
  split
  · exact a
  · exact b

theorem State.canvas_modCanvas (s : State) (k : Nat) (f : Canvas → Canvas) :
    (s.modCanvas k f).canvas room = if k = room then (s.canvas k).map f else s.canvas room := look_adj ..

theorem KeepsCanvas.modCanvas {f : Canvas → Canvas} (hf : ∀ c, P c → P (f c)) (k : Nat) (s : State) : KeepsCanvas P room s (s.modCanvas k f) := by
  refine ⟨rfl, fun ⟨c, hc, hP⟩ => ?_⟩
  by_cases hk : k = room
  · subst hk
    exact ⟨f c, by rw [State.canvas_modCanvas, if_pos rfl, hc, Option.map_some], hf c hP⟩
  · exact ⟨c, by rw [State.canvas_modCanvas, if_neg hk, hc], hP⟩

/-- A new operation leaves the canvases. -/
theorem KeepsCanvas.addOp (s : State) (kind : OpKind) (yard cls prio budget : Nat) : KeepsCanvas P room s (s.addOp kind yard cls prio budget) := by
  unfold State.addOp
  extract_lets o s'
  split
  · exact ⟨rfl, id⟩
  · have hs' : KeepsCanvas P room s' (s'.holdInput o).2 := KeepsCanvas.of_media (State.holdInput_media s' o)
    exact ⟨hs'.1, hs'.2⟩

/-- A property of the canvas of a room holds, and nothing was taken away. -/
def HoldsCanvas (P : Canvas → Prop) (room : Nat) (s : State) : Prop := s.media.past = [] ∧ ∃ d, s.canvas room = some d ∧ P d

theorem KeepsCanvas.holds {s t : State} (a : KeepsCanvas P room s t) (h : HoldsCanvas P room s) : HoldsCanvas P room t :=
  ⟨a.1.trans h.1, a.2 h.2⟩

/-- A change of the canvas of a room makes what it makes of every canvas. -/
theorem HoldsCanvas.modCanvas {Q : Canvas → Prop} {f : Canvas → Canvas} {s : State} (hf : ∀ c, Q c → P (f c)) (h : HoldsCanvas Q room s) :
    HoldsCanvas P room (s.modCanvas room f) := by
  obtain ⟨hpast, d, hd, hQ⟩ := h
  exact ⟨hpast, f d, by rw [State.canvas_modCanvas, if_pos rfl, hd, Option.map_some], hf d hQ⟩

theorem HoldsCanvas.of_media {s t : State} (h : HoldsCanvas P room s) (hm : t.media = s.media) : HoldsCanvas P room t :=
  (KeepsCanvas.of_media hm).holds h

/-- What the work of an operation makes of a canvas stands. -/
theorem HoldsCanvas.underOp {s : State} {o : Op} {work : State → State} (hpast : s.media.past = [])
    (h : HoldsCanvas P room (work (s.opSeen o))) : HoldsCanvas P room (s.underOp o work) :=
  h.of_media (State.underOp_media hpast h.1)

end Kept
/-! ### Rungs -/

section Rungs
variable {P : Canvas → Prop} {room : Nat}

/-- A canvas with one rung changed. -/
def Canvas.onRung (c : Canvas) (r : Nat) (f : Rung → Rung) : Canvas :=
  { c with rungs := match c.rungs[r]? with
      | some g => setAt c.rungs r (f g)
      | none => c.rungs }

theorem State.modRung_eq (s : State) (k r : Nat) (f : Rung → Rung) : s.modRung k r f = s.modCanvas k (fun c => c.onRung r f) := rfl

theorem getElem?_setAt {α : Type} (a : α) : ∀ (l : List α) (n k : Nat), (setAt l n a)[k]? = if n = k ∧ k < l.length then some a else l[k]?
  | [], n, k => by simp [setAt]
  | b :: l, 0, 0 => by simp [setAt]
  | b :: l, 0, k + 1 => by simp [setAt]
  | b :: l, n + 1, 0 => by simp [setAt]
  | b :: l, n + 1, k + 1 => by simp [setAt, getElem?_setAt a l n k]

theorem Canvas.getElem?_onRung (c : Canvas) (r k : Nat) (f : Rung → Rung) :
    (c.onRung r f).rungs[k]? = if r = k then (c.rungs[k]?).map f else c.rungs[k]? := by
  unfold Canvas.onRung
  dsimp only
  split
  · next g hg =>
    rw [getElem?_setAt]
    by_cases hk : r = k
    · subst hk
      obtain ⟨hlt, -⟩ := List.getElem?_eq_some_iff.mp hg
      rw [if_pos ⟨rfl, hlt⟩, if_pos rfl, hg, Option.map_some]
    · rw [if_neg (fun h => hk h.1), if_neg hk]
  · next hg =>
    by_cases hk : r = k
    · subst hk
      rw [if_pos rfl, hg, Option.map_none]
    · rw [if_neg hk]

/-- A property of canvases that no change of a rung that keeps its encodes under way and its debt can end. -/
def Settled (P : Canvas → Prop) : Prop :=
  ∀ (c : Canvas) (r : Nat) (f : Rung → Rung), (∀ g, (f g).enc = g.enc ∧ (f g).debt = g.debt) → P c → P (c.onRung r f)

theorem KeepsCanvas.modRung (hP : Settled P) {f : Rung → Rung} (hf : ∀ g, (f g).enc = g.enc ∧ (f g).debt = g.debt) (k r : Nat) (s : State) :
    KeepsCanvas P room s (s.modRung k r f) := by
  rw [State.modRung_eq]
  exact KeepsCanvas.modCanvas (fun c => hP c r f hf) k s

theorem KeepsCanvas.histEvict (hP : Settled P) (need size : Nat) : ∀ (n : Nat) (s : State), KeepsCanvas P room s (s.histEvict need size n)
  | 0, s => KeepsCanvas.refl s
  | n + 1, s => by
    rw [State.histEvict]
    refine KeepsCanvas.ite (KeepsCanvas.refl s) ?_
    extract_lets pick
    clear_value pick
    split
    · exact KeepsCanvas.refl s
    · exact (KeepsCanvas.of_media rfl).trans (KeepsCanvas.histEvict hP need size n _)
    · refine KeepsCanvas.trans (KeepsCanvas.modRung hP ?_ _ _ s) (KeepsCanvas.histEvict hP need size n _)
      exact fun g => ⟨rfl, rfl⟩

theorem KeepsCanvas.sendRungPacket (hP : Settled P) (s : State) (k r : Nat) (e : RungPic) (ts : Nat) (tops : List (Nat × Nat)) (q : EncPacket)
    (lastOfLayer last : Bool) : KeepsCanvas P room s (s.sendRungPacket k r e ts tops q lastOfLayer last) := by
  unfold State.sendRungPacket
  split
  · exact KeepsCanvas.refl s
  · extract_lets cls ms rtp pkt kept s1 h s2 p
    have h1 : KeepsCanvas P room s s1 := KeepsCanvas.ite ((KeepsCanvas.histEvict hP _ _ _ s).trans
      (KeepsCanvas.of_media ((NetFrame.addCnt ..).media.trans (State.modObjs_media ..))))
      (KeepsCanvas.ite (KeepsCanvas.of_media (NetFrame.bump ..).media) (KeepsCanvas.refl s))
    clear_value s1 h kept
    have h2 : KeepsCanvas P room s1 s2 := by
      refine KeepsCanvas.modRung hP ?_ k r s1
      exact fun g => ⟨rfl, rfl⟩
    exact (h1.trans h2).trans (KeepsCanvas.of_media (forEach_media (fun k s => State.forwardCopy_media s ..) _ s2))

/-- The packets of a picture change no encode under way and no debt. -/
theorem KeepsCanvas.sendRungPackets (hP : Settled P) (k r : Nat) (e : RungPic) (ts : Nat) (tops : List (Nat × Nat)) :
    ∀ (l : List EncPacket) (s : State), KeepsCanvas P room s (sendRungPackets k r e ts tops l s)
  | [], s => KeepsCanvas.refl s
  | _ :: rest, s => (KeepsCanvas.sendRungPacket hP s ..).trans (KeepsCanvas.sendRungPackets hP k r e ts tops rest _)

theorem KeepsCanvas.ringAppend (hP : ∀ c n, P c → P { c with ringPos := n }) (s : State) (k stall len : Nat) (mk : Nat → Bytes) :
    KeepsCanvas P room s (s.ringAppend k stall len mk) := by
  unfold State.ringAppend
  extract_lets kib ring
  split
  · exact KeepsCanvas.refl s
  · refine KeepsCanvas.ite (KeepsCanvas.refl s) ?_
    extract_lets p left pad s1 pos s2 base s3
    have h1 : s1.media = s.media := by
      unfold s1
      split
      · rfl
      · rfl
    have h3 : KeepsCanvas P room s s3 := KeepsCanvas.of_media (Eq.trans rfl h1)
    exact (h3.trans (KeepsCanvas.modCanvas (fun c h => hP c _ h) k s3)).trans (KeepsCanvas.of_media (NetFrame.bump ..).media)

theorem KeepsCanvas.dropCanvasPics (hP : ∀ c l, P c → P { c with pics := l }) (s : State) (k : Nat) : KeepsCanvas P room s (s.dropCanvasPics k) :=
  KeepsCanvas.modCanvas (fun c h => hP c _ h) k s

/-- Encodes that become ready change their rungs alone. -/
theorem KeepsCanvas.openEncode (hP : ∀ c r f, P c → P (Canvas.onRung c r f)) (s : State) (k : Nat) (rm : Room) (n r : Nat) (g : Rung) :
    KeepsCanvas P room s (s.openEncode k rm n r g).1 := by
  have hrung : ∀ f, KeepsCanvas P room s (s.modRung k r f) := fun f => by
    rw [State.modRung_eq]
    exact KeepsCanvas.modCanvas (fun c h => hP c r f h) k s
  unfold State.openEncode
  extract_lets key pos tid lad e s1
  split
  · exact (hrung _).trans (KeepsCanvas.of_media (NetFrame.bump ..).media)
  · have h1 : KeepsCanvas P room s s1 := hrung _
    clear_value s1
    dsimp only
    exact h1.trans (KeepsCanvas.addOp ..)

theorem KeepsCanvas.encodeReady (hP : ∀ c r f, P c → P (Canvas.onRung c r f)) (k n : Nat) :
    ∀ (fuel : Nat) (rs : List Nat) (s : State), KeepsCanvas P room s (encodeReady k n fuel rs s)
  | 0, _, s => KeepsCanvas.refl s
  | fuel + 1, rs, s => by
    rw [Machine.encodeReady]
    refine KeepsCanvas.forEach (fun r s => ?_) rs s
    split
    · split
      · refine KeepsCanvas.ite (KeepsCanvas.refl s) ?_
        have hopen := KeepsCanvas.openEncode hP s (room := room) k ‹Room› n r ‹Rung›
        generalize s.openEncode k _ n r _ = out at hopen ⊢
        obtain ⟨s1, coded⟩ := out
        exact KeepsCanvas.ite hopen (hopen.trans (KeepsCanvas.encodeReady hP k n fuel _ s1))
      · exact KeepsCanvas.refl s
    · exact KeepsCanvas.refl s

end Rungs
/-! ### Composed pictures and their encodes (R375, R391, R400) -/

section Composed
variable {s : State} {room : Nat} {c : Canvas} {r : Room}

theorem State.bump_frame (s : State) (k : Nat) : s.bump k = { s with cnt := (s.bump k).cnt } := s.addCnt_frame k 1

/-- A new operation leaves the canvases. -/
theorem State.addOp_canvas (s : State) (kind : OpKind) (yard cls prio budget : Nat) :
    (s.addOp kind yard cls prio budget).canvas room = s.canvas room := by
  unfold State.addOp
  extract_lets o s'
  split
  · rfl
  · exact (congrArg (fun m : Media => look m.canvases room) (State.holdInput_media s' o)).trans rfl

/-- While a slot is free a new operation takes one. -/
theorem State.addOp_slot {ops : List Op} {prio : Nat} (hops : s.media.ops = ops) (hfree : slotFree ops prio = true) (kind : OpKind) (yard cls budget : Nat) :
    s.addOp kind yard cls prio budget = s.modMedia (fun m => { m with
      nextOp := m.nextOp + 1
      ops := m.ops ++ [{ id := s.media.nextOp, kind, yard, cls, prio, readyAt := s.now, budget }] }) := by
  subst hops
  unfold State.addOp
  exact if_pos hfree

theorem adj_adj {α : Type} (t : Tab α) (k : Nat) (f g : α → α) : adj (adj t k f) k g = adj t k (fun a => g (f a)) := by
  unfold adj
  cases h : look t k with
  | none =>
    dsimp only
    rw [h]
  | some v =>
    dsimp only
    rw [look_put_same]
    exact put_put ..

theorem State.modCanvas_modCanvas (s : State) (k : Nat) (f g : Canvas → Canvas) :
    (s.modCanvas k f).modCanvas k g = s.modCanvas k (fun c => g (f c)) :=
  congrArg (fun l => { s with media := { s.media with canvases := l } }) (adj_adj s.media.canvases k f g)

/-- The source that a tile shows. -/
def shownHandle (x : Option (Nat × TileShow)) : Nat := match x with
  | some (h, t) => if t.shown = .fill then 0 else h
  | none => 0

/-- The canvas of a picture that is due, its compose operation apart. -/
def Canvas.numbered (c : Canvas) (n lay feat : Nat) (tiles : List Nat) (p : CanvasPic) : Canvas :=
  { c with next := n + 1, layout := lay, featured := feat, tiles, pics := c.pics ++ [p] }

/-- A composed picture that is due, with an active rung. -/
theorem composedReady_due {n k : Nat} (hc : s.canvas room = some c) (hr : look s.objs.rooms room = some r) (hdue : c.dueAt s.tick = some n)
    (hmedia : s.mediaOn = true) (hk : k < c.rungs.length) (hactive : s.rungActive room k = true) :
    ∃ (lay feat : Nat) (tiles : List Nat) (p : CanvasPic) (cnt : Tab Nat), p.num = n ∧ p.boundary = s.tickAt ∧
      composedReady room s = (({ s with cnt }).modCanvas room (fun c => c.numbered n lay feat tiles p)).addOp (.compose room n) r.home 2
        (s.nodePrio room 2) (cdiv (3 * c.cw * c.ch) 4 + 30000) := by
  have hany : (List.range c.rungs.length).any (fun k => s.rungActive room k) = true :=
    List.any_eq_true.mpr ⟨k, List.mem_range.mpr hk, hactive⟩
  unfold composedReady
  rw [hc, hr]
  dsimp -zeta only
  rw [hdue]
  dsimp -zeta only
  rw [if_neg (by simp [hmedia])]
  extract_lets set feat lay ranks hold1 tiles p s1 s2
  have h1 : ∃ cnt, s1 = { s with cnt } := by
    unfold s1
    split
    · exact ⟨_, State.bump_frame ..⟩
    · exact ⟨s.cnt, rfl⟩
  obtain ⟨cnt, h1⟩ := h1
  unfold s2
  clear_value tiles feat lay s1
  subst h1
  refine ⟨lay, feat, tiles.map shownHandle, p, cnt, rfl, rfl, ?_⟩
  rw [State.modCanvas_modCanvas]
  exact if_pos hany

/-- The compose operation of a canvas ends. -/
theorem composeComplete_last {id cycles n : Nat} {o : Op} {p : CanvasPic} (hrun : s.runningOp id = some o) (hkind : o.kind = .compose room n)
    (hpast : s.media.past = []) (hno : s.media.noSlot = []) (hc : s.canvas room = some c)
    (hroom : (look (s.opSeen o).objs.rooms room).isSome = true) (hpic : c.pics.find? (fun p => p.num == n) = some p) :
    ∃ d, (composeComplete id cycles s).canvas room = some d ∧ d.lastPic = n ∧ d.lastConcealed = p.concealed := by
  obtain ⟨r, hr⟩ := Option.isSome_iff_exists.mp hroom
  have hseen : (s.opSeen o).media = s.media := State.opSeen_media hpast
  obtain ⟨busy, hend⟩ := (s.opSeen o).endOp_frame o cycles (by rw [hseen]; exact hno)
  generalize hv : ((s.opSeen o).endOp o cycles).addCnt (cpCtr o.yard 64) (cycles - o.charged) = v
  have hvm : v.media = { s.media with stallBusy := busy, ops := ((s.opSeen o).endOp o cycles).media.ops } := by
    rw [← hv, State.addCnt_media, hend, hseen]
  have hvc : v.canvas room = some c := by
    rw [State.canvas, hvm]
    exact hc
  have hvr : look v.objs.rooms room = some r := by
    rw [← hv, State.addCnt_objs, hend]
    exact hr
  have hshown : HoldsCanvas (fun d => d.lastPic = n ∧ d.lastConcealed = p.concealed) room (composeComplete id cycles s) := by
    unfold composeComplete
    rw [hrun]
    refine HoldsCanvas.underOp hpast ?_
    rw [hkind]
    dsimp -zeta only
    rw [hv]
    extract_lets v'
    rw [show v'.canvas room = some c from hvc, show look v'.objs.rooms room = some r from hvr]
    dsimp -zeta only
    rw [hpic]
    dsimp -zeta only
    extract_lets s1 s2 s3 s4 s5
    have h1 : HoldsCanvas (fun _ => True) room s1 :=
      HoldsCanvas.modCanvas (Q := fun _ => True) (fun _ _ => trivial)
      ⟨(congrArg Media.past hvm).trans hpast, c, hvc, trivial⟩
    have h3 : s3.media = s1.media := (NetFrame.ite ((NetFrame.bump s1 _).trans (NetFrame.bump ..)) (NetFrame.bump s1 _)).media
    have h4 : HoldsCanvas (fun _ => True) room s4 := h1.of_media (((NetFrame.addCnt ..).trans (NetFrame.addCnt ..)).media.trans h3)
    have h5 : HoldsCanvas (fun d => d.lastPic = n ∧ d.lastConcealed = p.concealed) room s5 := HoldsCanvas.modCanvas (fun _ _ => ⟨rfl, rfl⟩) h4
    exact (KeepsCanvas.dropCanvasPics (fun _ _ h => h) _ room).holds ((KeepsCanvas.encodeReady (fun _ _ _ h => h) room n _ _ s5).holds h5)
  exact hshown.2

/-- The encodes under way and the debt of a rung. -/
def Canvas.SettledAs (d : Canvas) (k : Nat) (enc : List RungPic) (debt : Nat) : Prop :=
  ∃ h, d.rungs[k]? = some h ∧ h.enc = enc ∧ h.debt = debt

theorem Canvas.settled_settledAs (k : Nat) (enc : List RungPic) (debt : Nat) : Settled (fun d => d.SettledAs k enc debt) := by
  intro d r f hf ⟨h, hh, henc, hdebt⟩
  rw [Canvas.SettledAs, Canvas.getElem?_onRung, hh]
  by_cases hr : r = k
  · exact ⟨f h, if_pos hr, (hf h).1.trans henc, (hf h).2.trans hdebt⟩
  · exact ⟨h, if_neg hr, henc, hdebt⟩

/-- The encode of a picture of a rung on which no other rung depends ends. -/
theorem encodeComplete_last {id n k : Nat} {o : Op} {x : EncodeResult} {g : Rung} {e : RungPic} {p : CanvasPic} {rm : Room}
    (hrun : s.runningOp id = some o) (hkind : o.kind = .encode room k n) (hc : s.canvas room = some c) (hg : c.rungs[k]? = some g)
    (he : g.enc.find? (fun e => e.num == n) = some e) (hpic : c.pics.find? (fun p => p.num == n) = some p) (hpoison : x.poisoned = false)
    (hpoison' : o.poisoned = false) (hcycles : x.cycles ≤ o.budget) (hpast : s.media.past = []) (hno : s.media.noSlot = [])
    (hdep : c.dependents k = []) (hr : look (s.opSeen o).objs.rooms room = some rm)
    (hfits : encodeFits x g.codec g.profile (rungLevel g.codec g.profile g.w g.h c.fps ((s.opSeen o).rungFld (rm.tf 5 1) k 16 4)) e.key = true) :
    ∃ d h, (encodeComplete id x s).canvas room = some d ∧ d.rungs[k]? = some h ∧ h.enc = g.enc.filter (fun e => e.num != n) ∧
      h.debt = (bitBudget e.rate c.fps (layerWeight g.strct e.tid) e.weight e.key g.debt).1 + x.bits -
        (bitBudget e.rate c.fps (layerWeight g.strct e.tid) e.weight e.key g.debt).2.1 := by
  have hending : s.endingOp id x.cycles = some o := by
    rw [State.endingOp, hrun, Option.bind_some, if_pos hcycles]
  have hseen : (s.opSeen o).media = s.media := State.opSeen_media hpast
  obtain ⟨busy, hend⟩ := (s.opSeen o).endOp_frame o x.cycles (by rw [hseen]; exact hno)
  generalize hv : ((s.opSeen o).endOp o x.cycles).addCnt (enCtr (6 * o.yard + o.unit.getD 0) 64) (x.cycles - o.charged) = v
  have hvm : v.media = { s.media with stallBusy := busy, ops := ((s.opSeen o).endOp o x.cycles).media.ops } := by
    rw [← hv, State.addCnt_media, hend, hseen]
  have hvc : v.canvas room = some c := by
    rw [State.canvas, hvm]
    exact hc
  have hvr : look v.objs.rooms room = some rm := by
    rw [← hv, State.addCnt_objs, hend]
    exact hr
  have hvfld : v.rungFld (rm.tf 5 1) k 16 4 = (s.opSeen o).rungFld (rm.tf 5 1) k 16 4 := by
    rw [← hv, hend, State.addCnt_frame]
    rfl
  have hafter : HoldsCanvas (fun d => d.SettledAs k (g.enc.filter (fun e => e.num != n))
      ((bitBudget e.rate c.fps (layerWeight g.strct e.tid) e.weight e.key g.debt).1 + x.bits -
        (bitBudget e.rate c.fps (layerWeight g.strct e.tid) e.weight e.key g.debt).2.1)) room (encodeComplete id x s) := by
    unfold encodeComplete
    rw [hending]
    refine HoldsCanvas.underOp hpast ?_
    rw [hkind]
    dsimp -zeta only
    extract_lets stall v' s1
    have hv' : v' = v := hv
    clear_value v'
    subst hv'
    rw [hvc, hvr]
    dsimp -zeta only
    rw [hpic, hg]
    dsimp -zeta only [Option.bind_some]
    rw [he]
    dsimp -zeta only
    extract_lets lad level x1 bands forced after s2 s3 s4 packets s5 s6 s7 blocks rec_ len s8 s9
    rw [if_neg (by
      have hl : level = rungLevel g.codec g.profile g.w g.h c.fps ((s.opSeen o).rungFld (rm.tf 5 1) k 16 4) := by
        unfold level lad
        rw [hvfld]
      rw [hl]
      simp [hpoison, hpoison', hfits]), hdep]
    have h5 : s5.media = v'.media := by
      have a1 : s1.media = v'.media := (NetFrame.bump ..).media.trans (State.draw_media ..)
      have a2 : NetFrame s1 s2 := NetFrame.ite ((NetFrame.bump ..).trans (NetFrame.addCnt ..)) (NetFrame.refl s1)
      have a3 : NetFrame s2 s3 := NetFrame.ite (NetFrame.bump ..) (NetFrame.refl s2)
      have a4 : NetFrame s3 s4 := NetFrame.ite ((NetFrame.bump ..).trans (NetFrame.addCnt ..)) (NetFrame.refl s3)
      exact ((((a2.trans a3).trans a4).trans (NetFrame.addCnt ..)).media).trans a1
    have h6 : HoldsCanvas (fun d => d.rungs[k]? = some g) room s6 := by
      have hs5 : HoldsCanvas (fun d => d.rungs[k]? = some g) room s5 :=
        HoldsCanvas.of_media ⟨(congrArg Media.past hvm).trans hpast, c, hvc, hg⟩ h5
      refine (KeepsCanvas.ite ?_ (KeepsCanvas.refl s5)).holds hs5
      refine KeepsCanvas.modCanvas ?_ room s5
      exact fun _ h => h
    have h7 : HoldsCanvas (fun d => d.SettledAs k (g.enc.filter (fun e => e.num != n)) after) room s7 := by
      refine HoldsCanvas.modCanvas (Q := fun d => d.rungs[k]? = some { g with enc := g.enc.filter (fun e => e.num != n) }) (fun d hd => ?_)
        (HoldsCanvas.modCanvas (fun d hd => ?_) h6)
      · exact ⟨_, (d.getElem?_onRung k k _).trans ((if_pos rfl).trans (congrArg (Option.map _) hd)), rfl, rfl⟩
      · exact (d.getElem?_onRung k k _).trans ((if_pos rfl).trans (congrArg (Option.map _) hd))
    have hsettled := Canvas.settled_settledAs k (g.enc.filter (fun e => e.num != n)) after
    have h8 : KeepsCanvas (fun d => d.SettledAs k (g.enc.filter (fun e => e.num != n)) after) room s7 s8 :=
      KeepsCanvas.ite (KeepsCanvas.ringAppend (fun _ _ h => h) s7 ..) (KeepsCanvas.refl s7)
    have h9 : HoldsCanvas (fun d => d.SettledAs k (g.enc.filter (fun e => e.num != n)) after) room s9 :=
      (KeepsCanvas.sendRungPackets hsettled room k e _ _ packets s8).holds (h8.holds h7)
    exact (KeepsCanvas.dropCanvasPics (fun _ _ h => h) s9 room).holds h9
  obtain ⟨-, d, hd, h, hh⟩ := hafter
  exact ⟨d, h, hd, hh⟩

/-- A rung whose last key picture is KEY_INTERVAL_S old. -/
theorem keyInterval_due {k w t0 : Nat} {g : Rung} (hc : s.canvas room = some c) (hr : look s.objs.rooms room = some r) (hg : c.rungs[k]? = some g)
    (hlast : g.lastKey = some t0) (hw : w = s.rungFld (r.tf 5 1) k 10 2) (hset : w ≠ 0) (hdue : t0 + w * 1000000 * us ≤ s.now) :
    keyInterval room k s = s.modRung room k (fun g => { g with wantKey := true }) := by
  unfold keyInterval
  rw [hc, hr, Option.bind_some, hg]
  dsimp only
  rw [hlast, ← hw]
  exact if_pos ⟨hset, hdue⟩

/-- The rate of the one rung of a canvas at the period of its rates. -/
theorem rungRates_one {g : Rung} (hc : s.canvas room = some c) (hr : look s.objs.rooms room = some r) (hone : c.rungs = [g])
    (hactive : s.rungActive room 0 = true) (hset : s.fld 0x0B 8 2 ≠ 0) (hperiod : s.tick % s.fld 0x0B 8 2 = 0) (htick : g.rateTick ≠ s.tick) :
    rungRates room s = (s.rateRung room (r.tf 5 1) 0 g).modRung room 0 (fun g => { g with rateTick := s.tick }) := by
  unfold rungRates
  rw [hc, hr]
  dsimp only
  rw [if_neg (by simp [hset, hperiod]), hone]
  exact if_pos ⟨hactive, Or.inl htick⟩

/-- What a rung becomes when its rate is set. -/
theorem State.rateRung_eq (s : State) (lad k : Nat) (g : Rung) : ∃ f : Rung → Rung, s.rateRung room lad k g = s.modRung room k f ∧
    (bit (s.rungFld lad k 2 1) 2 = true → ∀ h, (f h).rate = s.rungFld lad k 16 4) ∧
    (bit (s.rungFld lad k 2 1) 2 = false → s.legsOf room = [] → ∀ h, (f h).rate = s.rungFld lad k 12 4) := by
  unfold State.rateRung
  extract_lets legs lo hi q target rate
  refine ⟨_, rfl, fun hfix _ => if_pos hfix, fun hfree hnone _ => ?_⟩
  have hlegs : legs = [] := by
    unfold legs
    rw [hnone]
    rfl
  exact (if_neg (by simp [hfree])).trans (if_pos hlegs)

end Composed
/-- Settles O35: the canvas of a room through composition, encoding and the times of its rungs. -/
theorem canvasesAreComposed : Obligations.CanvasesAreComposed := by
  intro t room c r s z hz hc hr
  subst hz
  refine ⟨fun n k hdue hmedia hk hactive => ?_, fun id cycles o n p hrun hkind hpast hno hroom hpic => ?_,
    fun id o k n g e p x hrun hkind hg he hpic hpoison hpoison' hcycles hpast hno hdep ⟨rm, hrm, hfits⟩ => ?_,
    fun k g t0 hg hlast hset hdue => ?_, fun g hone hactive hset hperiod htick => ?_⟩
  · obtain ⟨lay, feat, tiles, p, cnt, hnum, hboundary, hend⟩ :=
      composedReady_due (s := s.at t) hc hr hdue hmedia hk hactive
    refine ⟨_, c.numbered n lay feat tiles p, p, congrArg Host.Outcome.next hend, ?_, rfl, rfl, hnum, hboundary, ?_⟩
    · rw [State.addOp_canvas, State.canvas_modCanvas, if_pos rfl]
      exact congrArg (Option.map _) hc
    · intro hfree
      rw [State.addOp_slot (ops := s.media.ops) (prio := (s.at t).nodePrio room 2)
        (s := State.modCanvas { s.at t with cnt } room (fun c => c.numbered n lay feat tiles p)) rfl hfree]
      exact ⟨rfl, _, rfl, rfl, rfl, rfl, rfl⟩
  · obtain ⟨d, hd, hlast⟩ := composeComplete_last (s := s.at t) (cycles := cycles) hrun hkind hpast hno hc hroom hpic
    exact ⟨_, d, rfl, hd, hlast⟩
  · obtain ⟨d, h, hd, hh⟩ := encodeComplete_last (s := s.at t) hrun hkind hc hg he hpic hpoison hpoison' hcycles hpast hno hdep hrm hfits
    exact ⟨_, d, h, rfl, hd, hh⟩
  · exact congrArg Host.Outcome.next (keyInterval_due (s := s.at t) hc hr hg hlast rfl hset hdue)
  · have hend := rungRates_one (s := s.at t) hc hr hone hactive hset hperiod htick
    obtain ⟨f, hf, hfix, hlow⟩ := (s.at t).rateRung_eq (room := room) (r.tf 5 1) 0 g
    rw [hf] at hend
    refine ⟨_, { c with rungs := [{ f g with rateTick := s.tick }] }, _, congrArg Host.Outcome.next hend, ?_, rfl, rfl, fun h => hfix h g,
      fun h hnone => hlow h hnone g, rfl⟩
    rw [State.modRung_eq, State.modRung_eq, State.modCanvas_modCanvas, State.canvas_modCanvas, if_pos rfl,
      show (s.at t).canvas room = some c from hc, Option.map_some]
    refine congrArg some ?_
    unfold Canvas.onRung
    rw [hone]
    rfl
end Sys2Proof.Machine
end

section
/-! PROOFS. Overlays (09 R385, R386): what a poll begins, and what the end of a copy leaves. -/
namespace Sys2Proof.Machine

section Overlays
variable {s : State}

theorem lookD_of_look {α : Type} {t : Tab α} {k : Nat} {a d : α} (h : look t k = some a) : lookD t k d = a := by
  rw [lookD, h, Option.getD_some]

/-- A new number in an entry with the right fields, with room in the cache. -/
theorem State.ovlEntry_copies {e : OverlayRead} {room : Nat} {o : Overlay} (hroom : s.ovlRoom e.table e.index = some (room, e.host))
    (haddr : (s.ovlAddr e.host e.table e.index).isSome = true) (hrun : s.running e.host = true) (hok : e.ok = true)
    (hsame : le e.data 0 4 = le e.data 28 4) (ho : o = lookD s.media.overlays (ovlKey e.host e.table e.index) {})
    (hnew : o.seq ≠ some (le e.data 0 4)) (hidle : o.copying = none) (hfields : ovlOk e.table e.data = true) (hformat : le e.data 4 1 ≠ 0)
    (hfits : s.ovlUsed + le e.data 20 2 * le e.data 18 2 ≤ s.fld 0x0A 66 2 * 1048576) :
    s.ovlEntry e = (s.bump (cpCtr (((look s.objs.rooms room).map (·.home)).getD 0) 40)).modMedia (fun m => { m with
      overlays := put m.overlays (ovlKey e.host e.table e.index) { o with
        copying := some (le e.data 0 4), newBytes := le e.data 20 2 * le e.data 18 2, newDrawn := true
        newBitmap := some (bitmapOf e.data) } }) := by
  obtain ⟨a, ha⟩ := Option.isSome_iff_exists.mp haddr
  unfold State.ovlEntry
  rw [hroom, ha]
  dsimp only
  rw [if_neg (by simp [hrun]), if_neg (by simp [hok]), ← ho, if_neg (by simp [hsame.symm, hnew, hidle]), if_neg (by simp [hfields]),
    if_neg hformat, if_neg (Nat.not_lt.mpr hfits), show (le e.data 4 1 != 0) = true by simpa using hformat]

theorem overlayPoll_one {e : OverlayRead} (hset : s.fld 0x0A 64 2 ≠ 0) (htick : s.tick % s.fld 0x0A 64 2 = 0) :
    overlayPoll [e] s = s.ovlEntry e := by
  unfold overlayPoll
  exact if_neg (by simp [hset, htick])

/-- A bitmap that has been copied. -/
def Overlay.copied (o : Overlay) (seq : Nat) (data : Bytes) : Overlay :=
  { o with
    seq := some seq, copying := none, bytes := o.newBytes, drawn := o.newDrawn, ack := seq
    bitmap := o.newBitmap.map (fun b => { b with data }), newBitmap := none }

theorem overlayCopied_ok {host table index seq a : Nat} {o : Overlay} {data : Bytes} (ho : look s.media.overlays (ovlKey host table index) = some o)
    (hcopying : o.copying = some seq) (haddr : s.ovlAddr host table index = some a) (hrun : s.running host = true) :
    overlayCopied host table index (.ok data) s = (s.modMedia (fun m => { m with
      overlays := put m.overlays (ovlKey host table index) (o.copied seq data) })).hostWrite host (a + 32) (leBytes 4 seq) := by
  have haddr' : (s.modMedia (fun m => { m with
      overlays := put m.overlays (ovlKey host table index) (o.copied seq data) })).ovlAddr host table index = some a := haddr
  unfold overlayCopied
  dsimp only
  rw [ho]
  dsimp only
  rw [hcopying]
  dsimp only
  unfold Overlay.copied at haddr'
  rw [haddr']
  exact if_pos hrun

/-- A failed access of a host port is no counter of the event router. -/
theorem quietCounter_failed (p : Nat) : quietCounter (hpCtr p 112) := by
  refine ⟨fun _ => (ctr_mod 2 p 112).trans (by decide), fun q => hpCtr_ne (by decide) (by decide) (by decide)⟩

theorem State.cntOf_hostFailed (s : State) (p status : Nat) :
    (s.hostFailed p status).cntOf (hpCtr p 112) = (s.cntOf (hpCtr p 112) + 1) % 2 ^ 64 := State.cntOf_bump ..

/-- An entry that fails, or whose copy does, is not drawn. -/
theorem State.ovlError_overlay (s : State) (key room owner table index seq : Nat) :
    look (s.ovlError key room owner table index seq).media.overlays key =
        some { lookD s.media.overlays key {} with drawn := false, copying := none, errSeq := some seq } ∧
      ∀ p, (s.ovlError key room owner table index seq).cntOf (hpCtr p 112) = s.cntOf (hpCtr p 112) := by
  have hcnt : ∀ y p, (s.bump (cpCtr y 48)).cntOf (hpCtr p 112) = s.cntOf (hpCtr p 112) := fun y p =>
    s.cntOf_bump_ne (by unfold cpCtr hpCtr ctr; omega)
  unfold State.ovlError
  extract_lets y o s1 s2
  have h2 : look s2.media.overlays key = some { o with drawn := false, copying := none, errSeq := some seq } := look_put_same ..
  split
  · exact ⟨h2, fun p => hcnt y p⟩
  · rw [State.event_media]
    exact ⟨h2, fun p => (s2.cntOf_event _ _ _ (quietCounter_failed p)).trans (hcnt y p)⟩

/-- A copy that fails. -/
theorem overlayCopied_fail {host table index seq status : Nat} {o : Overlay} (ho : look s.media.overlays (ovlKey host table index) = some o)
    (hcopying : o.copying = some seq) : ∃ x,
      look (overlayCopied host table index (.fail status) s).media.overlays (ovlKey host table index) = some x ∧
      x.drawn = false ∧ x.copying = none ∧ x.seq = o.seq ∧
      (overlayCopied host table index (.fail status) s).cntOf (hpCtr host 112) = (s.cntOf (hpCtr host 112) + 1) % 2 ^ 64 := by
  unfold overlayCopied
  dsimp only
  rw [ho]
  dsimp only
  rw [hcopying]
  dsimp only
  split
  · next room owner _ =>
    obtain ⟨hlook, hcnt⟩ := (s.hostFailed host status).ovlError_overlay (ovlKey host table index) room owner table index seq
    have hseq : (lookD s.media.overlays (ovlKey host table index) {}).seq = o.seq := congrArg Overlay.seq (lookD_of_look ho)
    exact ⟨_, hlook, rfl, rfl, hseq, (hcnt host).trans (s.cntOf_hostFailed host status)⟩
  · exact ⟨_, look_put_same .., rfl, rfl, rfl, s.cntOf_hostFailed host status⟩

end Overlays
/-- Settles O36: a poll begins the copy, and its end draws the bitmap or counts the failure. -/
theorem overlaysAreCopied : Obligations.OverlaysAreCopied := by
  intro t host table index s z hz
  subst hz
  refine ⟨fun e o room hset htick hroom haddr hrun hok hsame ho hnew hidle hfields hformat hfits => ?_,
    fun o seq a data hissue ho hcopying haddr hrun => ?_, fun o seq status ho hcopying => ?_⟩
  · have hend := (overlayPoll_one (s := s.at t) (e := e) hset htick).trans
      (State.ovlEntry_copies (s := s.at t) hroom haddr hrun hok hsame ho hnew hidle hfields hformat hfits)
    refine ⟨_, congrArg Host.Outcome.next hend, look_put_same .., ?_⟩
    rw [State.bump_frame]
    rfl
  · have hend := overlayCopied_ok (s := s.at t) (data := data) ho hcopying haddr hrun
    refine ⟨_, congrArg Host.Outcome.next hend, ?_, look_put_same .., rfl⟩
    have hread := State.hostRead_hostWrite (p := host) (addr := a + 32) (s := (s.at t).modMedia (fun m => { m with
      overlays := put m.overlays (ovlKey host table index) (o.copied seq data) })) hissue (leBytes 4 seq) []
    rw [length_leBytes, List.append_nil] at hread
    exact hread
  · obtain ⟨x, hx⟩ := overlayCopied_fail (s := s.at t) (status := status) ho hcopying
    exact ⟨_, x, rfl, hx⟩

end Sys2Proof.Machine
end

section
/-! PROOFS. Audio mixing (10): the stages of a block, the mix, and mix control. -/
namespace Sys2Proof.Machine

/-! ### The end of an operation while others wait for a slot -/

section Ends
variable (s : State)

theorem State.event_objs (src payload who : Nat) : (s.event src payload who).objs = s.objs := by rw [State.event_frame]

theorem State.spillMark_objs : s.spillMark.objs = s.objs := by
  unfold State.spillMark
  dsimp only
  split
  · split
    · rfl
    · rfl
  · split
    · exact State.event_objs ..
    · rfl

theorem forEach_objs {α : Type} {f : α → State → State} (h : ∀ a s, (f a s).objs = s.objs) :
    ∀ (l : List α) (s : State), (forEach l f s).objs = s.objs
  | [], _ => rfl
  | a :: l, s => (forEach_objs h l (f a s)).trans (h a s)

theorem State.freeInputs_objs (before : List Op) : (s.freeInputs before).objs = s.objs := by
  refine forEach_objs (fun o s => ?_) _ s
  dsimp only
  have hcells : (if o.cells = 0 then s else s.poolSub 2 o.cells).objs = s.objs := by
    split <;> rfl
  split
  · exact hcells
  · exact (State.spillMark_objs _).trans ((State.addCnt_objs ..).trans hcells)

/-- What the end of an operation leaves of the media units, and of the rooms, legs and streams. -/
theorem State.endOp_kept (o : Op) (n : Nat) : ∃ busy ops noSlot, (s.endOp o n).media = { s.media with stallBusy := busy, ops, noSlot } ∧
    (s.endOp o n).objs = s.objs := by
  obtain ⟨busy, h⟩ := s.charge_frame o (n - o.charged)
  unfold State.endOp State.dropOps
  rw [State.freeInputs_media, State.freeInputs_objs, h]
  exact ⟨busy, _, _, rfl, rfl⟩

end Ends
/-! ### Operations of a block (R430-R433) -/

section Added
variable {s : State} {kind : OpKind} {yard cls prio budget : Nat}

/-- An operation as it becomes ready. -/
def Op.Fresh (p : Op) (kind : OpKind) (cls budget : Nat) : Prop := p.kind = kind ∧ p.cls = cls ∧ p.budget = budget ∧ p.unit = none

theorem State.holdInput_fresh (s : State) {o : Op} (h : o.Fresh kind cls budget) : (s.holdInput o).1.Fresh kind cls budget := by
  unfold State.holdInput State.draw
  dsimp -zeta only
  extract_lets queue spilling takes th want
  clear_value spilling want takes
  split
  · exact h
  · split
    · exact h
    · exact h

/-- A new operation has a slot or waits for one; nothing else of the media units differs. -/
theorem State.addOp_kept (s : State) (kind : OpKind) (yard cls prio budget : Nat) : ∃ ops noSlot next waits,
    (s.addOp kind yard cls prio budget).media = { s.media with ops, noSlot, nextOp := next, slotWaits := waits } ∧
      ∃ p ∈ ops ++ noSlot, p.Fresh kind cls budget := by
  unfold State.addOp
  extract_lets o s'
  have ho : o.Fresh kind cls budget := ⟨rfl, rfl, rfl, rfl⟩
  split
  · exact ⟨_, _, _, _, rfl, o, by simp [s'], ho⟩
  · have hfresh := s'.holdInput_fresh ho
    have hmedia := s'.holdInput_media o
    generalize s'.holdInput o = held at hfresh hmedia
    refine ⟨s.media.ops, s.media.noSlot ++ [held.1], s.media.nextOp + 1, s.media.slotWaits.filter (· != (yard, cls)) ++ [(yard, cls)], ?_,
      held.1, by simp, hfresh⟩
    dsimp only
    rw [State.modMedia_media, hmedia]
    rfl

/-- The operation of a stage of a block becomes ready. -/
theorem State.startCodec_eq {i : Nat} {x : Stream} {r : Room} {m : MixRoom} (hx : look s.objs.streams i = some x)
    (hr : look s.objs.rooms x.room = some r) (hm : s.mixOf x.room = some m) (block : Nat) :
    s.startCodec i block 1 1 = s.addOp (.codec i block 1) (s.thymeYard x.room (thymeKey i 0) r.home) 1 (s.nodePrio x.room 3) 5000 := by
  unfold State.startCodec
  rw [hx]
  dsimp only
  rw [hr, hm]
  rfl

end Added
/-! ### What follows a stage -/

section Stages
variable {s : State} {i block : Nat} {x : Stream} {r : Room} {m : MixRoom} {res : ThymeResult}

theorem State.decodedBlock_kept (s : State) (i : Nat) (x : Stream) (home : Nat) (fec overrun : Bool) : ∃ jitter,
    (s.decodedBlock i x home fec overrun).media = { s.media with jitter } ∧ (s.decodedBlock i x home fec overrun).objs = s.objs := by
  unfold State.decodedBlock
  split
  · exact ⟨s.media.jitter, rfl, rfl⟩
  · next j _ =>
    extract_lets missing fecd conceal s'
    have hm : s'.media = s.media := (NetFrame.ite (NetFrame.bump ..) (NetFrame.refl s)).media
    have ho : s'.objs = s.objs := by
      unfold s'
      split <;> rfl
    clear_value s' missing conceal
    refine ⟨put s.media.jitter i { j with
      missing, concealRun := if conceal then j.concealRun + 1 else 0, concealed := j.concealed + b2n conceal }, ?_, ho⟩
    rw [State.modMedia_media, hm]

/-- After the decode of a block its jitter buffer becomes ready. -/
theorem State.codecDone_decode (hx : look s.objs.streams i = some x) (hr : look s.objs.rooms x.room = some r) (hm : s.mixOf x.room = some m) :
    ∃ p, p ∈ (s.codecDone i block 0 res false).media.ops ++ (s.codecDone i block 0 res false).media.noSlot ∧ p.Fresh (.codec i block 1) 1 5000 ∧
      (s.codecDone i block 0 res false).media.past = s.media.past := by
  obtain ⟨jitter, hmedia, hobjs⟩ := s.decodedBlock_kept i x r.home res.fecUsed false
  have hdone : s.codecDone i block 0 res false = (s.decodedBlock i x r.home res.fecUsed false).startCodec i block 1 1 := by
    unfold State.codecDone
    rw [hx]
    dsimp only
    rw [hr]
    rfl
  rw [hdone, State.startCodec_eq (x := x) (r := r) (m := m) (by rw [hobjs, hx]) (by rw [hobjs, hr]) (by rw [State.mixOf, hmedia]; exact hm)]
  obtain ⟨ops, noSlot, next, waits, h, p, hp, hfresh⟩ := (s.decodedBlock i x r.home res.fecUsed false).addOp_kept (.codec i block 1)
    ((s.decodedBlock i x r.home res.fecUsed false).thymeYard x.room (thymeKey i 0) r.home) 1
    ((s.decodedBlock i x r.home res.fecUsed false).nodePrio x.room 3) 5000
  rw [h, hmedia]
  exact ⟨p, hp, hfresh, rfl⟩

/-- After the up-bridge the block of an input without a kernel is there. -/
theorem State.codecDone_bridge (hx : look s.objs.streams i = some x) (hr : look s.objs.rooms x.room = some r) (hm : s.mixOf x.room = some m)
    (hkernel : m.inKernel = 0) : s.codecDone i block 2 res false = s.inputDone x.room i block res.samples := by
  unfold State.codecDone
  rw [hx]
  dsimp only
  rw [hr]
  dsimp only
  unfold State.afterSource
  rw [hx]
  dsimp only
  rw [hm]
  dsimp only
  unfold State.insertAt
  rw [hr]
  exact if_pos hkernel

/-- The frame that an encode has made is sent under the number and timestamp of its output. -/
theorem State.sendFrame_media {l : Leg} {q : MixOut} {body : Bytes} (hx : look s.objs.streams i = some x) (hr : look s.objs.rooms x.room = some r)
    (hl : look s.objs.legs x.leg = some l) (hq : look s.media.mixOuts i = some q) (hbegun : q.begun = true) (hopen : x.exhausted = false)
    (hseq : q.seq < 2 ^ 48) : (s.sendFrame i (some body)).media = { s.media with
      mixOuts := put s.media.mixOuts i { q with seq := q.seq + 1, ts := (q.ts + q.frameBlocks * x.clock / 400) % 2 ^ 32 } } := by
  unfold State.sendFrame State.draw
  rw [hx, hq]
  dsimp -zeta only
  rw [hl, hr]
  dsimp -zeta only
  extract_lets seq ts step put_ cb level exts pkt s1 s2 s3 s4
  have hs : seq = q.seq := if_pos hbegun
  have hts : ts = q.ts := if_pos hbegun
  clear_value seq ts
  subst hs hts
  rw [if_neg (by simp [hopen]), if_neg (by omega)]
  refine ((NetFrame.enqueue ..).media.trans ((State.logPacket_media ..).trans (State.report_media ..))).trans ?_
  unfold s2 s1 put_
  rw [State.modStream_media, State.modMedia_media, ← hbegun]

/-- The state in which a stage of a block has ended: the operation has left its slot. -/
def State.StageEnd (s v : State) (o : Op) : Prop :=
  v.objs = (s.opSeen o).objs ∧ ∃ busy ops noSlot, v.media = { s.media with stallBusy := busy, ops, noSlot }

/-- The end of an operation of the codec firmware. -/
theorem thymeComplete_media {id kd : Nat} {o : Op} (hrun : s.runningOp id = some o) (hkind : o.kind = .codec i block kd)
    (hcycles : res.cycles ≤ o.budget) (hpast : s.media.past = []) : ∃ v, s.StageEnd v o ∧
      ((v.codecDone i block kd res false).media.past = [] →
        (thymeComplete id res s).media = (v.codecDone i block kd res false).media) := by
  have hending : s.endingOp id res.cycles = some o := by
    rw [State.endingOp, hrun, Option.bind_some, if_pos hcycles]
  have hseen : (s.opSeen o).media = s.media := State.opSeen_media hpast
  obtain ⟨busy, ops, noSlot, hmedia, hobjs⟩ := (s.opSeen o).endOp_kept o res.cycles
  refine ⟨(((s.opSeen o).endOp o res.cycles).bump (thCtr (8 * o.yard + o.unit.getD 0) 40)).addCnt (thCtr (8 * o.yard + o.unit.getD 0) 48)
    (res.cycles - o.charged), ⟨?_, busy, ops, noSlot, ?_⟩, fun hdone => ?_⟩
  · exact (State.addCnt_objs ..).trans hobjs
  · refine ((NetFrame.bump ..).trans (NetFrame.addCnt ..)).media.trans (hmedia.trans ?_)
    rw [hseen]
  · unfold thymeComplete
    rw [hending]
    dsimp only
    rw [hkind]
    exact State.underOp_media hpast hdone

end Stages
/-! ### The mix of a block (R433-R445) -/

section Mixes
variable {s : State}

/-- Neither a mix nor what was taken away differs. -/
def SameMixes (s t : State) : Prop := t.media.mixes = s.media.mixes ∧ t.media.past = s.media.past

theorem SameMixes.refl (s : State) : SameMixes s s := ⟨rfl, rfl⟩
theorem SameMixes.trans {s t u : State} (a : SameMixes s t) (b : SameMixes t u) : SameMixes s u := ⟨b.1.trans a.1, b.2.trans a.2⟩
theorem SameMixes.of_media {s t : State} (h : t.media = s.media) : SameMixes s t := by
  rw [SameMixes, h]
  exact ⟨rfl, rfl⟩

theorem SameMixes.forEach {α : Type} {f : α → State → State} (h : ∀ a s, SameMixes s (f a s)) : ∀ (l : List α) (s : State), SameMixes s (forEach l f s)
  | [], s => SameMixes.refl s
  | a :: l, s => (h a s).trans (SameMixes.forEach h l (f a s))

theorem SameMixes.addOp (s : State) (kind : OpKind) (yard cls prio budget : Nat) : SameMixes s (s.addOp kind yard cls prio budget) := by
  obtain ⟨ops, noSlot, next, waits, h, -⟩ := s.addOp_kept kind yard cls prio budget
  rw [SameMixes, h]
  exact ⟨rfl, rfl⟩

theorem SameMixes.startCodec (s : State) (i block kind blocks : Nat) : SameMixes s (s.startCodec i block kind blocks) := by
  unfold State.startCodec
  split
  · exact SameMixes.refl s
  · split
    · exact SameMixes.addOp ..
    · exact SameMixes.refl s

theorem SameMixes.frameBlock (s : State) (i block : Nat) : SameMixes s (s.frameBlock i block) := by
  unfold State.frameBlock
  split
  · exact SameMixes.refl s
  · split
    · exact SameMixes.refl s
    · exact SameMixes.trans ⟨rfl, rfl⟩ (SameMixes.startCodec ..)

theorem SameMixes.afterOutput (s : State) (room output block : Nat) : SameMixes s (s.afterOutput room output block) := by
  unfold State.afterOutput
  split
  · exact SameMixes.refl s
  · refine SameMixes.forEach (fun x s => ?_) _ s
    dsimp only
    split
    · split
      · split
        · exact SameMixes.frameBlock ..
        · exact SameMixes.startCodec ..
      · exact SameMixes.refl s
    · exact SameMixes.refl s

theorem SameMixes.insertAt {after : State → State} (hafter : ∀ s, SameMixes s (after s)) (s : State) (room inst kernel budget key block : Nat)
    (samples : List Word) : SameMixes s (s.insertAt room inst kernel budget key block samples after) := by
  unfold State.insertAt
  split
  · exact SameMixes.refl s
  · split
    · exact hafter s
    · split
      · exact SameMixes.trans (SameMixes.of_media (NetFrame.bump ..).media) (hafter _)
      · exact SameMixes.trans (SameMixes.of_media (State.modThyme_media ..)) (SameMixes.addOp ..)

/-- The inputs of a mix change powers, compressors and meters of its sources. -/
theorem mixInputs_kept (p : MixParams) (block hold decay : Nat) : ∀ (l : List (Nat × Nat)) (m : MixRoom), ∃ power inComp inMeter,
    (mixInputs p block hold decay l m).2 = { m with power, inComp, inMeter }
  | [], m => ⟨m.power, m.inComp, m.inMeter, rfl⟩
  | (i, leg) :: rest, m => by
    obtain ⟨power, inComp, inMeter, h⟩ := mixInputs_kept p block hold decay rest (m.input p i leg block hold decay).2
    exact ⟨power, inComp, inMeter, h⟩

/-- What the mix of a block leaves of its room. -/
theorem State.mixBlock_kept (s : State) (room : Nat) (r : Room) (m : MixRoom) (block : Nat) (fades : List (Nat × List Word)) :
    (s.mixBlock room r m block fades).1.ramps = m.ramps.map (fun r => { r with left := r.left - 120 }) ∧
      (s.mixBlock room r m block fades).1.taken = m.taken.filter (fun p => p.block != block) ∧
      (s.mixBlock room r m block fades).1.active = m.active ∧ (s.mixBlock room r m block fades).1.rows = m.rows := by
  obtain ⟨power, inComp, inMeter, h⟩ := mixInputs_kept (s.mixParams r) block (s.prof r 14 2) (s.prof r 16 1) (s.candidates room) m
  unfold State.mixBlock
  dsimp only
  rw [h]
  exact ⟨rfl, rfl, rfl, rfl⟩

/-- What the work of an operation makes of a mix stands. -/
theorem State.underOp_mixOf {o : Op} {room : Nat} {work : State → State} {P : MixRoom → Prop} (hpast : s.media.past = [])
    (h : (work (s.opSeen o)).media.past = [] ∧ ∃ n, (work (s.opSeen o)).mixOf room = some n ∧ P n) :
    ∃ n, (s.underOp o work).mixOf room = some n ∧ P n := by
  obtain ⟨hpast', n, hn, hP⟩ := h
  refine ⟨n, ?_, hP⟩
  rw [State.mixOf, State.underOp_media hpast hpast']
  exact hn

theorem SameMixes.mixOf {s t : State} (h : SameMixes s t) (room : Nat) : t.mixOf room = s.mixOf room := by
  rw [State.mixOf, h.1, State.mixOf]

/-- The mix of a block ends. -/
theorem mixComplete_mix {id room block : Nat} {o : Op} {m : MixRoom} {r : Room} {res : MixResult} (hrun : s.runningOp id = some o)
    (hkind : o.kind = .mix room block) (hpast : s.media.past = []) (hm : s.mixOf room = some m)
    (hr : look (s.opSeen o).objs.rooms room = some r) : ∃ n, (mixComplete id res s).mixOf room = some n ∧
      n.ramps = m.ramps.map (fun r => { r with left := r.left - 120 }) ∧ n.taken = m.taken.filter (fun p => p.block != block) ∧
      n.active = m.active ∧ n.rows = m.rows := by
  have hseen : (s.opSeen o).media = s.media := State.opSeen_media hpast
  obtain ⟨busy, ops, noSlot, hmedia, hobjs⟩ := (s.opSeen o).endOp_kept o res.cycles
  generalize hv : (((s.opSeen o).endOp o res.cycles).bump (mxCtr o.yard 0)).addCnt (mxCtr o.yard 104) (res.cycles - o.charged) = v
  have hvo : v.objs = (s.opSeen o).objs := by
    rw [← hv, State.addCnt_objs, State.bump_objs, hobjs]
  have hvm : v.media = { s.media with stallBusy := busy, ops, noSlot } := by
    rw [← hv, State.addCnt_media, State.bump_media, hmedia, hseen]
  have hmix : v.mixOf room = some m := by
    rw [State.mixOf, hvm]
    exact hm
  unfold mixComplete
  rw [hrun]
  refine State.underOp_mixOf hpast ?_
  rw [hkind]
  dsimp -zeta only
  rw [hv]
  extract_lets v'
  rw [show v'.mixOf room = some m from hmix, show look v'.objs.rooms room = some r by rw [← hr, ← hvo]]
  dsimp -zeta only
  obtain ⟨hramps, htaken, hactive, hrows⟩ := v'.mixBlock_kept room r m block res.fades
  generalize v'.mixBlock room r m block res.fades = mixed at hramps htaken hactive hrows
  obtain ⟨n, outs⟩ := mixed
  dsimp -zeta only
  extract_lets s1 s2 s3
  have h1 : s1.media.past = [] ∧ s1.mixOf room = some n := by
    refine ⟨(congrArg Media.past hvm).trans hpast, (look_adj_same ..).trans ?_⟩
    rw [show look v'.media.mixes room = some m from hmix, Option.map_some]
  have h2 : SameMixes s1 s2 := SameMixes.of_media (NetFrame.addCnt ..).media
  have h3 : SameMixes s2 s3 := by
    refine SameMixes.forEach (fun x s => ?_) _ s2
    split
    · exact ⟨rfl, rfl⟩
    · exact SameMixes.refl s
  have h4 := (h2.trans h3).trans (SameMixes.forEach (fun x s => SameMixes.insertAt (fun s => SameMixes.afterOutput s room x.1 block) s room
    (outInst room x.1) n.outKernel n.outBudget (2 ^ 40 + x.1) block (x.2.1.map wordOf)) outs s3)
  exact ⟨h4.2.trans h1.1, n, (h4.mixOf room).trans h1.2, hramps, htaken, hactive, hrows⟩

end Mixes
/-! ### Mix control (R446-R448) -/

section Control
variable {s : State} {e : MixCtlRead} {l : Leg} {r : Room} {m : MixRoom}

/-- The settings that an entry gives a leg. -/
def ctlSettings (b : Bytes) : LegMix :=
  { inGain := sgn 16 (le b 4 2), outGain := sgn 16 (le b 6 2), pin := bit (le b 8 1) 0, hearSelf := bit (le b 8 1) 1
    nodes := ctlNodes b (le b 9 1) }

theorem State.setUnique_kept (s : State) (room n : Nat) :
    (s.setUnique room n).objs.legs = s.objs.legs ∧ (s.setUnique room n).hostMem = s.hostMem := by
  unfold State.setUnique
  split
  · exact ⟨rfl, rfl⟩
  · split
    · exact ⟨rfl, rfl⟩
    · exact ⟨rfl, rfl⟩

/-- An entry that is accepted. -/
theorem State.ctlEntry_accepts (hl : look s.objs.legs e.leg = some l) (hr : look s.objs.rooms l.room = some r) (hm : s.mixOf l.room = some m)
    (hbase : s.fld 0x0C (8 * r.owner) 8 ≠ 0) (hrun : s.running r.owner = true) (hok : e.ok = true) (hissue : (s.host r.owner).canIssue = true)
    (hset : le e.data 0 4 ≠ 0) (hsame : le e.data 0 4 = le e.data 120 4) (hnew : le e.data 0 4 ≠ l.mixSeq)
    (hstatus : s.ctlStatus e.leg l e.data = 0) :
    (s.ctlEntry e).hostRead r.owner (s.fld 0x0C (8 * r.owner) 8 + 128 * e.leg + 112) 5 = leBytes 4 (le e.data 0 4) ++ [0] ∧
      look (s.ctlEntry e).objs.legs e.leg = some { l with mixSeq := le e.data 0 4, mix := ctlSettings e.data } := by
  have hread := State.hostRead_hostWrite (addr := s.fld 0x0C (8 * r.owner) 8 + 128 * e.leg + 112) hissue
    (leBytes 4 (le e.data 0 4) ++ leBytes 1 0) []
  rw [List.append_nil, List.length_append, length_leBytes, length_leBytes] at hread
  unfold State.ctlEntry
  rw [hl]
  dsimp -zeta only
  rw [hr, hm]
  dsimp -zeta only
  extract_lets base seq st s1 new s2 ctl
  have hst : st = 0 := hstatus
  rw [if_neg (by simp [base, hbase, hrun]), if_neg (by simp [hok]), if_neg (by simp [seq, hset, hsame.symm, hnew]), if_pos hst]
  obtain ⟨hlegs, hmem⟩ := s2.setUnique_kept l.room (max m.unique ((outputsIn (s2.rowsFor l.room m ctl (s2.setLegs m))).length - m.reserved))
  refine ⟨(State.hostRead_of_hostMem hmem ..).trans ?_, ?_⟩
  · refine (State.hostRead_of_hostMem (s := s1) rfl ..).trans ?_
    unfold s1
    rw [hst]
    exact hread
  · rw [hlegs]
    refine (look_adj_same ..).trans ?_
    rw [show look (s1.bump (mxCtr r.home 80)).objs.legs e.leg = some l from hl]
    rfl

/-- A read of an entry that fails. -/
theorem State.ctlEntry_fails (hl : look s.objs.legs e.leg = some l) (hr : look s.objs.rooms l.room = some r) (hm : s.mixOf l.room = some m)
    (hbase : s.fld 0x0C (8 * r.owner) 8 ≠ 0) (hrun : s.running r.owner = true) (hok : e.ok = false) :
    s.ctlEntry e = s.hostFailed r.owner e.status := by
  unfold State.ctlEntry
  rw [hl]
  dsimp only
  rw [hr, hm]
  dsimp only
  rw [if_neg (by simp [hbase, hrun]), if_pos hok]

theorem mixControlPoll_one (hset : s.fld 0x0C 32 2 ≠ 0) (htick : s.tick % s.fld 0x0C 32 2 = 0) : mixControlPoll [e] s = s.ctlEntry e := by
  unfold mixControlPoll
  exact if_neg (by simp [hset, htick])

end Control
/-- Settles O37: the stages of a block, its mix, and the entries of mix control. -/
theorem blocksAreMixed : Obligations.BlocksAreMixed := by
  intro t s z hz
  subst hz
  refine ⟨fun id o i block kd x r m res hrun hkind hcycles hpast hx hr hm => ?_, fun id o room block m r res hrun hkind hpast hm hr => ?_,
    fun e l r m hset htick hl hr hm hbase hrun => ⟨fun hok hissue hseq hsame hnew hstatus => ?_, fun hok => ?_⟩⟩
  · obtain ⟨v, ⟨hobjs, busy, ops, noSlot, hmedia⟩, hend⟩ := thymeComplete_media (s := s.at t) (res := res) hrun hkind hcycles hpast
    have hpast' : v.media.past = [] := (congrArg Media.past hmedia).trans hpast
    have hx' : look v.objs.streams i = some x := by rw [hobjs, hx]
    have hr' : look v.objs.rooms x.room = some r := by rw [hobjs, hr]
    have hm' : v.mixOf x.room = some m := by
      rw [State.mixOf, hmedia]
      exact hm
    refine ⟨fun hkd => ?_, fun hkd hkernel => ?_, fun hkd l q hl hq hbegun hopen hnum => ?_⟩
    · subst hkd
      obtain ⟨p, hp, ⟨hpkind, hcls, hbudget, hunit⟩, hdone⟩ := State.codecDone_decode (block := block) (res := res) hx' hr' hm'
      have hmedia' := hend (hdone.trans hpast')
      refine ⟨_, p, rfl, ?_, hpkind, hcls, hbudget, hunit⟩
      rw [hmedia']
      exact hp
    · subst hkd
      have hdone := State.codecDone_bridge (block := block) (res := res) hx' hr' hm' hkernel
      have hmedia' := hend (by rw [hdone]; exact hpast')
      refine ⟨_, { m with inDone := { stream := i, block, samples := res.samples } :: m.inDone.filter (fun p => decide (block < p.block + 4)) },
        rfl, ?_, List.mem_cons_self⟩
      rw [State.mixOf, hmedia', hdone]
      refine (look_adj_same ..).trans ?_
      rw [show look v.media.mixes x.room = some m from hm']
      rfl
    · subst hkd
      have hdone := State.sendFrame_media (s := v) (body := res.payload) hx' hr' (by rw [hobjs, hl]) (by rw [hmedia]; exact hq) hbegun hopen hnum
      have hsend : v.codecDone i block 4 res false = v.sendFrame i (some res.payload) := by
        unfold State.codecDone
        rw [hx']
        dsimp only
        rw [hr']
        rfl
      have hmedia' := hend (by rw [hsend, hdone]; exact hpast')
      refine ⟨_, rfl, ?_⟩
      rw [hmedia', hsend, hdone]
      exact look_put_same ..
  · obtain ⟨n, hn, h⟩ := mixComplete_mix (s := s.at t) (res := res) hrun hkind hpast hm hr
    exact ⟨_, n, rfl, hn, h⟩
  · have hend := mixControlPoll_one (s := s.at t) (e := e) hset htick
    obtain ⟨hread, hleg⟩ := State.ctlEntry_accepts (s := s.at t) hl hr hm hbase hrun hok hissue hseq hsame hnew hstatus
    exact ⟨_, congrArg Host.Outcome.next hend, hread, hleg⟩
  · exact congrArg Host.Outcome.next ((mixControlPoll_one (s := s.at t) (e := e) hset htick).trans
      (State.ctlEntry_fails (s := s.at t) hl hr hm hbase hrun hok))

end Sys2Proof.Machine
end

section
/-! PROOFS. Time bases and PTP (12 R515-R519): what changes one time base, the messages it takes and those it sends. -/
namespace Sys2Proof.Machine

/-! ### Changes of one time base -/

section One
variable {s t u : State} {n : Nat}

theorem State.tb_of_tbs (h : t.tbs = s.tbs) (k : Nat) : t.tb k = s.tb k := by rw [State.tb, h, State.tb]

/-- No other time base differs, nor does what a reading depends on. -/
structure OneTb (n : Nat) (s t : State) : Prop where
  others : ∀ k, k ≠ n → t.tb k = s.tb k
  now : t.now = s.now
  power : t.power = s.power
  gens : t.gens = s.gens

theorem OneTb.refl (s : State) : OneTb n s s := ⟨fun _ _ => rfl, rfl, rfl, rfl⟩
theorem OneTb.trans (a : OneTb n s t) (b : OneTb n t u) : OneTb n s u :=
  ⟨fun k hk => (b.others k hk).trans (a.others k hk), b.now.trans a.now, b.power.trans a.power, b.gens.trans a.gens⟩
theorem NetFrame.oneTb (a : NetFrame s t) : OneTb n s t := ⟨fun k _ => State.tb_of_tbs a.tbs k, a.now, a.power, a.gens⟩
theorem OneTb.modTb (s : State) (f : TimeBase → TimeBase) : OneTb n s (s.modTb n f) := ⟨fun _ hk => State.tb_modTb_ne s (Ne.symm hk) f, rfl, rfl, rfl⟩

theorem State.tb_event (s : State) (src payload who k : Nat) : (s.event src payload who).tb k = s.tb k := State.tb_of_tbs (NetFrame.event ..).tbs k

/-- A time base that was carried to now reads what it holds. -/
theorem State.tbVal_settled (h : (t.tb n).at_ = t.now) : t.tbVal n = (t.tb n).val := by
  rw [State.tbVal, h, Nat.sub_self, Nat.zero_mul, Nat.add_zero]

theorem State.tb_tbSettle (s : State) (n : Nat) : ((s.tbSettle n).tb n).val = s.tbVal n ∧ ((s.tbSettle n).tb n).at_ = s.now := by
  rw [State.tbSettle, State.tb_modTb]
  exact ⟨rfl, rfl⟩

/-- The state that a time base goes to, and when the present run in or out of the locked states began. -/
def TimeBase.gone (tb : TimeBase) (x : TbState) (now : Nat) : TimeBase :=
  if tb.state = x then tb
  else { tb with
    state := x
    since := if tb.state.counts = x.counts then tb.since else now
    holdAt := if x = .holdover then now else tb.holdAt }

theorem State.tb_tbGo (s : State) (n : Nat) (x : TbState) : (s.tbGo n x).tb n = (s.tb n).gone x s.now := by
  unfold State.tbGo TimeBase.gone
  dsimp only
  split
  · rfl
  · rw [State.tb_event, State.tb_bump', State.tb_modTb]

theorem TimeBase.gone_state (tb : TimeBase) (x : TbState) (now : Nat) : (tb.gone x now).state = x := by
  unfold TimeBase.gone
  split
  · assumption
  · rfl

/-- Of a time base that goes to a state nothing differs but the state and its times. -/
theorem TimeBase.gone_kept {α : Type} {g : TimeBase → α}
    (hg : ∀ (tb : TimeBase) (state : TbState) (since holdAt : Nat), g { tb with state, since, holdAt } = g tb) (tb : TimeBase) (x : TbState) (now : Nat) :
    g (tb.gone x now) = g tb := by
  unfold TimeBase.gone
  split
  · rfl
  · exact hg ..

theorem OneTb.tbGo (s : State) (x : TbState) : OneTb n s (s.tbGo n x) := by
  unfold State.tbGo
  dsimp only
  split
  · exact OneTb.refl s
  · exact (OneTb.modTb s _).trans ((NetFrame.bump ..).trans (NetFrame.event ..)).oneTb

theorem OneTb.tbGm (s : State) (gm steps : Nat) (utc : Int) : OneTb n s (s.tbGm n gm steps utc) := by
  unfold State.tbGm State.when
  dsimp only
  split
  · exact (OneTb.modTb s _).trans (NetFrame.event ..).oneTb
  · exact OneTb.modTb s _

theorem State.tb_tbGm (s : State) (gm steps : Nat) (utc : Int) : (s.tbGm n gm steps utc).tb n = { s.tb n with gm, steps, utc } := by
  unfold State.tbGm State.when
  dsimp only
  split
  · rw [State.tb_event, State.tb_modTb]
  · rw [State.tb_modTb]

theorem OneTb.tbMaster (s : State) : OneTb n s (s.tbMaster n) := by
  unfold State.tbMaster
  exact ((OneTb.tbGm s ..).trans ((OneTb.modTb _ _).trans (OneTb.modTb _ _))).trans (OneTb.tbGo ..)

theorem OneTb.tbFollow (s : State) (ps : Nat) (f : Foreign) : OneTb n s (s.tbFollow n ps f) := by
  unfold State.tbFollow
  extract_lets tb same p2p s'
  have hs' : OneTb n s s' := (OneTb.tbGm s ..).trans (OneTb.modTb _ _)
  clear_value s'
  split
  · exact (hs'.trans (OneTb.modTb ..)).trans (OneTb.tbGo ..)
  · exact hs'

/-- A port that becomes MASTER. -/
theorem State.tb_tbMaster (s : State) (n : Nat) : ((s.tbMaster n).tb n).state = .master ∧ ((s.tbMaster n).tb n).f = 0 ∧
    ((s.tbMaster n).tb n).portState = 6 ∧ ((s.tbMaster n).tb n).foreign = (s.tb n).foreign := by
  unfold State.tbMaster
  dsimp only
  rw [State.tb_tbGo, State.tb_modTb, State.tbSettle, State.tb_modTb, State.tb_tbGm]
  exact ⟨TimeBase.gone_state .., TimeBase.gone_kept (g := (·.f)) (fun _ _ _ _ => rfl) .., TimeBase.gone_kept (g := (·.portState)) (fun _ _ _ _ => rfl) ..,
    TimeBase.gone_kept (g := (·.foreign)) (fun _ _ _ _ => rfl) ..⟩

theorem State.foreign_tbFollow (s : State) (n ps : Nat) (f : Foreign) : ((s.tbFollow n ps f).tb n).foreign = (s.tb n).foreign := by
  unfold State.tbFollow
  extract_lets tb same p2p s'
  have hs' : (s'.tb n).foreign = (s.tb n).foreign := by
    unfold s'
    rw [State.tb_modTb, State.tb_tbGm]
    split <;> rfl
  clear_value s'
  split
  · rw [State.tb_tbGo, State.tb_modTb]
    exact (TimeBase.gone_kept (g := (·.foreign)) (fun _ _ _ _ => rfl) ..).trans hs'
  · exact hs'

/-- The best master clock algorithm changes no foreign master. -/
theorem State.tbDecide_foreign (s : State) (n : Nat) : OneTb n s (s.tbDecide n) ∧ ((s.tbDecide n).tb n).foreign = (s.tb n).foreign := by
  unfold State.tbDecide
  split
  · exact ⟨OneTb.refl s, rfl⟩
  · split
    · exact ⟨OneTb.refl s, rfl⟩
    · exact ⟨OneTb.tbMaster s, (s.tb_tbMaster n).2.2.2⟩
  · exact ⟨OneTb.tbFollow .., s.foreign_tbFollow ..⟩
  · exact ⟨OneTb.tbFollow .., s.foreign_tbFollow ..⟩

end One
/-! ### Messages (R517-R519) -/

section Messages
variable {s : State} {l rx n : Nat} {frame : Bytes} {m : PtpMsg}

/-- The receive time of a message in 2^-16 ns. -/
def State.rxTime (s : State) (n rx : Nat) : Int := ((s.tbAt n (min rx s.now) / 2 ^ 16 : Nat) : Int)

/-- The first time base whose role, port and domain match takes a message. -/
theorem ptpReceive_takes (hn : n < 4) (hptp : s.tbPtp n = true) (hport : s.tbLport n = l) (hread : readPtp frame = some m)
    (hdomain : s.tbDomain n = m.domain) (hfirst : ∀ k, k < n → s.tbPtp k = true → s.tbLport k = l → s.tbDomain k ≠ m.domain)
    (hsupported : s.ptpSupported n m = true) : ptpReceive l rx frame s = s.tbMessage n m (s.rxTime n rx) := by
  have hfind : ([0, 1, 2, 3].filter (fun n => s.tbPtp n && s.tbLport n == l)).find? (fun n => s.tbDomain n == m.domain) = some n := by
    rw [List.find?_filter, show [0, 1, 2, 3] = List.range 4 from rfl]
    refine List.find?_range_eq_some.mpr ⟨by simp [hptp, hport, hdomain], List.mem_range.mpr hn, fun k hk => ?_⟩
    by_cases hnamed : s.tbPtp k = true ∧ s.tbLport k = l
    · simp [hfirst k hk hnamed.1 hnamed.2]
    · simp only [Bool.and_eq_true, beq_iff_eq, Bool.not_eq_true', decide_eq_false_iff_not]
      exact fun h => hnamed h.1
  unfold ptpReceive
  dsimp only
  rw [hread]
  dsimp only
  rw [hfind]
  exact if_pos hsupported

/-- An Announce that is not acceptable. -/
theorem State.tbMessage_refused (hkind : m.kind = ptAnnounce) (hsrc : s.gmAccepts n m.src = false) (rx : Int) :
    s.tbMessage n m rx = s.bump (tbCtr n 136) := by
  unfold State.tbMessage State.tbAnnounce
  dsimp only
  rw [if_pos hkind, if_pos hsrc]

/-- An acceptable Announce enters its sender among the foreign masters. -/
theorem State.tbMessage_announce (hkind : m.kind = ptAnnounce) (hsrc : s.gmAccepts n m.src = true) (hown : m.src ≠ s.clockId n) (rx : Int) :
    OneTb n s (s.tbMessage n m rx) ∧ ((s.tbMessage n m rx).tb n).foreign =
      m.foreign (s.now :: (((((s.tb n).foreign.find? (fun f => f.src == m.src && f.port == m.port)).map (·.times)).getD []).take 3)) ::
        (s.tb n).foreign.filter (fun f => !(f.src == m.src && f.port == m.port)) := by
  unfold State.tbMessage State.tbAnnounce
  extract_lets balls asks s1 old f
  rw [if_pos hkind, if_neg (by simp [hsrc]), if_neg (show m.src ≠ s1.clockId n from hown)]
  refine ⟨((NetFrame.bump ..).oneTb.trans (OneTb.modTb s1 _)).trans (State.tbDecide_foreign _ n).1, (State.tbDecide_foreign _ n).2.trans ?_⟩
  rw [State.tb_modTb]
  rfl

/-- A Delay_Resp of the master that answers the newest request. -/
theorem State.tbDelayResp_answers {t3 a : Int} (hdelay : s.tbP2p n = false) (hparent : s.fromParent n m = true)
    (hanswers : m.answers = (s.clockId n, 1)) (hsent : (s.tb n).reqSent = some (m.seq, some t3)) (hdiff : (s.tb n).msDiff = some a) :
    s.tbDelayResp n m = (s.modTb n (fun tb => { tb with reqSent := none })).tbDelay n
      ((a + (m.time 0 * 65536 - t3 - m.correction)) / 2) := by
  unfold State.tbDelayResp
  rw [if_neg (by simp [hdelay, hparent, hanswers]), hsent, hdiff]
  exact if_pos rfl

theorem State.tbMessage_delayResp {t3 a : Int} (hkind : m.kind = ptDelayResp) (hdelay : s.tbP2p n = false) (hparent : s.fromParent n m = true)
    (hanswers : m.answers = (s.clockId n, 1)) (hsent : (s.tb n).reqSent = some (m.seq, some t3)) (hdiff : (s.tb n).msDiff = some a) (rx : Int) :
    OneTb n s (s.tbMessage n m rx) ∧ (s.tbMessage n m rx).tb n = { s.tb n with
      reqSent := none, delays := ((a + (m.time 0 * 65536 - t3 - m.correction)) / 2 :: (s.tb n).delays).take 8 } := by
  have hmsg : s.tbMessage n m rx = (s.bump (tbCtr n 88)).tbDelayResp n m := by
    unfold State.tbMessage
    dsimp only
    rw [hkind, if_neg (by decide), if_neg (by decide), if_neg (by decide), if_pos rfl]
  rw [hmsg, State.tbDelayResp_answers (s := s.bump (tbCtr n 88)) hdelay hparent hanswers hsent hdiff, State.tbDelay]
  refine ⟨(NetFrame.bump ..).oneTb.trans ((OneTb.modTb _ _).trans (OneTb.modTb _ _)), ?_⟩
  rw [State.tb_modTb, State.tb_modTb, State.tb_bump']

/-- A time base that takes an offset, with what the servo gives and the run of offsets within the lock. -/
def TimeBase.steered (tb : TimeBase) (o : Int) (servo : Int × Int × Bool) (run now : Nat) : TimeBase :=
  { tb with
    f := servo.1, fInt := servo.2.1, offset := some o, offsetAt := now, lockRun := run
    portState := if tb.portState = 8 then 9 else tb.portState
    clampedSince := if servo.2.2 then (if tb.clampedSince.isSome then tb.clampedSince else some now) else none
    slewLimited := tb.slewLimited && servo.2.2
    slewSaid := tb.slewSaid && servo.2.2 }

theorem State.tbOffset_eq (hfree : (s.tb n).state ≠ .free) (hmaster : (s.tb n).state ≠ .master) (hset : (s.tb n).setAt = none) (o : Int) :
    s.tbOffset n o = ((s.tbSettle n).modTb n (fun tb => tb.steered o
      (servoStep o (s.tb n).fInt (s.tbFld n 16 2) (s.tbFld n 18 1) (s.tbFld n 12 4))
      (lockStep (s.tb n).state (s.tb n).lockRun o (s.tbFld n 20 4) (s.tbFld n 24 4) (s.tbFld n 19 1)).2 s.now)).tbGo n
        (lockStep (s.tb n).state (s.tb n).lockRun o (s.tbFld n 20 4) (s.tbFld n 24 4) (s.tbFld n 19 1)).1 := by
  unfold State.tbOffset
  dsimp only
  rw [if_neg (not_or.mpr ⟨hfree, hmaster⟩), hset]
  exact if_neg Bool.false_ne_true.symm

/-- The servo and the lock take a new offset. -/
theorem State.tbOffset_takes (hfree : (s.tb n).state ≠ .free) (hmaster : (s.tb n).state ≠ .master) (hset : (s.tb n).setAt = none) (o : Int) :
    OneTb n s (s.tbOffset n o) ∧ ((s.tbOffset n o).tb n).offset = some o ∧ ((s.tbOffset n o).tb n).offsetAt = s.now ∧
      ((s.tbOffset n o).tb n).f = (servoStep o (s.tb n).fInt (s.tbFld n 16 2) (s.tbFld n 18 1) (s.tbFld n 12 4)).1 ∧
      ((s.tbOffset n o).tb n).fInt = (servoStep o (s.tb n).fInt (s.tbFld n 16 2) (s.tbFld n 18 1) (s.tbFld n 12 4)).2.1 ∧
      ((s.tbOffset n o).tb n).state = (lockStep (s.tb n).state (s.tb n).lockRun o (s.tbFld n 20 4) (s.tbFld n 24 4) (s.tbFld n 19 1)).1 ∧
      (s.tbOffset n o).tbVal n = s.tbVal n := by
  rw [State.tbOffset_eq hfree hmaster hset]
  generalize servoStep o (s.tb n).fInt (s.tbFld n 16 2) (s.tbFld n 18 1) (s.tbFld n 12 4) = servo
  generalize lockStep (s.tb n).state (s.tb n).lockRun o (s.tbFld n 20 4) (s.tbFld n 24 4) (s.tbFld n 19 1) = lock
  obtain ⟨hval, hat⟩ := s.tb_tbSettle n
  have hone : OneTb n s (((s.tbSettle n).modTb n (fun tb => tb.steered o servo lock.2 s.now)).tbGo n lock.1) :=
    ((OneTb.modTb s _).trans (OneTb.modTb _ _)).trans (OneTb.tbGo ..)
  have htb : (((s.tbSettle n).modTb n (fun tb => tb.steered o servo lock.2 s.now)).tbGo n lock.1).tb n =
      (((s.tbSettle n).tb n).steered o servo lock.2 s.now).gone lock.1 s.now := by
    rw [State.tb_tbGo, State.tb_modTb]
    rfl
  have hsettled := State.tbVal_settled (n := n) (t := ((s.tbSettle n).modTb n (fun tb => tb.steered o servo lock.2 s.now)).tbGo n lock.1) (by
    rw [htb, hone.now]
    exact (TimeBase.gone_kept (g := (·.at_)) (fun _ _ _ _ => rfl) ..).trans hat)
  refine ⟨hone, ?_⟩
  rw [hsettled, htb]
  exact ⟨TimeBase.gone_kept (g := (·.offset)) (fun _ _ _ _ => rfl) .., TimeBase.gone_kept (g := (·.offsetAt)) (fun _ _ _ _ => rfl) ..,
    TimeBase.gone_kept (g := (·.f)) (fun _ _ _ _ => rfl) .., TimeBase.gone_kept (g := (·.fInt)) (fun _ _ _ _ => rfl) .., TimeBase.gone_state ..,
    (TimeBase.gone_kept (g := (·.val)) (fun _ _ _ _ => rfl) ..).trans hval⟩

/-- A one-step Sync of the master, once there is a delay, gives an offset. -/
theorem State.tbMessage_sync (hkind : m.kind = ptSync) (hstep : m.twoStep = false) (hparent : s.fromParent n m = true)
    (hdelays : (s.tb n).delays ≠ []) (rx : Int) : s.tbMessage n m rx = ((s.bump (tbCtr n 64)).modTb n (fun tb => { tb with
      msDiff := some (rx - rxLatency (s.tbMode n) - m.time 0 * 65536 - m.correction) })).tbOffset n
        (rx - rxLatency (s.tbMode n) - m.time 0 * 65536 - m.correction - (s.tb n).pathDelay - s.tbSFld n 40 4 * 65536) := by
  have hmsg : s.tbMessage n m rx = (s.bump (tbCtr n 64)).tbSyncMsg n m (rx - rxLatency (s.tbMode n)) := by
    unfold State.tbMessage
    dsimp only
    rw [hkind, if_neg (by decide), if_pos rfl]
  have hparent' : (s.bump (tbCtr n 64)).fromParent n m = true := hparent
  rw [hmsg]
  unfold State.tbSyncMsg
  rw [hparent', if_neg (by decide), if_pos hkind, hstep, if_neg Bool.false_ne_true]
  unfold State.tbSync
  dsimp only
  rw [State.tb_modTb, State.tb_bump', if_neg hdelays]
  rfl

theorem State.tbMessage_servo (hkind : m.kind = ptSync) (hstep : m.twoStep = false) (hparent : s.fromParent n m = true)
    (hdelays : (s.tb n).delays ≠ []) (hfree : (s.tb n).state ≠ .free) (hmaster : (s.tb n).state ≠ .master) (hset : (s.tb n).setAt = none) {rx o : Int}
    (ho : o = rx - rxLatency (s.tbMode n) - m.time 0 * 65536 - m.correction - (s.tb n).pathDelay - s.tbSFld n 40 4 * 65536) :
    OneTb n s (s.tbMessage n m rx) ∧ ((s.tbMessage n m rx).tb n).offset = some o ∧ ((s.tbMessage n m rx).tb n).offsetAt = s.now ∧
      ((s.tbMessage n m rx).tb n).f = (servoStep o (s.tb n).fInt (s.tbFld n 16 2) (s.tbFld n 18 1) (s.tbFld n 12 4)).1 ∧
      ((s.tbMessage n m rx).tb n).fInt = (servoStep o (s.tb n).fInt (s.tbFld n 16 2) (s.tbFld n 18 1) (s.tbFld n 12 4)).2.1 ∧
      ((s.tbMessage n m rx).tb n).state = (lockStep (s.tb n).state (s.tb n).lockRun o (s.tbFld n 20 4) (s.tbFld n 24 4) (s.tbFld n 19 1)).1 ∧
      (s.tbMessage n m rx).tbVal n = s.tbVal n := by
  have hmsg := State.tbMessage_sync hkind hstep hparent hdelays rx
  rw [← ho] at hmsg
  obtain ⟨v, hv⟩ : ∃ v, v = (s.bump (tbCtr n 64)).modTb n (fun tb => { tb with
      msDiff := some (rx - rxLatency (s.tbMode n) - m.time 0 * 65536 - m.correction) }) := ⟨_, rfl⟩
  have htb : v.tb n = { s.tb n with msDiff := some (rx - rxLatency (s.tbMode n) - m.time 0 * 65536 - m.correction) } := by
    rw [hv, State.tb_modTb, State.tb_bump']
  have hone : OneTb n s v := by
    rw [hv]
    exact (NetFrame.bump ..).oneTb.trans (OneTb.modTb _ _)
  have hfld : ∀ off w, v.tbFld n off w = s.tbFld n off w := fun off w => by
    rw [hv]
    rfl
  have hval : v.tbVal n = s.tbVal n := by
    rw [State.tbVal, htb, hone.now, State.refPs, hone.power]
    rfl
  rw [← hv] at hmsg
  obtain ⟨hone', hoffset, hat, hf, hfInt, hstate, hval'⟩ := State.tbOffset_takes (s := v) (n := n) (by rw [htb]; exact hfree)
    (by rw [htb]; exact hmaster) (by rw [htb]; exact hset) o
  rw [hmsg]
  simp only [htb, hfld] at hf hfInt hstate
  exact ⟨hone.trans hone', hoffset, hat.trans hone.now, hf, hfInt, hstate, hval'.trans hval⟩

end Messages
/-! ### Messages that are sent (R517, R527) -/

section Sent
variable {s : State} {n : Nat} {k : PtpKind}

/-- Neither a time base, an object nor a generation differs. -/
def SentOnly (s t : State) : Prop := t.tbs = s.tbs ∧ t.objs = s.objs ∧ t.gens = s.gens

theorem SentOnly.refl (s : State) : SentOnly s s := ⟨rfl, rfl, rfl⟩
theorem SentOnly.trans {s t u : State} (a : SentOnly s t) (b : SentOnly t u) : SentOnly s u :=
  ⟨b.1.trans a.1, b.2.1.trans a.2.1, b.2.2.trans a.2.2⟩
theorem SentOnly.ite {s t u : State} {c : Prop} [Decidable c] (a : SentOnly s t) (b : SentOnly s u) : SentOnly s (if c then t else u) := by
  split
  · exact a
  · exact b
theorem SentOnly.event (s : State) (src payload who : Nat) : SentOnly s (s.event src payload who) :=
  ⟨(NetFrame.event ..).tbs, State.event_objs .., (NetFrame.event ..).gens⟩
theorem SentOnly.bump (s : State) (k : Nat) : SentOnly s (s.bump k) := ⟨rfl, rfl, rfl⟩
theorem SentOnly.modNet (s : State) (f : Net → Net) : SentOnly s (s.modNet f) := ⟨rfl, rfl, rfl⟩

theorem SentOnly.dropN (s : State) (f : QFrame) (key k yard : Nat) : SentOnly s (s.dropN f key k yard) := by
  unfold State.dropN State.countFor
  split
  · exact ⟨(NetFrame.addCnt ..).tbs, State.addCnt_objs .., (NetFrame.addCnt ..).gens⟩
  · exact SentOnly.modNet ..

theorem SentOnly.spillMark (s : State) : SentOnly s s.spillMark := ⟨(NetFrame.spillMark s).tbs, s.spillMark_objs, (NetFrame.spillMark s).gens⟩

theorem SentOnly.poolAdd (s : State) (k c : Nat) : SentOnly s (s.poolAdd k c) := by
  refine ⟨(NetFrame.poolAdd ..).tbs, ?_, (NetFrame.poolAdd ..).gens⟩
  rw [State.poolAdd_frame]

theorem SentOnly.enqueue (s : State) (l c : Nat) (f : QFrame) : SentOnly s (s.enqueue l c f) := by
  unfold State.enqueue
  extract_lets y f1 s1 legQueue q store k hostTx f2
  have h1 : SentOnly s s1 := SentOnly.dropN ..
  have hstore : ∀ f s, SentOnly s (store f s) := fun f s => SentOnly.ite (SentOnly.modNet ..) (SentOnly.modNet ..)
  clear_value store q legQueue hostTx
  refine SentOnly.ite (h1.trans (SentOnly.dropN ..)) (h1.trans ?_)
  split
  · have hspill : ∀ t : State, SentOnly t (t.spillFrame y f2) := fun t => (SentOnly.modNet ..).trans (SentOnly.dropN ..)
    refine SentOnly.trans ?_ (SentOnly.spillMark _)
    refine SentOnly.trans ?_ (hstore _ _)
    refine SentOnly.trans ?_ (hspill _)
    exact SentOnly.ite (SentOnly.modNet ..) (SentOnly.refl s1)
  · exact hstore ..
  · exact (SentOnly.poolAdd ..).trans (hstore ..)
  · refine SentOnly.ite (SentOnly.trans ?_ (SentOnly.dropN ..)) ((SentOnly.dropN ..).trans (SentOnly.dropN ..))
    exact SentOnly.ite (SentOnly.refl s1) ((SentOnly.modNet ..).trans (SentOnly.event ..))

theorem SentOnly.ptpQueue (s : State) (n kind seq : Nat) (corr : Int) (body : Bytes) (dest : Option (Nat × Nat)) (rxAt : Int) :
    SentOnly s (s.ptpQueue n kind seq corr body dest rxAt) := by
  unfold State.ptpQueue
  extract_lets s1
  have h1 : SentOnly s s1 := by
    unfold s1
    split
    · exact SentOnly.bump ..
    · exact SentOnly.refl s
  clear_value s1
  have hdst : ∀ kind, SentOnly s1 (s1.ptpDst n kind dest).2 := fun kind => by
    unfold State.ptpDst
    dsimp only
    split
    · exact SentOnly.refl s1
    · exact SentOnly.refl s1
    · split
      · exact SentOnly.refl s1
      · exact ⟨rfl, rfl, rfl⟩
    · exact SentOnly.refl s1
  have hframe : SentOnly s1 (s1.ptpFrame n kind seq corr body dest).2 := by
    unfold State.ptpFrame State.draw
    dsimp only
    refine (hdst kind).trans ?_
    split
    · exact SentOnly.refl _
    · exact ⟨rfl, rfl, rfl⟩
  exact (h1.trans hframe).trans (SentOnly.enqueue ..)

theorem SentOnly.forEach {α : Type} {f : α → State → State} (h : ∀ a s, SentOnly s (f a s)) : ∀ (l : List α) (s : State), SentOnly s (forEach l f s)
  | [], s => SentOnly.refl s
  | a :: l, s => (h a s).trans (SentOnly.forEach h l (f a s))

/-- A time base that sends a message takes the next sequenceId of its type. -/
theorem ptpTransmit_sends (hn : n < 4) (hsends : s.ptpSends n k = true) : (∀ j, j ≠ n → (ptpTransmit n k s).tb j = s.tb j) ∧
    (ptpTransmit n k s).objs = s.objs ∧ (ptpTransmit n k s).gens = s.gens ∧
    (ptpTransmit n k s).tb n = { s.tb n with
      seqs := put (s.tb n).seqs (ptpCode k) ((lookD (s.tb n).seqs (ptpCode k) 0 + 1) % 65536)
      reqSent := if k = .delayReq ∨ k = .pdelayReq then some (lookD (s.tb n).seqs (ptpCode k) 0, none) else (s.tb n).reqSent } := by
  obtain ⟨s1, hs1⟩ : ∃ s1, s1 = if k = .delayReq ∨ k = .pdelayReq then (s.ptpSeq n (ptpCode k)).2.modTb n (fun tb =>
      { tb with reqSent := some ((s.ptpSeq n (ptpCode k)).1, none) }) else (s.ptpSeq n (ptpCode k)).2 := ⟨_, rfl⟩
  have h1 : OneTb n s s1 ∧ s1.objs = s.objs ∧ s1.tb n = { s.tb n with
      seqs := put (s.tb n).seqs (ptpCode k) ((lookD (s.tb n).seqs (ptpCode k) 0 + 1) % 65536)
      reqSent := if k = .delayReq ∨ k = .pdelayReq then some (lookD (s.tb n).seqs (ptpCode k) 0, none) else (s.tb n).reqSent } := by
    subst hs1
    unfold State.ptpSeq
    dsimp only
    split
    · exact ⟨(OneTb.modTb s _).trans (OneTb.modTb _ _), rfl, by rw [State.tb_modTb, State.tb_modTb]⟩
    · exact ⟨OneTb.modTb s _, rfl, State.tb_modTb ..⟩
  obtain ⟨hone, hobjs, htb⟩ := h1
  have hsent : SentOnly s1 (forEach (s1.ptpTo n k) (fun dest t => t.ptpQueue n (ptpCode k) (s.ptpSeq n (ptpCode k)).1 0 (s1.ptpBody n k) dest) s1) :=
    SentOnly.forEach (fun dest s => SentOnly.ptpQueue s ..) _ s1
  have hall : ptpTransmit n k s =
      forEach (s1.ptpTo n k) (fun dest t => t.ptpQueue n (ptpCode k) (s.ptpSeq n (ptpCode k)).1 0 (s1.ptpBody n k) dest) s1 := by
    unfold ptpTransmit
    rw [if_pos ⟨hn, hsends⟩, hs1]
  rw [hall]
  obtain ⟨htbs, hobjs', hgens⟩ := hsent
  exact ⟨fun j hj => (State.tb_of_tbs htbs j).trans (hone.others j hj), hobjs'.trans hobjs, hgens.trans hone.gens, (State.tb_of_tbs htbs n).trans htb⟩

end Sent
/-- Settles O38: the messages of a time base, by the kind of each. -/
theorem timeBasesTakeMessages : Obligations.TimeBasesTakeMessages := by
  intro t l rx n frame m s z hz hn hptp hport hread hdomain hfirst
  subst hz
  have htakes : ∀ hsupported : (s.at t).ptpSupported n m = true,
      exec (.ptpMessageReceive t l ⟨rx, frame⟩) s = .next ((s.at t).tbMessage n m ((s.at t).rxTime n rx)) := fun hsupported =>
    congrArg Host.Outcome.next (ptpReceive_takes (s := s.at t) hn hptp hport hread hdomain hfirst hsupported)
  have hsupported : ∀ k, m.kind = k → [ptSync, ptDelayReq, ptPdelayReq, ptPdelayResp, ptFollowUp, ptDelayResp, ptPdelayFollowUp, ptAnnounce].contains k = true →
      (s.at t).ptpSupported n m = true := fun k hk h => by
    rw [State.ptpSupported, hk, h, Bool.true_or]
  refine ⟨fun hkind hsrc => ?_, fun hkind hsrc hown => ?_, fun t3 a hkind hdelay hparent hanswers hsent hdiff => ?_,
    fun o hkind hstep hparent hdelays hfree hmaster hset ho => ?_, fun k q hsends hq => ?_⟩
  · refine (htakes (hsupported _ hkind (by decide))).trans (congrArg Host.Outcome.next ?_)
    exact State.tbMessage_refused (s := s.at t) hkind hsrc _
  · obtain ⟨hone, hforeign⟩ := State.tbMessage_announce (s := s.at t) hkind hsrc hown ((s.at t).rxTime n rx)
    exact ⟨_, htakes (hsupported _ hkind (by decide)), hforeign, hone.others⟩
  · obtain ⟨hone, htb⟩ := State.tbMessage_delayResp (s := s.at t) hkind hdelay hparent hanswers hsent hdiff ((s.at t).rxTime n rx)
    exact ⟨_, htakes (hsupported _ hkind (by decide)), htb, hone.others⟩
  · obtain ⟨hone, hoffset, hat, hf, hfInt, hstate, hval⟩ := State.tbMessage_servo (s := s.at t) hkind hstep hparent hdelays hfree hmaster hset
      (rx := (s.at t).rxTime n rx) ho
    exact ⟨_, htakes (hsupported _ hkind (by decide)), hoffset, hat, hf, hfInt, hstate, hval, hone.others⟩
  · subst hq
    obtain ⟨hothers, hobjs, hgens, htb⟩ := ptpTransmit_sends (s := s.at t) hn hsends
    exact ⟨_, rfl, htb, hothers, hobjs, hgens⟩
end Sys2Proof.Machine
end

section
/-! PROOFS. Time bases in and out of LOCKED, and the reference (12 R510, R518, R519). -/
namespace Sys2Proof.Machine

section Hold
variable {s : State} {n : Nat}

/-- LOCKED without an offset for its time. -/
theorem holdoverEntry_late (hn : n < 4) (hlocked : (s.tb n).state = .locked)
    (hlate : (s.tb n).offsetAt + (if s.tbRole n = 3 then 3000000000000 else 3 * s.syncPs n) ≤ s.now) :
    holdoverEntry n s = s.tbGo n .holdover := by
  unfold holdoverEntry
  exact if_pos ⟨hn, hlocked, hlate⟩

theorem State.tbGo_holdover (hlocked : (s.tb n).state = .locked) :
    (s.tbGo n .holdover).tb n = { s.tb n with state := .holdover, holdAt := s.now } := by
  rw [State.tb_tbGo, TimeBase.gone, hlocked, if_neg (by decide), if_pos rfl, if_pos (by decide)]

/-- HOLDOVER for HOLDOVER_MS. -/
theorem holdoverEnd_late {w : Nat} (hn : n < 4) (hhold : (s.tb n).state = .holdover) (hw : w = s.tbFld n 28 4)
    (hlate : (s.tb n).holdAt + w * 1000 * us ≤ s.now) : holdoverEnd n s = (s.modTb n (fun tb => { tb with lockRun := 0 })).tbGo n .acquiring := by
  unfold holdoverEnd
  rw [← hw]
  exact if_pos ⟨hn, hhold, hlate⟩

theorem State.tbGo_acquiring (hhold : (s.tb n).state = .holdover) :
    (s.tbGo n .acquiring).tb n = { s.tb n with state := .acquiring, since := s.now } := by
  rw [State.tb_tbGo, TimeBase.gone, hhold, if_neg (by decide), if_neg (by decide), if_neg (by decide)]

/-- f clamped for 1 s. -/
theorem slewLimitTimeout_clamped {c : Nat} (hn : n < 4) (hclamped : (s.tb n).clampedSince = some c) (hlate : c + 1000000000000 ≤ s.now)
    (hsaid : (s.tb n).slewSaid = false) : OneTb n s (slewLimitTimeout n s) ∧
      (slewLimitTimeout n s).tb n = { s.tb n with slewLimited := true, slewSaid := true } := by
  unfold slewLimitTimeout
  rw [hclamped]
  dsimp only
  rw [if_pos ⟨hn, hlate, hsaid⟩, State.tb_event, State.tb_modTb]
  exact ⟨(OneTb.modTb s _).trans (NetFrame.event ..).oneTb, rfl⟩

/-- The time base of a port whose master has fallen silent. -/
def State.deserted (s : State) (n : Nat) : State :=
  s.modTb n (fun tb => { tb with
    foreign := tb.foreign.filter (fun f => tb.parent != some (f.src, f.port)), parent := none, lastAnnounce := s.now })

/-- Without Announces and without another foreign master. -/
theorem announceTimeout_alone (hn : n < 4) (hptp : s.tbPtp n = true) (hport : (s.tb n).portState ≠ 6)
    (hlate : (s.tb n).lastAnnounce + s.tbFld n 7 1 * s.announcePs n ≤ s.now) (halone : ∀ f ∈ (s.tb n).foreign, (s.tb n).parent = some (f.src, f.port)) :
    announceTimeout n (s.tbLport n) s =
      (let t := if s.tbRole n = 2 then (s.deserted n).tbMaster n
        else (s.deserted n).modTb n (fun tb => { tb with portState := 4, syncWait := none, msDiff := none })
      if (t.tb n).state = .locked ∧ (t.tb n).parent = none then t.tbGo n .holdover else t) := by
  have hnone : (s.deserted n).qualified n = [] := by
    have hforeign : ((s.deserted n).tb n).foreign = [] := by
      rw [State.deserted, State.tb_modTb]
      exact List.filter_eq_nil_iff.mpr fun f hf => by simp [halone f hf]
    rw [State.qualified, hforeign]
    rfl
  unfold announceTimeout
  rw [if_pos ⟨hn, hptp, rfl, hport, hlate⟩]
  extract_lets s1 s2 t
  have hs2 : s2 = t := by
    unfold s2
    rw [if_neg (by rw [show s1 = s.deserted n from rfl, hnone]; exact not_not_intro rfl)]
    rfl
  clear_value s2
  rw [hs2]

/-- A role 2 port becomes MASTER. -/
theorem announceTimeout_master (hn : n < 4) (hrole : s.tbRole n = 2) (hport : (s.tb n).portState ≠ 6)
    (hlate : (s.tb n).lastAnnounce + s.tbFld n 7 1 * s.announcePs n ≤ s.now) (halone : ∀ f ∈ (s.tb n).foreign, (s.tb n).parent = some (f.src, f.port)) :
    announceTimeout n (s.tbLport n) s = (s.deserted n).tbMaster n := by
  rw [announceTimeout_alone hn (by rw [State.tbPtp, hrole]; rfl) hport hlate halone]
  dsimp only
  rw [if_pos hrole, ((s.deserted n).tb_tbMaster n).1]
  exact if_neg (fun h => absurd h.1 (by decide))

/-- A role 1 port listens, out of LOCKED in HOLDOVER. -/
theorem announceTimeout_listens (hn : n < 4) (hrole : s.tbRole n = 1) (hport : (s.tb n).portState ≠ 6)
    (hlate : (s.tb n).lastAnnounce + s.tbFld n 7 1 * s.announcePs n ≤ s.now) (halone : ∀ f ∈ (s.tb n).foreign, (s.tb n).parent = some (f.src, f.port)) :
    OneTb n s (announceTimeout n (s.tbLport n) s) ∧ ((announceTimeout n (s.tbLport n) s).tb n).portState = 4 ∧
      ((announceTimeout n (s.tbLport n) s).tb n).parent = none ∧
      ((s.tb n).state = .locked → ((announceTimeout n (s.tbLport n) s).tb n).state = .holdover ∧
        ((announceTimeout n (s.tbLport n) s).tb n).holdAt = s.now) ∧
      ((s.tb n).state ≠ .locked → ((announceTimeout n (s.tbLport n) s).tb n).state = (s.tb n).state) := by
  rw [announceTimeout_alone hn (by rw [State.tbPtp, hrole]; rfl) hport hlate halone]
  extract_lets t
  have ht : t = (s.deserted n).modTb n (fun tb => { tb with portState := 4, syncWait := none, msDiff := none }) := if_neg (by omega)
  have hone : OneTb n s t := by
    rw [ht]
    exact (OneTb.modTb s _).trans (OneTb.modTb _ _)
  have hport' : (t.tb n).portState = 4 ∧ (t.tb n).parent = none ∧ (t.tb n).state = (s.tb n).state := by
    rw [ht, State.tb_modTb, State.deserted, State.tb_modTb]
    exact ⟨rfl, rfl, rfl⟩
  obtain ⟨hport4, hparent, hstate⟩ := hport'
  clear_value t
  by_cases hlocked : (s.tb n).state = .locked
  · rw [if_pos ⟨hstate.trans hlocked, hparent⟩, State.tbGo_holdover (hstate.trans hlocked)]
    exact ⟨hone.trans (OneTb.tbGo ..), hport4, hparent, fun _ => ⟨rfl, hone.now⟩, fun h => absurd hlocked h⟩
  · rw [if_neg (fun h => hlocked (hstate.symm.trans h.1))]
    exact ⟨hone, hport4, hparent, fun h => absurd h hlocked, fun _ => hstate⟩

end Hold
/-! ### The reference (R510) -/

section Reference
variable {s : State}

/-- A time base goes on from what it reads, by its fallback or not. -/
def State.tbSource (s : State) (n : Nat) (fallback : Bool) (dev : Int) : State :=
  (s.tbSettle n).modTb n (fun tb => { tb with refFallback := fallback, dev })

theorem State.tb_tbSource (s : State) (n : Nat) (fallback : Bool) (dev : Int) : ((s.tbSource n fallback dev).tb n).refFallback = fallback ∧
    ((s.tbSource n fallback dev).tb n).dev = dev ∧ (s.tbSource n fallback dev).tbVal n = s.tbVal n := by
  obtain ⟨hval, hat⟩ := s.tb_tbSettle n
  have htb : (s.tbSource n fallback dev).tb n = { (s.tbSettle n).tb n with refFallback := fallback, dev } := State.tb_modTb ..
  refine ⟨congrArg TimeBase.refFallback htb, congrArg TimeBase.dev htb, (State.tbVal_settled ?_).trans ?_⟩
  · rw [htb]
    exact hat
  · rw [htb]
    exact hval

theorem State.tbSource_others (s : State) {n k : Nat} (h : k ≠ n) (fallback : Bool) (dev : Int) : (s.tbSource n fallback dev).tb k = s.tb k :=
  (State.tb_modTb_ne _ (Ne.symm h) _).trans (State.tb_modTb_ne _ (Ne.symm h) _)

/-- A reading depends on its time base, the time and the period of the reference alone. -/
theorem State.tbVal_congr {t : State} {k : Nat} (htb : t.tb k = s.tb k) (hnow : t.now = s.now) (hpower : t.power.refsel = s.power.refsel) :
    t.tbVal k = s.tbVal k := by
  rw [State.tbVal, htb, hnow, State.refPs, hpower]
  rfl

/-- Every time base goes on from what it reads. -/
theorem State.tbSources (s : State) (fallback : Bool) (dev : Int) (l : List Nat) (hnodup : l.Nodup) :
    forEach l (fun n s => s.tbSource n fallback dev) s = { s with tbs := (forEach l (fun n s => s.tbSource n fallback dev) s).tbs } ∧
      (∀ m ∉ l, (forEach l (fun n s => s.tbSource n fallback dev) s).tb m = s.tb m) ∧
      ∀ m ∈ l, ((forEach l (fun n s => s.tbSource n fallback dev) s).tb m).refFallback = fallback ∧
        ((forEach l (fun n s => s.tbSource n fallback dev) s).tb m).dev = dev ∧
        (forEach l (fun n s => s.tbSource n fallback dev) s).tbVal m = s.tbVal m := by
  induction l generalizing s with
  | nil => exact ⟨rfl, fun _ _ => rfl, fun m hm => absurd hm (List.not_mem_nil)⟩
  | cons n l ih =>
    obtain ⟨hn, hl⟩ := List.nodup_cons.mp hnodup
    obtain ⟨hframe, hothers, hall⟩ := ih (s.tbSource n fallback dev) hl
    change forEach l (fun n s => s.tbSource n fallback dev) (s.tbSource n fallback dev) = _ ∧ _
    refine ⟨hframe, fun m hm => ?_, fun m hm => ?_⟩
    · exact (hothers m (fun h => hm (List.mem_cons_of_mem n h))).trans (s.tbSource_others (fun h => hm (List.mem_cons.mpr (Or.inl h))) fallback dev)
    · obtain ⟨hfall, hdev, hval⟩ := s.tb_tbSource n fallback dev
      rcases List.mem_cons.mp hm with rfl | hm'
      · have htb := hothers m hn
        have hnow : (forEach l (fun n s => s.tbSource n fallback dev) (s.tbSource m fallback dev)).now = s.now := by rw [hframe]; rfl
        have hpower : (forEach l (fun n s => s.tbSource n fallback dev) (s.tbSource m fallback dev)).power = s.power := by rw [hframe]; rfl
        refine ⟨(congrArg TimeBase.refFallback htb).trans hfall, (congrArg TimeBase.dev htb).trans hdev, ?_⟩
        exact (State.tbVal_congr htb hnow (congrArg Power.refsel hpower)).trans hval
      · obtain ⟨hfall', hdev', hval'⟩ := hall m hm'
        have hne : m ≠ n := fun h => hn (h ▸ hm')
        exact ⟨hfall', hdev', hval'.trans (State.tbVal_congr (s.tbSource_others hne fallback dev) rfl rfl)⟩

theorem mem_timeBases {m : Nat} (h : m < 4) : m ∈ [0, 1, 2, 3] := by
  simp only [List.mem_cons, List.not_mem_nil, or_false]
  omega

/-- The reference fails. -/
theorem referenceLoss_falls (hok : s.power.refOk = true) : (referenceLoss s).power = { s.power with refOk := false } ∧
    ∀ m < 4, ((referenceLoss s).tb m).refFallback = true ∧ ((referenceLoss s).tb m).dev.natAbs ≤ 50000 ∧ (referenceLoss s).tbVal m = s.tbVal m := by
  obtain ⟨v, hv⟩ : ∃ v, v = ((s.modPower (fun p => { p with refOk := false })).draw 100001).1 := ⟨_, rfl⟩
  have hlt : v < 100001 := by
    rw [hv]
    exact Nat.mod_lt _ (by decide)
  obtain ⟨hframe, -, hall⟩ := State.tbSources ((s.modPower (fun p => { p with refOk := false })).draw 100001).2 true ((v : Int) - 50000)
    [0, 1, 2, 3] (by decide)
  have hend : referenceLoss s = (forEach [0, 1, 2, 3] (fun n s => s.tbSource n true ((v : Int) - 50000))
      ((s.modPower (fun p => { p with refOk := false })).draw 100001).2).event 20 0 := by
    unfold referenceLoss
    rw [if_pos hok, hv]
    rfl
  generalize forEach [0, 1, 2, 3] (fun n s => s.tbSource n true ((v : Int) - 50000)) _ = u at hframe hall hend
  rw [hend]
  have hpower : u.power = { s.power with refOk := false } := by
    rw [hframe]
    rfl
  refine ⟨(NetFrame.event ..).power.trans hpower, fun m hm => ?_⟩
  obtain ⟨hfall, hdev, hval⟩ := hall m (mem_timeBases hm)
  rw [State.tb_event, State.tbVal_congr (u.tb_event ..) (NetFrame.event ..).now (congrArg Power.refsel (NetFrame.event ..).power), hval, hdev]
  exact ⟨hfall, by omega, State.tbVal_congr rfl rfl rfl⟩

/-- The reference is back. -/
theorem referenceReturn_back (hok : s.power.refOk = false) :
    (∀ m < 4, ((referenceReturn s).tb m).refFallback = false ∧ ((referenceReturn s).tb m).dev = 0 ∧ (referenceReturn s).tbVal m = s.tbVal m) ∧
      referenceReturn s = { s with power := { s.power with refOk := true }, tbs := (referenceReturn s).tbs } := by
  obtain ⟨hframe, -, hall⟩ := State.tbSources (s.modPower (fun p => { p with refOk := true })) false 0 [0, 1, 2, 3] (by decide)
  have hend : referenceReturn s = forEach [0, 1, 2, 3] (fun n s => s.tbSource n false 0) (s.modPower (fun p => { p with refOk := true })) := by
    unfold referenceReturn
    rw [hok]
    rfl
  rw [hend]
  refine ⟨fun m hm => ?_, hframe⟩
  obtain ⟨hfall, hdev, hval⟩ := hall m (mem_timeBases hm)
  exact ⟨hfall, hdev, hval.trans (State.tbVal_congr rfl rfl rfl)⟩

end Reference
/-- Settles O39: the ways in and out of HOLDOVER, and the reference, which steps no time base. -/
theorem timeBasesHoldOver : Obligations.TimeBasesHoldOver := by
  intro t n s z hz hn
  subst hz
  refine ⟨fun hlocked hlate => ?_, fun hhold hlate => ?_, fun c hclamped hlate hsaid => ?_,
    fun hport hlate halone => ⟨fun hrole => ?_, fun hrole => ?_⟩, fun hok => ?_, fun hok => ?_⟩
  · exact ⟨_, congrArg Host.Outcome.next (holdoverEntry_late (s := s.at t) hn hlocked hlate), State.tbGo_holdover (s := s.at t) hlocked,
      (OneTb.tbGo (s.at t) .holdover).others⟩
  · refine ⟨_, congrArg Host.Outcome.next (holdoverEnd_late (s := s.at t) hn hhold rfl hlate), ?_,
      ((OneTb.modTb (s.at t) _).trans (OneTb.tbGo _ .acquiring)).others⟩
    rw [State.tbGo_acquiring (by rw [State.tb_modTb]; exact hhold), State.tb_modTb]
    rfl
  · obtain ⟨hone, htb⟩ := slewLimitTimeout_clamped (s := s.at t) hn hclamped hlate hsaid
    exact ⟨_, rfl, htb, hone.others⟩
  · have hend := announceTimeout_master (s := s.at t) hn hrole hport hlate halone
    obtain ⟨hstate, hf, hport6, -⟩ := ((s.at t).deserted n).tb_tbMaster n
    exact ⟨_, congrArg Host.Outcome.next hend, hstate, hf, hport6, ((OneTb.modTb (s.at t) _).trans (OneTb.tbMaster _)).others⟩
  · obtain ⟨hone, hport4, hparent, hlocked, hother⟩ := announceTimeout_listens (s := s.at t) hn hrole hport hlate halone
    exact ⟨_, rfl, hport4, hparent, hlocked, hother, hone.others⟩
  · obtain ⟨hpower, hall⟩ := referenceLoss_falls (s := s.at t) hok
    exact ⟨_, rfl, hpower, hall⟩
  · obtain ⟨hall, hframe⟩ := referenceReturn_back (s := s.at t) hok
    exact ⟨_, rfl, hall, hframe⟩
end Sys2Proof.Machine
end

section
/-! PROOFS. Sets of the seconds, and pulses (12 R513, R525, R526). -/
namespace Sys2Proof.Machine

section Seconds
variable {s : State} {n : Nat}

/-- Where a reading stands when it is moved by a number of seconds. -/
def movedBy (v : Nat) (step : Int) : Nat := (((v : Int) + step * 1000000000 * 2 ^ 32) % (2 ^ 80 * 1000000000 : Nat)).toNat

/-- A whole number of seconds moves the seconds field alone. -/
theorem movedBy_fields (v w : Nat) : movedBy v ((w : Int) - (v / 2 ^ 32 / 1000000000 % 2 ^ 48 : Nat)) / 2 ^ 32 / 1000000000 % 2 ^ 48 = w % 2 ^ 48 ∧
    movedBy v ((w : Int) - (v / 2 ^ 32 / 1000000000 % 2 ^ 48 : Nat)) / 2 ^ 32 % 1000000000 = v / 2 ^ 32 % 1000000000 ∧
    movedBy v ((w : Int) - (v / 2 ^ 32 / 1000000000 % 2 ^ 48 : Nat)) / 2 ^ 16 % 2 ^ 16 = v / 2 ^ 16 % 2 ^ 16 := by
  unfold movedBy
  refine ⟨?_, ?_, ?_⟩
  all_goals omega

/-- A step of a time base by whole seconds. -/
theorem State.tbJump_seconds (s : State) (n : Nat) (step : Int) : (s.tbJump n (step * 1000000000)).now = s.now ∧
    ((s.tbJump n (step * 1000000000)).tb n).val = movedBy (s.tbVal n) step ∧ ((s.tbJump n (step * 1000000000)).tb n).at_ = s.now ∧
    ((s.tbJump n (step * 1000000000)).tb n).setAt = some s.now := by
  unfold State.tbJump
  extract_lets v w s1
  have htb : ∀ t : State, (t.regate (fun g => g.tb == n)).tb n = t.tb n := fun t => State.tb_of_tbs (NetFrame.regate ..).tbs n
  have h1 : s1.tb n = _ := State.tb_modTb ..
  rw [htb, (NetFrame.regate ..).now]
  change s1.now = s.now ∧ (s1.tb n).val = _ ∧ (s1.tb n).at_ = s.now ∧ (s1.tb n).setAt = some s.now
  rw [h1]
  exact ⟨rfl, rfl, (s.tb_tbSettle n).2, rfl⟩

/-- The seconds that were set take effect at the rollover. -/
theorem secondsSet_rollover {v from_ : Nat} (hn : n < 4) (hset : (s.tb n).setSec = some (v, from_)) (hdue : from_ < s.tbNs n / 1000000000) :
    (secondsSet n s).tbSec n = v % 2 ^ 48 ∧ (secondsSet n s).tbNanos n = s.tbNanos n ∧ (secondsSet n s).tbFrac n = s.tbFrac n ∧
      ((secondsSet n s).tb n).setSec = none ∧ ((secondsSet n s).tb n).setAt = some s.now := by
  obtain ⟨hnow, hval, hat, hsetAt⟩ := s.tbJump_seconds n ((v : Int) - (s.tbNs n / 1000000000 % 2 ^ 48 : Nat))
  have hend : secondsSet n s = ((s.tbJump n (((v : Int) - (s.tbNs n / 1000000000 % 2 ^ 48 : Nat)) * 1000000000)).modTb n (fun tb =>
      { tb with setSec := none })).tbSetDone n 1 0 (((v : Int) - (s.tbNs n / 1000000000 % 2 ^ 48 : Nat)) * 1000000000) := by
    unfold secondsSet
    rw [hset]
    exact if_pos ⟨hn, hdue⟩
  generalize s.tbJump n (((v : Int) - (s.tbNs n / 1000000000 % 2 ^ 48 : Nat)) * 1000000000) = j at hnow hval hat hsetAt hend
  have hdone : NetFrame (j.modTb n (fun tb => { tb with setSec := none })) (secondsSet n s) := by
    rw [hend]
    exact (NetFrame.addCnt ..).trans (NetFrame.event ..)
  have htb : (secondsSet n s).tb n = { j.tb n with setSec := none } := (State.tb_of_tbs hdone.tbs n).trans (State.tb_modTb ..)
  have hreads : (secondsSet n s).tbVal n = movedBy (s.tbVal n) ((v : Int) - (s.tbNs n / 1000000000 % 2 ^ 48 : Nat)) := by
    rw [State.tbVal_settled (by rw [htb, hdone.now]; exact hat.trans hnow.symm), htb]
    exact hval
  obtain ⟨hsec, hnanos, hfrac⟩ := movedBy_fields (s.tbVal n) v
  refine ⟨?_, ?_, ?_, by rw [htb], by rw [htb]; exact hsetAt⟩
  · rw [State.tbSec, State.tbNs, hreads]
    exact hsec
  · rw [State.tbNanos, State.tbNs, hreads]
    exact hnanos
  · rw [State.tbFrac, hreads]
    exact hfrac

end Seconds
/-! ### Pulses (R518, R525, R526) -/

section Pulses
variable {s : State} {n : Nat}

/-- An edge that is stamped, and drives no servo. -/
theorem ppsInputEdge_stamps (hn : n < 4) (henabled : bit (s.tbFld n 11 1) 2 = true) (hrole : s.tbRole n ≠ 3)
    (hfar : (s.tb n).ppsEdge.any (fun a => decide (s.now ≤ a + us)) = false) :
    (ppsInputEdge n s).tb n = { s.tb n with ppsLast := some (s.tbVal n), ppsLastAt := some s.now, ppsLost := false, ppsEdge := some s.now } ∧
      ppsInputEdge n s = { s with tbs := (ppsInputEdge n s).tbs, cnt := (s.bump (tbCtr n 160)).cnt } := by
  have hval : (s.modTb n (fun tb => { tb with ppsEdge := some s.now })).tbVal n = s.tbVal n := by
    rw [State.tbVal, State.tb_modTb]
    rfl
  have hend : ppsInputEdge n s = ((s.modTb n (fun tb => { tb with ppsEdge := some s.now })).bump (tbCtr n 160)).modTb n (fun tb =>
      { tb with ppsLast := some (s.tbVal n), ppsLastAt := some s.now, ppsLost := false }) := by
    unfold ppsInputEdge
    rw [if_pos ⟨hn, henabled⟩]
    dsimp only
    rw [hfar, if_neg Bool.false_ne_true, hval]
    exact if_neg hrole
  rw [hend]
  exact ⟨by rw [State.tb_modTb, State.tb_bump', State.tb_modTb], rfl⟩

/-- An edge within 1 µs after another. -/
theorem ppsInputEdge_near {a : Nat} (hn : n < 4) (henabled : bit (s.tbFld n 11 1) 2 = true) (hedge : (s.tb n).ppsEdge = some a) {w : Nat}
    (hw : w = us) (hnear : s.now ≤ a + w) : ppsInputEdge n s = s.modTb n (fun tb => { tb with ppsEdge := some s.now }) := by
  unfold ppsInputEdge
  rw [if_pos ⟨hn, henabled⟩, hedge, ← hw]
  dsimp only [Option.any]
  exact if_pos (decide_eq_true hnear)

/-- No edge for 1.5 s. -/
theorem ppsInputLoss_late {a : Nat} (hn : n < 4) (hrole : s.tbRole n = 3) (hlost : (s.tb n).ppsLost = false) (hlast : (s.tb n).ppsLastAt = some a)
    (hlate : a + 1500000000000 ≤ s.now) : OneTb n s (ppsInputLoss n s) ∧ (ppsInputLoss n s).tb n = { s.tb n with ppsLost := true } := by
  have hsilent : (s.tb n).ppsLastAt.getD (s.tb n).since + 1500000000000 ≤ s.now := by
    rw [hlast]
    exact hlate
  unfold ppsInputLoss
  dsimp only
  rw [if_pos ⟨hn, hrole, hlost, hsilent⟩, State.tb_event, State.tb_modTb]
  exact ⟨(OneTb.modTb s _).trans (NetFrame.event ..).oneTb, rfl⟩

theorem ppsOutputRise_due (hn : n < 4) (hset : s.tbFld n 48 2 ≠ 0) (hlow : (s.tb n).ppsOut = false) (hdue : s.ppsDue n = true) :
    ppsOutputRise n s = s.modTb n (fun tb => { tb with ppsOut := true, ppsRise := s.tbNs n }) := by
  unfold ppsOutputRise
  exact if_pos ⟨hn, hset, hlow, hdue⟩

theorem ppsOutputFall_due (hn : n < 4) (hhigh : (s.tb n).ppsOut = true) (hdue : (s.tb n).ppsRise + s.tbFld n 48 2 * 1000000 ≤ s.tbNs n) :
    ppsOutputFall n s = s.modTb n (fun tb => { tb with ppsOut := false }) := by
  unfold ppsOutputFall
  exact if_pos ⟨hn, hhigh, hdue⟩

end Pulses
/-- Settles O40: the rollover, and the edges of the pulses. -/
theorem secondsAndPulses : Obligations.SecondsAndPulses := by
  intro t n s z hz hn
  subst hz
  refine ⟨fun v from_ hset hdue => ?_, fun henabled hrole hfar => ?_, fun a henabled hedge hnear => ?_, fun a hrole hlost hlast hlate => ?_,
    fun hset hlow hdue => ?_, fun hhigh hdue => ?_⟩
  · obtain ⟨hsec, hnanos, hfrac, hnone, hat⟩ := secondsSet_rollover (s := s.at t) hn hset hdue
    exact ⟨_, rfl, hsec, hnanos, hfrac, hnone, hat⟩
  · have hfar' : ((s.at t).tb n).ppsEdge.any (fun a => decide ((s.at t).now ≤ a + us)) = false := by
      cases hedge : (s.tb n).ppsEdge with
      | none => rw [show ((s.at t).tb n).ppsEdge = none from hedge]; rfl
      | some a =>
        rw [show ((s.at t).tb n).ppsEdge = some a from hedge]
        exact decide_eq_false (Nat.not_le.mpr (hfar a hedge))
    obtain ⟨htb, hframe⟩ := ppsInputEdge_stamps (s := s.at t) hn henabled hrole hfar'
    exact ⟨_, rfl, htb, hframe⟩
  · exact congrArg Host.Outcome.next (ppsInputEdge_near (s := s.at t) hn henabled hedge rfl hnear)
  · obtain ⟨hone, htb⟩ := ppsInputLoss_late (s := s.at t) hn hrole hlost hlast hlate
    exact ⟨_, rfl, htb, hone.others⟩
  · exact congrArg Host.Outcome.next (ppsOutputRise_due (s := s.at t) hn hset hlow hdue)
  · exact congrArg Host.Outcome.next (ppsOutputFall_due (s := s.at t) hn hhigh hdue)

end Sys2Proof.Machine
end

section
/-! PROOFS. Refresh, temperature and command errors of a rank (13 R550, R551, R554). -/
namespace Sys2Proof.Machine

/-! ### What a retirement leaves -/

section Retired
variable {s t u : State} {k : Nat}

/-- Of a rank nothing differs but its state and the reason of its retirement. -/
def Rank.Restated (r q : Rank) : Prop := q = { r with state := q.state, reason := q.reason }

theorem Rank.Restated.refl (r : Rank) : r.Restated r := rfl
theorem Rank.Restated.trans {r q p : Rank} (a : r.Restated q) (b : q.Restated p) : r.Restated p := by
  unfold Rank.Restated at *
  rw [b, a]

/-- Ranks are restated; of the rest of the memory only the queue and the copy under way differ. -/
structure RetireOnly (s t : State) : Prop where
  ranks : ∀ j, (s.rank j).Restated (t.rank j)
  dram : t.dram = { s.dram with ranks := t.dram.ranks, queue := t.dram.queue, migration := t.dram.migration }
  tick : t.tick = s.tick

theorem RetireOnly.refl (s : State) : RetireOnly s s := ⟨fun _ => rfl, rfl, rfl⟩
theorem RetireOnly.trans (a : RetireOnly s t) (b : RetireOnly t u) : RetireOnly s u :=
  ⟨fun j => (a.ranks j).trans (b.ranks j), by rw [b.dram, a.dram], b.tick.trans a.tick⟩

theorem RetireOnly.of_eq (hdram : t.dram = s.dram) (htick : t.tick = s.tick) : RetireOnly s t :=
  ⟨fun j => by rw [State.rank_of_dram hdram j]; exact Rank.Restated.refl _, by rw [hdram], htick⟩

theorem State.event_dram (s : State) (src payload who : Nat) : (s.event src payload who).dram = s.dram := (s.event_hostOnly src payload who).dram

theorem RetireOnly.event (s : State) (src payload who : Nat) : RetireOnly s (s.event src payload who) :=
  RetireOnly.of_eq (s.event_dram ..) (by rw [State.event_frame])

theorem RetireOnly.addCnt (s : State) (key n : Nat) : RetireOnly s (s.addCnt key n) := RetireOnly.of_eq (State.addCnt_dram ..) (State.addCnt_tick ..)
theorem RetireOnly.bump (s : State) (key : Nat) : RetireOnly s (s.bump key) := RetireOnly.addCnt s key 1

theorem RetireOnly.modRank (s : State) (k : Nat) {f : Rank → Rank} (hf : ∀ r, Rank.Restated r (f r)) : RetireOnly s (s.modRank k f) := by
  refine ⟨fun j => ?_, rfl, rfl⟩
  rw [State.rank_modRank]
  split
  · exact hf _
  · exact Rank.Restated.refl _

theorem RetireOnly.degraded (s : State) (k : Nat) : RetireOnly s (s.modRank k (fun r => { r with state := .degraded })) := by
  refine RetireOnly.modRank s k ?_
  exact fun _ => rfl

theorem RetireOnly.queue (s : State) (f : List Nat → List Nat) : RetireOnly s (s.modDram (fun d => { d with queue := f d.queue })) :=
  ⟨fun _ => rfl, rfl, rfl⟩

theorem RetireOnly.migration (s : State) (m : Option Migration) : RetireOnly s (s.modDram (fun d => { d with migration := m })) :=
  ⟨fun _ => rfl, rfl, rfl⟩

theorem RetireOnly.restartCopy (s : State) (m : Migration) : RetireOnly s (s.restartCopy m) := by
  unfold State.restartCopy
  extract_lets s1
  have h1 : RetireOnly s s1 := (RetireOnly.addCnt ..).trans (RetireOnly.migration ..)
  clear_value s1
  split
  · exact h1.trans (RetireOnly.migration ..)
  · refine h1.trans (RetireOnly.trans ?_ (RetireOnly.event ..))
    exact (RetireOnly.degraded s1 _).trans (RetireOnly.queue _ (fun q => m.src :: q))

theorem RetireOnly.forEach {α : Type} {f : α → State → State} (h : ∀ a s, RetireOnly s (f a s)) : ∀ (l : List α) (s : State), RetireOnly s (forEach l f s)
  | [], s => RetireOnly.refl s
  | a :: l, s => (h a s).trans (RetireOnly.forEach h l (f a s))

theorem RetireOnly.degrade (s : State) (q : Nat) : RetireOnly s ((s.modRank q (fun r => { r with state := .degraded })).event 30 (rankBits q)) :=
  (RetireOnly.degraded s q).trans (RetireOnly.event ..)

theorem RetireOnly.retire (s : State) (k reason : Nat) : RetireOnly s (s.retire k reason) := by
  have hmember : RetireOnly s (let s1 := (s.modRank k (fun r => { r with reason })).event 29 (rankBits k + reason * 256)
      let at_once := s1.dram.migration.isNone && s1.dram.queue.isEmpty && (s1.spareFor k).isSome
      let s2 := s1.modDram (fun d => { d with queue := d.queue ++ [k] })
      if at_once then s2.modRank k (fun r => { r with state := .migrating })
      else (s2.modRank k (fun r => { r with state := .degraded })).event 30 (rankBits k)) := by
    extract_lets s1 at_once s2
    have h1 : RetireOnly s s1 := by
      refine (RetireOnly.modRank s k ?_).trans (RetireOnly.event ..)
      exact fun _ => rfl
    have h2 : RetireOnly s1 s2 := RetireOnly.queue s1 (fun q => q ++ [k])
    split
    · refine (h1.trans h2).trans (RetireOnly.modRank s2 k ?_)
      exact fun _ => rfl
    · exact (h1.trans h2).trans (RetireOnly.degrade ..)
  unfold State.retire
  extract_lets said _ _ _ s1 s2
  split
  · exact hmember
  · exact hmember
  · have h1 : RetireOnly s s1 := by
      refine ((RetireOnly.modRank s k ?_).trans (RetireOnly.event ..)).trans (RetireOnly.bump ..)
      exact fun _ => rfl
    have h2 : RetireOnly s s2 := by
      clear_value s1
      unfold s2
      split
      · split
        · exact h1.trans (RetireOnly.restartCopy ..)
        · exact h1
      · exact h1
    refine h2.trans (RetireOnly.forEach (fun q s => ?_) _ s2)
    split
    · exact RetireOnly.degrade s q
    · exact RetireOnly.refl s
  · exact RetireOnly.refl s

end Retired
/-! ### Refresh (R550, R551) -/

section Refresh
variable {s : State} {c r k : Nat}

theorem State.rank_modRank_same (s : State) (k : Nat) (f : Rank → Rank) : (s.modRank k f).rank k = f (s.rank k) := by
  rw [State.rank_modRank, if_pos rfl]
theorem State.rank_modRank_ne (s : State) {k j : Nat} (h : j ≠ k) (f : Rank → Rank) : (s.modRank k f).rank j = s.rank j := by
  rw [State.rank_modRank, if_neg (Ne.symm h)]

/-- A rank with its debt within the limit. -/
theorem State.clipOwed_rank (s : State) (k : Nat) : (s.clipOwed k).rank k = { s.rank k with owed := min (s.rank k).owed (s.oweLimit (s.rank k)) } ∧
    (∀ j, j ≠ k → (s.clipOwed k).rank j = s.rank j) ∧ s.clipOwed k = { s with dram := (s.clipOwed k).dram, cnt := (s.clipOwed k).cnt } ∧
    (s.clipOwed k).dram.dimms = s.dram.dimms := by
  unfold State.clipOwed
  extract_lets x above
  have hcount : ∀ j, ((s.addCnt (mcCtr (k / 4) 40) above).addCnt (mcCtr (k / 4) 48) above).rank j = s.rank j := fun j =>
    State.rank_of_dram ((State.addCnt_dram ..).trans (State.addCnt_dram ..)) j
  refine ⟨?_, fun j hj => (State.rank_modRank_ne _ hj _).trans (hcount j), ?_, ?_⟩
  · rw [State.rank_modRank_same, hcount]
    have hmin : (s.rank k).owed - above = min (s.rank k).owed (s.oweLimit (s.rank k)) := by
      unfold above x
      omega
    rw [hmin]
  · rw [State.addCnt_frame, State.addCnt_frame s]
    rfl
  · rw [State.addCnt_frame, State.addCnt_frame s]
    rfl

theorem refreshDue_owes (hc : c < 12) (hr : r < 4) (hin : (s.rank (4 * c + r)).inService = true) (hmode : s.power.mode ≠ .keep)
    (hdue : ∀ d, (s.rank (4 * c + r)).due = some d → d ≤ s.now) :
    ((refreshDue c r s).rank (4 * c + r)).owed = min ((s.rank (4 * c + r)).owed + 1) (s.oweLimit (s.rank (4 * c + r))) ∧
      ((refreshDue c r s).rank (4 * c + r)).due = some ((s.rank (4 * c + r)).due.getD s.now + (s.rank (4 * c + r)).tRefi) ∧
      (∀ k, k ≠ 4 * c + r → (refreshDue c r s).rank k = s.rank k) ∧
      refreshDue c r s = { s with dram := (refreshDue c r s).dram, cnt := (refreshDue c r s).cnt } := by
  have hpast : (s.rank (4 * c + r)).due.any (fun d => decide (s.now < d)) = false := by
    cases h : (s.rank (4 * c + r)).due with
    | none => rfl
    | some d => exact decide_eq_false (Nat.not_lt.mpr (hdue d h))
  have hend : refreshDue c r s = ((s.modRank (4 * c + r) (fun x => { x with owed := x.owed + 1, due := some (x.due.getD s.now + x.tRefi) })).clipOwed
      (4 * c + r)).modRank (4 * c + r) (fun x => x.noteOwed s.tick) := by
    unfold refreshDue
    dsimp only
    rw [if_neg (by simp [hin, hmode, hpast]; omega)]
  obtain ⟨hrank, hothers, hframe, -⟩ := (s.modRank (4 * c + r) (fun x =>
    { x with owed := x.owed + 1, due := some (x.due.getD s.now + x.tRefi) })).clipOwed_rank (4 * c + r)
  rw [State.rank_modRank_same] at hrank
  rw [hend, State.rank_modRank_same, hrank]
  refine ⟨rfl, rfl, fun k hk => ?_, ?_⟩
  · exact (State.rank_modRank_ne _ hk _).trans ((hothers k hk).trans (State.rank_modRank_ne _ hk _))
  · rw [hframe]
    rfl

theorem refreshBatch_issues (hc : c < 12) (hr : r < 4) (hin : (s.rank (4 * c + r)).inService = true) :
    refreshBatch c r s = (s.addCnt (mcCtr c 40) (s.rank (4 * c + r)).owed).modRank (4 * c + r) (fun x => { x with owed := 0 }) := by
  unfold refreshBatch
  exact if_neg (by simp [hin]; omega)

/-- The doubled request. -/
theorem State.enter2x_rank (s : State) (k : Nat) : ((s.enter2x k).rank k).mode2x = true ∧ ((s.enter2x k).rank k).cleanMr4 = 0 ∧
    (s.enter2x k).dram.dimms = s.dram.dimms ∧ (s.enter2x k).pins = s.pins := by
  unfold State.enter2x
  split
  · next h =>
    rw [State.rank_modRank_same]
    exact ⟨h, rfl, rfl, rfl⟩
  · obtain ⟨hrank, -, hframe, hdimms⟩ := (s.modRank k (fun r => { r with mode2x := true, cleanMr4 := 0, due := some (s.now + 1950000) })).clipOwed_rank k
    rw [hrank, hdimms, State.rank_modRank_same]
    exact ⟨rfl, rfl, rfl, (congrArg State.pins hframe).trans rfl⟩

theorem mr4Read_doubled (hc : c < 12) (hr : r < 4) (hin : (s.rank (4 * c + r)).inService = true) : mr4Read c r true s = s.enter2x (4 * c + r) := by
  unfold mr4Read
  dsimp only
  rw [if_neg (by simp [hin]; omega)]
  exact if_pos rfl

theorem mr4Read_clean (hc : c < 12) (hr : r < 4) (hin : (s.rank (4 * c + r)).inService = true) (hcool : s.sensorOf (4 * c + r) < 85) :
    mr4Read c r false s = s.modRank (4 * c + r) (fun x => { x with cleanMr4 := x.cleanMr4 + 1 }) := by
  unfold mr4Read
  dsimp only
  rw [if_neg (by simp [hin]; omega), if_neg Bool.false_ne_true]
  simp only [if_pos hcool]

theorem refreshModeReturn_returns (hc : c < 12) (hr : r < 4) (hmode : (s.rank (4 * c + r)).mode2x = true) (hclean : 64 ≤ (s.rank (4 * c + r)).cleanMr4)
    (hcool : s.sensorOf (4 * c + r) < 85) : refreshModeReturn c r s = s.modRank (4 * c + r) (fun x => { x with mode2x := false, cleanMr4 := 0 }) := by
  unfold refreshModeReturn
  dsimp only
  rw [if_neg (by omega), if_pos ⟨hmode, hclean, hcool⟩]

/-- A sensor that is read. -/
theorem dimmSensorRead_reads {d : Nat} {temp : Int} (hc : c < 12) (hd : d < 2) (hin : (lookD s.dram.dimms (2 * c + d) {}).state = 1) :
    (lookD (dimmSensorRead c d temp s).dram.dimms (2 * c + d) {}).sensor = temp ∧
      (∀ n, n ≠ 2 * c + d → lookD (dimmSensorRead c d temp s).dram.dimms n {} = lookD s.dram.dimms n {}) ∧
      (90 ≤ temp → (lookD s.dram.dimms (2 * c + d) {}).hotSaid = false → (dimmSensorRead c d temp s).pins.alert = true) := by
  unfold dimmSensorRead
  extract_lets x hot s1 s2
  rw [if_neg (by simp [hin]; omega)]
  have h2 : s2.dram.dimms = s1.dram.dimms ∧ (90 ≤ temp → x.hotSaid = false → s2.pins.alert = true) := by
    unfold s2
    split
    · exact ⟨congrArg Dram.dimms (s1.event_dram ..), fun _ _ => rfl⟩
    · next hcold => exact ⟨rfl, fun h1 h2 => absurd ⟨decide_eq_true h1, h2⟩ hcold⟩
  have h1 : (lookD s1.dram.dimms (2 * c + d) {}).sensor = temp ∧ ∀ n, n ≠ 2 * c + d → lookD s1.dram.dimms n {} = lookD s.dram.dimms n {} :=
    ⟨congrArg Dimm.sensor (lookD_put_same ..), fun n hn => lookD_put_ne _ (Ne.symm hn) _ _⟩
  obtain ⟨hdimms, hpins⟩ := h2
  clear_value s1 s2
  have hkeep : ∀ t : State, t.dram.dimms = s2.dram.dimms → t.pins = s2.pins → (lookD t.dram.dimms (2 * c + d) {}).sensor = temp ∧
      (∀ n, n ≠ 2 * c + d → lookD t.dram.dimms n {} = lookD s.dram.dimms n {}) ∧ (90 ≤ temp → x.hotSaid = false → t.pins.alert = true) :=
    fun t ht hp => by
      rw [ht, hp, hdimms]
      exact ⟨h1.1, h1.2, hpins⟩
  have hstep : ∀ (r : Nat) (t : State), (if (t.rank (4 * c + r)).inService then t.enter2x (4 * c + r) else t).dram.dimms = t.dram.dimms ∧
      (if (t.rank (4 * c + r)).inService then t.enter2x (4 * c + r) else t).pins = t.pins := fun r t => by
    split
    · exact ⟨(t.enter2x_rank _).2.2.1, (t.enter2x_rank _).2.2.2⟩
    · exact ⟨rfl, rfl⟩
  split
  · exact hkeep _ (((hstep _ _).1).trans (hstep _ _).1) (((hstep _ _).2).trans (hstep _ _).2)
  · exact hkeep s2 rfl rfl

end Refresh
/-! ### Errors of commands (R554) -/

section Parity
variable {s : State} {c r : Nat}

theorem State.poisonLine_dram (s : State) (c line : Nat) :
    (s.poisonLine c line).dram = { s.dram with poison := if s.dram.poison.contains line then s.dram.poison else line :: s.dram.poison } :=
  State.addCnt_dram ..

/-- A line that is poisoned is so from then on, and no line is taken off. -/
theorem State.poisonLine_mem (s : State) (c line : Nat) : line ∈ (s.poisonLine c line).dram.poison ∧ ∀ l ∈ s.dram.poison, l ∈ (s.poisonLine c line).dram.poison := by
  rw [State.poisonLine_dram]
  dsimp only
  split
  · next h => exact ⟨List.contains_iff_mem.mp h, fun l hl => hl⟩
  · next => exact ⟨List.mem_cons_self, fun l hl => List.mem_cons_of_mem _ hl⟩

theorem poisonLines_mem (c : Nat) : ∀ (writes : List Nat) (s : State), (∀ l ∈ writes, l ∈ (forEach writes (fun l s => s.poisonLine c l) s).dram.poison) ∧
    ∀ l ∈ s.dram.poison, l ∈ (forEach writes (fun l s => s.poisonLine c l) s).dram.poison
  | [], s => ⟨fun l hl => absurd hl List.not_mem_nil, fun l hl => hl⟩
  | w :: writes, s => by
    obtain ⟨hnew, hold⟩ := poisonLines_mem c writes (s.poisonLine c w)
    obtain ⟨hw, hs⟩ := s.poisonLine_mem c w
    refine ⟨fun l hl => ?_, fun l hl => hold l (hs l hl)⟩
    rcases List.mem_cons.mp hl with rfl | hl
    · exact hold l hw
    · exact hnew l hl

theorem poisonLines_ranks (c : Nat) : ∀ (writes : List Nat) (s : State), (forEach writes (fun l s => s.poisonLine c l) s).dram.ranks = s.dram.ranks
  | [], _ => rfl
  | w :: writes, s => (poisonLines_ranks c writes (s.poisonLine c w)).trans (Eq.trans (congrArg Dram.ranks (s.poisonLine_dram c w)) rfl)

theorem State.rank_of_ranks {s t : State} (h : t.dram.ranks = s.dram.ranks) (k : Nat) : t.rank k = s.rank k := by
  unfold State.rank
  rw [h]

/-- The last step of a command error: a rank beyond its limit is retired. -/
theorem RetireOnly.overLimit (s : State) (k reason : Nat) (p : Prop) [Decidable p] : RetireOnly s (if p then s.retire k reason else s) := by
  split
  · exact RetireOnly.retire s k reason
  · exact RetireOnly.refl s

theorem caParityError_failed (hc : c < 12) (hr : r < 4) (hin : (s.rank (4 * c + r)).inService = true) (reads : List DramUse) (writes : List Nat) :
    (∀ l ∈ writes, l ∈ (caParityError c r false reads writes s).dram.poison) ∧ (reads = [] →
      ((caParityError c r false reads writes s).rank (4 * c + r)).parityTicks = s.tick :: recent s.tick (s.rank (4 * c + r)).parityTicks) := by
  unfold caParityError
  extract_lets k s1 s2 s3 s4
  rw [if_neg (by simp [k, hin]; omega)]
  have hend : RetireOnly s4 (if s4.fld 0x0E 8 2 ≤ (s4.rank k).parityTicks.length then s4.retire k 3 else s4) := RetireOnly.overLimit ..
  have h4 : s4 = forEach writes (fun l s => s.poisonLine c l) s3 := if_neg Bool.false_ne_true
  refine ⟨fun l hl => ?_, fun hnone => ?_⟩
  · rw [hend.dram, h4]
    exact (poisonLines_mem c writes s3).1 l hl
  · have hranks : s4.dram.ranks = s1.dram.ranks := by
      rw [h4, poisonLines_ranks]
      unfold s3
      rw [hnone]
      exact congrArg Dram.ranks (s1.addCnt_dram (mcCtr c 80) 1)
    have hrank : s4.rank k = { s.rank k with parityTicks := s.tick :: recent s.tick (s.rank k).parityTicks } :=
      (State.rank_of_ranks hranks k).trans (State.rank_modRank_same ..)
    rw [hend.ranks k, hrank]

theorem caParityError_retried (hc : c < 12) (hr : r < 4) (hin : (s.rank (4 * c + r)).inService = true) (reads : List DramUse) (writes : List Nat)
    (hfew : (recent s.tick (s.rank (4 * c + r)).parityTicks).length + 1 < s.fld 0x0E 8 2) : caParityError c r true reads writes s =
      (s.modRank (4 * c + r) (fun x => { x with parityTicks := s.tick :: recent s.tick x.parityTicks })).bump (mcCtr c 72) := by
  unfold caParityError
  extract_lets k s1 s2 s3 s4
  rw [if_neg (by simp [k, hin]; omega)]
  have h4 : s4 = s1.bump (mcCtr c 72) := if_pos rfl
  have hrank : s4.rank k = { s.rank k with parityTicks := s.tick :: recent s.tick (s.rank k).parityTicks } := by
    rw [h4]
    exact (State.rank_of_dram (s1.addCnt_dram (mcCtr c 72) 1) k).trans (State.rank_modRank_same ..)
  have hfld : s4.fld 0x0E 8 2 = s.fld 0x0E 8 2 := by
    rw [h4]
    rfl
  rw [if_neg (by rw [hfld, hrank]; exact Nat.not_le.mpr hfew), h4]

end Parity
/-- Settles O41: the refresh debt is clipped to the limit of the rank, and what a retirement after a command error changes is named once. -/
theorem memoryIsRefreshed : Obligations.MemoryIsRefreshed := by
  unfold Obligations.MemoryIsRefreshed
  intro t c r s z rfl hc hr hin
  refine ⟨fun hmode hdue => ⟨_, rfl, refreshDue_owes (s := s.at t) hc hr hin hmode hdue⟩, ⟨_, congrArg Host.Outcome.next (refreshBatch_issues (s := s.at t) hc hr hin), ?_⟩,
    ⟨_, congrArg Host.Outcome.next (mr4Read_doubled (s := s.at t) hc hr hin), ((s.at t).enter2x_rank _).1, ((s.at t).enter2x_rank _).2.1⟩,
    fun hcool => congrArg Host.Outcome.next (mr4Read_clean (s := s.at t) hc hr hin hcool),
    fun hmode hclean hcool => congrArg Host.Outcome.next (refreshModeReturn_returns (s := s.at t) hc hr hmode hclean hcool),
    fun d temp hd hd1 => ⟨_, rfl, dimmSensorRead_reads (s := s.at t) hc hd hd1⟩,
    fun reads writes => ⟨_, rfl, caParityError_failed (s := s.at t) hc hr hin reads writes⟩,
    fun reads writes hfew => congrArg Host.Outcome.next (caParityError_retried (s := s.at t) hc hr hin reads writes hfew)⟩
  have hcount : ∀ k, ((s.at t).addCnt (mcCtr c 40) (s.rank (4 * c + r)).owed).rank k = s.rank k := State.rank_of_dram (State.addCnt_dram ..)
  refine ⟨?_, fun k hk => (State.rank_modRank_ne _ hk _).trans (hcount k), ?_⟩
  · exact (State.rank_modRank_same ..).trans (congrArg (fun x : Rank => { x with owed := 0 }) (hcount _))
  · rw [State.addCnt_frame]
    rfl

end Sys2Proof.Machine
end

section
/-! PROOFS. Read errors, migration, patrol and sweeps of ranks (13 R553, R555, R556, R559, R562, R567). -/
namespace Sys2Proof.Machine

/-! ### Reads (R553, R555) -/

section Reads
variable {s t : State} {k line : Nat}

theorem State.issued_frame (s : State) (c client : Nat) (a : DramAccess) : s.issued c client a = { s with cnt := (s.issued c client a).cnt } := by
  unfold State.issued
  extract_lets row
  clear_value row
  generalize 96 + 8 * s.urgency client a = off
  rw [State.bump_frame, State.bump_frame (s.bump (mcCtr c 0)), State.bump_frame s]

/-- A line that nothing but dead poison of whole ranks reaches reads clean. -/
theorem State.unpoison_clean (s : State) (line : Nat) : (s.unpoison line).lineBad line = false ∧ s.unpoison line = { s with dram := (s.unpoison line).dram } := by
  unfold State.unpoison
  split
  · refine ⟨?_, rfl⟩
    have hlines : (s.dram.poison.filter (· != line)).contains line = false := by
      rw [← Bool.not_eq_true, List.contains_iff_mem, List.mem_filter]
      simp
    unfold State.lineBad
    refine Bool.or_eq_false_iff.mpr ⟨hlines, ?_⟩
    dsimp only [State.modDram]
    split
    · next hnone =>
      rw [hnone]
      exact Bool.and_eq_false_iff.mpr (.inr (by cases State.locate _ line <;> rfl))
    · exact Bool.and_eq_false_iff.mpr (.inl (by simp))
  · next hclean => exact ⟨Bool.not_eq_true _ ▸ hclean, rfl⟩

theorem State.issued_dram (s : State) (c client : Nat) (a : DramAccess) : (s.issued c client a).dram = s.dram := by rw [State.issued_frame]
theorem State.issued_tick (s : State) (c client : Nat) (a : DramAccess) : (s.issued c client a).tick = s.tick := by rw [State.issued_frame]

/-- A corrected error is remembered for its rank. -/
theorem State.corrected_rank (s : State) (k : Nat) : ((s.corrected k).rank k).ceTicks = s.tick :: recent s.tick (s.rank k).ceTicks ∧
    (s.corrected k).dram.poison = s.dram.poison := by
  unfold State.corrected
  extract_lets s1 s2 limit
  have h1 : s1.dram = s.dram := (State.addCnt_dram ..).trans ((State.addCnt_dram ..).trans (State.addCnt_dram ..))
  have htick : s1.tick = s.tick := (State.addCnt_tick ..).trans ((State.addCnt_tick ..).trans (State.addCnt_tick ..))
  have h2 : (s2.rank k).ceTicks = s.tick :: recent s.tick (s.rank k).ceTicks := by
    unfold s2
    rw [State.rank_modRank_same, htick, State.rank_of_dram h1]
  have hend : RetireOnly s2 (if limit ≠ 0 ∧ limit ≤ (s2.rank k).ceTicks.length then s2.retire k 2 else s2) := RetireOnly.overLimit ..
  refine ⟨?_, ?_⟩
  · rw [hend.ranks k, h2]
  · rw [hend.dram]
    exact (show s2.dram.poison = s1.dram.poison from rfl).trans (by rw [h1])

/-- An uncorrectable read is said of its rank in this tick. -/
theorem State.uncorrectable_rank (s : State) (k addr : Nat) : ((s.uncorrectable k addr).rank k).poisonTick = some s.tick := by
  unfold State.uncorrectable
  extract_lets c s1 s2
  have htick : s1.tick = s.tick := State.addCnt_tick ..
  rw [(RetireOnly.retire s2 k 1).ranks k]
  change (s2.rank k).poisonTick = some s.tick
  unfold s2
  split
  · next h => exact h.trans (congrArg some htick)
  · rw [State.rank_of_dram (State.event_dram ..), State.rank_modRank_same, htick]

theorem State.consumer_none (t : State) {client : Nat} (h : s.consumer client line = none) : t.consumer client line = none := by
  unfold State.consumer at h ⊢
  by_cases h8 : client < 8
  · rw [if_pos h8] at h
    cases h
  by_cases h16 : client < 16
  · rw [if_neg h8, if_pos h16] at h
    cases h
  rw [if_neg h8, if_neg h16] at h ⊢
  by_cases h24 : client < 24
  · rw [if_pos h24] at h
    dsimp only at h
    split at h <;> cases h
  rw [if_neg h24] at h ⊢
  exact h

theorem State.poisonLine_ranks (s : State) (c line : Nat) : (s.poisonLine c line).dram.ranks = s.dram.ranks := by rw [State.poisonLine_dram]

theorem dramRead_uncorrectable {u : DramUse} {a : DramAccess} {cut : List Nat} (hk : s.servedBy u.line = some k) (hfar : 2 ^ 27 ≤ u.line)
    (hnone : s.consumer u.client u.line = none) : dramRead u a .uncorrectable cut s =
      ((s.issued (k / 4) u.client a).uncorrectable k u.line).poisonLine (k / 4) u.line := by
  unfold dramRead
  rw [hk]
  dsimp only
  unfold State.readFails
  extract_lets s1
  rw [if_neg (Nat.not_lt.mpr hfar)]
  unfold State.given
  rw [State.consumer_none _ hnone]

theorem dramRead_clean {u : DramUse} {a : DramAccess} {cut : List Nat} (hk : s.servedBy u.line = some k) :
    dramRead u a .clean cut s = (s.issued (k / 4) u.client a).unpoison u.line := by
  unfold dramRead
  rw [hk]

theorem dramRead_corrected {u : DramUse} {a : DramAccess} {cut : List Nat} (hk : s.servedBy u.line = some k) :
    dramRead u a .corrected cut s = (s.issued (k / 4) u.client a).corrected k := by
  unfold dramRead
  rw [hk]

end Reads
/-! ### Contexts that are poisoned (R556) -/

section Contexts
variable {s : State} {i : Nat}

theorem State.leaveTarget_poisonDue (s : State) (i : Nat) : (s.leaveTarget i).objs.poisonDue = s.objs.poisonDue := by
  unfold State.leaveTarget
  split
  · rfl
  · extract_lets rest
    split <;> rfl

theorem State.leaveMix_poisonDue (s : State) (i : Nat) (x : Stream) : (s.leaveMix i x).objs.poisonDue = s.objs.poisonDue := rfl

theorem State.tombstone_poisonDue (s : State) (kind handle owner ssrc yard : Nat) (tuple : Nat × Nat × Nat × Nat × Nat) :
    (s.tombstone kind handle owner ssrc yard tuple).objs.poisonDue = s.objs.poisonDue := by
  unfold State.tombstone
  extract_lets q
  split <;> rfl

/-- A stream that is deleted is gone; what else is due stays so. -/
theorem State.deleteStream_gone {x : Stream} (hx : look s.objs.streams i = some x) :
    look (s.deleteStream i).objs.streams i = none ∧ (s.deleteStream i).objs.poisonDue = s.objs.poisonDue := by
  unfold State.deleteStream
  rw [hx]
  dsimp -zeta only
  extract_lets h y s1 s2 s3 s4
  have h1 : s1.objs.poisonDue = s.objs.poisonDue := by
    unfold s1
    split
    · exact State.tombstone_poisonDue ..
    · rfl
  have h2 : s2.objs.poisonDue = s1.objs.poisonDue := by
    unfold s2
    split_ifs
    · exact State.leaveMix_poisonDue ..
    · rfl
    · exact State.leaveTarget_poisonDue ..
    · exact State.leaveMix_poisonDue ..
  exact ⟨look_del_same .., h2.trans h1⟩

theorem contextPoisonDelete_stream {x : Stream} (hnow : s.now = s.tickAt) (hdue : s.objs.poisonDue = [(2, i)]) (hx : look s.objs.streams i = some x) :
    look (contextPoisonDelete s).objs.streams i = none ∧ (contextPoisonDelete s).objs.poisonDue = [] := by
  have h1 : look (s.modObjs (fun o => { o with poisonDue := [] })).objs.streams i = some x := hx
  have hend : contextPoisonDelete s = ((s.modObjs (fun o => { o with poisonDue := [] })).deleteStream i).event 28
      (streamHandle i x.inc + 2 * 2 ^ 32) x.owner := by
    unfold contextPoisonDelete
    rw [if_neg (not_not_intro hnow), hdue]
    generalize s.modObjs (fun o => { o with poisonDue := [] }) = s1 at h1
    unfold Machine.forEach
    rw [List.foldl_cons, List.foldl_nil]
    dsimp only
    rw [h1]
    rfl
  obtain ⟨hgone, hrest⟩ := State.deleteStream_gone h1
  rw [hend, State.event_objs]
  exact ⟨hgone, hrest⟩

end Contexts
/-! ### Migration (R559) -/

section Migrations
variable {s : State} {j k : Nat}

theorem migrationStart_one (hidle : s.dram.migration = none) (hmode : s.power.mode ≠ .keep) (hqueue : s.dram.queue = [k]) (hspare : s.spareFor k = some j) :
    migrationStart s = (s.modRank k (fun r => { r with state := .migrating })).modDram (fun d => { d with
      queue := d.queue.filter (· != k), migration := some { src := k, dst := j, startAt := s.now, mbps := s.migRate } }) := by
  unfold migrationStart
  rw [if_neg (by simp [hidle, hmode]), hqueue, List.find?_cons_of_pos (by rw [hspare]; rfl)]
  dsimp only
  rw [hspare]

/-- A copy that has ended. -/
theorem State.migrated_sets (s : State) (m : Migration) (hne : m.src ≠ m.dst) : (s.migrated m).dram.migration = none ∧
    ((s.migrated m).rank m.src).state = .retired ∧ ((s.migrated m).rank m.dst).state = .spareInUse ∧ ((s.migrated m).rank m.dst).set = (s.rank m.src).set ∧
    (s.migrated m).dram.sets = s.dram.sets.map (fun (a, l) => (a, l.map (fun r => if r = m.src then m.dst else r))) := by
  unfold State.migrated
  extract_lets set bad s1 s2 s3
  have h1 : s1.dram = s.dram := (State.addCnt_dram ..).trans ((State.addCnt_dram ..).trans (State.addCnt_dram ..))
  have hdst : s3.rank m.dst = { s2.rank m.dst with state := .spareInUse, set } :=
    (State.rank_modRank_ne _ hne.symm _).trans (State.rank_modRank_same ..)
  have hsrc : (s3.rank m.src).state = .retired := congrArg Rank.state (State.rank_modRank_same ..)
  rw [State.rank_of_dram (State.event_dram ..), State.rank_of_dram (State.event_dram ..), State.event_dram, hdst]
  refine ⟨rfl, hsrc, rfl, rfl, ?_⟩
  exact congrArg (fun d : Dram => d.sets.map (fun (a, l) => (a, l.map (fun r => if r = m.src then m.dst else r)))) h1

end Migrations
/-! ### Patrol (R562) -/

section Patrol
variable {s : State}

/-- A place below the total size lies in a rank. -/
theorem patrolAt_below : ∀ (ranks : List (Nat × Nat)) (pos : Nat), pos < (ranks.map (fun x => gibLines x.2)).sum → ∃ p, patrolAt pos ranks = some p
  | [], pos, h => absurd h (Nat.not_lt_zero pos)
  | (k, gib) :: rest, pos, h => by
    rw [List.map_cons, List.sum_cons] at h
    dsimp only at h
    unfold patrolAt
    split
    · exact ⟨_, rfl⟩
    · exact patrolAt_below rest (pos - gibLines gib) (by omega)

theorem patrolScrub_clean (htotal : (s.patrolRanks.map (fun x => gibLines x.2)).sum ≠ 0) (hmode : s.power.mode ≠ .keep) :
    patrolScrub .clean s = (s.bump (faCtr 16)).modDram (fun d => { d with
      scrubPos := (d.scrubPos % (s.patrolRanks.map (fun x => gibLines x.2)).sum + 1) % (s.patrolRanks.map (fun x => gibLines x.2)).sum }) := by
  obtain ⟨⟨k, off⟩, hat⟩ := patrolAt_below s.patrolRanks (s.dram.scrubPos % (s.patrolRanks.map (fun x => gibLines x.2)).sum)
    (Nat.mod_lt _ (Nat.pos_of_ne_zero htotal))
  unfold patrolScrub
  extract_lets ranks total
  rw [if_neg (by simp only [not_or]; exact ⟨htotal, hmode⟩), hat]

end Patrol
/-! ### Sweeps (R567) -/

section Sweeps
variable {s : State} {v : Service}

theorem readySweep_done (n : Nat) (h : s.dram.services = []) : readySweep n s = s := by
  cases n with
  | zero => rfl
  | succ n =>
    unfold readySweep
    rw [h]

theorem readySweep_swept (n : Nat) {rest : List Service} (h : s.dram.services = v :: rest) (hleft : v.left = []) : readySweep n s = s := by
  cases n with
  | zero => rfl
  | succ n =>
    unfold readySweep
    rw [h]
    dsimp only
    rw [hleft]

/-- The end of the only service leaves its ranks as they are. -/
theorem State.endSweep_only (last : Nat) (h : s.dram.services = [v]) : (s.endSweep v last).dram = { s.dram with services := [] } := by
  unfold State.endSweep
  extract_lets result s1 slots
  have h1 : s1.dram = { s.dram with services := [] } := congrArg (fun l => { s.dram with services := List.drop 1 l }) h
  have h2 : (if v.noTable = false ∧ v.good ≠ [] ∧ s1.flash.tableOff.isSome then
      s1.modFlash (fun f => { f with ops := f.ops ++ [.table slots v.port v.ring v.seq result] })
      else s1.complete v.port v.ring v.seq stOk result).dram = s1.dram := by
    split
    · rfl
    · exact State.complete_dram ..
  rw [readySweep_done 48 (by rw [h2, h1]), h2, h1]

/-- The sweep of its last rank leaves a service to end, the rank a spare. -/
theorem rankSweepDone_ends {c r : Nat} (hv : s.dram.services = [v]) (hleft : v.left = [4 * c + r]) (hold : (s.rank (4 * c + r)).holds = false) :
    ∃ (s1 : State) (w : Service), rankSweepDone c r true s = s1.endSweep w c ∧ s1.dram.services = [w] ∧ (s1.rank (4 * c + r)).state = .spare ∧
      (s1.rank (4 * c + r)).set = 0xFF := by
  unfold rankSweepDone
  extract_lets k held f base s1 s2 s3
  rw [hv]
  dsimp -zeta only
  have hheld : held = false := hold
  rw [if_neg (by rw [hleft, show (s.rank k).holds = false from hold]; simp [k])]
  extract_lets w s4 s5
  have hbase : (s1.rank k).state = .spare ∧ (s1.rank k).set = 0xFF := by
    have hone : s1.rank k = base.rank k := by
      unfold s1
      rw [if_pos rfl]
      rfl
    rw [hone, show base.rank k = _ from State.rank_modRank_same ..]
    exact ⟨if_neg (by simp [hheld]), if_neg (by simp [hheld])⟩
  have h2 : s2 = s1 := if_neg (by simp [hheld])
  have h3 : s3 = s1 := (if_neg (by simp [hheld])).trans h2
  have hleftw : w.left = [] := congrArg (List.drop 1) hleft
  have h5 : s5 = s4 := readySweep_swept 48 rfl hleftw
  rw [h5]
  refine ⟨s4, w, if_pos hleftw, rfl, ?_⟩
  have h4 : s4.rank k = s1.rank k := by
    rw [← h3]
    rfl
  rw [show s4.rank (4 * c + r) = s1.rank k from h4]
  exact hbase

/-- The rank that the only sweep has trained is a spare. -/
theorem rankSweepDone_spare {c r : Nat} (hv : s.dram.services = [v]) (hleft : v.left = [4 * c + r]) (hold : (s.rank (4 * c + r)).holds = false) :
    ((rankSweepDone c r true s).rank (4 * c + r)).state = .spare ∧ ((rankSweepDone c r true s).rank (4 * c + r)).set = 0xFF ∧
      (rankSweepDone c r true s).dram.services = [] := by
  obtain ⟨s1, w, hend, hw, hstate, hset⟩ := rankSweepDone_ends hv hleft hold
  have hdram := State.endSweep_only c hw
  have hrank : (s1.endSweep w c).rank (4 * c + r) = s1.rank (4 * c + r) := State.rank_of_ranks (by rw [hdram]) _
  rw [hend, hrank, hdram]
  exact ⟨hstate, hset, rfl⟩

end Sweeps
/-- Settles O42: each step has its equation; retirement, events and counts leave poison and the remembered errors. -/
theorem memoryIsRepaired : Obligations.MemoryIsRepaired := by
  unfold Obligations.MemoryIsRepaired
  intro t k s z rfl
  refine ⟨fun client line obj item hk => ⟨fun acc cut => ?_, fun acc cut => ?_, fun acc cut hfar hnone => ?_⟩, fun i x hnow hdue hx => ?_,
    fun j hidle hmode hqueue hspare => ?_, fun m hm hne hend => ?_, fun htotal hmode => ?_, fun c r v hv hleft hold => ?_⟩
  · refine ⟨_, congrArg Host.Outcome.next (dramRead_clean (u := ⟨client, line, obj, item⟩) (a := acc) (cut := cut) hk), (State.unpoison_clean ..).1, ?_⟩
    rw [(State.unpoison_clean ..).2, State.issued_frame]
  · have hu := ((s.at t).issued (k / 4) client acc).corrected_rank k
    rw [State.issued_tick, State.rank_of_dram (State.issued_dram ..), State.issued_dram] at hu
    exact ⟨_, congrArg Host.Outcome.next (dramRead_corrected (u := ⟨client, line, obj, item⟩) (a := acc) (cut := cut) hk), hu⟩
  · refine ⟨_, congrArg Host.Outcome.next (dramRead_uncorrectable (u := ⟨client, line, obj, item⟩) (a := acc) (cut := cut) hk hfar
      (State.consumer_none _ hnone)), (State.poisonLine_mem ..).1, ?_⟩
    rw [State.rank_of_ranks (State.poisonLine_ranks ..)]
    exact (State.uncorrectable_rank ..).trans (congrArg some (State.issued_tick ..))
  · exact ⟨_, rfl, contextPoisonDelete_stream (s := s.at t) hnow hdue hx⟩
  · refine ⟨_, congrArg Host.Outcome.next (migrationStart_one (s := s.at t) hidle hmode hqueue hspare), rfl, ?_, ?_, fun i hi => ?_, rfl⟩
    · exact (congrArg (List.filter (· != k)) hqueue).trans (by simp)
    · exact congrArg Rank.state ((s.at t).rank_modRank_same k (fun r => { r with state := .migrating }))
    · exact (s.at t).rank_modRank_ne hi (fun r => { r with state := .migrating })
  · have hu : migrationComplete (s.at t) = (s.at t).migrated m := by
      unfold migrationComplete
      rw [show (s.at t).dram.migration = some m from hm]
      exact if_pos hend
    exact ⟨_, congrArg Host.Outcome.next hu, State.migrated_sets (s.at t) m hne⟩
  · exact congrArg Host.Outcome.next (patrolScrub_clean (s := s.at t) htotal hmode)
  · exact ⟨_, rfl, rankSweepDone_spare (s := s.at t) hv hleft hold⟩

end Sys2Proof.Machine
end

section
/-! PROOFS. Modes: requests, changes, KEEP, DRAIN and SAFE (14 R577-R585). -/
namespace Sys2Proof.Machine

/-! ### What leaves the operating mode -/

section Kept
variable {s t u : State}

/-- Of the power state nothing differs but the note of the last room in DRAIN. -/
def KeepsPower (s t : State) : Prop := t.power = { s.power with drainEmpty := t.power.drainEmpty }

theorem KeepsPower.of_power (h : t.power = s.power) : KeepsPower s t := by
  unfold KeepsPower
  rw [h]
theorem KeepsPower.refl (s : State) : KeepsPower s s := rfl
theorem KeepsPower.trans (a : KeepsPower s t) (b : KeepsPower t u) : KeepsPower s u := by
  unfold KeepsPower at *
  rw [b, a]
theorem KeepsPower.ite {c : Prop} [Decidable c] (a : KeepsPower s t) (b : KeepsPower s u) : KeepsPower s (if c then t else u) := by
  split
  · exact a
  · exact b
theorem KeepsPower.forEach {α : Type} {f : α → State → State} (h : ∀ a s, KeepsPower s (f a s)) : ∀ (l : List α) (s : State), KeepsPower s (forEach l f s)
  | [], s => KeepsPower.refl s
  | a :: l, s => (h a s).trans (KeepsPower.forEach h l (f a s))
theorem NetFrame.keepsPower (a : NetFrame s t) : KeepsPower s t := KeepsPower.of_power a.power
theorem KeepsPower.event (s : State) (src payload who : Nat) : KeepsPower s (s.event src payload who) := (NetFrame.event ..).keepsPower
theorem KeepsPower.modMedia (s : State) (f : Media → Media) : KeepsPower s (s.modMedia f) := rfl
theorem KeepsPower.modObjs (s : State) (f : Objects → Objects) : KeepsPower s (s.modObjs f) := rfl
theorem KeepsPower.modThyme (s : State) (f : Thyme → Thyme) : KeepsPower s (s.modThyme f) := rfl
theorem KeepsPower.modHost (s : State) (p : Nat) (f : HostPort → HostPort) : KeepsPower s (s.modHost p f) := rfl

theorem State.tombstone_keepsPower (s : State) (kind handle owner ssrc yard : Nat) (tuple : Nat × Nat × Nat × Nat × Nat) :
    KeepsPower s (s.tombstone kind handle owner ssrc yard tuple) := by
  unfold State.tombstone
  extract_lets q
  exact KeepsPower.ite (KeepsPower.refl s) (KeepsPower.modObjs s _)

theorem State.leaveTarget_keepsPower (s : State) (i : Nat) : KeepsPower s (s.leaveTarget i) := by
  unfold State.leaveTarget
  split
  · exact KeepsPower.refl s
  · extract_lets rest
    exact KeepsPower.ite ((KeepsPower.modMedia s _).trans (KeepsPower.modObjs _ _)) (KeepsPower.modMedia s _)

theorem State.leaveMix_keepsPower (s : State) (i : Nat) (x : Stream) : KeepsPower s (s.leaveMix i x) := rfl

theorem State.deleteStream_keepsPower (s : State) (i : Nat) : KeepsPower s (s.deleteStream i) := by
  unfold State.deleteStream
  split
  · exact KeepsPower.refl s
  · next x hx =>
    extract_lets h y s1 s2 s3 s4
    have h1 : KeepsPower s s1 := by
      unfold s1
      split
      · exact State.tombstone_keepsPower ..
      · exact KeepsPower.refl s
    have h2 : KeepsPower s1 s2 := KeepsPower.ite (KeepsPower.ite (State.leaveMix_keepsPower ..) (KeepsPower.refl s1))
      (KeepsPower.ite (State.leaveTarget_keepsPower ..) (State.leaveMix_keepsPower ..))
    have h3 : KeepsPower s2 s4 := rfl
    exact ((h1.trans h2).trans h3).trans (KeepsPower.modObjs s4 _)

theorem State.deleteLeg_keepsPower (s : State) (i : Nat) : KeepsPower s (s.deleteLeg i) := by
  unfold State.deleteLeg
  split
  · exact KeepsPower.refl s
  · extract_lets s1 s2 s3 s4
    have h1 : KeepsPower s s1 := KeepsPower.forEach (fun k s => State.deleteStream_keepsPower s k) _ s
    have hdrop : ∀ (q : List QFrame) (key yard : Nat), NetFrame s1 (s1.discardAll q key yard) := fun q key yard =>
      NetFrame.forEach (fun f s => (NetFrame.release s f).trans (NetFrame.dropQ ..)) q s1
    have h2 : KeepsPower s1 s2 := ((hdrop ..).trans (NetFrame.modNet _ _)).keepsPower
    have h3 : KeepsPower s2 s3 := State.tombstone_keepsPower ..
    exact ((h1.trans h2).trans h3).trans ((KeepsPower.modMedia s3 _).trans (KeepsPower.modObjs _ _))

theorem State.snapRoomGone_keepsPower (s : State) (room : Nat) : KeepsPower s (s.snapRoomGone room) := by
  refine KeepsPower.forEach (fun p s => ?_) [0, 1, 2, 3] s
  dsimp only
  exact (KeepsPower.forEach (fun q s => KeepsPower.event ..) _ s).trans (KeepsPower.modHost _ p _)

theorem State.noteDrained_keepsPower (s : State) : KeepsPower s s.noteDrained := KeepsPower.ite rfl (KeepsPower.refl s)

theorem State.retireRoom_keepsPower (s : State) (room : Nat) : KeepsPower s (s.retireRoom room) := by
  unfold State.retireRoom
  exact KeepsPower.modMedia s _

theorem State.freshInserts_keepsPower (s : State) (room : Nat) : KeepsPower s (s.freshInserts room) := by
  unfold State.freshInserts
  exact KeepsPower.modThyme s _

theorem State.deleteRoom_keepsPower (s : State) (i : Nat) : KeepsPower s (s.deleteRoom i) := by
  unfold State.deleteRoom
  split
  · exact KeepsPower.refl s
  · next r hr =>
    extract_lets s1 s2 s3 s4 s5
    have h1 : KeepsPower s s1 := (State.snapRoomGone_keepsPower s _).trans (State.retireRoom_keepsPower _ i)
    have h2 : KeepsPower s1 s2 := KeepsPower.forEach (fun k s => State.deleteLeg_keepsPower s k) _ s1
    have h3 : KeepsPower s2 s3 := KeepsPower.modMedia s2 _
    have h4 : KeepsPower s3 s4 := State.freshInserts_keepsPower s3 i
    have h5 : KeepsPower s4 s5 := KeepsPower.modMedia s4 _
    clear_value s5
    exact ((((h1.trans h2).trans h3).trans h4).trans h5).trans ((KeepsPower.modObjs s5 _).trans (State.noteDrained_keepsPower _))

theorem orphanExpiry_keepsPower (p : Nat) (s : State) : KeepsPower s (orphanExpiry p s) := by
  have hdoomed : KeepsPower s (s.deleteDoomed p) := by
    unfold State.deleteDoomed
    extract_lets due s1
    have h1 : KeepsPower s s1 := KeepsPower.modHost s p _
    refine h1.trans (KeepsPower.forEach (fun x s => ?_) due s1)
    split
    · exact State.deleteRoom_keepsPower ..
    · exact KeepsPower.refl s
  unfold orphanExpiry
  refine KeepsPower.ite (KeepsPower.refl s) ?_
  dsimp only
  split
  · exact KeepsPower.ite ((hdoomed.trans (KeepsPower.modHost _ p _)).trans (KeepsPower.forEach (fun i s => State.deleteRoom_keepsPower s i) _ _)) hdoomed
  · exact hdoomed

theorem State.exhaust_keepsPower (s : State) (i : Nat) : KeepsPower s (s.exhaust i) := by
  unfold State.exhaust
  split
  · exact KeepsPower.ite (KeepsPower.refl s) (KeepsPower.event ..)
  · exact KeepsPower.refl s

theorem State.sendRtcp_keepsPower (s : State) (leg : Nat) (b : Bytes) : KeepsPower s (s.sendRtcp leg b) := by
  unfold State.sendRtcp
  split
  · exact KeepsPower.refl s
  · split
    · exact (NetFrame.enqueue ..).keepsPower
    · exact KeepsPower.ite (KeepsPower.refl s) (KeepsPower.ite (State.exhaust_keepsPower s _) (NetFrame.enqueue ..).keepsPower)

theorem State.requestKey_keepsPower (s : State) (i : Nat) (fir : Option Bool) : KeepsPower s (s.requestKey i fir) := by
  unfold State.requestKey
  split
  · exact KeepsPower.refl s
  · next x hx =>
    obtain ⟨n, hfree⟩ := s.rtcpSsrc_free x.leg
    extract_lets early useFir
    clear_value early useFir
    refine KeepsPower.ite (KeepsPower.refl s) ?_
    dsimp only
    rw [hfree]
    refine KeepsPower.ite (KeepsPower.trans ?_ (State.sendRtcp_keepsPower ..)) (KeepsPower.trans ?_ (State.sendRtcp_keepsPower ..))
    · exact KeepsPower.of_power (State.addCnt_power ..)
    · exact KeepsPower.of_power (State.addCnt_power ..)

theorem State.keyRequest_keepsPower (s : State) (k stall : Nat) (fresh : Bool) : KeepsPower s (s.keyRequest k stall fresh) := by
  unfold State.keyRequest
  split
  · exact KeepsPower.refl s
  · extract_lets i before s1 after s2
    have h1 : KeepsPower s s1 := State.requestKey_keepsPower ..
    have h2 : KeepsPower s1 s2 := KeepsPower.ite (NetFrame.bump s1 _).keepsPower (KeepsPower.refl s1)
    exact (h1.trans h2).trans (KeepsPower.ite (KeepsPower.modMedia s2 _) (KeepsPower.refl s2))

theorem State.resumeMedia_keepsPower (s : State) : KeepsPower s s.resumeMedia := by
  unfold State.resumeMedia
  extract_lets s1 s2 s3
  have h2 : KeepsPower s s2 := rfl
  have h3 : KeepsPower s2 s3 := KeepsPower.forEach (fun k s => State.keyRequest_keepsPower ..) _ s2
  exact (h2.trans h3).trans (KeepsPower.forEach (fun p s => orphanExpiry_keepsPower p s) _ s3)

end Kept
/-! ### Changes (R579, R581-R585) -/

section Changes
variable {s : State}

theorem State.releaseKeep_power (s : State) : s.releaseKeep.power = s.power := by
  have h : HostOnly s s.releaseKeep := by
    unfold State.releaseKeep
    extract_lets held
    refine (HostOnly.modRouter s _).trans (HostOnly.forEach _ (fun x s => ?_) held _)
    dsimp only
    split
    · exact State.routed_hostOnly ..
    · exact HostOnly.refl s
  exact h.power

/-- A change of the mode. -/
theorem State.setMode_power (s : State) (m : Mode) :
    (s.setMode m).power = { s.power with mode := m, prev := s.power.mode, pend := none, movedTick := (s.setMode m).power.movedTick } := by
  unfold State.setMode
  extract_lets old s1 payload moved
  have h1 : s1.power = s.power := State.addCnt_power ..
  have hmoved : (if m = .keep then (s1.event 32 payload).modPower moved else ((s1.modPower moved).releaseKeep).event 32 payload).power =
      moved s.power := by
    split
    · exact congrArg moved ((NetFrame.event s1 32 payload 0).power.trans h1)
    · exact (NetFrame.event ..).power.trans ((State.releaseKeep_power _).trans (congrArg moved h1))
  rw [hmoved]

theorem State.setMode_keeps {m : Mode} {t : State} (h : KeepsPower (s.setMode m) t) :
    t.power.mode = m ∧ t.power.prev = s.power.mode ∧ t.power.pend = none ∧ t.power.keepFrom = s.power.keepFrom := by
  rw [h, State.setMode_power]
  exact ⟨rfl, rfl, rfl, rfl⟩

theorem State.migrated_keepsPower (s : State) (m : Migration) : KeepsPower s (s.migrated m) := by
  unfold State.migrated
  extract_lets set bad s1 s2 s3
  have h1 : KeepsPower s s1 := ((NetFrame.bump s _).trans ((NetFrame.addCnt _ _ _).trans (NetFrame.addCnt _ _ _))).keepsPower
  have h2 : KeepsPower s1 s3 := rfl
  exact (h1.trans h2).trans (KeepsPower.event ..)

theorem State.portsDown_netFrame (s : State) : NetFrame s s.portsDown := NetFrame.forEach (fun l s => NetFrame.linkDown s l {}) _ s

theorem State.keepDiscard_netFrame (s : State) (q : List QFrame) : NetFrame s (s.keepDiscard q) :=
  NetFrame.forEach (fun f s => ((NetFrame.release s f).trans (NetFrame.bump _ _)).trans (NetFrame.notSent _ f)) q s

/-- The entry into KEEP. -/
theorem State.enterKeep_power (s : State) : s.enterKeep.power.mode = .keep ∧ s.enterKeep.power.prev = s.power.mode ∧ s.enterKeep.power.pend = none ∧
    s.enterKeep.power.keepFrom = s.power.mode := by
  unfold State.enterKeep
  extract_lets s1 s2 s3 s4 s5 from_
  have h1 : NetFrame s s1 := State.portsDown_netFrame s
  have h2 : NetFrame s1 s2 := (NetFrame.forEach (fun q s => State.keepDiscard_netFrame s q) _ s1).trans (NetFrame.modNet _ _)
  have h3 : NetFrame s2 s3 := (NetFrame.forEach (fun q s => State.keepDiscard_netFrame s q) _ s2).trans (NetFrame.modNet _ _)
  have h123 : KeepsPower s s3 := ((h1.trans h2).trans h3).keepsPower
  clear_value s3
  have h4 : KeepsPower s s4 := h123.trans rfl
  have h5 : KeepsPower s4 s5 := by
    unfold s5
    split
    · exact State.migrated_keepsPower ..
    · exact KeepsPower.refl s4
  have hmode : s5.power.mode = s.power.mode := by rw [h4.trans h5]
  obtain ⟨hnew, hprev, hpend, -⟩ := State.setMode_keeps (KeepsPower.refl (s5.setMode .keep))
  exact ⟨hnew, hprev.trans hmode, hpend, hmode⟩

/-- The entry into DRAIN. -/
theorem State.enterDrain_power (s : State) : s.enterDrain.power.mode = .drain ∧ s.enterDrain.power.prev = s.power.mode ∧ s.enterDrain.power.pend = none ∧
    s.enterDrain.power.drainTick = s.tick := by
  unfold State.enterDrain
  obtain ⟨hnew, hprev, hpend, -⟩ := State.setMode_keeps (KeepsPower.refl (s.setMode .drain))
  have h := State.noteDrained_keepsPower ((s.setMode .drain).modPower (fun p => { p with drainTick := s.tick, drainEmpty := none }))
  rw [h]
  exact ⟨hnew, hprev, hpend, rfl⟩

theorem State.leaveKeep_power (s : State) : s.leaveKeep.power.mode = s.power.keepFrom ∧ s.leaveKeep.power.keepExit = none ∧ s.leaveKeep.power.pend = none := by
  unfold State.leaveKeep
  extract_lets s1
  obtain ⟨hnew, -, hpend, -⟩ := State.setMode_keeps (KeepsPower.refl (s.setMode s.power.keepFrom))
  rw [State.resumeMedia_keepsPower (s1.modPower (fun p => { p with keepExit := none }))]
  exact ⟨hnew, rfl, hpend⟩

theorem modeChange_resumes {dest : Mode} {eff e : Nat} (hpend : s.power.pend = some (dest, eff)) (hmode : s.power.mode = .keep)
    (hexit : s.power.keepExit = some e) (hlast : e < s.tickAt) (heff : eff ≤ s.tickAt) (hbound : s.modeBoundary = true) : modeChange s = s.leaveKeep := by
  unfold modeChange
  rw [hpend]
  dsimp only
  rw [if_neg (by simp [hbound]; omega), if_pos hmode, hexit]
  exact if_pos (decide_eq_true hlast)

/-- A pending change at its boundary. -/
theorem modeChange_power {dest : Mode} {eff : Nat} (hpend : s.power.pend = some (dest, eff)) (hbound : s.modeBoundary = true) (heff : eff ≤ s.tickAt)
    (hmode : s.power.mode ≠ .keep) : (modeChange s).power.mode = dest ∧ (modeChange s).power.prev = s.power.mode ∧ (modeChange s).power.pend = none ∧
      (dest = .keep → (modeChange s).power.keepFrom = s.power.mode) ∧ (dest = .drain → (modeChange s).power.drainTick = s.tick) := by
  unfold modeChange
  rw [hpend]
  dsimp -zeta only
  rw [if_neg (by simp [hbound]; omega), if_neg hmode]
  split
  · obtain ⟨hnew, hprev, hnone, hfrom⟩ := s.enterKeep_power
    exact ⟨hnew, hprev, hnone, fun _ => hfrom, fun h => by cases h⟩
  · obtain ⟨hnew, hprev, hnone, htick⟩ := s.enterDrain_power
    exact ⟨hnew, hprev, hnone, (fun h => by cases h), fun _ => htick⟩
  · next hkeep hdrain =>
    extract_lets was s1
    obtain ⟨hnew, hprev, hnone, -⟩ := State.setMode_keeps (t := if was = .service then s1.loopsOff else s1)
      (KeepsPower.ite (NetFrame.modNet s1 _).keepsPower (KeepsPower.refl s1))
    exact ⟨hnew, hprev, hnone, fun h => absurd h hkeep, fun h => absurd h hdrain⟩

theorem drainEnd_standby {e : Nat} (hmode : s.power.mode = .drain) (hbound : s.modeBoundary = true) (hempty : s.power.drainEmpty = some e)
    (hlast : e < s.tick) : (drainEnd s).power.mode = .standby ∧ (drainEnd s).power.prev = .drain := by
  have hend : drainEnd s = s.ownMove .standby := if_pos ⟨hmode, hbound, by rw [hempty]; exact decide_eq_true hlast⟩
  obtain ⟨hnew, hprev, -⟩ := State.setMode_keeps (KeepsPower.refl (s.setMode .standby))
  rw [hend]
  exact ⟨hnew, hprev.trans hmode⟩

theorem drainTimeout_empties (hmode : s.power.mode = .drain) (hnow : s.now = s.tickAt) (hdue : s.power.drainTick + s.fld 0x0F 8 4 * 400 ≤ s.tick) (i : Nat) :
    look (drainTimeout s).objs.rooms i = none := by
  have hend : drainTimeout s = forEach (s.objs.rooms.map (·.1)) (fun i s => s.deleteRoom i) s := if_pos ⟨hmode, hnow, hdue⟩
  obtain ⟨hall, hnone⟩ := forEach_deleteRoom (s.objs.rooms.map (·.1)) s
  rw [hend]
  cases h : look s.objs.rooms i with
  | none => exact hall.none h
  | some r => exact hnone i (List.mem_map.mpr ⟨(i, r), mem_of_look h, rfl⟩)

/-- The entry into SAFE. -/
theorem State.enterSafe_safe (s : State) (reason : Nat) (hmode : s.power.mode ∉ [Mode.reset, .safe]) : (s.enterSafe reason).power.mode = .safe ∧
    (s.enterSafe reason).power.safeReason = reason ∧ (s.enterSafe reason).power.pend = none ∧ (s.enterSafe reason).pins.alert = true := by
  unfold State.enterSafe
  rw [if_neg (by simpa using hmode)]
  extract_lets s1 s2 s3
  have h2 : s2.power.mode = .safe ∧ s2.power.pend = none := by
    unfold s2
    generalize s1.portsDown.loopsOff = d
    obtain ⟨hnew, -, hpend, -⟩ := State.setMode_keeps (KeepsPower.refl (d.setMode .safe))
    exact ⟨hnew, hpend⟩
  clear_value s2
  obtain ⟨hnew, hpend⟩ := h2
  rw [(NetFrame.event ..).power, State.event_frame]
  exact ⟨hnew, rfl, hpend, rfl⟩

end Changes
/-! ### Requests and KEEP_N (R578), and the waits of KEEP (R583, R584) -/

section Requests
variable {s : State}

theorem keepNRise_standby (hmode : s.power.mode = .keep) (hpend : s.power.pend = none) (hfrom : s.power.keepFrom = .standby)
    (hcap : s.fld 0x0E 0 4 ≤ s.capGib) : (keepNRise s).power.keepN = true ∧ (keepNRise s).power.reqResult = 0 ∧
      (keepNRise s).power.pend = some (.standby, s.now + 100 * us) := by
  unfold keepNRise
  extract_lets s1
  have hresult : s1.requestResult s1.power.keepFrom = 0 := by
    have hs1 : s1.power.keepFrom = .standby := hfrom
    have hallowed : s1.allowed .standby = true := by
      unfold State.allowed
      rw [show s1.power.mode = .keep from hmode]
      dsimp only
      rw [hs1]
      rfl
    unfold State.requestResult
    rw [hs1, if_neg (by simp [hallowed]), if_neg (by simp), if_neg (by rintro ⟨-, h⟩; exact absurd h (Nat.not_lt.mpr hcap)),
      if_neg (by rintro ⟨-, h⟩; cases h), if_neg (by rw [show s1.power.pend = none from hpend]; simp)]
  rw [if_pos (show s1.power.mode = .keep from hmode)]
  unfold State.requestMode
  rw [hresult, show s1.power.keepFrom = .standby from hfrom]
  exact ⟨rfl, rfl, rfl⟩

theorem keepExit_begins {dest : Mode} {eff : Nat} (hpend : s.power.pend = some (dest, eff)) (hmode : s.power.mode = .keep)
    (hexit : s.power.keepExit = none) (heff : eff ≤ s.tickAt) : keepExit s = s.clearLost.modPower (fun p => { p with keepExit := some s.now }) := by
  unfold keepExit
  rw [hpend]
  exact if_pos ⟨hmode, hexit, heff⟩

/-- Clearing the ranks that KEEP has lost. -/
theorem State.clearLost_kept (s : State) : s.clearLost.power = s.power ∧ s.clearLost.flash = s.flash ∧ s.clearLost.gens = s.gens := by
  unfold State.clearLost
  extract_lets lost gone n hist log ring
  clear_value gone n hist log ring
  dsimp -zeta only
  extract_lets s1 s2
  have h1 : s1.power = s.power ∧ s1.flash = s.flash ∧ s1.gens = s.gens := ⟨s.addCnt_power _ n, s.addCnt_flash _ n, s.addCnt_gens _ n⟩
  clear_value s1
  have h2 : s2.power = s1.power ∧ s2.flash = s1.flash ∧ s2.gens = s1.gens := by
    unfold s2
    split <;> exact ⟨rfl, rfl, rfl⟩
  clear_value s2
  obtain ⟨hpower, hflash, hgens⟩ := h2
  rw [← h1.1, ← h1.2.1, ← h1.2.2, ← hpower, ← hflash, ← hgens]
  split <;> exact ⟨rfl, rfl, rfl⟩

/-- The overrun of a decode operation whose picture has other shares leaves the slots of the other operations. -/
theorem State.decodeOverrun_ops {o : Op} {k n : Nat} {again : Bool} {made : Recon} {tg : Target} {p : Picture} (hno : s.media.noSlot = [])
    (htarget : s.target k = some tg) (hpic : tg.pic n = some p) (hleft : 2 ≤ p.left) : ∃ u : State,
      ((s.bump (ostCtr o.yard o.cls 16)).endOp o o.budget).decodeOverrun o k n again made = u.modPic k n (fun p => p.overran tg n made) ∧
        u.media.ops = s.media.leftOps s.now (fun x => x.id == o.id) := by
  obtain ⟨busy, hend⟩ := (s.bump (ostCtr o.yard o.cls 16)).endOp_frame o o.budget hno
  have hshare : ∀ t : State, t.media.targets = s.media.targets →
      t.shareDone k n again made (fun p => { p with overrun := true }) = t.modPic k n (fun p => p.overran tg n made) := fun t ht =>
    State.shareDone_more (p := p) ((congrArg (look · k) ht).trans htarget) hpic (fun _ => rfl) hleft
  unfold State.decodeOverrun
  dsimp only
  rw [hshare _ (by rw [State.addCnt_frame, hend]; rfl)]
  refine ⟨_, rfl, ?_⟩
  rw [State.addCnt_frame, hend]
  rfl

/-- The one decode operation that outlives the wait is ended. -/
theorem keepWaitExpiry_ends {o : Op} {k n : Nat} {share : Nat} {tg : Target} {p : Picture} (hview : s.opView o = none) (hmode : s.power.mode = .keep)
    (hdue : s.power.keepAt + s.fld 0x0F 12 2 * 1000 * us ≤ s.now) (hops : s.media.ops = [o]) (hno : s.media.noSlot = []) (hunit : o.unit.isSome = true)
    (hkind : o.kind = .decode k n share false) (htarget : s.target k = some tg) (hpic : tg.pic n = some p) (hleft : 2 ≤ p.left) :
    (keepWaitExpiry s).media.ops = [] := by
  have hrun : s.runningOp o.id = some o := by
    unfold State.runningOp State.opAt
    rw [hops, List.find?_cons_of_pos (by simp)]
    exact if_pos hunit
  have hend : keepWaitExpiry s = s.overrunOp o {} := by
    unfold keepWaitExpiry
    rw [if_pos ⟨hmode, hdue⟩, hops, List.filter_cons_of_pos (by exact hunit), List.filter_nil]
    unfold Machine.forEach
    rw [List.foldl_cons, List.foldl_nil]
    dsimp only
    rw [hkind, hrun]
  have hwork : s.overrunOp o {} = ((s.bump (ostCtr o.yard o.cls 16)).endOp o o.budget).decodeOverrun o k n false {} := by
    unfold State.overrunOp State.underOp
    rw [hview, hkind]
  obtain ⟨u, hu, hleftops⟩ := State.decodeOverrun_ops (o := o) (again := false) (made := {}) hno htarget hpic hleft
  have hnone : u.media.ops = [] := by
    rw [hleftops, Media.leftOps, hops, List.filter_cons_of_neg (by simp), List.filter_nil, List.map_nil]
  rw [hend, hwork, hu]
  exact hnone

end Requests
/-- Settles O43: the power state stands through all that a change of the mode does beside it. -/
theorem modesChange : Obligations.ModesChange := by
  unfold Obligations.ModesChange
  intro t s z rfl
  refine ⟨fun p value hbar howner hmode => ?_, fun dest eff hpend hbound heff hmode => ?_, fun hmode => ?_, fun hmode hpend hfrom hcap => ?_,
    fun o k n share tg p hview hmode hdue hops hno hunit hkind htarget hpic hleft => ?_, fun dest eff hpend hmode hexit heff => ?_,
    fun dest eff e hpend hmode hexit hlast heff hbound => ?_, fun hmode hnow hdue => ?_, fun e hmode hbound hempty hlast => ?_,
    fun reason cut hreason hmode => ?_⟩
  · have hend : modeRequest p value (s.at t) = (s.at t).requestMode (modeOfCode (bits value 2 0)) := by
      unfold modeRequest State.writeModeReq
      rw [if_pos ⟨hbar, howner⟩]
      exact if_neg (by simpa using hmode)
    exact ⟨_, congrArg Host.Outcome.next hend, rfl, rfl, rfl, rfl⟩
  · exact ⟨_, rfl, modeChange_power (s := s.at t) hpend hbound heff hmode⟩
  · have hend : keepNFall (s.at t) = ((s.at t).modPower (fun p => { p with keepN := false })).requestMode .keep := if_neg (by simpa using hmode)
    exact ⟨_, congrArg Host.Outcome.next hend, rfl, rfl, rfl⟩
  · exact ⟨_, rfl, keepNRise_standby (s := s.at t) hmode hpend hfrom hcap⟩
  · exact ⟨_, rfl, keepWaitExpiry_ends (s := s.at t) hview hmode hdue hops hno hunit hkind htarget hpic hleft⟩
  · obtain ⟨hpower, hflash, hgens⟩ := (s.at t).clearLost_kept
    exact ⟨_, congrArg Host.Outcome.next (keepExit_begins (s := s.at t) hpend hmode hexit heff),
      congrArg (fun p : Power => { p with keepExit := some (s.at t).now }) hpower, hflash, hgens⟩
  · exact ⟨_, congrArg Host.Outcome.next (modeChange_resumes (s := s.at t) hpend hmode hexit hlast heff hbound), (s.at t).leaveKeep_power⟩
  · exact ⟨_, rfl, drainTimeout_empties (s := s.at t) hmode hnow hdue⟩
  · exact ⟨_, rfl, drainEnd_standby (s := s.at t) hmode hbound hempty hlast⟩
  · have hend : safeEntry reason cut (s.at t) = ((s.at t).receiving cut).enterSafe reason := by
      obtain rfl | rfl := hreason
      · unfold safeEntry
        exact if_pos rfl
      · unfold safeEntry
        exact if_pos rfl
    exact ⟨_, congrArg Host.Outcome.next hend, State.enterSafe_safe ((s.at t).receiving cut) reason hmode⟩

end Sys2Proof.Machine
end

section
/-! PROOFS. Reset sources, release, straps and BOOT (14 R586-R588, R591, R594, R597). -/
namespace Sys2Proof.Machine

/-! ### Reset sources and their release -/

section Resets
variable {s : State}

theorem State.tearFlash_idle (h : s.flash.ops = []) : s.tearFlash = s := by
  unfold State.tearFlash
  rw [h]
  exact ite_self s

/-- A device reset, outside RESET and with an idle flash. -/
structure ResetLeaves (s u : State) (cause : BitVec 9) : Prop where
  mode : u.power.mode = .reset
  cause : u.power.rstCause = (s.power.rstCause &&& 0x100#9) ||| cause
  mem : u.flash.mem = s.flash.mem
  keyHash : u.flash.keyHash = s.flash.keyHash
  fuseRb : u.flash.fuseRb = s.flash.fuseRb
  hostMem : u.hostMem = s.hostMem
  hosts : u.hosts = []
  objs : u.objs = {}
  gens : u.gens = {}
  net : u.net = {}
  media : u.media = {}
  thyme : u.thyme = {}
  cnt : u.cnt = []

theorem State.deviceReset_leaves (hmode : s.power.mode ≠ .reset) (hops : s.flash.ops = []) (cause : BitVec 9) (cold : Bool) (asserted : List Nat) :
    ResetLeaves s (s.deviceReset cause cold asserted) cause := by
  unfold State.deviceReset
  rw [State.tearFlash_idle hops]
  dsimp only
  rw [if_neg hmode]
  exact ⟨rfl, rfl, rfl, rfl, rfl, rfl, rfl, rfl, rfl, rfl, rfl, rfl, rfl⟩

theorem ResetLeaves.modPower {u : State} {cause : BitVec 9} (h : ResetLeaves s u cause) {f : Power → Power} (hmode : ∀ p, (f p).mode = p.mode)
    (hcause : ∀ p, (f p).rstCause = p.rstCause) : ResetLeaves s (u.modPower f) cause :=
  ⟨(hmode _).trans h.mode, (hcause _).trans h.cause, h.mem, h.keyHash, h.fuseRb, h.hostMem, h.hosts, h.objs, h.gens, h.net, h.media, h.thyme, h.cnt⟩

/-- Each source of a reset. -/
theorem resetSource_leaves {t : Nat} {c : Instr} {cause : BitVec 9} (hsource : (c, cause) ∈ [(Instr.pwrgoodLow t, 0x001#9), (Instr.resetNLow t, 0x008#9),
      (Instr.vcoreLow t 689, 0x002#9), (Instr.vsramLow t 779, 0x004#9), (Instr.walkoWatchdog t, 0x010#9), (Instr.thermalTrip t, 0x100#9)])
    (hmode : s.power.mode ≠ .reset) (htrip : 2 ≤ s.power.trip) (hops : s.flash.ops = []) : ∃ u, exec c s = .next u ∧ ResetLeaves s u cause := by
  have hall : ∀ cause cold asserted, ResetLeaves s ((s.at t).deviceReset cause cold asserted) cause := fun cause cold asserted => by
    obtain ⟨h1, h2, h3, h4, h5, h6, h7, h8, h9, h10, h11, h12, h13⟩ := State.deviceReset_leaves (s := s.at t) hmode hops cause cold asserted
    exact ⟨h1, h2, h3, h4, h5, h6, h7, h8, h9, h10, h11, h12, h13⟩
  simp only [List.mem_cons, Prod.mk.injEq, List.not_mem_nil, or_false] at hsource
  obtain ⟨rfl, rfl⟩ | ⟨rfl, rfl⟩ | ⟨rfl, rfl⟩ | ⟨rfl, rfl⟩ | ⟨rfl, rfl⟩ | ⟨rfl, rfl⟩ := hsource
  · exact ⟨_, rfl, (hall ..).modPower (fun _ => rfl) (fun _ => rfl)⟩
  · exact ⟨_, rfl, hall ..⟩
  · exact ⟨_, rfl, hall ..⟩
  · exact ⟨_, rfl, hall ..⟩
  · exact ⟨_, congrArg Host.Outcome.next (if_neg hmode), hall ..⟩
  · exact ⟨_, congrArg Host.Outcome.next (if_neg (Nat.not_lt.mpr htrip)), (hall ..).modPower (fun _ => rfl) (fun _ => rfl)⟩

/-- A port resets the bridge. -/
theorem pwrResetWrite_resets {p value : Nat} (hbar : s.barOpen p = true) (howner : s.isOwner p = true) (hmode : s.power.mode ∉ [Mode.reset, .boot])
    (hkey : value / 65536 = 0xB007) (hodd : value % 2 = 1) :
    pwrResetWrite p value s = s.deviceReset (0x020#9 ||| BitVec.ofNat 9 (p % 4 * 64)) false [] := by
  have hsmall : value % 2 ^ 32 = value := Nat.mod_eq_of_lt (by omega)
  unfold pwrResetWrite State.softReset
  rw [if_pos ⟨hbar, howner⟩, hsmall, if_neg (by simp at hmode; simp [hmode, hkey, hodd])]

theorem pwrReset_leaves {p : Nat} (hp : p < 4) (hmode : s.power.mode ∉ [Mode.reset, .boot]) (hops : s.flash.ops = []) {u : State}
    (hu : u = s.deviceReset (0x020#9 ||| BitVec.ofNat 9 (p % 4 * 64)) false []) : u.power.mode = .reset ∧
      u.power.rstCause = (s.power.rstCause &&& 0x100#9) ||| 0x020#9 ||| BitVec.ofNat 9 (64 * p) ∧ u.flash.mem = s.flash.mem ∧ u.flash.cfg = s.flash.cfg := by
  have hleave := State.deviceReset_leaves (s := s) (by simp at hmode; exact hmode.1) hops (0x020#9 ||| BitVec.ofNat 9 (p % 4 * 64)) false []
  have hcfg : (s.deviceReset (0x020#9 ||| BitVec.ofNat 9 (p % 4 * 64)) false []).flash.cfg = s.flash.cfg := by
    unfold State.deviceReset
    rw [State.tearFlash_idle hops]
    rfl
  rw [Nat.mod_eq_of_lt hp, Nat.mul_comm p 64] at hleave hu hcfg
  subst hu
  exact ⟨hleave.mode, hleave.cause.trans (BitVec.or_assoc ..).symm, hleave.mem, hcfg⟩

theorem strapSample_samples {r addr : Nat} {refsel svc : Bool} (hrel : s.power.releaseAt = some r) (hmode : s.power.mode = .reset)
    (hstrap : s.power.strapped = false) (hdue : r + 5000 * us ≤ s.now) :
    strapSample refsel svc addr s = s.modPower (fun p => { p with strapped := true, refsel, svcBoot := svc, smbAddr := addr % 4 }) := by
  unfold strapSample
  rw [hrel]
  exact if_pos ⟨hmode, hstrap, hdue⟩

end Resets
/-! ### BOOT -/

section Boot
variable {s t u : State}

/-- What BOOT does beside the mode and the clocks. -/
def BootFrame (s t : State) : Prop := t = { s with
  dram := t.dram, free := t.free, flash := t.flash, gens := t.gens, cnt := t.cnt, router := t.router, hosts := t.hosts, hostMem := t.hostMem }

theorem BootFrame.refl (s : State) : BootFrame s s := rfl
theorem BootFrame.trans (a : BootFrame s t) (b : BootFrame t u) : BootFrame s u := by
  unfold BootFrame at *
  rw [b, a]
theorem BootFrame.ite {c : Prop} [Decidable c] (a : BootFrame s t) (b : BootFrame s u) : BootFrame s (if c then t else u) := by
  split
  · exact a
  · exact b
theorem BootFrame.forEach {α : Type} {f : α → State → State} (h : ∀ a s, BootFrame s (f a s)) : ∀ (l : List α) (s : State), BootFrame s (forEach l f s)
  | [], s => BootFrame.refl s
  | a :: l, s => (h a s).trans (BootFrame.forEach h l (f a s))
theorem HostOnly.bootFrame (a : HostOnly s t) : BootFrame s t := by
  unfold BootFrame
  rw [a]
theorem BootFrame.modDram (s : State) (f : Dram → Dram) : BootFrame s (s.modDram f) := rfl
theorem BootFrame.modRank (s : State) (k : Nat) (f : Rank → Rank) : BootFrame s (s.modRank k f) := rfl
theorem BootFrame.modFlash (s : State) (f : Flash → Flash) : BootFrame s (s.modFlash f) := rfl
theorem BootFrame.modGens (s : State) (f : Gens → Gens) : BootFrame s (s.modGens f) := rfl
theorem BootFrame.event (s : State) (src payload who : Nat) : BootFrame s (s.event src payload who) := (s.event_hostOnly src payload who).bootFrame
theorem BootFrame.bump (s : State) (k : Nat) : BootFrame s (s.bump k) := (HostOnly.bump s k).bootFrame

/-- A frame stands over a fold that carries something beside the state. -/
theorem BootFrame.foldl {α β : Type} {f : State × β → α → State × β} (h : ∀ a x, BootFrame a.1 (f a x).1) :
    ∀ (l : List α) (a : State × β), BootFrame a.1 (l.foldl f a).1
  | [], a => BootFrame.refl a.1
  | x :: l, a => (h a x).trans (BootFrame.foldl h l (f a x))

theorem State.putTable_bootFrame (s : State) (slots : List Nat) : BootFrame s (s.putTable slots) := by
  unfold State.putTable
  split
  · exact BootFrame.refl s
  · exact (BootFrame.modFlash s _).trans (BootFrame.bump _ _)

theorem State.tableFailed_bootFrame (s : State) : BootFrame s s.tableFailed :=
  ((BootFrame.bump s _).trans (BootFrame.bump _ _)).trans (BootFrame.event ..)

theorem State.trainRank_bootFrame (s : State) (table : Option Bytes) (d : DimmInfo) (q : Nat) : BootFrame s (s.trainRank table d q).1 := by
  unfold State.trainRank
  extract_lets k slot rec_ match_ outcome gib f
  split
  · exact BootFrame.modRank s k _
  · split
    · dsimp only
      refine BootFrame.trans ?_ (BootFrame.event ..)
      exact BootFrame.modRank s k _
    · rfl

theorem State.formSet_bootFrame (s : State) (k : Nat) : BootFrame s (s.formSet k) := by
  unfold State.formSet
  extract_lets cand
  clear_value cand
  split
  · exact BootFrame.refl s
  · next first rest _ =>
    extract_lets gib members s1
    have h1 : BootFrame s s1 := BootFrame.forEach (fun r s => BootFrame.ite (BootFrame.modRank s r _) (BootFrame.modRank s r _)) _ s
    exact h1.trans (BootFrame.modDram s1 _)

theorem State.bootDram_bootFrame (s : State) (facts : BootFacts) : BootFrame s (s.bootDram facts) := by
  unfold State.bootDram
  extract_lets all usable0 mr usable table cap rate0 rate spare s1 s2
  have h1 : BootFrame s s1 := BootFrame.modDram s _
  have h2 : BootFrame s1 s2 := BootFrame.forEach (fun d s => BootFrame.forEach (fun q s => BootFrame.modRank s _ _) _ s) _ s1
  split
  next s3 changed htrained =>
  have h3 : BootFrame s2 s3 := by
    have hdimm : ∀ (acc : State × List Nat) (d : DimmInfo), BootFrame acc.1 ((List.range d.ranks).foldl (fun (acc : State × List Nat) q =>
        let (s, c) := acc.1.trainRank table d q
        (s, if c then acc.2 ++ [2 * d.ch + d.slot] else acc.2)) acc).1 := fun acc d =>
      BootFrame.foldl (β := List Nat) (fun acc q => State.trainRank_bootFrame acc.1 table d q) _ acc
    have htrain := BootFrame.foldl hdimm usable (s2, [])
    rw [show s3 = _ from (congrArg Prod.fst htrained).symm]
    exact htrain
  extract_lets s4 s5 s6
  have h4 : BootFrame s3 s4 := BootFrame.forEach (fun k s => BootFrame.ite (BootFrame.modRank s k _) (BootFrame.refl s)) _ s3
  have h5 : BootFrame s4 s5 := BootFrame.forEach (fun k s => State.formSet_bootFrame s k) _ s4
  have h6 : BootFrame s5 s6 := BootFrame.ite (BootFrame.refl s5) (BootFrame.ite (State.putTable_bootFrame s5 _) (State.tableFailed_bootFrame s5))
  exact (((((h1.trans h2).trans h3).trans h4).trans h5).trans h6).trans (BootFrame.modDram s6 _)

theorem State.bootSlot_bootFrame (s : State) : BootFrame s s.bootSlot := by
  unfold State.bootSlot
  extract_lets found rec_ valid gens high tack
  split
  next first reason0 _ =>
  extract_lets fails reason slot s1
  have h1 : BootFrame s s1 := BootFrame.modFlash s _
  clear_value slot s1
  split
  · exact h1.trans (BootFrame.modGens s1 _)
  · extract_lets other old
    exact h1.trans (((BootFrame.modFlash s1 _).trans (BootFrame.bump _ _)).trans (BootFrame.modGens _ _))

theorem State.tbVal_start {z : State} {n : Nat} (hn : n < 4) (htbs : s.tbs = (z.clocksStart).tbs) (hnow : s.now = z.now) : s.tbVal n = 0 := by
  have htb : s.tb n = { lookD z.tbs n {} with val := 0, at_ := z.now } := by
    unfold State.tb
    rw [htbs]
    unfold State.clocksStart
    obtain rfl | rfl | rfl | rfl : n = 0 ∨ n = 1 ∨ n = 2 ∨ n = 3 := by omega
    all_goals simp [lookD_put_ne]
  unfold State.tbVal
  dsimp only
  rw [htb, hnow]
  simp

/-- The clocks start, then BOOT reads what it finds. -/
theorem bootStart_begins {r : Nat} (facts : BootFacts) (hrel : s.power.releaseAt = some r) (hmode : s.power.mode = .reset)
    (hstrap : s.power.strapped = true) (hdue : r + 10000 * us ≤ s.now) : (bootStart facts s).power.mode = .boot ∧ (bootStart facts s).power.prev = .reset ∧
      (bootStart facts s).tick = 0 ∧ (bootStart facts s).tickAt = s.now ∧ ∀ n < 4, (bootStart facts s).tbVal n = 0 := by
  unfold bootStart
  rw [hrel]
  dsimp -zeta only
  rw [if_pos ⟨hmode, hstrap, hdue⟩]
  extract_lets s1 s2 s3
  have h2 : s2.power.mode = .boot ∧ s2.power.prev = .reset ∧ s2.tick = 0 ∧ s2.tickAt = s.now ∧ s2.now = s.now ∧ s2.tbs = s.clocksStart.tbs :=
    ⟨rfl, rfl, rfl, rfl, rfl, rfl⟩
  have h3 : BootFrame s2 s3 := State.bootDram_bootFrame s2 facts
  have hend : BootFrame s2 (if s2.flash.stageErr ≠ 0 then s2 else s3.bootSlot) :=
    BootFrame.ite (BootFrame.refl s2) (h3.trans (State.bootSlot_bootFrame s3))
  clear_value s2
  obtain ⟨hboot, hprev, htick, hat, hnow, htbs⟩ := h2
  generalize (if s2.flash.stageErr ≠ 0 then s2 else s3.bootSlot) = u at hend
  have htbs' : u.tbs = s.clocksStart.tbs := by rw [hend]; exact htbs
  have hnow' : u.now = s.now := by rw [hend]; exact hnow
  refine ⟨?_, ?_, ?_, ?_, fun n hn => State.tbVal_start hn htbs' hnow'⟩
  all_goals rw [hend]
  · exact hboot
  · exact hprev
  · exact htick
  · exact hat

/-- The power state and the memory stand. -/
structure KeepsSupply (s t : State) : Prop where
  power : t.power = s.power
  dram : t.dram = s.dram

theorem KeepsSupply.refl (s : State) : KeepsSupply s s := ⟨rfl, rfl⟩
theorem KeepsSupply.trans (a : KeepsSupply s t) (b : KeepsSupply t u) : KeepsSupply s u := ⟨b.power.trans a.power, b.dram.trans a.dram⟩
theorem KeepsSupply.ite {c : Prop} [Decidable c] (a : KeepsSupply s t) (b : KeepsSupply s u) : KeepsSupply s (if c then t else u) := by
  split
  · exact a
  · exact b
theorem KeepsSupply.forEach {α : Type} {f : α → State → State} (h : ∀ a s, KeepsSupply s (f a s)) : ∀ (l : List α) (s : State), KeepsSupply s (forEach l f s)
  | [], s => KeepsSupply.refl s
  | a :: l, s => (h a s).trans (KeepsSupply.forEach h l (f a s))
theorem HostOnly.keepsSupply (a : HostOnly s t) : KeepsSupply s t := ⟨a.power, a.dram⟩
theorem KeepsSupply.event (s : State) (src payload who : Nat) : KeepsSupply s (s.event src payload who) := (s.event_hostOnly src payload who).keepsSupply
theorem KeepsSupply.modTb (s : State) (n : Nat) (f : TimeBase → TimeBase) : KeepsSupply s (s.modTb n f) := ⟨rfl, rfl⟩
theorem KeepsSupply.tbSettle (s : State) (n : Nat) : KeepsSupply s (s.tbSettle n) := KeepsSupply.modTb s n _
theorem KeepsSupply.modLport (s : State) (l : Nat) (f : LPort → LPort) : KeepsSupply s (s.modLport l f) := ⟨rfl, rfl⟩
theorem KeepsSupply.modGens (s : State) (f : Gens → Gens) : KeepsSupply s (s.modGens f) := ⟨rfl, rfl⟩
theorem KeepsSupply.modFlash (s : State) (f : Flash → Flash) : KeepsSupply s (s.modFlash f) := ⟨rfl, rfl⟩
theorem KeepsSupply.modNet (s : State) (f : Net → Net) : KeepsSupply s (s.modNet f) := ⟨rfl, rfl⟩

theorem State.tbOnReference_keepsSupply (s : State) : KeepsSupply s s.tbOnReference :=
  KeepsSupply.forEach (fun n s => (KeepsSupply.tbSettle s n).trans (KeepsSupply.modTb _ n _)) _ s

theorem State.tbFallback_keepsSupply (s : State) : KeepsSupply s s.tbFallback :=
  KeepsSupply.trans (t := (s.draw 100001).2) ⟨rfl, rfl⟩ (KeepsSupply.forEach (fun n s => (KeepsSupply.tbSettle s n).trans (KeepsSupply.modTb _ n _)) _ _)

theorem State.tbOnReference_gens (s : State) : s.tbOnReference.gens = s.gens := by
  refine forEach_gens (fun n s => ?_) _ s
  rfl

theorem State.tbFallback_gens (s : State) : s.tbFallback.gens = s.gens := by
  refine (forEach_gens (fun n s => ?_) _ (s.draw 100001).2).trans rfl
  rfl

theorem State.tbGo_keepsSupply (s : State) (n : Nat) (x : TbState) : KeepsSupply s (s.tbGo n x) := by
  unfold State.tbGo
  extract_lets old s1
  have h1 : KeepsSupply s s1 := KeepsSupply.modTb s n _
  exact KeepsSupply.ite (KeepsSupply.refl s) (h1.trans (((HostOnly.bump s1 _).keepsSupply).trans (KeepsSupply.event ..)))

/-- The settings of the time bases at the end of BOOT. -/
theorem State.tbSwitch_keepsSupply (s : State) (old : Option Tack) : KeepsSupply s (s.tbSwitch old false) := by
  refine KeepsSupply.forEach (fun n s => ?_) [0, 1, 2, 3] s
  extract_lets s1 s2 lim
  have h1 : s1 = s := if_neg Bool.false_ne_true
  have hrestart : KeepsSupply s1 (s1.tbRestart n) := by
    unfold State.tbRestart
    extract_lets role s3
    have h3 : KeepsSupply s1 s3 := (KeepsSupply.tbSettle s1 n).trans (KeepsSupply.modTb _ n _)
    exact h3.trans (State.tbGo_keepsSupply ..)
  have h2 : KeepsSupply s1 s2 := KeepsSupply.ite (KeepsSupply.refl s1) hrestart
  rw [h1] at h2
  exact h2.trans ((KeepsSupply.tbSettle s2 n).trans (KeepsSupply.modTb _ n _))

theorem State.becomeKept_keepsSupply (s : State) : KeepsSupply s s.becomeKept := by
  unfold State.becomeKept
  extract_lets boot first s1 s2 s3
  have h1 : KeepsSupply s s1 := (KeepsSupply.modGens s _).trans (KeepsSupply.event ..)
  have h2 : KeepsSupply s1 s2 := KeepsSupply.ite (KeepsSupply.ite (KeepsSupply.refl s1) (KeepsSupply.modFlash s1 _)) (KeepsSupply.refl s1)
  have h3 : KeepsSupply s2 s3 := KeepsSupply.ite (KeepsSupply.modFlash s2 _) (KeepsSupply.refl s2)
  exact ((h1.trans h2).trans h3).trans (KeepsSupply.ite (KeepsSupply.ite (KeepsSupply.refl s3) (KeepsSupply.modFlash s3 _)) (KeepsSupply.refl s3))

theorem State.startProbation_keepsSupply (s : State) : KeepsSupply s s.startProbation := by
  unfold State.startProbation
  extract_lets s1
  have h1 : KeepsSupply s s1 := KeepsSupply.modGens s _
  exact KeepsSupply.ite (h1.trans (State.becomeKept_keepsSupply s1)) h1

/-- The chosen generation goes into force; without one there is none. -/
theorem State.bootForce_keepsSupply (s : State) : KeepsSupply s s.bootForce ∧ (s.gens.chosen = none → s.bootForce.gens.cur = none) := by
  unfold State.bootForce
  extract_lets s1 c s2 s3 s4
  have h1 : KeepsSupply s s1 := KeepsSupply.modGens s _
  have h2 : KeepsSupply s1 s2 := KeepsSupply.modNet s1 _
  have h3 : KeepsSupply s2 s3 := State.tbSwitch_keepsSupply s2 none
  have hport : ∀ (l : Nat) (s : State), KeepsSupply s (match s.gclOf c l with
      | some g => s.modLport l (fun p => { p with gclNext := some g })
      | none => s) := fun l s => by
    split
    · exact KeepsSupply.modLport s l _
    · exact KeepsSupply.refl s
  have h4 : KeepsSupply s3 s4 := KeepsSupply.forEach hport _ s3
  have hports : s4.gens = s3.gens := forEach_gens (fun l s => by split <;> rfl) _ s3
  refine ⟨(((h1.trans h2).trans h3).trans h4).trans (KeepsSupply.ite (State.startProbation_keepsSupply s4) (KeepsSupply.refl s4)), fun hnone => ?_⟩
  have hc : c = none := hnone
  rw [if_neg (by rw [hc]; simp), hports, State.tbSwitch_gens]
  exact hnone

theorem State.setMode_booted (s : State) (m : Mode) : (s.setMode m).power.booted = s.power.booted ∧ (s.setMode m).power.refOk = s.power.refOk := by
  rw [State.setMode_power]
  exact ⟨rfl, rfl⟩

theorem State.portsSetup_power (s : State) : s.portsSetup.power = s.power := rfl

/-- The end of BOOT. -/
theorem bootEnd_ends {failed : List (Nat × Nat)} {refOk : Bool} (hmode : s.power.mode = .boot) (hstage : s.flash.stageErr = 0) :
    (bootEnd failed refOk s).power.booted = true ∧ (bootEnd failed refOk s).power.refOk = refOk ∧ (bootEnd failed refOk s).power.prev = .boot ∧
      (s.power.svcBoot = true ∨ s.capGib = 0 → (bootEnd failed refOk s).power.mode = .service) ∧
      (s.power.svcBoot = false → s.capGib ≠ 0 → s.gens.chosen = none → (bootEnd failed refOk s).power.mode = .standby) := by
  unfold bootEnd
  rw [if_neg (by simp [hmode, hstage])]
  extract_lets s1 s2 s3 s4 need s5 s6 s7
  have h1 : s1.power.booted = true ∧ s1.power.refOk = refOk ∧ s1.power.mode = .boot := ⟨rfl, rfl, hmode⟩
  have h2 : KeepsSupply s1 s2 := KeepsSupply.ite (State.tbOnReference_keepsSupply s1) (State.tbFallback_keepsSupply s1)
  have h3 : HostOnly s2 s3 := by
    refine HostOnly.forEach _ (fun y s => ?_) _ s2
    split
    · exact HostOnly.refl s
    · exact s.event_hostOnly ..
  have h0 : s1.dram = s.dram ∧ s1.power.svcBoot = s.power.svcBoot := ⟨rfl, rfl⟩
  have hchosen : s3.gens = s.gens := by
    refine h3.gens.trans ?_
    unfold s2
    split
    · exact State.tbOnReference_gens s1
    · exact State.tbFallback_gens s1
  clear_value s1 s2 s3
  have hforce : KeepsSupply s3 s4 ∧ (s3.gens.chosen = none → s4.gens.cur = none) := State.bootForce_keepsSupply s3
  have h5 : HostOnly s4 s5 := by
    unfold s5
    split
    · exact s4.event_hostOnly ..
    · exact HostOnly.refl s4
  have h6 : HostOnly s5 s6 := by
    unfold s6
    split
    · exact s5.event_hostOnly ..
    · exact HostOnly.refl s5
  have hsaid : HostOnly s4 s7 := (h5.trans h6).trans (s6.event_hostOnly ..)
  have h7 : KeepsSupply s1 s7 := ((h2.trans h3.keepsSupply).trans hforce.1).trans hsaid.keepsSupply
  have hcap : s7.capGib = s.capGib := by
    unfold State.capGib
    rw [h7.dram, h0.1]
  have hsvc : s7.power.svcBoot = s.power.svcBoot := (congrArg Power.svcBoot h7.power).trans h0.2
  clear_value s4 s5 s6 s7
  obtain ⟨hnew, hprev, -, -⟩ := State.setMode_keeps (KeepsPower.refl (s7.setMode s7.bootMode))
  obtain ⟨hbooted, href⟩ := s7.setMode_booted s7.bootMode
  rw [State.portsSetup_power, hnew, hprev, hbooted, href, h7.power]
  refine ⟨h1.1, h1.2.1, h1.2.2, fun hservice => ?_, fun hno hmem hgen => ?_⟩
  · exact if_pos (by rw [hsvc, hcap]; tauto)
  · have hcur : s7.gens.cur = none := by
      rw [hsaid.gens]
      exact hforce.2 (by rw [hchosen]; exact hgen)
    unfold State.bootMode
    rw [if_neg (by simp [hsvc, hcap, hcur, hno, hmem]), if_pos (Or.inl (by rw [hcur]; rfl))]

end Boot
/-- Settles O44: a reset keeps its cause beside TRIP_SEEN, and what BOOT does beside its mode and the clocks is framed once. -/
theorem resetsAndBoot : Obligations.ResetsAndBoot := by
  unfold Obligations.ResetsAndBoot
  intro t s z rfl
  refine ⟨fun c cause hsource hmode htrip hops => ?_, fun p value hbar howner hp hmode hkey hodd hops => ?_, fun p hbar => ?_,
    fun hmode hrel hheld => ?_, fun r refsel svc addr hrel hmode hstrap hdue => ?_, fun r facts hrel hmode hstrap hdue => ?_,
    fun failed refOk hmode hstage => ?_⟩
  · obtain ⟨u, hu, h1, h2, h3, h4, h5, h6, h7, h8, h9, h10, h11, h12, h13⟩ := resetSource_leaves hsource hmode htrip hops
    exact ⟨u, hu, h1, h2, h3, h4, h5, h6, h7, h8, h9, h10, h11, h12, h13⟩
  · exact ⟨_, congrArg Host.Outcome.next (pwrResetWrite_resets (s := s.at t) hbar howner hmode hkey hodd), pwrReset_leaves (s := s.at t) hp hmode hops rfl⟩
  · exact ⟨_, congrArg Host.Outcome.next (if_pos hbar), rfl, rfl⟩
  · exact congrArg Host.Outcome.next (if_neg (by simpa [hmode, hrel] using hheld))
  · exact congrArg Host.Outcome.next (strapSample_samples (s := s.at t) hrel hmode hstrap hdue)
  · exact ⟨_, rfl, bootStart_begins (s := s.at t) facts hrel hmode hstrap hdue⟩
  · exact ⟨_, rfl, bootEnd_ends (s := s.at t) hmode hstage⟩

end Sys2Proof.Machine
end

section
/-! PROOFS. Supply dips, temperatures and throttling (14 R586, R591-R594). -/
namespace Sys2Proof.Machine

/-! ### Supplies (R591, R592) -/

section Supplies
variable {s : State} {rail : Nat}

/-- A rail that dips begins a hold, or prolongs one. -/
theorem dipHoldStart_holds {mv : Nat} (hmode : s.power.mode ≠ .reset) (hlow : (rail = 0 ∧ mv < s.fld 0x0F 4 2) ∨ (rail = 1 ∧ mv < s.fld 0x0F 6 2)) :
    dipHoldStart rail mv s = s.modPower (fun p => { p.reading rail mv with
      vcoreBelow := p.vcoreBelow || rail == 0, vsramBelow := p.vsramBelow || rail == 1
      vcoreCrossed := p.vcoreCrossed || rail == 0, vsramCrossed := p.vsramCrossed || rail == 1
      lowMv := min p.lowMv mv, hold := some (p.hold.getD s.now), returnAt := none }) := by
  unfold dipHoldStart
  extract_lets warn
  obtain ⟨rfl, hmv⟩ | ⟨rfl, hmv⟩ := hlow
  · exact if_neg (by rintro (h | h | h); exacts [hmode h, absurd h (by decide), absurd hmv (Nat.not_lt.mpr h)])
  · exact if_neg (by rintro (h | h | h); exacts [hmode h, absurd h (by decide), absurd hmv (Nat.not_lt.mpr h)])

/-- The last rail that comes back starts the end of the hold. -/
theorem returnLevelCrossing_last (hhold : s.power.hold.isSome = true) (hrail : (rail = 0 ∧ s.power.vcoreBelow = true ∧ s.power.vsramBelow = false) ∨
      (rail = 1 ∧ s.power.vcoreBelow = false ∧ s.power.vsramBelow = true)) :
    returnLevelCrossing rail s = ((s.draw 65536).2.modPower (fun p => { p.reading rail (s.draw 65536).1 with
      vcoreBelow := p.vcoreBelow && rail != 0, vsramBelow := p.vsramBelow && rail != 1 })).modPower (fun p => { p with returnAt := some s.now }) := by
  have hsome : s.power.hold ≠ none := by
    rw [← Option.isSome_iff_ne_none]
    exact hhold
  unfold returnLevelCrossing
  obtain ⟨rfl, hcore, hsram⟩ | ⟨rfl, hcore, hsram⟩ := hrail
  · rw [if_neg (by simp [hsome, hcore])]
    exact if_neg (by simp [hcore, hsram, State.modPower, Power.reading])
  · rw [if_neg (by simp [hsome, hsram])]
    exact if_neg (by simp [hcore, hsram, State.modPower, Power.reading])

theorem State.cntOf_addCnt_ne (s : State) {k j : Nat} (h : k ≠ j) (n : Nat) : (s.addCnt k n).cntOf j = s.cntOf j := by
  unfold State.addCnt
  split
  · rfl
  · exact lookD_put_ne _ h _ _

theorem quietCounter_holdTime : quietCounter (pwrCtr 48) := by
  refine ⟨fun h => absurd h (by decide), fun q h => ?_⟩
  unfold pwrCtr hpCtr ctr at h
  omega

/-- The hold ends, its time counted. -/
theorem dipHoldEnd_ends {a r : Nat} (hhold : s.power.hold = some a) (hret : s.power.returnAt = some r) (hdue : r + 50 * us ≤ s.now)
    (hcnt : s.cntOf (pwrCtr 48) < 2 ^ 64) : (dipHoldEnd s).power.hold = none ∧ (dipHoldEnd s).power.lowMv = 0xFFFF ∧
      (dipHoldEnd s).cntOf (pwrCtr 48) = (s.cntOf (pwrCtr 48) + (s.now - a) / 1000) % 2 ^ 64 := by
  unfold dipHoldEnd
  rw [hhold, hret]
  dsimp -zeta only
  rw [if_neg (Nat.not_lt.mpr hdue)]
  extract_lets p ns s1 s2
  have h1 : s1.cntOf (pwrCtr 48) = s.cntOf (pwrCtr 48) :=
    (State.cntOf_addCnt_ne _ (by decide) _).trans (State.cntOf_addCnt_ne _ (by decide) _)
  have h2 : s2.cntOf (pwrCtr 48) = (s.cntOf (pwrCtr 48) + ns) % 2 ^ 64 := by
    have h := State.cntOf_addCnt s1 (pwrCtr 48) ns (pwrCtr 48) (by rw [h1]; exact hcnt)
    rw [if_pos rfl, h1] at h
    exact h
  rw [(NetFrame.event ..).power, State.cntOf_event _ _ _ _ quietCounter_holdTime]
  exact ⟨rfl, rfl, h2⟩

end Supplies
/-! ### Temperature (R593, R594) -/

section Heat
variable {s : State}

theorem temperatureRead_counts (temps : List Int) (hmode : s.power.mode ≠ .reset) : (temperatureRead temps s).power.temps = temps.take 9 ∧
    (temperatureRead temps s).power.trip = (if 115 ≤ (temperatureRead temps s).power.tmax then s.power.trip + 1 else 0) ∧
    (temperatureRead temps s).power.crit = (if 110 ≤ (temperatureRead temps s).power.tmax then s.power.crit + 1 else 0) ∧
    (temperatureRead temps s).power.level = s.power.level ∧
    temperatureRead temps s = { s with power := (temperatureRead temps s).power, pins := (temperatureRead temps s).pins } := by
  unfold temperatureRead
  rw [if_neg hmode]
  extract_lets before s1 tm level want cool s2
  have h2 : s2.power.temps = temps.take 9 ∧ s2.power.trip = (if 115 ≤ s2.power.tmax then s.power.trip + 1 else 0) ∧
      s2.power.crit = (if 110 ≤ s2.power.tmax then s.power.crit + 1 else 0) ∧ s2.power.level = s.power.level ∧ s2 = { s with power := s2.power } :=
    ⟨rfl, rfl, rfl, rfl, rfl⟩
  obtain ⟨htemps, htrip, hcrit, hlevel, hframe⟩ := h2
  split
  · exact ⟨htemps, htrip, hcrit, hlevel, rfl⟩
  · exact ⟨htemps, htrip, hcrit, hlevel, rfl⟩

theorem throttleDecrease_falls {a : Nat} (hcool : s.power.coolSince = some a) (hlong : a + 400 < s.tick) (hlevel : 0 < s.power.level)
    (hnext : s.power.levelNext = none) : throttleDecrease s = s.modPower (fun p => { p with levelNext := some (p.level - 1), coolSince := none }) := by
  unfold throttleDecrease
  rw [hcool]
  exact if_pos ⟨hlong, hlevel, by rw [hnext]; rfl⟩

/-- A new throttle level at its boundary. -/
theorem throttleLevelChange_sets {l : Nat} (hnext : s.power.levelNext = some l) (hnow : s.now = s.tickAt) :
    (throttleLevelChange s).power.level = l ∧ (throttleLevelChange s).power.levelNext = none ∧
      (s.power.level = 0 → 0 < l → (throttleLevelChange s).pins.alert = true) ∧ (throttleLevelChange s).objs = s.objs := by
  unfold throttleLevelChange
  rw [hnext]
  dsimp -zeta only
  rw [if_pos hnow]
  extract_lets old run s1 s2
  have h2 : s2.power.level = l ∧ s2.power.levelNext = none ∧ (old = 0 → 0 < l → s2.pins.alert = true) ∧ s2.objs = s.objs := by
    unfold s2
    split
    · exact ⟨rfl, rfl, fun _ _ => rfl, rfl⟩
    · next hsame => exact ⟨rfl, rfl, fun h1 h2 => absurd ⟨h1, h2⟩ hsame, rfl⟩
  clear_value s2
  rw [State.event_frame]
  exact h2

end Heat
/-- Settles O45: each step has its equation. -/
theorem suppliesAndHeat : Obligations.SuppliesAndHeat := by
  unfold Obligations.SuppliesAndHeat
  intro t s z rfl
  refine ⟨fun rail mv hmode hlow => ⟨_, congrArg Host.Outcome.next (dipHoldStart_holds (s := s.at t) hmode hlow), ?_⟩,
    fun hhold hcore hsram => ⟨_, congrArg Host.Outcome.next (returnLevelCrossing_last (s := s.at t) hhold (.inl ⟨rfl, hcore, hsram⟩)), ?_⟩,
    fun hhold hcore hsram => ⟨_, congrArg Host.Outcome.next (returnLevelCrossing_last (s := s.at t) hhold (.inr ⟨rfl, hcore, hsram⟩)), ?_⟩,
    fun a r hhold hret hdue hcnt => ⟨_, rfl, dipHoldEnd_ends (s := s.at t) hhold hret hdue hcnt⟩,
    fun temps hmode => ⟨_, rfl, temperatureRead_counts (s := s.at t) temps hmode⟩,
    fun a hcool hlong hlevel hnext => congrArg Host.Outcome.next (throttleDecrease_falls (s := s.at t) hcool hlong hlevel hnext),
    fun l hnext hnow => ⟨_, rfl, throttleLevelChange_sets (s := s.at t) hnext hnow⟩, ⟨_, rfl, rfl, rfl⟩⟩
  · exact ⟨rfl, rfl, rfl, rfl⟩
  · exact ⟨Bool.and_false _, rfl, rfl⟩
  · exact ⟨Bool.and_false _, rfl⟩

end Sys2Proof.Machine
end
